-- ==== Sys2Proof/Word.lean ====
section
/-!
DEFINITION. The word types of the machine (R6, R10, R47, R241, R250): plain bit vectors.
-/
namespace Sys2Proof

/-- A scalar register, address or CSR (R340: registers hold 64-bit values). -/
abbrev Word := BitVec 64
/-- The smallest addressable unit (R143: a location is one byte). -/
abbrev Byte := BitVec 8
/-- An instruction word (R18). -/
abbrev Code := BitVec 32
/-- A tag word (R47). -/
abbrev Tag := BitVec 32
/-- The 128 data bytes of a line, byte `b` at bits `[8b+7:8b]` (R6: little-endian). -/
abbrev Line := BitVec 1024
/-- One bit per byte of a line (R127). -/
abbrev ByteMask := BitVec 128
/-- The bits of a vector row (R241). -/
abbrev RowBits := BitVec 8192
/-- A mask register (R250). -/
abbrev MaskBits := BitVec 32768

end Sys2Proof
end

