-- ==== Sys2Proof/Config.lean ====
section
/-!
DEFINITION. What the spec leaves open: opaque constants, of which nothing can be proved but their type. A free value is
one of them applied to State.freeCtr, which the step that takes it advances.
-/
namespace Sys2Proof.Config

/-- Free values (assumption 2): the value the spec leaves open at the n-th such point. -/
opaque freeWord : Nat → Word

/-- Free choices among finitely many, taken modulo their number (assumption 2). -/
opaque freePick : Nat → Nat

/-- The opaque handle of an intermediate segment of a virtual function, as the host sees it (R117, R404). -/
opaque segHandle : Nat → Nat → BitVec 32

/-- Ciphertext of the image that a tenant's eviction of a counter value wrote (R404). -/
opaque evictCipher : Nat → Nat → Nat

/-- The 16-byte AES-GMAC tag of a tenant's eviction over handle, eviction counter and ciphertext (R404). -/
opaque evictTag : Nat → Nat → Nat → Nat → BitVec 128

/-- The device's 8-byte identifier (R403, QUERY selector 0). -/
opaque deviceId : Word

/-- The host port (0–1, modulo 2) that a host address is reached through (R316, R319; assumption 81). -/
opaque hostPort : Nat → Nat

/-- The domain port (0–143, modulo 144) of the device that a member's identifier names (R321, R353). -/
opaque domainPort : Word → Nat

end Sys2Proof.Config
end

