-- ==== Sys2Proof/Syntax.lean ====
section
/-!
DEFINITION. The instructions and steps of the machine: one constructor per row of spec/opcode_table.json (a step that
is no instruction word, an event, carries what its environment decides), and the plain-data types those steps carry.
-/
namespace Sys2Proof

/-- What an access needs of its page (R107, R109). -/
inductive Access where
  /-- a load: RD -/
  | read
  /-- a store: WR -/
  | write
  /-- an atomic: RD and WR -/
  | atomic
  /-- an instruction fetch: EX -/
  | fetch
  deriving DecidableEq, Repr

/-- How the channel controller finds a stored line (R82, R83): what differs from the codeword that was stored. -/
structure ReadError where
  /-- bits of the data and of the tag word read wrong -/
  flip : Line := 0
  flipTag : BitVec 32 := 0
  /-- check symbols read wrong, 0–4 -/
  checks : Nat := 0
  /-- an error of four or more symbols forms a codeword (1), or a pattern that is corrected to another codeword (2) -/
  missed : Nat := 0
  /-- a write to the line has entered the controller since the read -/
  written : Bool := false
  deriving DecidableEq, Repr

/-- A read of a stored line as it completes (R83, R96, R410): the symbols in error; whether it serves an access to a NEAR page, in the
bank; and the virtual function and CORECOORD of the strand whose instruction or command it serves, none for a read of the
device's own. -/
structure StoredRead where
  err : ReadError := {}
  near : Bool := false
  issuer : Option (Nat × Nat) := none
  deriving DecidableEq, Repr

/-- A write on its way to its home (R91, R132): issuer, page line, data, byte mask and tag. -/
structure HomeWrite where
  vf : Nat
  core : Nat
  ctx : Nat
  /-- issued in P-mode: governs the chunk reserve (R94) -/
  priv : Bool
  va : Nat
  /-- intermediate segment number (R103) and page line 0–2,047 within it (R86) -/
  seg : Nat
  line : Nat
  data : Line
  mask : ByteMask
  tag : Tag
  typed : Bool
  /-- container width of the write's format, which the write carries (R432) -/
  width : Nat
  deriving DecidableEq, Repr

/-- A packed line: payload and reconstructed tag (R90). -/
structure PackedLine where
  data : Line
  tag : Tag
  m : Nat
  deriving DecidableEq, Repr

/-- A line that a link delivers, with its number among those of its peer (R321). -/
structure NumberedLine where
  seq : Nat
  line : PackedLine
  deriving DecidableEq, Repr

/-- A reference that a link delivers, with its number and the mirror slot it names (R321, R323). -/
structure NumberedRef where
  seq : Nat
  slot : Nat
  deriving DecidableEq, Repr

/-- A message of XSEND as a peer sends it, with the group's generation (R325, R332), or row credits coming back. -/
inductive PeerMsg where
  | rows (rank gen mtag sew vl : Nat) (rows : List (RowBits × Tag))
  | credit (rank n : Nat)
  deriving DecidableEq, Repr

/-- A peer's XRED header and rows (R329). -/
structure Contribution where
  rank : Nat
  seq : Nat
  gen : Nat
  vl : Nat
  rc : Nat
  sew : Nat
  op : Nat
  rows : List (RowBits × Tag)
  osc : Word
  dice : Word
  vtype : Word
  deriving DecidableEq, Repr

/-- What another member tells a group (R325, R327, R353). -/
inductive MemberMsg where
  | opened (rank order tmo : Nat) (members : List Word)
  /-- a spare has taken a rank: the donor's sequence number, the new generation, the group's terms and live set, and the
  donor's log by line, as the spare itself receives them; a line not listed is zero, with the scrubbed tag -/
  | spareJoined (rank seq gen order tmo logBase : Nat) (members : List Word) (live : List Nat) (log : List (Nat × (Line × Tag)))
  /-- a spare asks its donor for a rank (R327) -/
  | spareWanted (rank donor : Nat)
  /-- the Anchor of a rank reports that it was reset or stopped (R325) -/
  | failed (rank : Nat)
  deriving DecidableEq, Repr

/-- A host window of a tenant policy (Table 1 of R402). -/
structure Window where
  base : Word
  size : Word
  tagBase : Word
  shared : Bool
  deriving DecidableEq, Repr

/-- A tenant policy record (Table 1 of R402). -/
structure Policy where
  version : Nat
  /-- a reserved field is nonzero (the Anchor then refuses the policy) -/
  reservedSet : Bool
  maxScope : Bool
  hostOps : BitVec 16
  preempt : BitVec 4
  bwWeight : Nat
  demFmt : Word
  pgTmo : Nat
  reserve : Nat
  trapVec : Word
  ceil : BitVec 3
  windows : List Window
  deriving DecidableEq, Repr

/-- Forecasts of a sensor sweep for the logic region of a coil and the cache region above it, in 1/16 °C (R431). -/
structure CoilForecast where
  logic : BitVec 16 := 0
  cache : BitVec 16 := 0
  deriving DecidableEq, Repr

/-- A cache-die bank that is forecast less than 2 °C below its limit (R409), by the channel whose slice it holds: whether it lies above
the limit, its forecast rise, and what of the rise is attributed to each coil beneath and beside it. -/
structure BankForecast where
  chan : Nat
  hot : Bool
  rise : Nat
  shares : List (Nat × Nat)
  deriving DecidableEq, Repr

/-- A temperature sensor (R428): one of a hank, of an I/O die, or of an HBM4 stack. -/
inductive Sensor where
  | hank (h n : Nat)
  | ioDie (n : Nat)
  | stack (n : Nat)
  deriving DecidableEq, Repr

/-- A rail's voltage and current (R429). -/
structure RailSample where
  milliV : Nat := 0
  milliA : Nat := 0
  deriving DecidableEq, Repr

/-- What one sensor sweep reads and forecasts (R429, R431): sensors in thousandths of a degree, each of the 84 rails of Table 3 in the
table's order, and the peaks forecast for each of the 128 coils and of the 32 stacks. -/
structure SweepReport where
  sensors : List (Sensor × Nat) := []
  rails : Vector RailSample 84 := Vector.replicate 84 {}
  coils : Vector CoilForecast 128 := Vector.replicate 128 {}
  stackPeaks : Vector (BitVec 16) 32 := Vector.replicate 32 0
  banks : List BankForecast := []
  deriving DecidableEq, Repr

/-- The features of Table 1 of R316 that a host port may try to enable. -/
structure LinkFeatures where
  cxlIo : Bool
  cxlCache : Bool
  cxlMem : Bool
  flit68 : Bool
  latencyOpt : Bool
  sriov : Bool
  atsPri : Bool
  ide : Bool
  backInval : Bool
  /-- the peer has advertised Chroale capability (R319) -/
  chroale : Bool
  deriving DecidableEq, Repr

/-- An SPDM or TDISP message (R401). -/
inductive SpdmMsg where
  | authenticate (tenant : Nat) (key : Nat)
  | bindTdi (vf : Nat)
  | startTdi (vf : Nat)
  | stopTdi (vf : Nat)
  | keyIde (vf : Nat)
  deriving DecidableEq, Repr

/-- Where the eviction of a context goes: the host's handle, and the buffer of the dirty-page report with its size (R404, R405). -/
structure EvictTo where
  handle : Nat
  buf : Nat
  size : Nat
  deriving DecidableEq, Repr

/-- What RESTORE brings back: the host's handle, and of a segment its 32-bit handle (R404). -/
structure RestoreFrom where
  handle : Nat
  seg : Option Nat
  deriving DecidableEq, Repr

/-- An evicted image as the host holds it: ciphertext and 16-byte tag (R404). -/
structure SealedImage where
  cipher : Nat
  mac : BitVec 128
  deriving DecidableEq, Repr

/-- A capsule of the host, with the operands of its command (R403). -/
inductive Capsule where
  | createVf (tag vf part tenant : Nat) (pol : Policy) (sigOk : Bool)
  | assign (tag part : Nat) (coils chans : List Nat)
  | schedule (tag vf slice rec_ : Nat)
  | pause (tag vf buf size : Nat)
  | resume (tag vf : Nat)
  | evictContext (tag vf : Nat) (dest : EvictTo)
  | evictSegment (tag vf seg handle : Nat)
  | restore (tag vf : Nat) (from_ : RestoreFrom) (image : SealedImage)
  | resize (tag part : Nat) (coils chans : List Nat)
  | reset (tag part : Nat)
  | pageReplyGrant (tag vf reqid : Nat) (handles : List Nat)
  | pageReplyRefuse (tag vf reqid : Nat)
  | queryIdentifier (tag : Nat) (vf : Option Nat)
  | queryVfState (tag vf : Nat)
  | queryFreeChunks (tag : Nat) (vf : Option Nat) (part : Nat)
  | resetVf (tag vf : Nat)
  deriving DecidableEq, Repr

/-- One constructor per row of spec/opcode_table.json; fields are named as the
table names them (`t` the token field TK of R18). The transform sequencer rows stand first. -/
inductive Instr where
  /-- THALT (R231) -/
  | thalt
  /-- TLOOP_IMM (R231) -/
  | tloopImm (l : BitVec 2) (n : BitVec 23)
  /-- TLOOP_PARAM (R231) -/
  | tloopParam (l : BitVec 2) (k : BitVec 4)
  /-- TNEXT (R231) -/
  | tnext (l : BitVec 2) (o : BitVec 12)
  /-- TJMP (R231) -/
  | tjmp (o : BitVec 12)
  /-- TAGSET_IMM (R231) -/
  | tagsetImm (g : BitVec 2) (fsel : BitVec 3) (imm : BitVec 20)
  /-- TAGSET_PARAM (R231) -/
  | tagsetParam (g : BitVec 2) (fsel : BitVec 3) (k : BitVec 4)
  /-- TRD (R232) -/
  | trd (b : BitVec 3) (g : BitVec 2)
  /-- TWR (R232) -/
  | twr (b : BitVec 3) (g : BitVec 2)
  /-- TCVT (R233) -/
  | tcvt (d : BitVec 3) (src : BitVec 3) (f : BitVec 6) (r : BitVec 3) (x : BitVec 1) (p : BitVec 5)
  /-- TPACK (R234) -/
  | tpack (d : BitVec 3) (src : BitVec 3) (w : BitVec 3) (v : BitVec 3) (p : BitVec 5)
  /-- TUNPK (R234) -/
  | tunpk (d : BitVec 3) (src : BitVec 3) (w : BitVec 3) (v : BitVec 3) (p : BitVec 5)
  /-- TTRN (R235) -/
  | ttrn (w : BitVec 3)
  /-- TSCL (R236) -/
  | tscl (b : BitVec 3) (f : BitVec 6)
  /-- TBSC (R236) -/
  | tbsc (b : BitVec 3)
  /-- TSIG (R237) -/
  | tsig (r : BitVec 1)
  /-- TWT (R237) -/
  | twt (r : BitVec 1)
  /-- NOP (R35) -/
  | nop (t : BitVec 2)
  /-- ADD (R340) -/
  | add (d : BitVec 5) (a : BitVec 5) (b : BitVec 5) (u : BitVec 1) (m : BitVec 2) (t : BitVec 2)
  /-- SUB (R340) -/
  | sub (d : BitVec 5) (a : BitVec 5) (b : BitVec 5) (u : BitVec 1) (m : BitVec 2) (t : BitVec 2)
  /-- MUL (R340) -/
  | mul (d : BitVec 5) (a : BitVec 5) (b : BitVec 5) (u : BitVec 1) (m : BitVec 2) (t : BitVec 2)
  /-- MULH (R340) -/
  | mulh (d : BitVec 5) (a : BitVec 5) (b : BitVec 5) (u : BitVec 1) (t : BitVec 2)
  /-- DIV (R340) -/
  | div (d : BitVec 5) (a : BitVec 5) (b : BitVec 5) (u : BitVec 1) (t : BitVec 2)
  /-- REM (R340) -/
  | rem (d : BitVec 5) (a : BitVec 5) (b : BitVec 5) (u : BitVec 1) (t : BitVec 2)
  /-- AND (R340) -/
  | and (d : BitVec 5) (a : BitVec 5) (b : BitVec 5) (t : BitVec 2)
  /-- OR (R340) -/
  | or (d : BitVec 5) (a : BitVec 5) (b : BitVec 5) (t : BitVec 2)
  /-- XOR (R340) -/
  | xor (d : BitVec 5) (a : BitVec 5) (b : BitVec 5) (t : BitVec 2)
  /-- SHL (R340) -/
  | shl (d : BitVec 5) (a : BitVec 5) (b : BitVec 5) (t : BitVec 2)
  /-- SHR (R340) -/
  | shr (d : BitVec 5) (a : BitVec 5) (b : BitVec 5) (t : BitVec 2)
  /-- SRA (R340) -/
  | sra (d : BitVec 5) (a : BitVec 5) (b : BitVec 5) (t : BitVec 2)
  /-- MIN (R340) -/
  | min (d : BitVec 5) (a : BitVec 5) (b : BitVec 5) (u : BitVec 1) (t : BitVec 2)
  /-- MAX (R340) -/
  | max (d : BitVec 5) (a : BitVec 5) (b : BitVec 5) (u : BitVec 1) (t : BitVec 2)
  /-- SLT (R340) -/
  | slt (d : BitVec 5) (a : BitVec 5) (b : BitVec 5) (u : BitVec 1) (t : BitVec 2)
  /-- ADDI (R341) -/
  | addi (d : BitVec 5) (a : BitVec 5) (imm : BitVec 12) (t : BitVec 2)
  /-- ANDI (R341) -/
  | andi (d : BitVec 5) (a : BitVec 5) (imm : BitVec 12) (t : BitVec 2)
  /-- ORI (R341) -/
  | ori (d : BitVec 5) (a : BitVec 5) (imm : BitVec 12) (t : BitVec 2)
  /-- XORI (R341) -/
  | xori (d : BitVec 5) (a : BitVec 5) (imm : BitVec 12) (t : BitVec 2)
  /-- SHLI (R341) -/
  | shli (d : BitVec 5) (a : BitVec 5) (imm : BitVec 12) (t : BitVec 2)
  /-- SHRI (R341) -/
  | shri (d : BitVec 5) (a : BitVec 5) (imm : BitVec 12) (t : BitVec 2)
  /-- SRAI (R341) -/
  | srai (d : BitVec 5) (a : BitVec 5) (imm : BitVec 12) (t : BitVec 2)
  /-- SLTI (R341) -/
  | slti (d : BitVec 5) (a : BitVec 5) (imm : BitVec 12) (t : BitVec 2)
  /-- MOVHI (R341) -/
  | movhi (d : BitVec 5) (a : BitVec 5) (imm : BitVec 12) (t : BitVec 2)
  /-- LIMM (R31) -/
  | limm (imm : BitVec 24)
  /-- CLZ (R342) -/
  | clz (d : BitVec 5) (a : BitVec 5) (t : BitVec 2)
  /-- CTZ (R342) -/
  | ctz (d : BitVec 5) (a : BitVec 5) (t : BitVec 2)
  /-- POPC (R342) -/
  | popc (d : BitVec 5) (a : BitVec 5) (t : BitVec 2)
  /-- BFX (R342) -/
  | bfx (d : BitVec 5) (a : BitVec 5) (b : BitVec 5) (c : BitVec 5) (t : BitVec 2)
  /-- BFI (R342) -/
  | bfi (d : BitVec 5) (a : BitVec 5) (b : BitVec 5) (c : BitVec 5) (t : BitVec 2)
  /-- SEL (R342) -/
  | sel (d : BitVec 5) (a : BitVec 5) (b : BitVec 5) (c : BitVec 5) (t : BitVec 2)
  /-- SFADD (R343) -/
  | sfadd (d : BitVec 5) (a : BitVec 5) (b : BitVec 5) (f : BitVec 2) (m : BitVec 2) (t : BitVec 2)
  /-- SFSUB (R343) -/
  | sfsub (d : BitVec 5) (a : BitVec 5) (b : BitVec 5) (f : BitVec 2) (m : BitVec 2) (t : BitVec 2)
  /-- SFMUL (R343) -/
  | sfmul (d : BitVec 5) (a : BitVec 5) (b : BitVec 5) (f : BitVec 2) (m : BitVec 2) (t : BitVec 2)
  /-- SFDIV (R343) -/
  | sfdiv (d : BitVec 5) (a : BitVec 5) (b : BitVec 5) (f : BitVec 2) (m : BitVec 2) (t : BitVec 2)
  /-- SFMA (R343) -/
  | sfma (d : BitVec 5) (a : BitVec 5) (b : BitVec 5) (f : BitVec 2) (m : BitVec 2) (t : BitVec 2)
  /-- SFMIN (R343) -/
  | sfmin (d : BitVec 5) (a : BitVec 5) (b : BitVec 5) (f : BitVec 2) (t : BitVec 2)
  /-- SFMAX (R343) -/
  | sfmax (d : BitVec 5) (a : BitVec 5) (b : BitVec 5) (f : BitVec 2) (t : BitVec 2)
  /-- SFCMP (R343) -/
  | sfcmp (d : BitVec 5) (a : BitVec 5) (b : BitVec 5) (r : BitVec 2) (f : BitVec 2) (t : BitVec 2)
  /-- SFCVT (R344) -/
  | sfcvt (d : BitVec 5) (a : BitVec 5) (v : BitVec 5) (f : BitVec 2) (m : BitVec 2) (t : BitVec 2)
  /-- SFSQRT (R343) -/
  | sfsqrt (d : BitVec 5) (a : BitVec 5) (f : BitVec 2) (m : BitVec 2) (t : BitVec 2)
  /-- SFCLASS (R343) -/
  | sfclass (d : BitVec 5) (a : BitVec 5) (f : BitVec 2) (t : BitVec 2)
  /-- SEXT (R342) -/
  | sext (d : BitVec 5) (a : BitVec 5) (w : BitVec 2) (t : BitVec 2)
  /-- BEQ (R345) -/
  | beq (a : BitVec 5) (b : BitVec 5) (o : BitVec 8) (slot : BitVec 4) (t : BitVec 2)
  /-- BNE (R345) -/
  | bne (a : BitVec 5) (b : BitVec 5) (o : BitVec 8) (slot : BitVec 4) (t : BitVec 2)
  /-- BLT (R345) -/
  | blt (a : BitVec 5) (b : BitVec 5) (o : BitVec 8) (slot : BitVec 4) (t : BitVec 2)
  /-- BGE (R345) -/
  | bge (a : BitVec 5) (b : BitVec 5) (o : BitVec 8) (slot : BitVec 4) (t : BitVec 2)
  /-- JMP (R346) -/
  | jmp (o : BitVec 18) (slot : BitVec 4) (t : BitVec 2)
  /-- CALL (R346) -/
  | call (o : BitVec 18) (slot : BitVec 4) (t : BitVec 2)
  /-- JR (R347) -/
  | jr (d : BitVec 5) (a : BitVec 5) (t : BitVec 2)
  /-- BNZD (R345) -/
  | bnzd (a : BitVec 5) (o : BitVec 8) (slot : BitVec 4) (t : BitVec 2)
  /-- BRK (R348) -/
  | brk (imm : BitVec 12) (t : BitVec 2)
  /-- TRAP (R348) -/
  | trap (imm : BitVec 12) (t : BitVec 2)
  /-- RETT (R383) -/
  | rett (t : BitVec 2)
  /-- EXIT (R350) -/
  | exit (t : BitVec 2)
  /-- YIELD (R351) -/
  | yield (t : BitVec 2)
  /-- PARK (R352) -/
  | park (d : BitVec 5) (t : BitVec 2)
  /-- WAKE (R352) -/
  | wake (d : BitVec 5) (a : BitVec 5) (t : BitVec 2)
  /-- ANCALL_BUFDEF (R353) -/
  | ancallBufdef (d : BitVec 5) (a : BitVec 5) (t : BitVec 2)
  /-- ANCALL_BUFDROP (R353) -/
  | ancallBufdrop (d : BitVec 5) (a : BitVec 5) (t : BitVec 2)
  /-- GRPOPEN (R353) -/
  | grpopen (d : BitVec 5) (a : BitVec 5) (t : BitVec 2)
  /-- GRPLEAVE (R353) -/
  | grpleave (d : BitVec 5) (a : BitVec 5) (t : BitVec 2)
  /-- GRPSPARE (R327) -/
  | grpspare (d : BitVec 5) (a : BitVec 5) (t : BitVec 2)
  /-- ANCALL naming any other service (R353, Table 7: status 1); a word of ANCALL that no row lists -/
  | ancallOther (d : BitVec 5) (a : BitVec 5) (imm : BitVec 12) (t : BitVec 2)
  /-- SLD_8 (R189) -/
  | sld8 (d : BitVec 5) (a : BitVec 5) (imm : BitVec 12) (t : BitVec 2)
  /-- SLD_16 (R189) -/
  | sld16 (d : BitVec 5) (a : BitVec 5) (imm : BitVec 12) (t : BitVec 2)
  /-- SLD_32 (R189) -/
  | sld32 (d : BitVec 5) (a : BitVec 5) (imm : BitVec 12) (t : BitVec 2)
  /-- SLD_64 (R189) -/
  | sld64 (d : BitVec 5) (a : BitVec 5) (imm : BitVec 12) (t : BitVec 2)
  /-- SST_8 (R189) -/
  | sst8 (d : BitVec 5) (a : BitVec 5) (imm : BitVec 12) (t : BitVec 2)
  /-- SST_16 (R189) -/
  | sst16 (d : BitVec 5) (a : BitVec 5) (imm : BitVec 12) (t : BitVec 2)
  /-- SST_32 (R189) -/
  | sst32 (d : BitVec 5) (a : BitVec 5) (imm : BitVec 12) (t : BitVec 2)
  /-- SST_64 (R189) -/
  | sst64 (d : BitVec 5) (a : BitVec 5) (imm : BitVec 12) (t : BitVec 2)
  /-- SAMO_32 (R190) -/
  | samo32 (d : BitVec 5) (a : BitVec 5) (b : BitVec 5) (o : BitVec 5) (t : BitVec 2)
  /-- SAMO_64 (R190) -/
  | samo64 (d : BitVec 5) (a : BitVec 5) (b : BitVec 5) (o : BitVec 5) (t : BitVec 2)
  /-- SCAS_32 (R191) -/
  | scas32 (d : BitVec 5) (a : BitVec 5) (b : BitVec 5) (c : BitVec 5) (t : BitVec 2)
  /-- SCAS_64 (R191) -/
  | scas64 (d : BitVec 5) (a : BitVec 5) (b : BitVec 5) (c : BitVec 5) (t : BitVec 2)
  /-- CSRR (R354) -/
  | csrr (d : BitVec 5) (imm : BitVec 12) (t : BitVec 2)
  /-- CSRW (R354) -/
  | csrw (a : BitVec 5) (imm : BitVec 12) (t : BitVec 2)
  /-- CSRX (R354) -/
  | csrx (d : BitVec 5) (a : BitVec 5) (imm : BitVec 12) (t : BitVec 2)
  /-- JRNLBASE_WRITE (R206) -/
  | jrnlbaseWrite (v : Word)
  /-- QCFG_WRITE (R252) -/
  | qcfgWrite (v : Word)
  /-- TKSEL_WRITE (R259) -/
  | tkselWrite (v : Word)
  /-- SCOPEST_WRITE (R170) -/
  | scopestWrite (v : Word)
  /-- SQEND_WRITE (R377) -/
  | sqendWrite (v : Word)
  /-- TRAPSTATUS_WRITE (R380) -/
  | trapstatusWrite (v : Word)
  /-- S1ROOT_WRITE (R417) -/
  | s1rootWrite (v : Word)
  /-- SPF (R192) -/
  | spf (h : BitVec 2) (a : BitVec 5) (imm : BitVec 12) (t : BitVec 2)
  /-- TKCFG_QUERY (R260) -/
  | tkcfgQuery (d : BitVec 5) (a : BitVec 5) (b : BitVec 5) (t : BitVec 2)
  /-- TKCFG_DRAIN (R260) -/
  | tkcfgDrain (d : BitVec 5) (a : BitVec 5) (b : BitVec 5) (t : BitVec 2)
  /-- TKWAIT (R260) -/
  | tkwait (d : BitVec 5) (a : BitVec 5) (b : BitVec 5) (t : BitVec 2)
  /-- TKSEND (R260) -/
  | tksend (a : BitVec 5) (b : BitVec 5) (t : BitVec 2)
  /-- QPUSH (R253) -/
  | qpush (q : BitVec 5) (v : BitVec 5) (k : BitVec 3) (t : BitVec 2)
  /-- QPOP (R253) -/
  | qpop (v : BitVec 5) (q : BitVec 5) (k : BitVec 3) (t : BitVec 2)
  /-- QPUSHS (R254) -/
  | qpushs (a : BitVec 5) (q : BitVec 5) (t : BitVec 2)
  /-- QPOPS (R254) -/
  | qpops (d : BitVec 5) (q : BitVec 5) (t : BitVec 2)
  /-- QSTAT (R254) -/
  | qstat (d : BitVec 5) (q : BitVec 5) (t : BitVec 2)
  /-- FENCE_SV (R171) -/
  | fenceSv (t : BitVec 2)
  /-- FENCE_VS (R171) -/
  | fenceVs (t : BitVec 2)
  /-- FENCE_VV (R171) -/
  | fenceVv (t : BitVec 2)
  /-- REL (R173) -/
  | rel (scope : BitVec 3) (t : BitVec 2)
  /-- ACQ (R174) -/
  | acq (scope : BitVec 3) (t : BitVec 2)
  /-- BAR (R375) -/
  | bar (imm : BitVec 12) (t : BitVec 2)
  /-- WMPUB (R374) -/
  | wmpub (a : BitVec 5) (b : BitVec 5) (t : BitVec 2)
  /-- WMWAIT (R374) -/
  | wmwait (a : BitVec 5) (b : BitVec 5) (t : BitVec 2)
  /-- CLAIM (R373) -/
  | claim (d : BitVec 5) (a : BitVec 5) (b : BitVec 5) (t : BitVec 2)
  /-- LAUNCH (R360) -/
  | launch (d : BitVec 5) (a : BitVec 5) (t : BitVec 2)
  /-- SQPUSH (R367) -/
  | sqpush (a : BitVec 5) (b : BitVec 5) (c : BitVec 5) (t : BitVec 2)
  /-- SQPOP (R367) -/
  | sqpop (d : BitVec 5) (c : BitVec 5) (t : BitVec 2)
  /-- SQSTAT (R367) -/
  | sqstat (d : BitVec 5) (c : BitVec 5) (t : BitVec 2)
  /-- FMTSET (R376) -/
  | fmtset (d : BitVec 5) (a : BitVec 5) (b : BitVec 5) (t : BitVec 2)
  /-- FMTGET (R376) -/
  | fmtget (d : BitVec 5) (a : BitVec 5) (t : BitVec 2)
  /-- PLTSET (R376) -/
  | pltset (d : BitVec 5) (a : BitVec 5) (b : BitVec 5) (c : BitVec 5) (t : BitVec 2)
  /-- PLTGET (R376) -/
  | pltget (d : BitVec 5) (a : BitVec 5) (b : BitVec 5) (t : BitVec 2)
  /-- TLBINV (R114) -/
  | tlbinv (a : BitVec 5) (b : BitVec 5) (t : BitVec 2)
  /-- RCREQ (R239) -/
  | rcreq (d : BitVec 5) (a : BitVec 5) (b : BitVec 5) (c : BitVec 5) (t : BitVec 2)
  /-- WMREAD (R374) -/
  | wmread (d : BitVec 5) (a : BitVec 5) (t : BitVec 2)
  /-- XRED (R329) -/
  | xred (v : BitVec 5) (o : BitVec 5) (b : BitVec 5) (k : BitVec 3) (m : BitVec 2) (t : BitVec 2)
  /-- XSEND (R332) -/
  | xsend (v : BitVec 5) (b : BitVec 5) (k : BitVec 3) (t : BitVec 2)
  /-- XRECV (R332) -/
  | xrecv (v : BitVec 5) (b : BitVec 5) (k : BitVec 3) (t : BitVec 2)
  /-- XMEMB (R333) -/
  | xmemb (d : BitVec 5) (a : BitVec 5) (b : BitVec 5) (t : BitVec 2)
  /-- ECFG (R211) -/
  | ecfg (e : BitVec 3) (r : BitVec 9) (a : BitVec 5) (t : BitVec 2)
  /-- ECFGR (R211) -/
  | ecfgr (e : BitVec 3) (r : BitVec 9) (a : BitVec 5) (t : BitVec 2)
  /-- EGO (R208) -/
  | ego (e : BitVec 3) (a : BitVec 5) (t : BitVec 2)
  /-- EWAIT (R212) -/
  | ewait (e : BitVec 3) (a : BitVec 5) (t : BitVec 2)
  /-- ESTAT (R216) -/
  | estat (e : BitVec 3) (r : BitVec 9) (a : BitVec 5) (t : BitVec 2)
  /-- ECANCEL (R217) -/
  | ecancel (e : BitVec 3) (a : BitVec 5) (t : BitVec 2)
  /-- PUBLISH (R225) -/
  | publish (a : BitVec 5) (scope : BitVec 3) (t : BitVec 2)
  /-- MXZERO (R313) -/
  | mxzero (x : BitVec 5) (t : BitVec 2)
  /-- VACCRD (R314) -/
  | vaccrd (v : BitVec 5) (x : BitVec 5) (b : BitVec 5) (k : BitVec 3) (t : BitVec 2)
  /-- VACCWR (R315) -/
  | vaccwr (x : BitVec 5) (v : BitVec 5) (b : BitVec 5) (k : BitVec 3) (t : BitVec 2)
  /-- TSQLD (R227) -/
  | tsqld (r : BitVec 9) (a : BitVec 5) (t : BitVec 2)
  /-- TSQGO (R228) -/
  | tsqgo (r : BitVec 9) (a : BitVec 5) (t : BitVec 2)
  /-- EJRNL (R214) -/
  | ejrnl (e : BitVec 3) (a : BitVec 5) (t : BitVec 2)
  /-- TSQSTAT (R229) -/
  | tsqstat (r : BitVec 9) (a : BitVec 5) (t : BitVec 2)
  /-- VSETL (R244) -/
  | vsetl (d : BitVec 5) (a : BitVec 5) (sew : BitVec 3) (c : BitVec 3) (p : BitVec 1) (r : BitVec 3) (z : BitVec 2) (t : BitVec 2)
  /-- VMV_VV (R275) -/
  | vmvVv (d : BitVec 5) (b : BitVec 5) (k : BitVec 3) (t : BitVec 2)
  /-- VMV_VS (R275) -/
  | vmvVs (d : BitVec 5) (sb : BitVec 5) (k : BitVec 3) (t : BitVec 2)
  /-- VMV_VI (R275) -/
  | vmvVi (d : BitVec 5) (imm : BitVec 5) (k : BitVec 3) (t : BitVec 2)
  /-- VMVX (R276) -/
  | vmvx (d : BitVec 5) (a : BitVec 5) (b : BitVec 5) (t : BitVec 2)
  /-- VMVS (R276) -/
  | vmvs (d : BitVec 5) (a : BitVec 5) (b : BitVec 5) (t : BitVec 2)
  /-- VTAG (R277) -/
  | vtag (d : BitVec 5) (a : BitVec 5) (b : BitVec 5) (k : BitVec 3) (t : BitVec 2)
  /-- VCVT (R278) -/
  | vcvt (d : BitVec 5) (a : BitVec 5) (b : BitVec 5) (k : BitVec 3) (m : BitVec 2) (t : BitVec 2)
  /-- VID (R281) -/
  | vid (d : BitVec 5) (k : BitVec 3) (t : BitVec 2)
  /-- VSCALE (R279) -/
  | vscale (d : BitVec 5) (a : BitVec 5) (b : BitVec 5) (k : BitVec 3) (m : BitVec 2) (t : BitVec 2)
  /-- VCLASS (R280) -/
  | vclass (d : BitVec 5) (a : BitVec 5) (k : BitVec 3) (t : BitVec 2)
  /-- VMERGE_VV (R284) -/
  | vmergeVv (d : BitVec 5) (a : BitVec 5) (b : BitVec 5) (k : BitVec 3) (t : BitVec 2)
  /-- VMERGE_VS (R284) -/
  | vmergeVs (d : BitVec 5) (a : BitVec 5) (sb : BitVec 5) (k : BitVec 3) (t : BitVec 2)
  /-- VMERGE_VI (R284) -/
  | vmergeVi (d : BitVec 5) (a : BitVec 5) (imm : BitVec 5) (k : BitVec 3) (t : BitVec 2)
  /-- VCOMPRESS (R285) -/
  | vcompress (d : BitVec 5) (a : BitVec 5) (k : BitVec 3) (t : BitVec 2)
  /-- VEXPAND (R285) -/
  | vexpand (d : BitVec 5) (a : BitVec 5) (k : BitVec 3) (t : BitVec 2)
  /-- VSLUP_VS (R286) -/
  | vslupVs (d : BitVec 5) (a : BitVec 5) (sb : BitVec 5) (k : BitVec 3) (t : BitVec 2)
  /-- VSLUP_VI (R286) -/
  | vslupVi (d : BitVec 5) (a : BitVec 5) (imm : BitVec 5) (k : BitVec 3) (t : BitVec 2)
  /-- VSLDN_VS (R286) -/
  | vsldnVs (d : BitVec 5) (a : BitVec 5) (sb : BitVec 5) (k : BitVec 3) (t : BitVec 2)
  /-- VSLDN_VI (R286) -/
  | vsldnVi (d : BitVec 5) (a : BitVec 5) (imm : BitVec 5) (k : BitVec 3) (t : BitVec 2)
  /-- VRGATH (R287) -/
  | vrgath (d : BitVec 5) (a : BitVec 5) (b : BitVec 5) (k : BitVec 3) (t : BitVec 2)
  /-- VTRN (R288) -/
  | vtrn (d : BitVec 5) (a : BitVec 5) (t : BitVec 2)
  /-- VADD_VV (R268) -/
  | vaddVv (d : BitVec 5) (a : BitVec 5) (b : BitVec 5) (k : BitVec 3) (m : BitVec 2) (t : BitVec 2)
  /-- VADD_VS (R268) -/
  | vaddVs (d : BitVec 5) (a : BitVec 5) (sb : BitVec 5) (k : BitVec 3) (m : BitVec 2) (t : BitVec 2)
  /-- VADD_VI (R268) -/
  | vaddVi (d : BitVec 5) (a : BitVec 5) (imm : BitVec 5) (k : BitVec 3) (m : BitVec 2) (t : BitVec 2)
  /-- VSUB_VV (R268) -/
  | vsubVv (d : BitVec 5) (a : BitVec 5) (b : BitVec 5) (k : BitVec 3) (m : BitVec 2) (t : BitVec 2)
  /-- VSUB_VS (R268) -/
  | vsubVs (d : BitVec 5) (a : BitVec 5) (sb : BitVec 5) (k : BitVec 3) (m : BitVec 2) (t : BitVec 2)
  /-- VSUB_VI (R268) -/
  | vsubVi (d : BitVec 5) (a : BitVec 5) (imm : BitVec 5) (k : BitVec 3) (m : BitVec 2) (t : BitVec 2)
  /-- VMUL_VV (R268) -/
  | vmulVv (d : BitVec 5) (a : BitVec 5) (b : BitVec 5) (k : BitVec 3) (m : BitVec 2) (t : BitVec 2)
  /-- VMUL_VS (R268) -/
  | vmulVs (d : BitVec 5) (a : BitVec 5) (sb : BitVec 5) (k : BitVec 3) (m : BitVec 2) (t : BitVec 2)
  /-- VMUL_VI (R268) -/
  | vmulVi (d : BitVec 5) (a : BitVec 5) (imm : BitVec 5) (k : BitVec 3) (m : BitVec 2) (t : BitVec 2)
  /-- VFMA_VV (R268) -/
  | vfmaVv (d : BitVec 5) (a : BitVec 5) (b : BitVec 5) (k : BitVec 3) (m : BitVec 2) (t : BitVec 2)
  /-- VFMA_VS (R268) -/
  | vfmaVs (d : BitVec 5) (a : BitVec 5) (sb : BitVec 5) (k : BitVec 3) (m : BitVec 2) (t : BitVec 2)
  /-- VFMA_VI (R268) -/
  | vfmaVi (d : BitVec 5) (a : BitVec 5) (imm : BitVec 5) (k : BitVec 3) (m : BitVec 2) (t : BitVec 2)
  /-- VFMS_VV (R268) -/
  | vfmsVv (d : BitVec 5) (a : BitVec 5) (b : BitVec 5) (k : BitVec 3) (m : BitVec 2) (t : BitVec 2)
  /-- VFMS_VS (R268) -/
  | vfmsVs (d : BitVec 5) (a : BitVec 5) (sb : BitVec 5) (k : BitVec 3) (m : BitVec 2) (t : BitVec 2)
  /-- VFMS_VI (R268) -/
  | vfmsVi (d : BitVec 5) (a : BitVec 5) (imm : BitVec 5) (k : BitVec 3) (m : BitVec 2) (t : BitVec 2)
  /-- VFNMA_VV (R268) -/
  | vfnmaVv (d : BitVec 5) (a : BitVec 5) (b : BitVec 5) (k : BitVec 3) (m : BitVec 2) (t : BitVec 2)
  /-- VFNMA_VS (R268) -/
  | vfnmaVs (d : BitVec 5) (a : BitVec 5) (sb : BitVec 5) (k : BitVec 3) (m : BitVec 2) (t : BitVec 2)
  /-- VFNMA_VI (R268) -/
  | vfnmaVi (d : BitVec 5) (a : BitVec 5) (imm : BitVec 5) (k : BitVec 3) (m : BitVec 2) (t : BitVec 2)
  /-- VDIV_VV (R268) -/
  | vdivVv (d : BitVec 5) (a : BitVec 5) (b : BitVec 5) (k : BitVec 3) (m : BitVec 2) (t : BitVec 2)
  /-- VDIV_VS (R268) -/
  | vdivVs (d : BitVec 5) (a : BitVec 5) (sb : BitVec 5) (k : BitVec 3) (m : BitVec 2) (t : BitVec 2)
  /-- VDIV_VI (R268) -/
  | vdivVi (d : BitVec 5) (a : BitVec 5) (imm : BitVec 5) (k : BitVec 3) (m : BitVec 2) (t : BitVec 2)
  /-- VSQRT (R268) -/
  | vsqrt (d : BitVec 5) (a : BitVec 5) (k : BitVec 3) (m : BitVec 2) (t : BitVec 2)
  /-- VMIN_VV (R269) -/
  | vminVv (d : BitVec 5) (a : BitVec 5) (b : BitVec 5) (k : BitVec 3) (m : BitVec 2) (t : BitVec 2)
  /-- VMIN_VS (R269) -/
  | vminVs (d : BitVec 5) (a : BitVec 5) (sb : BitVec 5) (k : BitVec 3) (m : BitVec 2) (t : BitVec 2)
  /-- VMIN_VI (R269) -/
  | vminVi (d : BitVec 5) (a : BitVec 5) (imm : BitVec 5) (k : BitVec 3) (m : BitVec 2) (t : BitVec 2)
  /-- VMAX_VV (R269) -/
  | vmaxVv (d : BitVec 5) (a : BitVec 5) (b : BitVec 5) (k : BitVec 3) (m : BitVec 2) (t : BitVec 2)
  /-- VMAX_VS (R269) -/
  | vmaxVs (d : BitVec 5) (a : BitVec 5) (sb : BitVec 5) (k : BitVec 3) (m : BitVec 2) (t : BitVec 2)
  /-- VMAX_VI (R269) -/
  | vmaxVi (d : BitVec 5) (a : BitVec 5) (imm : BitVec 5) (k : BitVec 3) (m : BitVec 2) (t : BitVec 2)
  /-- VABS (R269) -/
  | vabs (d : BitVec 5) (a : BitVec 5) (k : BitVec 3) (m : BitVec 2) (t : BitVec 2)
  /-- VNEG (R269) -/
  | vneg (d : BitVec 5) (a : BitVec 5) (k : BitVec 3) (m : BitVec 2) (t : BitVec 2)
  /-- VRSQRT (R268) -/
  | vrsqrt (d : BitVec 5) (a : BitVec 5) (k : BitVec 3) (m : BitVec 2) (t : BitVec 2)
  /-- VEXP2 (R268) -/
  | vexp2 (d : BitVec 5) (a : BitVec 5) (k : BitVec 3) (m : BitVec 2) (t : BitVec 2)
  /-- VLOG2 (R268) -/
  | vlog2 (d : BitVec 5) (a : BitVec 5) (k : BitVec 3) (m : BitVec 2) (t : BitVec 2)
  /-- VMULH_VV (R269) -/
  | vmulhVv (d : BitVec 5) (a : BitVec 5) (b : BitVec 5) (k : BitVec 3) (m : BitVec 2) (t : BitVec 2)
  /-- VMULH_VS (R269) -/
  | vmulhVs (d : BitVec 5) (a : BitVec 5) (sb : BitVec 5) (k : BitVec 3) (m : BitVec 2) (t : BitVec 2)
  /-- VMULH_VI (R269) -/
  | vmulhVi (d : BitVec 5) (a : BitVec 5) (imm : BitVec 5) (k : BitVec 3) (m : BitVec 2) (t : BitVec 2)
  /-- VAND_VV (R270) -/
  | vandVv (d : BitVec 5) (a : BitVec 5) (b : BitVec 5) (k : BitVec 3) (t : BitVec 2)
  /-- VAND_VS (R270) -/
  | vandVs (d : BitVec 5) (a : BitVec 5) (sb : BitVec 5) (k : BitVec 3) (t : BitVec 2)
  /-- VAND_VI (R270) -/
  | vandVi (d : BitVec 5) (a : BitVec 5) (imm : BitVec 5) (k : BitVec 3) (t : BitVec 2)
  /-- VOR_VV (R270) -/
  | vorVv (d : BitVec 5) (a : BitVec 5) (b : BitVec 5) (k : BitVec 3) (t : BitVec 2)
  /-- VOR_VS (R270) -/
  | vorVs (d : BitVec 5) (a : BitVec 5) (sb : BitVec 5) (k : BitVec 3) (t : BitVec 2)
  /-- VOR_VI (R270) -/
  | vorVi (d : BitVec 5) (a : BitVec 5) (imm : BitVec 5) (k : BitVec 3) (t : BitVec 2)
  /-- VXOR_VV (R270) -/
  | vxorVv (d : BitVec 5) (a : BitVec 5) (b : BitVec 5) (k : BitVec 3) (t : BitVec 2)
  /-- VXOR_VS (R270) -/
  | vxorVs (d : BitVec 5) (a : BitVec 5) (sb : BitVec 5) (k : BitVec 3) (t : BitVec 2)
  /-- VXOR_VI (R270) -/
  | vxorVi (d : BitVec 5) (a : BitVec 5) (imm : BitVec 5) (k : BitVec 3) (t : BitVec 2)
  /-- VNOT (R270) -/
  | vnot (d : BitVec 5) (a : BitVec 5) (k : BitVec 3) (t : BitVec 2)
  /-- VSHL_VV (R271) -/
  | vshlVv (d : BitVec 5) (a : BitVec 5) (b : BitVec 5) (k : BitVec 3) (t : BitVec 2)
  /-- VSHL_VS (R271) -/
  | vshlVs (d : BitVec 5) (a : BitVec 5) (sb : BitVec 5) (k : BitVec 3) (t : BitVec 2)
  /-- VSHL_VI (R271) -/
  | vshlVi (d : BitVec 5) (a : BitVec 5) (imm : BitVec 5) (k : BitVec 3) (t : BitVec 2)
  /-- VSHR_VV (R271) -/
  | vshrVv (d : BitVec 5) (a : BitVec 5) (b : BitVec 5) (k : BitVec 3) (t : BitVec 2)
  /-- VSHR_VS (R271) -/
  | vshrVs (d : BitVec 5) (a : BitVec 5) (sb : BitVec 5) (k : BitVec 3) (t : BitVec 2)
  /-- VSHR_VI (R271) -/
  | vshrVi (d : BitVec 5) (a : BitVec 5) (imm : BitVec 5) (k : BitVec 3) (t : BitVec 2)
  /-- VSRA_VV (R271) -/
  | vsraVv (d : BitVec 5) (a : BitVec 5) (b : BitVec 5) (k : BitVec 3) (t : BitVec 2)
  /-- VSRA_VS (R271) -/
  | vsraVs (d : BitVec 5) (a : BitVec 5) (sb : BitVec 5) (k : BitVec 3) (t : BitVec 2)
  /-- VSRA_VI (R271) -/
  | vsraVi (d : BitVec 5) (a : BitVec 5) (imm : BitVec 5) (k : BitVec 3) (t : BitVec 2)
  /-- VCMPEQ_VV (R272) -/
  | vcmpeqVv (d : BitVec 5) (a : BitVec 5) (b : BitVec 5) (k : BitVec 3) (t : BitVec 2)
  /-- VCMPEQ_VS (R272) -/
  | vcmpeqVs (d : BitVec 5) (a : BitVec 5) (sb : BitVec 5) (k : BitVec 3) (t : BitVec 2)
  /-- VCMPEQ_VI (R272) -/
  | vcmpeqVi (d : BitVec 5) (a : BitVec 5) (imm : BitVec 5) (k : BitVec 3) (t : BitVec 2)
  /-- VCMPLT_VV (R272) -/
  | vcmpltVv (d : BitVec 5) (a : BitVec 5) (b : BitVec 5) (k : BitVec 3) (t : BitVec 2)
  /-- VCMPLT_VS (R272) -/
  | vcmpltVs (d : BitVec 5) (a : BitVec 5) (sb : BitVec 5) (k : BitVec 3) (t : BitVec 2)
  /-- VCMPLT_VI (R272) -/
  | vcmpltVi (d : BitVec 5) (a : BitVec 5) (imm : BitVec 5) (k : BitVec 3) (t : BitVec 2)
  /-- VCMPLE_VV (R272) -/
  | vcmpleVv (d : BitVec 5) (a : BitVec 5) (b : BitVec 5) (k : BitVec 3) (t : BitVec 2)
  /-- VCMPLE_VS (R272) -/
  | vcmpleVs (d : BitVec 5) (a : BitVec 5) (sb : BitVec 5) (k : BitVec 3) (t : BitVec 2)
  /-- VCMPLE_VI (R272) -/
  | vcmpleVi (d : BitVec 5) (a : BitVec 5) (imm : BitVec 5) (k : BitVec 3) (t : BitVec 2)
  /-- KAND (R273) -/
  | kand (d : BitVec 5) (a : BitVec 5) (b : BitVec 5) (t : BitVec 2)
  /-- KOR (R273) -/
  | kor (d : BitVec 5) (a : BitVec 5) (b : BitVec 5) (t : BitVec 2)
  /-- KXOR (R273) -/
  | kxor (d : BitVec 5) (a : BitVec 5) (b : BitVec 5) (t : BitVec 2)
  /-- KNOT (R273) -/
  | knot (d : BitVec 5) (a : BitVec 5) (t : BitVec 2)
  /-- KFFS (R273) -/
  | kffs (d : BitVec 5) (a : BitVec 5) (t : BitVec 2)
  /-- KPOPC (R273) -/
  | kpopc (d : BitVec 5) (a : BitVec 5) (t : BitVec 2)
  /-- VREDSUM (R290) -/
  | vredsum (d : BitVec 5) (a : BitVec 5) (k : BitVec 3) (m : BitVec 2) (t : BitVec 2)
  /-- VREDMIN (R291) -/
  | vredmin (d : BitVec 5) (a : BitVec 5) (k : BitVec 3) (m : BitVec 2) (t : BitVec 2)
  /-- VREDMAX (R291) -/
  | vredmax (d : BitVec 5) (a : BitVec 5) (k : BitVec 3) (m : BitVec 2) (t : BitVec 2)
  /-- VREDXOR (R291) -/
  | vredxor (d : BitVec 5) (a : BitVec 5) (k : BitVec 3) (t : BitVec 2)
  /-- VREDARG (R291) -/
  | vredarg (d : BitVec 5) (a : BitVec 5) (k : BitVec 3) (t : BitVec 2)
  /-- VSCAN (R292) -/
  | vscan (d : BitVec 5) (a : BitVec 5) (k : BitVec 3) (m : BitVec 2) (t : BitVec 2)
  /-- VSCANX (R292) -/
  | vscanx (d : BitVec 5) (a : BitVec 5) (k : BitVec 3) (m : BitVec 2) (t : BitVec 2)
  /-- VDOT (R290) -/
  | vdot (d : BitVec 5) (a : BitVec 5) (b : BitVec 5) (k : BitVec 3) (m : BitVec 2) (t : BitVec 2)
  /-- KSET (R273) -/
  | kset (d : BitVec 5) (a : BitVec 5) (b : BitVec 5) (t : BitVec 2)
  /-- KMV (R273) -/
  | kmv (d : BitVec 5) (a : BitVec 5) (t : BitVec 2)
  /-- VROUND (R282) -/
  | vround (d : BitVec 5) (a : BitVec 5) (k : BitVec 3) (m : BitVec 2) (t : BitVec 2)
  /-- VLD (R194) -/
  | vld (v : BitVec 5) (a : BitVec 5) (b : BitVec 5) (k : BitVec 3) (f : BitVec 1) (g : BitVec 1) (h : BitVec 2) (t : BitVec 2)
  /-- VLDS (R194) -/
  | vlds (v : BitVec 5) (a : BitVec 5) (b : BitVec 5) (k : BitVec 3) (f : BitVec 1) (g : BitVec 1) (h : BitVec 2) (t : BitVec 2)
  /-- VLDX (R194) -/
  | vldx (v : BitVec 5) (a : BitVec 5) (b : BitVec 5) (k : BitVec 3) (f : BitVec 1) (g : BitVec 1) (h : BitVec 2) (t : BitVec 2)
  /-- VLDQ (R196) -/
  | vldq (q : BitVec 5) (a : BitVec 5) (b : BitVec 5) (k : BitVec 3) (f : BitVec 1) (g : BitVec 1) (h : BitVec 2) (t : BitVec 2)
  /-- VST (R195) -/
  | vst (v : BitVec 5) (a : BitVec 5) (b : BitVec 5) (k : BitVec 3) (h : BitVec 2) (t : BitVec 2)
  /-- VSTS (R195) -/
  | vsts (v : BitVec 5) (a : BitVec 5) (b : BitVec 5) (k : BitVec 3) (h : BitVec 2) (t : BitVec 2)
  /-- VSTX (R195) -/
  | vstx (v : BitVec 5) (a : BitVec 5) (b : BitVec 5) (k : BitVec 3) (h : BitVec 2) (t : BitVec 2)
  /-- VSTQ (R196) -/
  | vstq (q : BitVec 5) (a : BitVec 5) (b : BitVec 5) (k : BitVec 3) (h : BitVec 2) (t : BitVec 2)
  /-- VLDA (R194) -/
  | vlda (v : BitVec 5) (a : BitVec 5) (b : BitVec 5) (k : BitVec 3) (f : BitVec 1) (scope : BitVec 3) (t : BitVec 2)
  /-- VSTR (R195) -/
  | vstr (v : BitVec 5) (a : BitVec 5) (b : BitVec 5) (k : BitVec 3) (scope : BitVec 3) (t : BitVec 2)
  /-- VPF (R198) -/
  | vpf (a : BitVec 5) (b : BitVec 5) (k : BitVec 3) (h : BitVec 2) (t : BitVec 2)
  /-- VZERO (R198) -/
  | vzero (a : BitVec 5) (b : BitVec 5) (k : BitVec 3) (h : BitVec 2) (t : BitVec 2)
  /-- VLDTAG (R197) -/
  | vldtag (v : BitVec 5) (a : BitVec 5) (b : BitVec 5) (k : BitVec 3) (f : BitVec 1) (g : BitVec 1) (h : BitVec 2) (t : BitVec 2)
  /-- VFLUSH (R198) -/
  | vflush (a : BitVec 5) (b : BitVec 5) (k : BitVec 3) (scope : BitVec 3) (t : BitVec 2)
  /-- VINVL (R198) -/
  | vinvl (a : BitVec 5) (b : BitVec 5) (k : BitVec 3) (scope : BitVec 3) (t : BitVec 2)
  /-- VAMOADD (R200) -/
  | vamoadd (v : BitVec 5) (a : BitVec 5) (b : BitVec 5) (k : BitVec 3) (t : BitVec 2)
  /-- VAMOMIN (R200) -/
  | vamomin (v : BitVec 5) (a : BitVec 5) (b : BitVec 5) (k : BitVec 3) (t : BitVec 2)
  /-- VAMOMAX (R200) -/
  | vamomax (v : BitVec 5) (a : BitVec 5) (b : BitVec 5) (k : BitVec 3) (t : BitVec 2)
  /-- VAMOSWP (R200) -/
  | vamoswp (v : BitVec 5) (a : BitVec 5) (b : BitVec 5) (k : BitVec 3) (t : BitVec 2)
  /-- VAMOAND (R200) -/
  | vamoand (v : BitVec 5) (a : BitVec 5) (b : BitVec 5) (k : BitVec 3) (t : BitVec 2)
  /-- VAMOOR (R200) -/
  | vamoor (v : BitVec 5) (a : BitVec 5) (b : BitVec 5) (k : BitVec 3) (t : BitVec 2)
  /-- VCAS (R200) -/
  | vcas (v : BitVec 5) (a : BitVec 5) (b : BitVec 5) (k : BitVec 3) (t : BitVec 2)
  /-- VGLL (R201) -/
  | vgll (v : BitVec 5) (a : BitVec 5) (b : BitVec 5) (k : BitVec 3) (t : BitVec 2)
  /-- VSC (R202) -/
  | vsc (v : BitVec 5) (a : BitVec 5) (b : BitVec 5) (k : BitVec 3) (t : BitVec 2)
  /-- VGNM (R203) -/
  | vgnm (v : BitVec 5) (a : BitVec 5) (b : BitVec 5) (k : BitVec 3) (f : BitVec 1) (g : BitVec 1) (t : BitVec 2)
  /-- VSNM (R203) -/
  | vsnm (v : BitVec 5) (a : BitVec 5) (b : BitVec 5) (k : BitVec 3) (t : BitVec 2)
  /-- VSANM (R203) -/
  | vsanm (v : BitVec 5) (a : BitVec 5) (b : BitVec 5) (k : BitVec 3) (t : BitVec 2)
  /-- VSXNM (R203) -/
  | vsxnm (v : BitVec 5) (a : BitVec 5) (b : BitVec 5) (k : BitVec 3) (t : BitVec 2)
  /-- TRAPSET (R397) -/
  | trapset (d : BitVec 5) (a : BitVec 5) (b : BitVec 5) (t : BitVec 2)
  /-- MAPSET_UNMAP (R413) -/
  | mapsetUnmap (d : BitVec 5) (a : BitVec 5) (b : BitVec 5) (c : BitVec 5) (t : BitVec 2)
  /-- MAPSET_PERM (R413) -/
  | mapsetPerm (d : BitVec 5) (a : BitVec 5) (b : BitVec 5) (c : BitVec 5) (t : BitVec 2)
  /-- MAPSET_ALLOC (R413) -/
  | mapsetAlloc (d : BitVec 5) (a : BitVec 5) (b : BitVec 5) (c : BitVec 5) (t : BitVec 2)
  /-- MAPSET_QUERY (R413) -/
  | mapsetQuery (d : BitVec 5) (a : BitVec 5) (b : BitVec 5) (c : BitVec 5) (t : BitVec 2)
  /-- TLBINVA (R414) -/
  | tlbinva (a : BitVec 5) (b : BitVec 5) (t : BitVec 2)
  /-- CTXSAVE (R396) -/
  | ctxsave (d : BitVec 5) (a : BitVec 5) (b : BitVec 5) (t : BitVec 2)
  /-- CTXLOAD (R396) -/
  | ctxload (d : BitVec 5) (a : BitVec 5) (b : BitVec 5) (t : BitVec 2)
  /-- PGQRD (R415) -/
  | pgqrd (d : BitVec 5) (a : BitVec 5) (t : BitVec 2)
  /-- PGQACK_GRANT (R415) -/
  | pgqackGrant (d : BitVec 5) (a : BitVec 5) (b : BitVec 5) (t : BitVec 2)
  /-- PGQACK_REFUSE (R415) -/
  | pgqackRefuse (d : BitVec 5) (a : BitVec 5) (b : BitVec 5) (t : BitVec 2)
  /-- ERRRD (R416) -/
  | errrd (d : BitVec 5) (a : BitVec 5) (t : BitVec 2)
  /-- ERRACK (R416) -/
  | errack (d : BitVec 5) (a : BitVec 5) (t : BitVec 2)
  /-- GRANT (R389) -/
  | grant (d : BitVec 5) (a : BitVec 5) (b : BitVec 5) (t : BitVec 2)
  /-- STRANDCTL_STATUS (R395) -/
  | strandctlStatus (d : BitVec 5) (a : BitVec 5) (b : BitVec 5) (t : BitVec 2)
  /-- STRANDCTL_HALT (R395) -/
  | strandctlHalt (d : BitVec 5) (a : BitVec 5) (b : BitVec 5) (t : BitVec 2)
  /-- STRANDCTL_RESUME (R395) -/
  | strandctlResume (d : BitVec 5) (a : BitVec 5) (b : BitVec 5) (t : BitVec 2)
  /-- STRANDCTL_KILL (R395) -/
  | strandctlKill (d : BitVec 5) (a : BitVec 5) (b : BitVec 5) (t : BitVec 2)
  /-- ENGINE_FAULT_TRAP (R378) -/
  | engineFaultTrap
  /-- COMMAND_START (R209) -/
  | commandStart (core eng : Nat)
  /-- COMMAND_COMPLETE (R209) -/
  | commandComplete (core eng : Nat)
  /-- CPE_UNIT (R220) -/
  | cpeUnit (core eng : Nat)
  /-- MXE_STEP (R300) -/
  | mxeStep (core : Nat)
  /-- MULTICAST_FORM (R307) -/
  | multicastForm (coil grp : Nat)
  /-- ROW_RELEASE (R308) -/
  | rowRelease (core g : Nat)
  /-- MXE_OUTPUT_ROW (R309) -/
  | mxeOutputRow (core : Nat)
  /-- TSQ_INSTRUCTION_ISSUE (R226) -/
  | tsqInstructionIssue (core : Nat)
  /-- RCE_LINE_RECODE (R240) -/
  | rceLineRecode (hank : Nat)
  /-- RCE_PACK (R240) -/
  | rcePack (hank : Nat)
  /-- FIT_CHECKED_WRITE (R91) -/
  | fitCheckedWrite (w : HomeWrite)
  /-- SEGMENT_SWITCH (R92) -/
  | segmentSwitch (vf seg : Nat)
  /-- WRITEBACK_MERGE (R132) -/
  | writebackMerge (core line : Nat)
  /-- L1_EVICTION (R132) -/
  | l1Eviction (core line : Nat)
  /-- DIRTY_AGE_SWEEP (R175) -/
  | dirtyAgeSweep (core : Nat)
  /-- HOST_SNOOP (R317) -/
  | hostSnoop (line : Nat)
  /-- LINE_READ_COMPLETE (R83) -/
  | lineReadComplete (p : Nat) (r : StoredRead)
  /-- PATROL_READ (R85) -/
  | patrolRead (p : Nat) (o : ReadError)
  /-- ACTIVATION_ALERT (R98) -/
  | activationAlert (chan bank row : Nat)
  /-- BACKOFF_END (R98) -/
  | backoffEnd (chan bank : Nat)
  /-- SCRUB_BANK (R100) -/
  | scrubBank (chan : Nat)
  /-- WALK_COMPLETE (R110) -/
  | walkComplete (core ctx va : Nat) (acc : Access)
  /-- PAGE_REQUEST_DELIVER (R117) -/
  | pageRequestDeliver (vf : Nat)
  /-- ELEMENT_REPLAY (R119) -/
  | elementReplay (core ctx : Nat)
  /-- LONG_STALL_TIMEOUT (R121) -/
  | longStallTimeout (core ctx : Nat)
  /-- UNMAP_CHUNK_RETURN (R413) -/
  | unmapChunkReturn (part : Nat)
  /-- SCALAR_STORE_PERFORM (R335) -/
  | scalarStorePerform (core ctx : Nat)
  /-- ISSUE_ROUND (R370) -/
  | issueRound (core : Nat) (vlsu : Bool)
  /-- QUEUE_SQUASH (R390) -/
  | queueSquash (core ctx : Nat)
  /-- SLICE_END (R390) -/
  | sliceEnd (core ctx : Nat)
  /-- PARTITION_CONTEXT_SWAP (R392) -/
  | partitionContextSwap (part : Nat)
  /-- PARTITION_CONTEXT_RESTORE (R393) -/
  | partitionContextRestore (part : Nat)
  /-- BRAID_START (R361) -/
  | braidStart (part slot : Nat)
  /-- PLY_PLACEMENT (R363) -/
  | plyPlacement (part : Nat) (at_ : List (Nat × Nat))
  /-- STAGE_END (R366) -/
  | stageEnd (part slot stage : Nat)
  /-- BRAID_COMPLETE (R368) -/
  | braidComplete (part slot : Nat)
  /-- REBALANCE_RISE (R369) -/
  | rebalanceRise (part slot q : Nat)
  /-- REBALANCE_FULL (R369) -/
  | rebalanceFull (part slot q : Nat)
  /-- REBALANCE_DRAIN (R369) -/
  | rebalanceDrain (part slot q : Nat)
  /-- PLY_REPLACE (R398) -/
  | plyReplace (part src dst : Nat)
  /-- COIL_FUSION_CHANGE (R129) -/
  | coilFusionChange (coil : Nat) (fuse : Bool)
  /-- BARRIER_COMPLETE (R375) -/
  | barrierComplete (part slot stage ply n : Nat)
  /-- XMESSAGE_RECEIVE (R332) -/
  | xmessageReceive (part grp : Nat) (msg : PeerMsg)
  /-- MEMBER_FAIL (R325) -/
  | memberFail (part grp rank : Nat)
  /-- COLLECTIVE_TIMEOUT (R325) -/
  | collectiveTimeout (part grp rank : Nat)
  /-- MIRROR_REFERENCE (R323) -/
  | mirrorReference (peer plane : Nat) (x : NumberedRef)
  /-- PACKED_LINE_RECEIVE (R323) -/
  | packedLineReceive (peer plane : Nat) (x : NumberedLine)
  /-- LINK_RETRY (R321) -/
  | linkRetry (link : Nat)
  /-- LINK_RETRAIN (R321) -/
  | linkRetrain (plane : Nat) (ok : Bool)
  /-- CREATE_VF (R402) -/
  | createVf (tag vf part tenant : Nat) (pol : Policy) (sigOk : Bool)
  /-- ASSIGN (R403) -/
  | assign (tag part : Nat) (coils chans : List Nat)
  /-- SCHEDULE (R403) -/
  | schedule (tag vf slice rec_ : Nat)
  /-- PAUSE (R405) -/
  | pause (tag vf buf size : Nat)
  /-- RESUME (R403) -/
  | resume (tag vf : Nat)
  /-- EVICT_CONTEXT (R404) -/
  | evictContext (tag vf : Nat) (dest : EvictTo)
  /-- EVICT_SEGMENT (R404) -/
  | evictSegment (tag vf seg handle : Nat)
  /-- RESTORE (R404) -/
  | restore (tag vf : Nat) (from_ : RestoreFrom) (image : SealedImage)
  /-- RESIZE (R403) -/
  | resize (tag part : Nat) (coils chans : List Nat)
  /-- RESET (R406) -/
  | reset (tag part : Nat)
  /-- PAGE_REPLY_GRANT (R118) -/
  | pageReplyGrant (tag vf reqid : Nat) (handles : List Nat)
  /-- PAGE_REPLY_REFUSE (R120) -/
  | pageReplyRefuse (tag vf reqid : Nat)
  /-- QUERY_IDENTIFIER (R403) -/
  | queryIdentifier (tag : Nat) (vf : Option Nat)
  /-- QUERY_VF_STATE (R403) -/
  | queryVfState (tag vf : Nat)
  /-- QUERY_FREE_CHUNKS (R403) -/
  | queryFreeChunks (tag : Nat) (vf : Option Nat) (part : Nat)
  /-- RESET_VF (R407) -/
  | resetVf (tag vf : Nat)
  /-- POWER_GOOD (R425) -/
  | powerGood
  /-- STAGE0_COMPLETE (R425) -/
  | stage0Complete
  /-- STAGE1_COMPLETE (R425) -/
  | stage1Complete (badChans : List Nat)
  /-- STAGE2_COMPLETE (R425) -/
  | stage2Complete (badPorts : List Nat)
  /-- SENSOR_SWEEP (R431) -/
  | sensorSweep (r : SweepReport)
  /-- ILLEGAL_INSTRUCTION_WORD (R36) -/
  | illegalInstructionWord (w : BitVec 32)
  /-- FETCH_FAULT (R14) -/
  | fetchFault
  /-- CXL_MEM_ACCESS (R316) -/
  | cxlMemAccess (vf addr : Nat) (wr : Option (List (BitVec 8)))
  /-- HOST_LINK_TRAINING (R316) -/
  | hostLinkTraining (port : Nat) (req : LinkFeatures)
  /-- SPDM_MESSAGE (R401) -/
  | spdmMessage (msg : SpdmMsg)
  /-- XRED_CONTRIBUTION_RECEIVE (R329) -/
  | xredContributionReceive (part grp : Nat) (c : Contribution)
  /-- GROUP_MEMBERSHIP_MESSAGE (R353) -/
  | groupMembershipMessage (part grp : Nat) (msg : MemberMsg)
  /-- MEASURED_TEMPERATURE (R428) -/
  | measuredTemperature (sensor : Sensor) (milliC : Nat)
  deriving DecidableEq, Repr

end Sys2Proof
end

