-- ==== Sys2Proof/WellFormed.lean ====
section
/-!
DEFINITION. Which instructions are well formed: the accepted MOD values (R24) and the operand limits (R19, R21, R26,
R30, R37 and the owning chapters). What the word itself fixes (must-be-zero fields) is Decode's.
-/
namespace Sys2Proof

/-- The configuration registers each engine's map defines (R204, R219, R226, R298). -/
def configDefined (eng reg : Nat) : Bool :=
  match eng with
  | 0 => reg ≤ 0x1B
  | 1 => reg ≤ 0x00B
  | 2 => reg ≤ 0x00B
  | 3 => reg ≤ 0x00F
  | _ => false

/-- The MOD field holds a value the instruction accepts (R24, R36 step 3; instructions that list no MOD value have
no MOD field here). -/
def Instr.modOk : Instr → Bool
  | .add _ _ _ _ m _ => decide (m.toNat ≤ 1)
  | .sub _ _ _ _ m _ => decide (m.toNat ≤ 1)
  | .mul _ _ _ _ m _ => decide (m.toNat ≤ 1)
  | _ => true

/-- Every operand field lies within its limit (Table 3 of R19, R36 step 5 and the scope check of step 3). -/
def Instr.operandsOk : Instr → Bool
  | .sfcmp _ _ _ r _ _ => decide (r.toNat ≤ 2)
  | .sfcvt _ _ v _ _ _ => decide (v.toNat ≤ 7)
  | .sext _ _ w _ => decide (w.toNat ≤ 2)
  | .beq _ _ _ slot _ => decide (slot.toNat ≠ 0)
  | .bne _ _ _ slot _ => decide (slot.toNat ≠ 0)
  | .blt _ _ _ slot _ => decide (slot.toNat ≠ 0)
  | .bge _ _ _ slot _ => decide (slot.toNat ≠ 0)
  | .jmp _ slot _ => decide (slot.toNat ≠ 0)
  | .call _ slot _ => decide (slot.toNat ≠ 0)
  | .bnzd _ _ slot _ => decide (slot.toNat ≠ 0)
  | .samo32 _ _ _ o _ => decide (o.toNat ≤ 8)
  | .samo64 _ _ _ o _ => decide (o.toNat ≤ 8)
  | .qpush q _ _ _ => decide (q.toNat ≤ 3)
  | .qpop _ q _ _ => decide (q.toNat ≤ 3)
  | .qpushs _ q _ => decide (q.toNat ≤ 1)
  | .qpops _ q _ => decide (q.toNat ≤ 1)
  | .qstat _ q _ => decide (q.toNat ≤ 5)
  | .rel scope _ => decide (scope.toNat ≤ 5)
  | .acq scope _ => decide (scope.toNat ≤ 5)
  | .bar imm _ => decide (imm.toNat ≤ 15)
  | .sqpop d _ _ => decide (d.toNat ≠ 0 ∧ d.toNat ≠ 31)
  | .xred _ o _ _ _ _ => decide (o.toNat ≤ 2)
  | .ecfg e r _ _ => decide (e.toNat ≤ 3) && decide (configDefined e.toNat r.toNat)
  | .ecfgr e r _ _ => decide (e.toNat ≤ 3) && decide (configDefined e.toNat r.toNat)
  | .ego e _ _ => decide (e.toNat ≤ 3) && decide (e.toNat ≤ 2)
  | .ewait e _ _ => decide (e.toNat ≤ 3)
  | .estat e r _ _ => decide (e.toNat ≤ 3) && decide (0x100 ≤ r.toNat ∧ r.toNat ≤ 0x105)
  | .ecancel e _ _ => decide (e.toNat ≤ 3)
  | .publish _ scope _ => decide (scope.toNat ≤ 5)
  | .mxzero x _ => decide (x.toNat ≤ 3)
  | .vaccrd _ x _ _ _ => decide (x.toNat ≤ 3)
  | .vaccwr x _ _ _ _ => decide (x.toNat ≤ 3)
  | .ejrnl e _ _ => decide (e.toNat ≤ 3)
  | .tsqstat r _ _ => decide (r.toNat ≤ 5)
  | .vcmpeqVv d _ _ _ _ => decide (d.toNat ≤ 7)
  | .vcmpeqVs d _ _ _ _ => decide (d.toNat ≤ 7)
  | .vcmpeqVi d _ _ _ _ => decide (d.toNat ≤ 7)
  | .vcmpltVv d _ _ _ _ => decide (d.toNat ≤ 7)
  | .vcmpltVs d _ _ _ _ => decide (d.toNat ≤ 7)
  | .vcmpltVi d _ _ _ _ => decide (d.toNat ≤ 7)
  | .vcmpleVv d _ _ _ _ => decide (d.toNat ≤ 7)
  | .vcmpleVs d _ _ _ _ => decide (d.toNat ≤ 7)
  | .vcmpleVi d _ _ _ _ => decide (d.toNat ≤ 7)
  | .kand d a b _ => decide (d.toNat ≤ 7 ∧ a.toNat ≤ 7 ∧ b.toNat ≤ 7)
  | .kor d a b _ => decide (d.toNat ≤ 7 ∧ a.toNat ≤ 7 ∧ b.toNat ≤ 7)
  | .kxor d a b _ => decide (d.toNat ≤ 7 ∧ a.toNat ≤ 7 ∧ b.toNat ≤ 7)
  | .knot d a _ => decide (d.toNat ≤ 7 ∧ a.toNat ≤ 7)
  | .kffs _ a _ => decide (a.toNat ≤ 7)
  | .kpopc _ a _ => decide (a.toNat ≤ 7)
  | .kset d _ _ _ => decide (d.toNat ≤ 7)
  | .kmv d _ _ => decide (d.toNat ≤ 7)
  | .vldq q _ _ _ _ _ _ _ => decide (q.toNat ≤ 3)
  | .vstq q _ _ _ _ _ => decide (q.toNat ≤ 3)
  | .vlda _ _ _ _ _ scope _ => decide (scope.toNat ≤ 5)
  | .vstr _ _ _ _ scope _ => decide (scope.toNat ≤ 5)
  | .vflush _ _ _ scope _ => decide (scope.toNat ≤ 5)
  | .vinvl _ _ _ scope _ => decide (scope.toNat ≤ 5)
  | .vcas v _ _ _ _ => decide (v.toNat ≤ 30)
  | .vsc _ _ _ k _ => decide (k.toNat ≠ 0)
  | .tagsetImm _ fsel _ => decide (fsel.toNat ≤ 5)
  | .tagsetParam _ fsel _ => decide (fsel.toNat ≤ 5)
  | .tcvt _ _ _ r _ _ => decide (r.toNat ≤ 5)
  | .tpack _ _ w v p => decide (w.toNat ≤ 5 ∧ v.toNat < w.toNat ∧ p.toNat < 2 ^ (w.toNat - v.toNat))
  | .tunpk _ _ w v p => decide (v.toNat ≤ 5 ∧ w.toNat < v.toNat ∧ p.toNat < 2 ^ (v.toNat - w.toNat))
  | .ttrn w => decide (w.toNat ≤ 5)
  | _ => true

/-- A well-formed instruction: what a decoder may answer. -/
def Instr.wf (i : Instr) : Bool := i.modOk && i.operandsOk

/-- A step of the table that has no word of its own: an event, or an operation its instruction selects by a register
value and whose word decodes to the first row of that word (TKCFG, MAPSET, PGQACK, STRANDCTL). -/
def Instr.wordless : Instr → Bool
  | .tkcfgDrain .. => true
  | .mapsetPerm .. => true
  | .mapsetAlloc .. => true
  | .mapsetQuery .. => true
  | .pgqackRefuse .. => true
  | .strandctlHalt .. => true
  | .strandctlResume .. => true
  | .strandctlKill .. => true
  | .ancallOther _ _ imm _ => imm.toNat = 1 || imm.toNat = 2 || imm.toNat = 0x10 || imm.toNat = 0x11 || imm.toNat = 0x12
  | .jrnlbaseWrite .. => true
  | .qcfgWrite .. => true
  | .tkselWrite .. => true
  | .scopestWrite .. => true
  | .sqendWrite .. => true
  | .trapstatusWrite .. => true
  | .s1rootWrite .. => true
  | .engineFaultTrap => true
  | .commandStart .. => true
  | .commandComplete .. => true
  | .cpeUnit .. => true
  | .mxeStep .. => true
  | .multicastForm .. => true
  | .rowRelease .. => true
  | .mxeOutputRow .. => true
  | .tsqInstructionIssue .. => true
  | .rceLineRecode .. => true
  | .rcePack .. => true
  | .fitCheckedWrite .. => true
  | .segmentSwitch .. => true
  | .writebackMerge .. => true
  | .l1Eviction .. => true
  | .dirtyAgeSweep .. => true
  | .hostSnoop .. => true
  | .lineReadComplete .. => true
  | .patrolRead .. => true
  | .activationAlert .. => true
  | .backoffEnd .. => true
  | .scrubBank .. => true
  | .walkComplete .. => true
  | .pageRequestDeliver .. => true
  | .elementReplay .. => true
  | .longStallTimeout .. => true
  | .unmapChunkReturn .. => true
  | .scalarStorePerform .. => true
  | .issueRound .. => true
  | .queueSquash .. => true
  | .sliceEnd .. => true
  | .partitionContextSwap .. => true
  | .partitionContextRestore .. => true
  | .braidStart .. => true
  | .plyPlacement .. => true
  | .stageEnd .. => true
  | .braidComplete .. => true
  | .rebalanceRise .. => true
  | .rebalanceFull .. => true
  | .rebalanceDrain .. => true
  | .plyReplace .. => true
  | .coilFusionChange .. => true
  | .barrierComplete .. => true
  | .xmessageReceive .. => true
  | .memberFail .. => true
  | .collectiveTimeout .. => true
  | .mirrorReference .. => true
  | .packedLineReceive .. => true
  | .linkRetry .. => true
  | .linkRetrain .. => true
  | .createVf .. => true
  | .assign .. => true
  | .schedule .. => true
  | .pause .. => true
  | .resume .. => true
  | .evictContext .. => true
  | .evictSegment .. => true
  | .restore .. => true
  | .resize .. => true
  | .reset .. => true
  | .pageReplyGrant .. => true
  | .pageReplyRefuse .. => true
  | .queryIdentifier .. => true
  | .queryVfState .. => true
  | .queryFreeChunks .. => true
  | .resetVf .. => true
  | .powerGood => true
  | .stage0Complete => true
  | .stage1Complete .. => true
  | .stage2Complete .. => true
  | .sensorSweep .. => true
  | .illegalInstructionWord .. => true
  | .fetchFault => true
  | .cxlMemAccess .. => true
  | .hostLinkTraining .. => true
  | .spdmMessage .. => true
  | .xredContributionReceive .. => true
  | .groupMembershipMessage .. => true
  | .measuredTemperature .. => true
  | _ => false

/-- An instruction of the transform sequencer (R230); its words stand only in ENG = 0b010 lines (R38). -/
def Instr.isTsq : Instr → Bool
  | .thalt => true
  | .tloopImm .. => true
  | .tloopParam .. => true
  | .tnext .. => true
  | .tjmp .. => true
  | .tagsetImm .. => true
  | .tagsetParam .. => true
  | .trd .. => true
  | .twr .. => true
  | .tcvt .. => true
  | .tpack .. => true
  | .tunpk .. => true
  | .ttrn .. => true
  | .tscl .. => true
  | .tbsc .. => true
  | .tsig .. => true
  | .twt .. => true
  | _ => false

/-- An event: a step that no fetched word names. -/
def Instr.isEvent : Instr → Bool
  | .jrnlbaseWrite .. => true
  | .qcfgWrite .. => true
  | .tkselWrite .. => true
  | .scopestWrite .. => true
  | .sqendWrite .. => true
  | .trapstatusWrite .. => true
  | .s1rootWrite .. => true
  | .engineFaultTrap => true
  | .commandStart .. => true
  | .commandComplete .. => true
  | .cpeUnit .. => true
  | .mxeStep .. => true
  | .multicastForm .. => true
  | .rowRelease .. => true
  | .mxeOutputRow .. => true
  | .tsqInstructionIssue .. => true
  | .rceLineRecode .. => true
  | .rcePack .. => true
  | .fitCheckedWrite .. => true
  | .segmentSwitch .. => true
  | .writebackMerge .. => true
  | .l1Eviction .. => true
  | .dirtyAgeSweep .. => true
  | .hostSnoop .. => true
  | .lineReadComplete .. => true
  | .patrolRead .. => true
  | .activationAlert .. => true
  | .backoffEnd .. => true
  | .scrubBank .. => true
  | .walkComplete .. => true
  | .pageRequestDeliver .. => true
  | .elementReplay .. => true
  | .longStallTimeout .. => true
  | .unmapChunkReturn .. => true
  | .scalarStorePerform .. => true
  | .issueRound .. => true
  | .queueSquash .. => true
  | .sliceEnd .. => true
  | .partitionContextSwap .. => true
  | .partitionContextRestore .. => true
  | .braidStart .. => true
  | .plyPlacement .. => true
  | .stageEnd .. => true
  | .braidComplete .. => true
  | .rebalanceRise .. => true
  | .rebalanceFull .. => true
  | .rebalanceDrain .. => true
  | .plyReplace .. => true
  | .coilFusionChange .. => true
  | .barrierComplete .. => true
  | .xmessageReceive .. => true
  | .memberFail .. => true
  | .collectiveTimeout .. => true
  | .mirrorReference .. => true
  | .packedLineReceive .. => true
  | .linkRetry .. => true
  | .linkRetrain .. => true
  | .createVf .. => true
  | .assign .. => true
  | .schedule .. => true
  | .pause .. => true
  | .resume .. => true
  | .evictContext .. => true
  | .evictSegment .. => true
  | .restore .. => true
  | .resize .. => true
  | .reset .. => true
  | .pageReplyGrant .. => true
  | .pageReplyRefuse .. => true
  | .queryIdentifier .. => true
  | .queryVfState .. => true
  | .queryFreeChunks .. => true
  | .resetVf .. => true
  | .powerGood => true
  | .stage0Complete => true
  | .stage1Complete .. => true
  | .stage2Complete .. => true
  | .sensorSweep .. => true
  | .illegalInstructionWord .. => true
  | .fetchFault => true
  | .cxlMemAccess .. => true
  | .hostLinkTraining .. => true
  | .spdmMessage .. => true
  | .xredContributionReceive .. => true
  | .groupMembershipMessage .. => true
  | .measuredTemperature .. => true
  | _ => false

end Sys2Proof
end

