-- ==== Sys2Proof/Decode.lean ====
section
/-!
DEFINITION. The decoder of strand words (R18-R37) and of transform-sequencer words (R230), total on any word and
rejecting by name; after it the encoder, written from the same formats. Reserved and must-be-zero bits are checked as
R20 says; FORM values not accepted have no arm (R23). The strand decoder is marked noncomputable for one reason: Lean's
code generator cannot build objects of constructors numbered above 244, and Instr has more; the kernel evaluates it.
-/
namespace Sys2Proof

/-- Why a word is no instruction (R36 steps 1 to 5; every one is ILLEGAL_INSTRUCTION, and BADOP for a TSQ word). -/
inductive Reject where
  /-- OP is a reserved byte, or an unassigned TSQ opcode -/
  | reservedOpcode
  /-- FORM is 0b11 or not accepted (R22, R23) -/
  | formNotAccepted
  /-- a MOD value the instruction does not accept (R24) -/
  | modNotAccepted
  /-- a must-be-zero field is nonzero (R20) -/
  | nonzeroField
  /-- an operand outside its limit (R19) -/
  | operandOutside
  deriving DecidableEq, Repr

/-- The field of `n` bits whose least significant bit is bit `lo` (R6). -/
def fld (w : Code) (lo n : Nat) : BitVec n := BitVec.ofNat n (w.toNat / 2 ^ lo)

/-- OP, bits [31:24] (R18). -/
def opOf (w : Code) : Nat := w.toNat / 2 ^ 24

/-- FORM, bits [23:22] (R22). -/
def formOf (w : Code) : Nat := w.toNat / 2 ^ 22 % 4

/-- Answer `i` when the must-be-zero bits `zeros` of `w` are zero and `i` is well formed. -/
def accept (w zeros : Code) (i : Instr) : Except Reject Instr :=
  if w &&& zeros ≠ 0 then .error .nonzeroField
  else if !i.modOk then .error .modNotAccepted
  else if !i.operandsOk then .error .operandOutside
  else .ok i

/-- OP bytes 0x00 to 0x0F (Table 6 of R37). -/
noncomputable def decode0 (w : Code) : Except Reject Instr :=
  match opOf w with
  | 0x00 => accept w 0xFFFFFC (.nop (fld w 0 2))
  | 0x01 => accept w 0x0001E0 (.add (fld w 19 5) (fld w 14 5) (fld w 9 5) (fld w 4 1) (fld w 2 2) (fld w 0 2))
  | 0x02 => accept w 0x0001E0 (.sub (fld w 19 5) (fld w 14 5) (fld w 9 5) (fld w 4 1) (fld w 2 2) (fld w 0 2))
  | 0x03 => accept w 0x0001E0 (.mul (fld w 19 5) (fld w 14 5) (fld w 9 5) (fld w 4 1) (fld w 2 2) (fld w 0 2))
  | 0x04 => accept w 0x0001EC (.mulh (fld w 19 5) (fld w 14 5) (fld w 9 5) (fld w 4 1) (fld w 0 2))
  | 0x05 => accept w 0x0001EC (.div (fld w 19 5) (fld w 14 5) (fld w 9 5) (fld w 4 1) (fld w 0 2))
  | 0x06 => accept w 0x0001EC (.rem (fld w 19 5) (fld w 14 5) (fld w 9 5) (fld w 4 1) (fld w 0 2))
  | 0x07 => accept w 0x0001FC (.and (fld w 19 5) (fld w 14 5) (fld w 9 5) (fld w 0 2))
  | 0x08 => accept w 0x0001FC (.or (fld w 19 5) (fld w 14 5) (fld w 9 5) (fld w 0 2))
  | 0x09 => accept w 0x0001FC (.xor (fld w 19 5) (fld w 14 5) (fld w 9 5) (fld w 0 2))
  | 0x0A => accept w 0x0001FC (.shl (fld w 19 5) (fld w 14 5) (fld w 9 5) (fld w 0 2))
  | 0x0B => accept w 0x0001FC (.shr (fld w 19 5) (fld w 14 5) (fld w 9 5) (fld w 0 2))
  | 0x0C => accept w 0x0001FC (.sra (fld w 19 5) (fld w 14 5) (fld w 9 5) (fld w 0 2))
  | 0x0D => accept w 0x0001EC (.min (fld w 19 5) (fld w 14 5) (fld w 9 5) (fld w 4 1) (fld w 0 2))
  | 0x0E => accept w 0x0001EC (.max (fld w 19 5) (fld w 14 5) (fld w 9 5) (fld w 4 1) (fld w 0 2))
  | 0x0F => accept w 0x0001EC (.slt (fld w 19 5) (fld w 14 5) (fld w 9 5) (fld w 4 1) (fld w 0 2))
  | _ => .error .reservedOpcode

/-- OP bytes 0x10 to 0x1F (Table 6 of R37). -/
noncomputable def decode1 (w : Code) : Except Reject Instr :=
  match opOf w with
  | 0x10 => accept w 0x000000 (.addi (fld w 19 5) (fld w 14 5) (fld w 2 12) (fld w 0 2))
  | 0x11 => accept w 0x000000 (.andi (fld w 19 5) (fld w 14 5) (fld w 2 12) (fld w 0 2))
  | 0x12 => accept w 0x000000 (.ori (fld w 19 5) (fld w 14 5) (fld w 2 12) (fld w 0 2))
  | 0x13 => accept w 0x000000 (.xori (fld w 19 5) (fld w 14 5) (fld w 2 12) (fld w 0 2))
  | 0x14 => accept w 0x000000 (.shli (fld w 19 5) (fld w 14 5) (fld w 2 12) (fld w 0 2))
  | 0x15 => accept w 0x000000 (.shri (fld w 19 5) (fld w 14 5) (fld w 2 12) (fld w 0 2))
  | 0x16 => accept w 0x000000 (.srai (fld w 19 5) (fld w 14 5) (fld w 2 12) (fld w 0 2))
  | 0x17 => accept w 0x000000 (.slti (fld w 19 5) (fld w 14 5) (fld w 2 12) (fld w 0 2))
  | 0x18 => accept w 0x000000 (.movhi (fld w 19 5) (fld w 14 5) (fld w 2 12) (fld w 0 2))
  | 0x19 => accept w 0x000000 (.limm (fld w 0 24))
  | 0x1A => accept w 0x003FFC (.clz (fld w 19 5) (fld w 14 5) (fld w 0 2))
  | 0x1B => accept w 0x003FFC (.ctz (fld w 19 5) (fld w 14 5) (fld w 0 2))
  | 0x1C => accept w 0x003FFC (.popc (fld w 19 5) (fld w 14 5) (fld w 0 2))
  | 0x1D => accept w 0x00000C (.bfx (fld w 19 5) (fld w 14 5) (fld w 9 5) (fld w 4 5) (fld w 0 2))
  | 0x1E => accept w 0x00000C (.bfi (fld w 19 5) (fld w 14 5) (fld w 9 5) (fld w 4 5) (fld w 0 2))
  | 0x1F => accept w 0x00000C (.sel (fld w 19 5) (fld w 14 5) (fld w 9 5) (fld w 4 5) (fld w 0 2))
  | _ => .error .reservedOpcode

/-- OP bytes 0x20 to 0x2F (Table 6 of R37). -/
noncomputable def decode2 (w : Code) : Except Reject Instr :=
  match opOf w with
  | 0x20 => accept w 0x0001C0 (.sfadd (fld w 19 5) (fld w 14 5) (fld w 9 5) (fld w 4 2) (fld w 2 2) (fld w 0 2))
  | 0x21 => accept w 0x0001C0 (.sfsub (fld w 19 5) (fld w 14 5) (fld w 9 5) (fld w 4 2) (fld w 2 2) (fld w 0 2))
  | 0x22 => accept w 0x0001C0 (.sfmul (fld w 19 5) (fld w 14 5) (fld w 9 5) (fld w 4 2) (fld w 2 2) (fld w 0 2))
  | 0x23 => accept w 0x0001C0 (.sfdiv (fld w 19 5) (fld w 14 5) (fld w 9 5) (fld w 4 2) (fld w 2 2) (fld w 0 2))
  | 0x24 => accept w 0x0001C0 (.sfma (fld w 19 5) (fld w 14 5) (fld w 9 5) (fld w 4 2) (fld w 2 2) (fld w 0 2))
  | 0x25 => accept w 0x0001CC (.sfmin (fld w 19 5) (fld w 14 5) (fld w 9 5) (fld w 4 2) (fld w 0 2))
  | 0x26 => accept w 0x0001CC (.sfmax (fld w 19 5) (fld w 14 5) (fld w 9 5) (fld w 4 2) (fld w 0 2))
  | 0x27 => accept w 0x00010C (.sfcmp (fld w 19 5) (fld w 14 5) (fld w 9 5) (fld w 6 2) (fld w 4 2) (fld w 0 2))
  | 0x28 => accept w 0x0001C0 (.sfcvt (fld w 19 5) (fld w 14 5) (fld w 9 5) (fld w 4 2) (fld w 2 2) (fld w 0 2))
  | 0x29 => accept w 0x003FC0 (.sfsqrt (fld w 19 5) (fld w 14 5) (fld w 4 2) (fld w 2 2) (fld w 0 2))
  | 0x2A => accept w 0x003FCC (.sfclass (fld w 19 5) (fld w 14 5) (fld w 4 2) (fld w 0 2))
  | 0x2B => accept w 0x003FCC (.sext (fld w 19 5) (fld w 14 5) (fld w 4 2) (fld w 0 2))
  | _ => .error .reservedOpcode

/-- OP bytes 0x30 to 0x3F (Table 6 of R37). -/
noncomputable def decode3 (w : Code) : Except Reject Instr :=
  match opOf w with
  | 0x30 => accept w 0x000000 (.beq (fld w 19 5) (fld w 14 5) (fld w 6 8) (fld w 2 4) (fld w 0 2))
  | 0x31 => accept w 0x000000 (.bne (fld w 19 5) (fld w 14 5) (fld w 6 8) (fld w 2 4) (fld w 0 2))
  | 0x32 => accept w 0x000000 (.blt (fld w 19 5) (fld w 14 5) (fld w 6 8) (fld w 2 4) (fld w 0 2))
  | 0x33 => accept w 0x000000 (.bge (fld w 19 5) (fld w 14 5) (fld w 6 8) (fld w 2 4) (fld w 0 2))
  | 0x34 => accept w 0x000000 (.jmp (fld w 6 18) (fld w 2 4) (fld w 0 2))
  | 0x35 => accept w 0x000000 (.call (fld w 6 18) (fld w 2 4) (fld w 0 2))
  | 0x36 => accept w 0x003FFC (.jr (fld w 19 5) (fld w 14 5) (fld w 0 2))
  | 0x37 => accept w 0x07C000 (.bnzd (fld w 19 5) (fld w 6 8) (fld w 2 4) (fld w 0 2))
  | 0x38 => accept w 0xFFC000 (.brk (fld w 2 12) (fld w 0 2))
  | 0x39 => accept w 0xFFC000 (.trap (fld w 2 12) (fld w 0 2))
  | 0x3A => accept w 0xFFFFFC (.rett (fld w 0 2))
  | 0x3B => accept w 0xFFFFFC (.exit (fld w 0 2))
  | 0x3C => accept w 0xFFFFFC (.yield (fld w 0 2))
  | 0x3D => accept w 0x07FFFC (.park (fld w 19 5) (fld w 0 2))
  | 0x3E => accept w 0x003FFC (.wake (fld w 19 5) (fld w 14 5) (fld w 0 2))
  | 0x3F =>
    match (fld w 2 12).toNat with
    | 0x001 => accept w 0 (.ancallBufdef (fld w 19 5) (fld w 14 5) (fld w 0 2))
    | 0x002 => accept w 0 (.ancallBufdrop (fld w 19 5) (fld w 14 5) (fld w 0 2))
    | 0x010 => accept w 0 (.grpopen (fld w 19 5) (fld w 14 5) (fld w 0 2))
    | 0x011 => accept w 0 (.grpleave (fld w 19 5) (fld w 14 5) (fld w 0 2))
    | 0x012 => accept w 0 (.grpspare (fld w 19 5) (fld w 14 5) (fld w 0 2))
    | _ => accept w 0 (.ancallOther (fld w 19 5) (fld w 14 5) (fld w 2 12) (fld w 0 2))
  | _ => .error .reservedOpcode

/-- OP bytes 0x40 to 0x4F (Table 6 of R37). -/
noncomputable def decode4 (w : Code) : Except Reject Instr :=
  match opOf w with
  | 0x40 => accept w 0x000000 (.sld8 (fld w 19 5) (fld w 14 5) (fld w 2 12) (fld w 0 2))
  | 0x41 => accept w 0x000000 (.sld16 (fld w 19 5) (fld w 14 5) (fld w 2 12) (fld w 0 2))
  | 0x42 => accept w 0x000000 (.sld32 (fld w 19 5) (fld w 14 5) (fld w 2 12) (fld w 0 2))
  | 0x43 => accept w 0x000000 (.sld64 (fld w 19 5) (fld w 14 5) (fld w 2 12) (fld w 0 2))
  | 0x44 => accept w 0x000000 (.sst8 (fld w 19 5) (fld w 14 5) (fld w 2 12) (fld w 0 2))
  | 0x45 => accept w 0x000000 (.sst16 (fld w 19 5) (fld w 14 5) (fld w 2 12) (fld w 0 2))
  | 0x46 => accept w 0x000000 (.sst32 (fld w 19 5) (fld w 14 5) (fld w 2 12) (fld w 0 2))
  | 0x47 => accept w 0x000000 (.sst64 (fld w 19 5) (fld w 14 5) (fld w 2 12) (fld w 0 2))
  | 0x48 => accept w 0x00000C (.samo32 (fld w 19 5) (fld w 14 5) (fld w 9 5) (fld w 4 5) (fld w 0 2))
  | 0x49 => accept w 0x00000C (.samo64 (fld w 19 5) (fld w 14 5) (fld w 9 5) (fld w 4 5) (fld w 0 2))
  | 0x4A => accept w 0x00000C (.scas32 (fld w 19 5) (fld w 14 5) (fld w 9 5) (fld w 4 5) (fld w 0 2))
  | 0x4B => accept w 0x00000C (.scas64 (fld w 19 5) (fld w 14 5) (fld w 9 5) (fld w 4 5) (fld w 0 2))
  | 0x4C => accept w 0x07C000 (.csrr (fld w 19 5) (fld w 2 12) (fld w 0 2))
  | 0x4D => accept w 0xF80000 (.csrw (fld w 14 5) (fld w 2 12) (fld w 0 2))
  | 0x4E => accept w 0x000000 (.csrx (fld w 19 5) (fld w 14 5) (fld w 2 12) (fld w 0 2))
  | 0x4F => accept w 0xE00000 (.spf (fld w 19 2) (fld w 14 5) (fld w 2 12) (fld w 0 2))
  | _ => .error .reservedOpcode

/-- OP bytes 0x50 to 0x5F (Table 6 of R37). -/
noncomputable def decode5 (w : Code) : Except Reject Instr :=
  match opOf w with
  | 0x50 => accept w 0x0001FC (.tkcfgQuery (fld w 19 5) (fld w 14 5) (fld w 9 5) (fld w 0 2))
  | 0x51 => accept w 0x0001FC (.tkwait (fld w 19 5) (fld w 14 5) (fld w 9 5) (fld w 0 2))
  | 0x52 => accept w 0xF801FC (.tksend (fld w 14 5) (fld w 9 5) (fld w 0 2))
  | 0x53 => if formOf w = 0 then accept w 0x000F8C (.qpush (fld w 17 5) (fld w 12 5) (fld w 4 3) (fld w 0 2)) else .error .formNotAccepted
  | 0x54 => if formOf w = 0 then accept w 0x000F8C (.qpop (fld w 17 5) (fld w 12 5) (fld w 4 3) (fld w 0 2)) else .error .formNotAccepted
  | 0x55 => accept w 0xF83E0C (.qpushs (fld w 14 5) (fld w 4 5) (fld w 0 2))
  | 0x56 => accept w 0x07FE0C (.qpops (fld w 19 5) (fld w 4 5) (fld w 0 2))
  | 0x57 => accept w 0x07FE0C (.qstat (fld w 19 5) (fld w 4 5) (fld w 0 2))
  | 0x58 => accept w 0xFFFFFC (.fenceSv (fld w 0 2))
  | 0x59 => accept w 0xFFFFFC (.fenceVs (fld w 0 2))
  | 0x5A => accept w 0xFFFFFC (.fenceVv (fld w 0 2))
  | 0x5B => accept w 0xFFFFE0 (.rel (fld w 2 3) (fld w 0 2))
  | 0x5C => accept w 0xFFFFE0 (.acq (fld w 2 3) (fld w 0 2))
  | 0x5D => accept w 0xFFC000 (.bar (fld w 2 12) (fld w 0 2))
  | 0x5E => accept w 0xF801FC (.wmpub (fld w 14 5) (fld w 9 5) (fld w 0 2))
  | 0x5F => accept w 0xF801FC (.wmwait (fld w 14 5) (fld w 9 5) (fld w 0 2))
  | _ => .error .reservedOpcode

/-- OP bytes 0x60 to 0x6F (Table 6 of R37). -/
noncomputable def decode6 (w : Code) : Except Reject Instr :=
  match opOf w with
  | 0x60 => accept w 0x0001FC (.claim (fld w 19 5) (fld w 14 5) (fld w 9 5) (fld w 0 2))
  | 0x61 => accept w 0x003FFC (.launch (fld w 19 5) (fld w 14 5) (fld w 0 2))
  | 0x62 => accept w 0xF8000C (.sqpush (fld w 14 5) (fld w 9 5) (fld w 4 5) (fld w 0 2))
  | 0x63 => accept w 0x07FE0C (.sqpop (fld w 19 5) (fld w 4 5) (fld w 0 2))
  | 0x64 => accept w 0x07FE0C (.sqstat (fld w 19 5) (fld w 4 5) (fld w 0 2))
  | 0x65 => accept w 0x0001FC (.fmtset (fld w 19 5) (fld w 14 5) (fld w 9 5) (fld w 0 2))
  | 0x66 => accept w 0x003FFC (.fmtget (fld w 19 5) (fld w 14 5) (fld w 0 2))
  | 0x67 => accept w 0x00000C (.pltset (fld w 19 5) (fld w 14 5) (fld w 9 5) (fld w 4 5) (fld w 0 2))
  | 0x68 => accept w 0x0001FC (.pltget (fld w 19 5) (fld w 14 5) (fld w 9 5) (fld w 0 2))
  | 0x69 => accept w 0xF801FC (.tlbinv (fld w 14 5) (fld w 9 5) (fld w 0 2))
  | 0x6A => accept w 0x00000C (.rcreq (fld w 19 5) (fld w 14 5) (fld w 9 5) (fld w 4 5) (fld w 0 2))
  | 0x6B => accept w 0x003FFC (.wmread (fld w 19 5) (fld w 14 5) (fld w 0 2))
  | 0x6C => if formOf w = 0 then accept w 0x000000 (.xred (fld w 17 5) (fld w 12 5) (fld w 7 5) (fld w 4 3) (fld w 2 2) (fld w 0 2)) else .error .formNotAccepted
  | 0x6D => if formOf w = 0 then accept w 0x3E000C (.xsend (fld w 12 5) (fld w 7 5) (fld w 4 3) (fld w 0 2)) else .error .formNotAccepted
  | 0x6E => if formOf w = 0 then accept w 0x01F00C (.xrecv (fld w 17 5) (fld w 7 5) (fld w 4 3) (fld w 0 2)) else .error .formNotAccepted
  | 0x6F => accept w 0x0001FC (.xmemb (fld w 19 5) (fld w 14 5) (fld w 9 5) (fld w 0 2))
  | _ => .error .reservedOpcode

/-- OP bytes 0x70 to 0x7F (Table 6 of R37). -/
noncomputable def decode7 (w : Code) : Except Reject Instr :=
  match opOf w with
  | 0x70 => accept w 0x00007C (.ecfg (fld w 21 3) (fld w 12 9) (fld w 7 5) (fld w 0 2))
  | 0x71 => accept w 0x00007C (.ecfgr (fld w 21 3) (fld w 12 9) (fld w 7 5) (fld w 0 2))
  | 0x72 => accept w 0x1FF07C (.ego (fld w 21 3) (fld w 7 5) (fld w 0 2))
  | 0x73 => accept w 0x1FF07C (.ewait (fld w 21 3) (fld w 7 5) (fld w 0 2))
  | 0x74 => accept w 0x00007C (.estat (fld w 21 3) (fld w 12 9) (fld w 7 5) (fld w 0 2))
  | 0x75 => accept w 0x1FF07C (.ecancel (fld w 21 3) (fld w 7 5) (fld w 0 2))
  | 0x76 => accept w 0xF83F8C (.publish (fld w 14 5) (fld w 4 3) (fld w 0 2))
  | 0x77 => if formOf w = 0 then accept w 0x01FFFC (.mxzero (fld w 17 5) (fld w 0 2)) else .error .formNotAccepted
  | 0x78 => if formOf w = 0 then accept w 0x00000C (.vaccrd (fld w 17 5) (fld w 12 5) (fld w 7 5) (fld w 4 3) (fld w 0 2)) else .error .formNotAccepted
  | 0x79 => if formOf w = 0 then accept w 0x00000C (.vaccwr (fld w 17 5) (fld w 12 5) (fld w 7 5) (fld w 4 3) (fld w 0 2)) else .error .formNotAccepted
  | 0x7A => if fld w 21 3 = 3#3 then accept w 0x00007C (.tsqld (fld w 12 9) (fld w 7 5) (fld w 0 2)) else .error .operandOutside
  | 0x7B => if fld w 21 3 = 3#3 then accept w 0x00007C (.tsqgo (fld w 12 9) (fld w 7 5) (fld w 0 2)) else .error .operandOutside
  | 0x7C => accept w 0x1FF07C (.ejrnl (fld w 21 3) (fld w 7 5) (fld w 0 2))
  | 0x7D => if fld w 21 3 = 3#3 then accept w 0x00007C (.tsqstat (fld w 12 9) (fld w 7 5) (fld w 0 2)) else .error .operandOutside
  | _ => .error .reservedOpcode

/-- OP bytes 0x80 to 0x8F (Table 6 of R37). -/
noncomputable def decode8 (w : Code) : Except Reject Instr :=
  match opOf w with
  | 0x80 => accept w 0x000000 (.vsetl (fld w 19 5) (fld w 14 5) (fld w 11 3) (fld w 8 3) (fld w 7 1) (fld w 4 3) (fld w 2 2) (fld w 0 2))
  | 0x81 =>
    match formOf w with
    | 0 => accept w 0x01F00C (.vmvVv (fld w 17 5) (fld w 7 5) (fld w 4 3) (fld w 0 2))
    | 1 => accept w 0x01F00C (.vmvVs (fld w 17 5) (fld w 7 5) (fld w 4 3) (fld w 0 2))
    | 2 => accept w 0x01F00C (.vmvVi (fld w 17 5) (fld w 7 5) (fld w 4 3) (fld w 0 2))
    | _ => .error .formNotAccepted
  | 0x82 => if formOf w = 0 then accept w 0x00007C (.vmvx (fld w 17 5) (fld w 12 5) (fld w 7 5) (fld w 0 2)) else .error .formNotAccepted
  | 0x83 => if formOf w = 0 then accept w 0x00007C (.vmvs (fld w 17 5) (fld w 12 5) (fld w 7 5) (fld w 0 2)) else .error .formNotAccepted
  | 0x84 => if formOf w = 0 then accept w 0x00000C (.vtag (fld w 17 5) (fld w 12 5) (fld w 7 5) (fld w 4 3) (fld w 0 2)) else .error .formNotAccepted
  | 0x85 => if formOf w = 0 then accept w 0x000000 (.vcvt (fld w 17 5) (fld w 12 5) (fld w 7 5) (fld w 4 3) (fld w 2 2) (fld w 0 2)) else .error .formNotAccepted
  | 0x86 => if formOf w = 0 then accept w 0x01FF8C (.vid (fld w 17 5) (fld w 4 3) (fld w 0 2)) else .error .formNotAccepted
  | 0x87 => if formOf w = 0 then accept w 0x000000 (.vscale (fld w 17 5) (fld w 12 5) (fld w 7 5) (fld w 4 3) (fld w 2 2) (fld w 0 2)) else .error .formNotAccepted
  | 0x88 => if formOf w = 0 then accept w 0x000F8C (.vclass (fld w 17 5) (fld w 12 5) (fld w 4 3) (fld w 0 2)) else .error .formNotAccepted
  | 0x89 =>
    match formOf w with
    | 0 => accept w 0x00000C (.vmergeVv (fld w 17 5) (fld w 12 5) (fld w 7 5) (fld w 4 3) (fld w 0 2))
    | 1 => accept w 0x00000C (.vmergeVs (fld w 17 5) (fld w 12 5) (fld w 7 5) (fld w 4 3) (fld w 0 2))
    | 2 => accept w 0x00000C (.vmergeVi (fld w 17 5) (fld w 12 5) (fld w 7 5) (fld w 4 3) (fld w 0 2))
    | _ => .error .formNotAccepted
  | 0x8A => if formOf w = 0 then accept w 0x000F8C (.vcompress (fld w 17 5) (fld w 12 5) (fld w 4 3) (fld w 0 2)) else .error .formNotAccepted
  | 0x8B => if formOf w = 0 then accept w 0x000F8C (.vexpand (fld w 17 5) (fld w 12 5) (fld w 4 3) (fld w 0 2)) else .error .formNotAccepted
  | 0x8C =>
    match formOf w with
    | 1 => accept w 0x00000C (.vslupVs (fld w 17 5) (fld w 12 5) (fld w 7 5) (fld w 4 3) (fld w 0 2))
    | 2 => accept w 0x00000C (.vslupVi (fld w 17 5) (fld w 12 5) (fld w 7 5) (fld w 4 3) (fld w 0 2))
    | _ => .error .formNotAccepted
  | 0x8D =>
    match formOf w with
    | 1 => accept w 0x00000C (.vsldnVs (fld w 17 5) (fld w 12 5) (fld w 7 5) (fld w 4 3) (fld w 0 2))
    | 2 => accept w 0x00000C (.vsldnVi (fld w 17 5) (fld w 12 5) (fld w 7 5) (fld w 4 3) (fld w 0 2))
    | _ => .error .formNotAccepted
  | 0x8E => if formOf w = 0 then accept w 0x00000C (.vrgath (fld w 17 5) (fld w 12 5) (fld w 7 5) (fld w 4 3) (fld w 0 2)) else .error .formNotAccepted
  | 0x8F => if formOf w = 0 then accept w 0x000FFC (.vtrn (fld w 17 5) (fld w 12 5) (fld w 0 2)) else .error .formNotAccepted
  | _ => .error .reservedOpcode

/-- OP bytes 0x90 to 0x9F (Table 6 of R37). -/
noncomputable def decode9 (w : Code) : Except Reject Instr :=
  match opOf w with
  | 0x90 =>
    match formOf w with
    | 0 => accept w 0x000000 (.vaddVv (fld w 17 5) (fld w 12 5) (fld w 7 5) (fld w 4 3) (fld w 2 2) (fld w 0 2))
    | 1 => accept w 0x000000 (.vaddVs (fld w 17 5) (fld w 12 5) (fld w 7 5) (fld w 4 3) (fld w 2 2) (fld w 0 2))
    | 2 => accept w 0x000000 (.vaddVi (fld w 17 5) (fld w 12 5) (fld w 7 5) (fld w 4 3) (fld w 2 2) (fld w 0 2))
    | _ => .error .formNotAccepted
  | 0x91 =>
    match formOf w with
    | 0 => accept w 0x000000 (.vsubVv (fld w 17 5) (fld w 12 5) (fld w 7 5) (fld w 4 3) (fld w 2 2) (fld w 0 2))
    | 1 => accept w 0x000000 (.vsubVs (fld w 17 5) (fld w 12 5) (fld w 7 5) (fld w 4 3) (fld w 2 2) (fld w 0 2))
    | 2 => accept w 0x000000 (.vsubVi (fld w 17 5) (fld w 12 5) (fld w 7 5) (fld w 4 3) (fld w 2 2) (fld w 0 2))
    | _ => .error .formNotAccepted
  | 0x92 =>
    match formOf w with
    | 0 => accept w 0x000000 (.vmulVv (fld w 17 5) (fld w 12 5) (fld w 7 5) (fld w 4 3) (fld w 2 2) (fld w 0 2))
    | 1 => accept w 0x000000 (.vmulVs (fld w 17 5) (fld w 12 5) (fld w 7 5) (fld w 4 3) (fld w 2 2) (fld w 0 2))
    | 2 => accept w 0x000000 (.vmulVi (fld w 17 5) (fld w 12 5) (fld w 7 5) (fld w 4 3) (fld w 2 2) (fld w 0 2))
    | _ => .error .formNotAccepted
  | 0x93 =>
    match formOf w with
    | 0 => accept w 0x000000 (.vfmaVv (fld w 17 5) (fld w 12 5) (fld w 7 5) (fld w 4 3) (fld w 2 2) (fld w 0 2))
    | 1 => accept w 0x000000 (.vfmaVs (fld w 17 5) (fld w 12 5) (fld w 7 5) (fld w 4 3) (fld w 2 2) (fld w 0 2))
    | 2 => accept w 0x000000 (.vfmaVi (fld w 17 5) (fld w 12 5) (fld w 7 5) (fld w 4 3) (fld w 2 2) (fld w 0 2))
    | _ => .error .formNotAccepted
  | 0x94 =>
    match formOf w with
    | 0 => accept w 0x000000 (.vfmsVv (fld w 17 5) (fld w 12 5) (fld w 7 5) (fld w 4 3) (fld w 2 2) (fld w 0 2))
    | 1 => accept w 0x000000 (.vfmsVs (fld w 17 5) (fld w 12 5) (fld w 7 5) (fld w 4 3) (fld w 2 2) (fld w 0 2))
    | 2 => accept w 0x000000 (.vfmsVi (fld w 17 5) (fld w 12 5) (fld w 7 5) (fld w 4 3) (fld w 2 2) (fld w 0 2))
    | _ => .error .formNotAccepted
  | 0x95 =>
    match formOf w with
    | 0 => accept w 0x000000 (.vfnmaVv (fld w 17 5) (fld w 12 5) (fld w 7 5) (fld w 4 3) (fld w 2 2) (fld w 0 2))
    | 1 => accept w 0x000000 (.vfnmaVs (fld w 17 5) (fld w 12 5) (fld w 7 5) (fld w 4 3) (fld w 2 2) (fld w 0 2))
    | 2 => accept w 0x000000 (.vfnmaVi (fld w 17 5) (fld w 12 5) (fld w 7 5) (fld w 4 3) (fld w 2 2) (fld w 0 2))
    | _ => .error .formNotAccepted
  | 0x96 =>
    match formOf w with
    | 0 => accept w 0x000000 (.vdivVv (fld w 17 5) (fld w 12 5) (fld w 7 5) (fld w 4 3) (fld w 2 2) (fld w 0 2))
    | 1 => accept w 0x000000 (.vdivVs (fld w 17 5) (fld w 12 5) (fld w 7 5) (fld w 4 3) (fld w 2 2) (fld w 0 2))
    | 2 => accept w 0x000000 (.vdivVi (fld w 17 5) (fld w 12 5) (fld w 7 5) (fld w 4 3) (fld w 2 2) (fld w 0 2))
    | _ => .error .formNotAccepted
  | 0x97 => if formOf w = 0 then accept w 0x000F80 (.vsqrt (fld w 17 5) (fld w 12 5) (fld w 4 3) (fld w 2 2) (fld w 0 2)) else .error .formNotAccepted
  | 0x98 =>
    match formOf w with
    | 0 => accept w 0x000000 (.vminVv (fld w 17 5) (fld w 12 5) (fld w 7 5) (fld w 4 3) (fld w 2 2) (fld w 0 2))
    | 1 => accept w 0x000000 (.vminVs (fld w 17 5) (fld w 12 5) (fld w 7 5) (fld w 4 3) (fld w 2 2) (fld w 0 2))
    | 2 => accept w 0x000000 (.vminVi (fld w 17 5) (fld w 12 5) (fld w 7 5) (fld w 4 3) (fld w 2 2) (fld w 0 2))
    | _ => .error .formNotAccepted
  | 0x99 =>
    match formOf w with
    | 0 => accept w 0x000000 (.vmaxVv (fld w 17 5) (fld w 12 5) (fld w 7 5) (fld w 4 3) (fld w 2 2) (fld w 0 2))
    | 1 => accept w 0x000000 (.vmaxVs (fld w 17 5) (fld w 12 5) (fld w 7 5) (fld w 4 3) (fld w 2 2) (fld w 0 2))
    | 2 => accept w 0x000000 (.vmaxVi (fld w 17 5) (fld w 12 5) (fld w 7 5) (fld w 4 3) (fld w 2 2) (fld w 0 2))
    | _ => .error .formNotAccepted
  | 0x9A => if formOf w = 0 then accept w 0x000F80 (.vabs (fld w 17 5) (fld w 12 5) (fld w 4 3) (fld w 2 2) (fld w 0 2)) else .error .formNotAccepted
  | 0x9B => if formOf w = 0 then accept w 0x000F80 (.vneg (fld w 17 5) (fld w 12 5) (fld w 4 3) (fld w 2 2) (fld w 0 2)) else .error .formNotAccepted
  | 0x9C => if formOf w = 0 then accept w 0x000F80 (.vrsqrt (fld w 17 5) (fld w 12 5) (fld w 4 3) (fld w 2 2) (fld w 0 2)) else .error .formNotAccepted
  | 0x9D => if formOf w = 0 then accept w 0x000F80 (.vexp2 (fld w 17 5) (fld w 12 5) (fld w 4 3) (fld w 2 2) (fld w 0 2)) else .error .formNotAccepted
  | 0x9E => if formOf w = 0 then accept w 0x000F80 (.vlog2 (fld w 17 5) (fld w 12 5) (fld w 4 3) (fld w 2 2) (fld w 0 2)) else .error .formNotAccepted
  | 0x9F =>
    match formOf w with
    | 0 => accept w 0x000000 (.vmulhVv (fld w 17 5) (fld w 12 5) (fld w 7 5) (fld w 4 3) (fld w 2 2) (fld w 0 2))
    | 1 => accept w 0x000000 (.vmulhVs (fld w 17 5) (fld w 12 5) (fld w 7 5) (fld w 4 3) (fld w 2 2) (fld w 0 2))
    | 2 => accept w 0x000000 (.vmulhVi (fld w 17 5) (fld w 12 5) (fld w 7 5) (fld w 4 3) (fld w 2 2) (fld w 0 2))
    | _ => .error .formNotAccepted
  | _ => .error .reservedOpcode

/-- OP bytes 0xA0 to 0xAF (Table 6 of R37). -/
noncomputable def decodeA (w : Code) : Except Reject Instr :=
  match opOf w with
  | 0xA0 =>
    match formOf w with
    | 0 => accept w 0x00000C (.vandVv (fld w 17 5) (fld w 12 5) (fld w 7 5) (fld w 4 3) (fld w 0 2))
    | 1 => accept w 0x00000C (.vandVs (fld w 17 5) (fld w 12 5) (fld w 7 5) (fld w 4 3) (fld w 0 2))
    | 2 => accept w 0x00000C (.vandVi (fld w 17 5) (fld w 12 5) (fld w 7 5) (fld w 4 3) (fld w 0 2))
    | _ => .error .formNotAccepted
  | 0xA1 =>
    match formOf w with
    | 0 => accept w 0x00000C (.vorVv (fld w 17 5) (fld w 12 5) (fld w 7 5) (fld w 4 3) (fld w 0 2))
    | 1 => accept w 0x00000C (.vorVs (fld w 17 5) (fld w 12 5) (fld w 7 5) (fld w 4 3) (fld w 0 2))
    | 2 => accept w 0x00000C (.vorVi (fld w 17 5) (fld w 12 5) (fld w 7 5) (fld w 4 3) (fld w 0 2))
    | _ => .error .formNotAccepted
  | 0xA2 =>
    match formOf w with
    | 0 => accept w 0x00000C (.vxorVv (fld w 17 5) (fld w 12 5) (fld w 7 5) (fld w 4 3) (fld w 0 2))
    | 1 => accept w 0x00000C (.vxorVs (fld w 17 5) (fld w 12 5) (fld w 7 5) (fld w 4 3) (fld w 0 2))
    | 2 => accept w 0x00000C (.vxorVi (fld w 17 5) (fld w 12 5) (fld w 7 5) (fld w 4 3) (fld w 0 2))
    | _ => .error .formNotAccepted
  | 0xA3 => if formOf w = 0 then accept w 0x000F8C (.vnot (fld w 17 5) (fld w 12 5) (fld w 4 3) (fld w 0 2)) else .error .formNotAccepted
  | 0xA4 =>
    match formOf w with
    | 0 => accept w 0x00000C (.vshlVv (fld w 17 5) (fld w 12 5) (fld w 7 5) (fld w 4 3) (fld w 0 2))
    | 1 => accept w 0x00000C (.vshlVs (fld w 17 5) (fld w 12 5) (fld w 7 5) (fld w 4 3) (fld w 0 2))
    | 2 => accept w 0x00000C (.vshlVi (fld w 17 5) (fld w 12 5) (fld w 7 5) (fld w 4 3) (fld w 0 2))
    | _ => .error .formNotAccepted
  | 0xA5 =>
    match formOf w with
    | 0 => accept w 0x00000C (.vshrVv (fld w 17 5) (fld w 12 5) (fld w 7 5) (fld w 4 3) (fld w 0 2))
    | 1 => accept w 0x00000C (.vshrVs (fld w 17 5) (fld w 12 5) (fld w 7 5) (fld w 4 3) (fld w 0 2))
    | 2 => accept w 0x00000C (.vshrVi (fld w 17 5) (fld w 12 5) (fld w 7 5) (fld w 4 3) (fld w 0 2))
    | _ => .error .formNotAccepted
  | 0xA6 =>
    match formOf w with
    | 0 => accept w 0x00000C (.vsraVv (fld w 17 5) (fld w 12 5) (fld w 7 5) (fld w 4 3) (fld w 0 2))
    | 1 => accept w 0x00000C (.vsraVs (fld w 17 5) (fld w 12 5) (fld w 7 5) (fld w 4 3) (fld w 0 2))
    | 2 => accept w 0x00000C (.vsraVi (fld w 17 5) (fld w 12 5) (fld w 7 5) (fld w 4 3) (fld w 0 2))
    | _ => .error .formNotAccepted
  | 0xA7 =>
    match formOf w with
    | 0 => accept w 0x00000C (.vcmpeqVv (fld w 17 5) (fld w 12 5) (fld w 7 5) (fld w 4 3) (fld w 0 2))
    | 1 => accept w 0x00000C (.vcmpeqVs (fld w 17 5) (fld w 12 5) (fld w 7 5) (fld w 4 3) (fld w 0 2))
    | 2 => accept w 0x00000C (.vcmpeqVi (fld w 17 5) (fld w 12 5) (fld w 7 5) (fld w 4 3) (fld w 0 2))
    | _ => .error .formNotAccepted
  | 0xA8 =>
    match formOf w with
    | 0 => accept w 0x00000C (.vcmpltVv (fld w 17 5) (fld w 12 5) (fld w 7 5) (fld w 4 3) (fld w 0 2))
    | 1 => accept w 0x00000C (.vcmpltVs (fld w 17 5) (fld w 12 5) (fld w 7 5) (fld w 4 3) (fld w 0 2))
    | 2 => accept w 0x00000C (.vcmpltVi (fld w 17 5) (fld w 12 5) (fld w 7 5) (fld w 4 3) (fld w 0 2))
    | _ => .error .formNotAccepted
  | 0xA9 =>
    match formOf w with
    | 0 => accept w 0x00000C (.vcmpleVv (fld w 17 5) (fld w 12 5) (fld w 7 5) (fld w 4 3) (fld w 0 2))
    | 1 => accept w 0x00000C (.vcmpleVs (fld w 17 5) (fld w 12 5) (fld w 7 5) (fld w 4 3) (fld w 0 2))
    | 2 => accept w 0x00000C (.vcmpleVi (fld w 17 5) (fld w 12 5) (fld w 7 5) (fld w 4 3) (fld w 0 2))
    | _ => .error .formNotAccepted
  | 0xAA => if formOf w = 0 then accept w 0x00007C (.kand (fld w 17 5) (fld w 12 5) (fld w 7 5) (fld w 0 2)) else .error .formNotAccepted
  | 0xAB => if formOf w = 0 then accept w 0x00007C (.kor (fld w 17 5) (fld w 12 5) (fld w 7 5) (fld w 0 2)) else .error .formNotAccepted
  | 0xAC => if formOf w = 0 then accept w 0x00007C (.kxor (fld w 17 5) (fld w 12 5) (fld w 7 5) (fld w 0 2)) else .error .formNotAccepted
  | 0xAD => if formOf w = 0 then accept w 0x000FFC (.knot (fld w 17 5) (fld w 12 5) (fld w 0 2)) else .error .formNotAccepted
  | 0xAE => if formOf w = 0 then accept w 0x000FFC (.kffs (fld w 17 5) (fld w 12 5) (fld w 0 2)) else .error .formNotAccepted
  | 0xAF => if formOf w = 0 then accept w 0x000FFC (.kpopc (fld w 17 5) (fld w 12 5) (fld w 0 2)) else .error .formNotAccepted
  | _ => .error .reservedOpcode

/-- OP bytes 0xB0 to 0xBF (Table 6 of R37). -/
noncomputable def decodeB (w : Code) : Except Reject Instr :=
  match opOf w with
  | 0xB0 => if formOf w = 0 then accept w 0x000F80 (.vredsum (fld w 17 5) (fld w 12 5) (fld w 4 3) (fld w 2 2) (fld w 0 2)) else .error .formNotAccepted
  | 0xB1 => if formOf w = 0 then accept w 0x000F80 (.vredmin (fld w 17 5) (fld w 12 5) (fld w 4 3) (fld w 2 2) (fld w 0 2)) else .error .formNotAccepted
  | 0xB2 => if formOf w = 0 then accept w 0x000F80 (.vredmax (fld w 17 5) (fld w 12 5) (fld w 4 3) (fld w 2 2) (fld w 0 2)) else .error .formNotAccepted
  | 0xB3 => if formOf w = 0 then accept w 0x000F8C (.vredxor (fld w 17 5) (fld w 12 5) (fld w 4 3) (fld w 0 2)) else .error .formNotAccepted
  | 0xB4 => if formOf w = 0 then accept w 0x000F8C (.vredarg (fld w 17 5) (fld w 12 5) (fld w 4 3) (fld w 0 2)) else .error .formNotAccepted
  | 0xB5 => if formOf w = 0 then accept w 0x000F80 (.vscan (fld w 17 5) (fld w 12 5) (fld w 4 3) (fld w 2 2) (fld w 0 2)) else .error .formNotAccepted
  | 0xB6 => if formOf w = 0 then accept w 0x000F80 (.vscanx (fld w 17 5) (fld w 12 5) (fld w 4 3) (fld w 2 2) (fld w 0 2)) else .error .formNotAccepted
  | 0xB7 => if formOf w = 0 then accept w 0x000000 (.vdot (fld w 17 5) (fld w 12 5) (fld w 7 5) (fld w 4 3) (fld w 2 2) (fld w 0 2)) else .error .formNotAccepted
  | 0xB8 => if formOf w = 0 then accept w 0x00007C (.kset (fld w 17 5) (fld w 12 5) (fld w 7 5) (fld w 0 2)) else .error .formNotAccepted
  | 0xB9 => if formOf w = 0 then accept w 0x000FFC (.kmv (fld w 17 5) (fld w 12 5) (fld w 0 2)) else .error .formNotAccepted
  | 0xBA => if formOf w = 0 then accept w 0x000F80 (.vround (fld w 17 5) (fld w 12 5) (fld w 4 3) (fld w 2 2) (fld w 0 2)) else .error .formNotAccepted
  | _ => .error .reservedOpcode

/-- OP bytes 0xC0 to 0xCF (Table 6 of R37). -/
noncomputable def decodeC (w : Code) : Except Reject Instr :=
  match opOf w with
  | 0xC0 => accept w 0x000000 (.vld (fld w 19 5) (fld w 14 5) (fld w 9 5) (fld w 6 3) (fld w 5 1) (fld w 4 1) (fld w 2 2) (fld w 0 2))
  | 0xC1 => accept w 0x000000 (.vlds (fld w 19 5) (fld w 14 5) (fld w 9 5) (fld w 6 3) (fld w 5 1) (fld w 4 1) (fld w 2 2) (fld w 0 2))
  | 0xC2 => accept w 0x000000 (.vldx (fld w 19 5) (fld w 14 5) (fld w 9 5) (fld w 6 3) (fld w 5 1) (fld w 4 1) (fld w 2 2) (fld w 0 2))
  | 0xC3 => accept w 0x000000 (.vldq (fld w 19 5) (fld w 14 5) (fld w 9 5) (fld w 6 3) (fld w 5 1) (fld w 4 1) (fld w 2 2) (fld w 0 2))
  | 0xC4 => accept w 0x000030 (.vst (fld w 19 5) (fld w 14 5) (fld w 9 5) (fld w 6 3) (fld w 2 2) (fld w 0 2))
  | 0xC5 => accept w 0x000030 (.vsts (fld w 19 5) (fld w 14 5) (fld w 9 5) (fld w 6 3) (fld w 2 2) (fld w 0 2))
  | 0xC6 => accept w 0x000030 (.vstx (fld w 19 5) (fld w 14 5) (fld w 9 5) (fld w 6 3) (fld w 2 2) (fld w 0 2))
  | 0xC7 => accept w 0x000030 (.vstq (fld w 19 5) (fld w 14 5) (fld w 9 5) (fld w 6 3) (fld w 2 2) (fld w 0 2))
  | 0xC8 => accept w 0x000000 (.vlda (fld w 19 5) (fld w 14 5) (fld w 9 5) (fld w 6 3) (fld w 5 1) (fld w 2 3) (fld w 0 2))
  | 0xC9 => accept w 0x000020 (.vstr (fld w 19 5) (fld w 14 5) (fld w 9 5) (fld w 6 3) (fld w 2 3) (fld w 0 2))
  | 0xCA => accept w 0xF80030 (.vpf (fld w 14 5) (fld w 9 5) (fld w 6 3) (fld w 2 2) (fld w 0 2))
  | 0xCB => accept w 0xF80030 (.vzero (fld w 14 5) (fld w 9 5) (fld w 6 3) (fld w 2 2) (fld w 0 2))
  | 0xCC => accept w 0x000000 (.vldtag (fld w 19 5) (fld w 14 5) (fld w 9 5) (fld w 6 3) (fld w 5 1) (fld w 4 1) (fld w 2 2) (fld w 0 2))
  | 0xCD => accept w 0xF80020 (.vflush (fld w 14 5) (fld w 9 5) (fld w 6 3) (fld w 2 3) (fld w 0 2))
  | 0xCE => accept w 0xF80020 (.vinvl (fld w 14 5) (fld w 9 5) (fld w 6 3) (fld w 2 3) (fld w 0 2))
  | _ => .error .reservedOpcode

/-- OP bytes 0xD0 to 0xDF (Table 6 of R37). -/
noncomputable def decodeD (w : Code) : Except Reject Instr :=
  match opOf w with
  | 0xD0 => accept w 0x00003C (.vamoadd (fld w 19 5) (fld w 14 5) (fld w 9 5) (fld w 6 3) (fld w 0 2))
  | 0xD1 => accept w 0x00003C (.vamomin (fld w 19 5) (fld w 14 5) (fld w 9 5) (fld w 6 3) (fld w 0 2))
  | 0xD2 => accept w 0x00003C (.vamomax (fld w 19 5) (fld w 14 5) (fld w 9 5) (fld w 6 3) (fld w 0 2))
  | 0xD3 => accept w 0x00003C (.vamoswp (fld w 19 5) (fld w 14 5) (fld w 9 5) (fld w 6 3) (fld w 0 2))
  | 0xD4 => accept w 0x00003C (.vamoand (fld w 19 5) (fld w 14 5) (fld w 9 5) (fld w 6 3) (fld w 0 2))
  | 0xD5 => accept w 0x00003C (.vamoor (fld w 19 5) (fld w 14 5) (fld w 9 5) (fld w 6 3) (fld w 0 2))
  | 0xD6 => accept w 0x00003C (.vcas (fld w 19 5) (fld w 14 5) (fld w 9 5) (fld w 6 3) (fld w 0 2))
  | 0xD7 => accept w 0x00003C (.vgll (fld w 19 5) (fld w 14 5) (fld w 9 5) (fld w 6 3) (fld w 0 2))
  | 0xD8 => accept w 0x00003C (.vsc (fld w 19 5) (fld w 14 5) (fld w 9 5) (fld w 6 3) (fld w 0 2))
  | 0xD9 => accept w 0x00000C (.vgnm (fld w 19 5) (fld w 14 5) (fld w 9 5) (fld w 6 3) (fld w 5 1) (fld w 4 1) (fld w 0 2))
  | 0xDA => accept w 0x00003C (.vsnm (fld w 19 5) (fld w 14 5) (fld w 9 5) (fld w 6 3) (fld w 0 2))
  | 0xDB => accept w 0x00003C (.vsanm (fld w 19 5) (fld w 14 5) (fld w 9 5) (fld w 6 3) (fld w 0 2))
  | 0xDC => accept w 0x00003C (.vsxnm (fld w 19 5) (fld w 14 5) (fld w 9 5) (fld w 6 3) (fld w 0 2))
  | _ => .error .reservedOpcode

/-- OP bytes 0xE0 to 0xEF (Table 6 of R37). -/
noncomputable def decodeE (w : Code) : Except Reject Instr :=
  match opOf w with
  | 0xE0 => accept w 0x0001FC (.trapset (fld w 19 5) (fld w 14 5) (fld w 9 5) (fld w 0 2))
  | 0xE1 => accept w 0x00000C (.mapsetUnmap (fld w 19 5) (fld w 14 5) (fld w 9 5) (fld w 4 5) (fld w 0 2))
  | 0xE2 => accept w 0xF801FC (.tlbinva (fld w 14 5) (fld w 9 5) (fld w 0 2))
  | 0xE3 => accept w 0x0001FC (.ctxsave (fld w 19 5) (fld w 14 5) (fld w 9 5) (fld w 0 2))
  | 0xE4 => accept w 0x0001FC (.ctxload (fld w 19 5) (fld w 14 5) (fld w 9 5) (fld w 0 2))
  | 0xE5 => accept w 0x003FFC (.pgqrd (fld w 19 5) (fld w 14 5) (fld w 0 2))
  | 0xE6 => accept w 0x0001FC (.pgqackGrant (fld w 19 5) (fld w 14 5) (fld w 9 5) (fld w 0 2))
  | 0xE7 => accept w 0x003FFC (.errrd (fld w 19 5) (fld w 14 5) (fld w 0 2))
  | 0xE8 => accept w 0x003FFC (.errack (fld w 19 5) (fld w 14 5) (fld w 0 2))
  | 0xE9 => accept w 0x0001FC (.grant (fld w 19 5) (fld w 14 5) (fld w 9 5) (fld w 0 2))
  | 0xEA => accept w 0x0001FC (.strandctlStatus (fld w 19 5) (fld w 14 5) (fld w 9 5) (fld w 0 2))
  | _ => .error .reservedOpcode

/-- The decoder of a strand's word (R36 steps 1 to 5). -/
noncomputable def decodeStrand (w : Code) : Except Reject Instr :=
  match opOf w / 16 with
  | 0x0 => decode0 w
  | 0x1 => decode1 w
  | 0x2 => decode2 w
  | 0x3 => decode3 w
  | 0x4 => decode4 w
  | 0x5 => decode5 w
  | 0x6 => decode6 w
  | 0x7 => decode7 w
  | 0x8 => decode8 w
  | 0x9 => decode9 w
  | 0xA => decodeA w
  | 0xB => decodeB w
  | 0xC => decodeC w
  | 0xD => decodeD w
  | 0xE => decodeE w
  | _ => .error .reservedOpcode

/-- The decoder of a transform-sequencer word: opcode in [31:26] (R230). -/
def decodeTsq (w : Code) : Except Reject Instr :=
  match w.toNat / 2 ^ 26 with
  | 0x00 => accept w 0x3FFFFFF (.thalt)
  | 0x01 => if fld w 23 1 = 0#1 then accept w 0x0000000 (.tloopImm (fld w 24 2) (fld w 0 23)) else accept w 0x07FFFF0 (.tloopParam (fld w 24 2) (fld w 0 4))
  | 0x02 => accept w 0x0FFF000 (.tnext (fld w 24 2) (fld w 0 12))
  | 0x03 => accept w 0x3FFF000 (.tjmp (fld w 0 12))
  | 0x04 => if fld w 20 1 = 0#1 then accept w 0x0000000 (.tagsetImm (fld w 24 2) (fld w 21 3) (fld w 0 20)) else accept w 0x00FFFF0 (.tagsetParam (fld w 24 2) (fld w 21 3) (fld w 0 4))
  | 0x05 => accept w 0x01FFFFF (.trd (fld w 23 3) (fld w 21 2))
  | 0x06 => accept w 0x01FFFFF (.twr (fld w 23 3) (fld w 21 2))
  | 0x07 => accept w 0x000001F (.tcvt (fld w 23 3) (fld w 20 3) (fld w 14 6) (fld w 11 3) (fld w 10 1) (fld w 5 5))
  | 0x08 => accept w 0x00001FF (.tpack (fld w 23 3) (fld w 20 3) (fld w 17 3) (fld w 14 3) (fld w 9 5))
  | 0x09 => accept w 0x00001FF (.tunpk (fld w 23 3) (fld w 20 3) (fld w 17 3) (fld w 14 3) (fld w 9 5))
  | 0x0A => accept w 0x07FFFFF (.ttrn (fld w 23 3))
  | 0x0B => accept w 0x001FFFF (.tscl (fld w 23 3) (fld w 17 6))
  | 0x0C => accept w 0x07FFFFF (.tbsc (fld w 23 3))
  | 0x0D => accept w 0x1FFFFFF (.tsig (fld w 25 1))
  | 0x0E => accept w 0x1FFFFFF (.twt (fld w 25 1))
  | _ => .error .reservedOpcode

/-- The instruction a table word stands for. The table lists two instruction sets in one column of words: the strand
set, read first, and the transform sequencer's, whose words a strand refuses or reads otherwise (R38). -/
noncomputable def decodeTableWord (nbits w : Nat) : Option Instr :=
  if nbits = 32 ∧ w < 2 ^ 32 then
    match decodeStrand (BitVec.ofNat 32 w) with
    | .ok i => some i
    | .error _ =>
      match decodeTsq (BitVec.ofNat 32 w) with
      | .ok i => some i
      | .error _ => none
  else none

/-- The word of an instruction, field by field from its format (Table 2 of R18, Table 9 of R230). A step without a
word answers 0xFF00_0000, which no Chroale part assigns (R37). -/
def encode : Instr → Code
  | .nop t => BitVec.ofNat 32 (0x00000000 + t.toNat)
  | .add d a b u m t => BitVec.ofNat 32 (0x01000000 + d.toNat * 524288 + a.toNat * 16384 + b.toNat * 512 + u.toNat * 16 + m.toNat * 4 + t.toNat)
  | .sub d a b u m t => BitVec.ofNat 32 (0x02000000 + d.toNat * 524288 + a.toNat * 16384 + b.toNat * 512 + u.toNat * 16 + m.toNat * 4 + t.toNat)
  | .mul d a b u m t => BitVec.ofNat 32 (0x03000000 + d.toNat * 524288 + a.toNat * 16384 + b.toNat * 512 + u.toNat * 16 + m.toNat * 4 + t.toNat)
  | .mulh d a b u t => BitVec.ofNat 32 (0x04000000 + d.toNat * 524288 + a.toNat * 16384 + b.toNat * 512 + u.toNat * 16 + t.toNat)
  | .div d a b u t => BitVec.ofNat 32 (0x05000000 + d.toNat * 524288 + a.toNat * 16384 + b.toNat * 512 + u.toNat * 16 + t.toNat)
  | .rem d a b u t => BitVec.ofNat 32 (0x06000000 + d.toNat * 524288 + a.toNat * 16384 + b.toNat * 512 + u.toNat * 16 + t.toNat)
  | .and d a b t => BitVec.ofNat 32 (0x07000000 + d.toNat * 524288 + a.toNat * 16384 + b.toNat * 512 + t.toNat)
  | .or d a b t => BitVec.ofNat 32 (0x08000000 + d.toNat * 524288 + a.toNat * 16384 + b.toNat * 512 + t.toNat)
  | .xor d a b t => BitVec.ofNat 32 (0x09000000 + d.toNat * 524288 + a.toNat * 16384 + b.toNat * 512 + t.toNat)
  | .shl d a b t => BitVec.ofNat 32 (0x0A000000 + d.toNat * 524288 + a.toNat * 16384 + b.toNat * 512 + t.toNat)
  | .shr d a b t => BitVec.ofNat 32 (0x0B000000 + d.toNat * 524288 + a.toNat * 16384 + b.toNat * 512 + t.toNat)
  | .sra d a b t => BitVec.ofNat 32 (0x0C000000 + d.toNat * 524288 + a.toNat * 16384 + b.toNat * 512 + t.toNat)
  | .min d a b u t => BitVec.ofNat 32 (0x0D000000 + d.toNat * 524288 + a.toNat * 16384 + b.toNat * 512 + u.toNat * 16 + t.toNat)
  | .max d a b u t => BitVec.ofNat 32 (0x0E000000 + d.toNat * 524288 + a.toNat * 16384 + b.toNat * 512 + u.toNat * 16 + t.toNat)
  | .slt d a b u t => BitVec.ofNat 32 (0x0F000000 + d.toNat * 524288 + a.toNat * 16384 + b.toNat * 512 + u.toNat * 16 + t.toNat)
  | .addi d a imm t => BitVec.ofNat 32 (0x10000000 + d.toNat * 524288 + a.toNat * 16384 + imm.toNat * 4 + t.toNat)
  | .andi d a imm t => BitVec.ofNat 32 (0x11000000 + d.toNat * 524288 + a.toNat * 16384 + imm.toNat * 4 + t.toNat)
  | .ori d a imm t => BitVec.ofNat 32 (0x12000000 + d.toNat * 524288 + a.toNat * 16384 + imm.toNat * 4 + t.toNat)
  | .xori d a imm t => BitVec.ofNat 32 (0x13000000 + d.toNat * 524288 + a.toNat * 16384 + imm.toNat * 4 + t.toNat)
  | .shli d a imm t => BitVec.ofNat 32 (0x14000000 + d.toNat * 524288 + a.toNat * 16384 + imm.toNat * 4 + t.toNat)
  | .shri d a imm t => BitVec.ofNat 32 (0x15000000 + d.toNat * 524288 + a.toNat * 16384 + imm.toNat * 4 + t.toNat)
  | .srai d a imm t => BitVec.ofNat 32 (0x16000000 + d.toNat * 524288 + a.toNat * 16384 + imm.toNat * 4 + t.toNat)
  | .slti d a imm t => BitVec.ofNat 32 (0x17000000 + d.toNat * 524288 + a.toNat * 16384 + imm.toNat * 4 + t.toNat)
  | .movhi d a imm t => BitVec.ofNat 32 (0x18000000 + d.toNat * 524288 + a.toNat * 16384 + imm.toNat * 4 + t.toNat)
  | .limm imm => BitVec.ofNat 32 (0x19000000 + imm.toNat)
  | .clz d a t => BitVec.ofNat 32 (0x1A000000 + d.toNat * 524288 + a.toNat * 16384 + t.toNat)
  | .ctz d a t => BitVec.ofNat 32 (0x1B000000 + d.toNat * 524288 + a.toNat * 16384 + t.toNat)
  | .popc d a t => BitVec.ofNat 32 (0x1C000000 + d.toNat * 524288 + a.toNat * 16384 + t.toNat)
  | .bfx d a b c t => BitVec.ofNat 32 (0x1D000000 + d.toNat * 524288 + a.toNat * 16384 + b.toNat * 512 + c.toNat * 16 + t.toNat)
  | .bfi d a b c t => BitVec.ofNat 32 (0x1E000000 + d.toNat * 524288 + a.toNat * 16384 + b.toNat * 512 + c.toNat * 16 + t.toNat)
  | .sel d a b c t => BitVec.ofNat 32 (0x1F000000 + d.toNat * 524288 + a.toNat * 16384 + b.toNat * 512 + c.toNat * 16 + t.toNat)
  | .sfadd d a b f m t => BitVec.ofNat 32 (0x20000000 + d.toNat * 524288 + a.toNat * 16384 + b.toNat * 512 + f.toNat * 16 + m.toNat * 4 + t.toNat)
  | .sfsub d a b f m t => BitVec.ofNat 32 (0x21000000 + d.toNat * 524288 + a.toNat * 16384 + b.toNat * 512 + f.toNat * 16 + m.toNat * 4 + t.toNat)
  | .sfmul d a b f m t => BitVec.ofNat 32 (0x22000000 + d.toNat * 524288 + a.toNat * 16384 + b.toNat * 512 + f.toNat * 16 + m.toNat * 4 + t.toNat)
  | .sfdiv d a b f m t => BitVec.ofNat 32 (0x23000000 + d.toNat * 524288 + a.toNat * 16384 + b.toNat * 512 + f.toNat * 16 + m.toNat * 4 + t.toNat)
  | .sfma d a b f m t => BitVec.ofNat 32 (0x24000000 + d.toNat * 524288 + a.toNat * 16384 + b.toNat * 512 + f.toNat * 16 + m.toNat * 4 + t.toNat)
  | .sfmin d a b f t => BitVec.ofNat 32 (0x25000000 + d.toNat * 524288 + a.toNat * 16384 + b.toNat * 512 + f.toNat * 16 + t.toNat)
  | .sfmax d a b f t => BitVec.ofNat 32 (0x26000000 + d.toNat * 524288 + a.toNat * 16384 + b.toNat * 512 + f.toNat * 16 + t.toNat)
  | .sfcmp d a b r f t => BitVec.ofNat 32 (0x27000000 + d.toNat * 524288 + a.toNat * 16384 + b.toNat * 512 + r.toNat * 64 + f.toNat * 16 + t.toNat)
  | .sfcvt d a v f m t => BitVec.ofNat 32 (0x28000000 + d.toNat * 524288 + a.toNat * 16384 + v.toNat * 512 + f.toNat * 16 + m.toNat * 4 + t.toNat)
  | .sfsqrt d a f m t => BitVec.ofNat 32 (0x29000000 + d.toNat * 524288 + a.toNat * 16384 + f.toNat * 16 + m.toNat * 4 + t.toNat)
  | .sfclass d a f t => BitVec.ofNat 32 (0x2A000000 + d.toNat * 524288 + a.toNat * 16384 + f.toNat * 16 + t.toNat)
  | .sext d a w t => BitVec.ofNat 32 (0x2B000000 + d.toNat * 524288 + a.toNat * 16384 + w.toNat * 16 + t.toNat)
  | .beq a b o slot t => BitVec.ofNat 32 (0x30000000 + a.toNat * 524288 + b.toNat * 16384 + o.toNat * 64 + slot.toNat * 4 + t.toNat)
  | .bne a b o slot t => BitVec.ofNat 32 (0x31000000 + a.toNat * 524288 + b.toNat * 16384 + o.toNat * 64 + slot.toNat * 4 + t.toNat)
  | .blt a b o slot t => BitVec.ofNat 32 (0x32000000 + a.toNat * 524288 + b.toNat * 16384 + o.toNat * 64 + slot.toNat * 4 + t.toNat)
  | .bge a b o slot t => BitVec.ofNat 32 (0x33000000 + a.toNat * 524288 + b.toNat * 16384 + o.toNat * 64 + slot.toNat * 4 + t.toNat)
  | .jmp o slot t => BitVec.ofNat 32 (0x34000000 + o.toNat * 64 + slot.toNat * 4 + t.toNat)
  | .call o slot t => BitVec.ofNat 32 (0x35000000 + o.toNat * 64 + slot.toNat * 4 + t.toNat)
  | .jr d a t => BitVec.ofNat 32 (0x36000000 + d.toNat * 524288 + a.toNat * 16384 + t.toNat)
  | .bnzd a o slot t => BitVec.ofNat 32 (0x37000000 + a.toNat * 524288 + o.toNat * 64 + slot.toNat * 4 + t.toNat)
  | .brk imm t => BitVec.ofNat 32 (0x38000000 + imm.toNat * 4 + t.toNat)
  | .trap imm t => BitVec.ofNat 32 (0x39000000 + imm.toNat * 4 + t.toNat)
  | .rett t => BitVec.ofNat 32 (0x3A000000 + t.toNat)
  | .exit t => BitVec.ofNat 32 (0x3B000000 + t.toNat)
  | .yield t => BitVec.ofNat 32 (0x3C000000 + t.toNat)
  | .park d t => BitVec.ofNat 32 (0x3D000000 + d.toNat * 524288 + t.toNat)
  | .wake d a t => BitVec.ofNat 32 (0x3E000000 + d.toNat * 524288 + a.toNat * 16384 + t.toNat)
  | .ancallBufdef d a t => BitVec.ofNat 32 (0x3F000004 + d.toNat * 524288 + a.toNat * 16384 + t.toNat)
  | .ancallBufdrop d a t => BitVec.ofNat 32 (0x3F000008 + d.toNat * 524288 + a.toNat * 16384 + t.toNat)
  | .grpopen d a t => BitVec.ofNat 32 (0x3F000040 + d.toNat * 524288 + a.toNat * 16384 + t.toNat)
  | .grpleave d a t => BitVec.ofNat 32 (0x3F000044 + d.toNat * 524288 + a.toNat * 16384 + t.toNat)
  | .grpspare d a t => BitVec.ofNat 32 (0x3F000048 + d.toNat * 524288 + a.toNat * 16384 + t.toNat)
  | .ancallOther d a imm t => BitVec.ofNat 32 (0x3F000000 + d.toNat * 524288 + a.toNat * 16384 + imm.toNat * 4 + t.toNat)
  | .sld8 d a imm t => BitVec.ofNat 32 (0x40000000 + d.toNat * 524288 + a.toNat * 16384 + imm.toNat * 4 + t.toNat)
  | .sld16 d a imm t => BitVec.ofNat 32 (0x41000000 + d.toNat * 524288 + a.toNat * 16384 + imm.toNat * 4 + t.toNat)
  | .sld32 d a imm t => BitVec.ofNat 32 (0x42000000 + d.toNat * 524288 + a.toNat * 16384 + imm.toNat * 4 + t.toNat)
  | .sld64 d a imm t => BitVec.ofNat 32 (0x43000000 + d.toNat * 524288 + a.toNat * 16384 + imm.toNat * 4 + t.toNat)
  | .sst8 d a imm t => BitVec.ofNat 32 (0x44000000 + d.toNat * 524288 + a.toNat * 16384 + imm.toNat * 4 + t.toNat)
  | .sst16 d a imm t => BitVec.ofNat 32 (0x45000000 + d.toNat * 524288 + a.toNat * 16384 + imm.toNat * 4 + t.toNat)
  | .sst32 d a imm t => BitVec.ofNat 32 (0x46000000 + d.toNat * 524288 + a.toNat * 16384 + imm.toNat * 4 + t.toNat)
  | .sst64 d a imm t => BitVec.ofNat 32 (0x47000000 + d.toNat * 524288 + a.toNat * 16384 + imm.toNat * 4 + t.toNat)
  | .samo32 d a b o t => BitVec.ofNat 32 (0x48000000 + d.toNat * 524288 + a.toNat * 16384 + b.toNat * 512 + o.toNat * 16 + t.toNat)
  | .samo64 d a b o t => BitVec.ofNat 32 (0x49000000 + d.toNat * 524288 + a.toNat * 16384 + b.toNat * 512 + o.toNat * 16 + t.toNat)
  | .scas32 d a b c t => BitVec.ofNat 32 (0x4A000000 + d.toNat * 524288 + a.toNat * 16384 + b.toNat * 512 + c.toNat * 16 + t.toNat)
  | .scas64 d a b c t => BitVec.ofNat 32 (0x4B000000 + d.toNat * 524288 + a.toNat * 16384 + b.toNat * 512 + c.toNat * 16 + t.toNat)
  | .csrr d imm t => BitVec.ofNat 32 (0x4C000000 + d.toNat * 524288 + imm.toNat * 4 + t.toNat)
  | .csrw a imm t => BitVec.ofNat 32 (0x4D000000 + a.toNat * 16384 + imm.toNat * 4 + t.toNat)
  | .csrx d a imm t => BitVec.ofNat 32 (0x4E000000 + d.toNat * 524288 + a.toNat * 16384 + imm.toNat * 4 + t.toNat)
  | .spf h a imm t => BitVec.ofNat 32 (0x4F000000 + h.toNat * 524288 + a.toNat * 16384 + imm.toNat * 4 + t.toNat)
  | .tkcfgQuery d a b t => BitVec.ofNat 32 (0x50000000 + d.toNat * 524288 + a.toNat * 16384 + b.toNat * 512 + t.toNat)
  | .tkcfgDrain d a b t => BitVec.ofNat 32 (0x50000000 + d.toNat * 524288 + a.toNat * 16384 + b.toNat * 512 + t.toNat)
  | .tkwait d a b t => BitVec.ofNat 32 (0x51000000 + d.toNat * 524288 + a.toNat * 16384 + b.toNat * 512 + t.toNat)
  | .tksend a b t => BitVec.ofNat 32 (0x52000000 + a.toNat * 16384 + b.toNat * 512 + t.toNat)
  | .qpush q v k t => BitVec.ofNat 32 (0x53000000 + q.toNat * 131072 + v.toNat * 4096 + k.toNat * 16 + t.toNat)
  | .qpop v q k t => BitVec.ofNat 32 (0x54000000 + v.toNat * 131072 + q.toNat * 4096 + k.toNat * 16 + t.toNat)
  | .qpushs a q t => BitVec.ofNat 32 (0x55000000 + a.toNat * 16384 + q.toNat * 16 + t.toNat)
  | .qpops d q t => BitVec.ofNat 32 (0x56000000 + d.toNat * 524288 + q.toNat * 16 + t.toNat)
  | .qstat d q t => BitVec.ofNat 32 (0x57000000 + d.toNat * 524288 + q.toNat * 16 + t.toNat)
  | .fenceSv t => BitVec.ofNat 32 (0x58000000 + t.toNat)
  | .fenceVs t => BitVec.ofNat 32 (0x59000000 + t.toNat)
  | .fenceVv t => BitVec.ofNat 32 (0x5A000000 + t.toNat)
  | .rel scope t => BitVec.ofNat 32 (0x5B000000 + scope.toNat * 4 + t.toNat)
  | .acq scope t => BitVec.ofNat 32 (0x5C000000 + scope.toNat * 4 + t.toNat)
  | .bar imm t => BitVec.ofNat 32 (0x5D000000 + imm.toNat * 4 + t.toNat)
  | .wmpub a b t => BitVec.ofNat 32 (0x5E000000 + a.toNat * 16384 + b.toNat * 512 + t.toNat)
  | .wmwait a b t => BitVec.ofNat 32 (0x5F000000 + a.toNat * 16384 + b.toNat * 512 + t.toNat)
  | .claim d a b t => BitVec.ofNat 32 (0x60000000 + d.toNat * 524288 + a.toNat * 16384 + b.toNat * 512 + t.toNat)
  | .launch d a t => BitVec.ofNat 32 (0x61000000 + d.toNat * 524288 + a.toNat * 16384 + t.toNat)
  | .sqpush a b c t => BitVec.ofNat 32 (0x62000000 + a.toNat * 16384 + b.toNat * 512 + c.toNat * 16 + t.toNat)
  | .sqpop d c t => BitVec.ofNat 32 (0x63000000 + d.toNat * 524288 + c.toNat * 16 + t.toNat)
  | .sqstat d c t => BitVec.ofNat 32 (0x64000000 + d.toNat * 524288 + c.toNat * 16 + t.toNat)
  | .fmtset d a b t => BitVec.ofNat 32 (0x65000000 + d.toNat * 524288 + a.toNat * 16384 + b.toNat * 512 + t.toNat)
  | .fmtget d a t => BitVec.ofNat 32 (0x66000000 + d.toNat * 524288 + a.toNat * 16384 + t.toNat)
  | .pltset d a b c t => BitVec.ofNat 32 (0x67000000 + d.toNat * 524288 + a.toNat * 16384 + b.toNat * 512 + c.toNat * 16 + t.toNat)
  | .pltget d a b t => BitVec.ofNat 32 (0x68000000 + d.toNat * 524288 + a.toNat * 16384 + b.toNat * 512 + t.toNat)
  | .tlbinv a b t => BitVec.ofNat 32 (0x69000000 + a.toNat * 16384 + b.toNat * 512 + t.toNat)
  | .rcreq d a b c t => BitVec.ofNat 32 (0x6A000000 + d.toNat * 524288 + a.toNat * 16384 + b.toNat * 512 + c.toNat * 16 + t.toNat)
  | .wmread d a t => BitVec.ofNat 32 (0x6B000000 + d.toNat * 524288 + a.toNat * 16384 + t.toNat)
  | .xred v o b k m t => BitVec.ofNat 32 (0x6C000000 + v.toNat * 131072 + o.toNat * 4096 + b.toNat * 128 + k.toNat * 16 + m.toNat * 4 + t.toNat)
  | .xsend v b k t => BitVec.ofNat 32 (0x6D000000 + v.toNat * 4096 + b.toNat * 128 + k.toNat * 16 + t.toNat)
  | .xrecv v b k t => BitVec.ofNat 32 (0x6E000000 + v.toNat * 131072 + b.toNat * 128 + k.toNat * 16 + t.toNat)
  | .xmemb d a b t => BitVec.ofNat 32 (0x6F000000 + d.toNat * 524288 + a.toNat * 16384 + b.toNat * 512 + t.toNat)
  | .ecfg e r a t => BitVec.ofNat 32 (0x70000000 + e.toNat * 2097152 + r.toNat * 4096 + a.toNat * 128 + t.toNat)
  | .ecfgr e r a t => BitVec.ofNat 32 (0x71000000 + e.toNat * 2097152 + r.toNat * 4096 + a.toNat * 128 + t.toNat)
  | .ego e a t => BitVec.ofNat 32 (0x72000000 + e.toNat * 2097152 + a.toNat * 128 + t.toNat)
  | .ewait e a t => BitVec.ofNat 32 (0x73000000 + e.toNat * 2097152 + a.toNat * 128 + t.toNat)
  | .estat e r a t => BitVec.ofNat 32 (0x74000000 + e.toNat * 2097152 + r.toNat * 4096 + a.toNat * 128 + t.toNat)
  | .ecancel e a t => BitVec.ofNat 32 (0x75000000 + e.toNat * 2097152 + a.toNat * 128 + t.toNat)
  | .publish a scope t => BitVec.ofNat 32 (0x76000000 + a.toNat * 16384 + scope.toNat * 16 + t.toNat)
  | .mxzero x t => BitVec.ofNat 32 (0x77000000 + x.toNat * 131072 + t.toNat)
  | .vaccrd v x b k t => BitVec.ofNat 32 (0x78000000 + v.toNat * 131072 + x.toNat * 4096 + b.toNat * 128 + k.toNat * 16 + t.toNat)
  | .vaccwr x v b k t => BitVec.ofNat 32 (0x79000000 + x.toNat * 131072 + v.toNat * 4096 + b.toNat * 128 + k.toNat * 16 + t.toNat)
  | .tsqld r a t => BitVec.ofNat 32 (0x7A600000 + r.toNat * 4096 + a.toNat * 128 + t.toNat)
  | .tsqgo r a t => BitVec.ofNat 32 (0x7B600000 + r.toNat * 4096 + a.toNat * 128 + t.toNat)
  | .ejrnl e a t => BitVec.ofNat 32 (0x7C000000 + e.toNat * 2097152 + a.toNat * 128 + t.toNat)
  | .tsqstat r a t => BitVec.ofNat 32 (0x7D600000 + r.toNat * 4096 + a.toNat * 128 + t.toNat)
  | .vsetl d a sew c p r z t => BitVec.ofNat 32 (0x80000000 + d.toNat * 524288 + a.toNat * 16384 + sew.toNat * 2048 + c.toNat * 256 + p.toNat * 128 + r.toNat * 16 + z.toNat * 4 + t.toNat)
  | .vmvVv d b k t => BitVec.ofNat 32 (0x81000000 + d.toNat * 131072 + b.toNat * 128 + k.toNat * 16 + t.toNat)
  | .vmvVs d sb k t => BitVec.ofNat 32 (0x81400000 + d.toNat * 131072 + sb.toNat * 128 + k.toNat * 16 + t.toNat)
  | .vmvVi d imm k t => BitVec.ofNat 32 (0x81800000 + d.toNat * 131072 + imm.toNat * 128 + k.toNat * 16 + t.toNat)
  | .vmvx d a b t => BitVec.ofNat 32 (0x82000000 + d.toNat * 131072 + a.toNat * 4096 + b.toNat * 128 + t.toNat)
  | .vmvs d a b t => BitVec.ofNat 32 (0x83000000 + d.toNat * 131072 + a.toNat * 4096 + b.toNat * 128 + t.toNat)
  | .vtag d a b k t => BitVec.ofNat 32 (0x84000000 + d.toNat * 131072 + a.toNat * 4096 + b.toNat * 128 + k.toNat * 16 + t.toNat)
  | .vcvt d a b k m t => BitVec.ofNat 32 (0x85000000 + d.toNat * 131072 + a.toNat * 4096 + b.toNat * 128 + k.toNat * 16 + m.toNat * 4 + t.toNat)
  | .vid d k t => BitVec.ofNat 32 (0x86000000 + d.toNat * 131072 + k.toNat * 16 + t.toNat)
  | .vscale d a b k m t => BitVec.ofNat 32 (0x87000000 + d.toNat * 131072 + a.toNat * 4096 + b.toNat * 128 + k.toNat * 16 + m.toNat * 4 + t.toNat)
  | .vclass d a k t => BitVec.ofNat 32 (0x88000000 + d.toNat * 131072 + a.toNat * 4096 + k.toNat * 16 + t.toNat)
  | .vmergeVv d a b k t => BitVec.ofNat 32 (0x89000000 + d.toNat * 131072 + a.toNat * 4096 + b.toNat * 128 + k.toNat * 16 + t.toNat)
  | .vmergeVs d a sb k t => BitVec.ofNat 32 (0x89400000 + d.toNat * 131072 + a.toNat * 4096 + sb.toNat * 128 + k.toNat * 16 + t.toNat)
  | .vmergeVi d a imm k t => BitVec.ofNat 32 (0x89800000 + d.toNat * 131072 + a.toNat * 4096 + imm.toNat * 128 + k.toNat * 16 + t.toNat)
  | .vcompress d a k t => BitVec.ofNat 32 (0x8A000000 + d.toNat * 131072 + a.toNat * 4096 + k.toNat * 16 + t.toNat)
  | .vexpand d a k t => BitVec.ofNat 32 (0x8B000000 + d.toNat * 131072 + a.toNat * 4096 + k.toNat * 16 + t.toNat)
  | .vslupVs d a sb k t => BitVec.ofNat 32 (0x8C400000 + d.toNat * 131072 + a.toNat * 4096 + sb.toNat * 128 + k.toNat * 16 + t.toNat)
  | .vslupVi d a imm k t => BitVec.ofNat 32 (0x8C800000 + d.toNat * 131072 + a.toNat * 4096 + imm.toNat * 128 + k.toNat * 16 + t.toNat)
  | .vsldnVs d a sb k t => BitVec.ofNat 32 (0x8D400000 + d.toNat * 131072 + a.toNat * 4096 + sb.toNat * 128 + k.toNat * 16 + t.toNat)
  | .vsldnVi d a imm k t => BitVec.ofNat 32 (0x8D800000 + d.toNat * 131072 + a.toNat * 4096 + imm.toNat * 128 + k.toNat * 16 + t.toNat)
  | .vrgath d a b k t => BitVec.ofNat 32 (0x8E000000 + d.toNat * 131072 + a.toNat * 4096 + b.toNat * 128 + k.toNat * 16 + t.toNat)
  | .vtrn d a t => BitVec.ofNat 32 (0x8F000000 + d.toNat * 131072 + a.toNat * 4096 + t.toNat)
  | .vaddVv d a b k m t => BitVec.ofNat 32 (0x90000000 + d.toNat * 131072 + a.toNat * 4096 + b.toNat * 128 + k.toNat * 16 + m.toNat * 4 + t.toNat)
  | .vaddVs d a sb k m t => BitVec.ofNat 32 (0x90400000 + d.toNat * 131072 + a.toNat * 4096 + sb.toNat * 128 + k.toNat * 16 + m.toNat * 4 + t.toNat)
  | .vaddVi d a imm k m t => BitVec.ofNat 32 (0x90800000 + d.toNat * 131072 + a.toNat * 4096 + imm.toNat * 128 + k.toNat * 16 + m.toNat * 4 + t.toNat)
  | .vsubVv d a b k m t => BitVec.ofNat 32 (0x91000000 + d.toNat * 131072 + a.toNat * 4096 + b.toNat * 128 + k.toNat * 16 + m.toNat * 4 + t.toNat)
  | .vsubVs d a sb k m t => BitVec.ofNat 32 (0x91400000 + d.toNat * 131072 + a.toNat * 4096 + sb.toNat * 128 + k.toNat * 16 + m.toNat * 4 + t.toNat)
  | .vsubVi d a imm k m t => BitVec.ofNat 32 (0x91800000 + d.toNat * 131072 + a.toNat * 4096 + imm.toNat * 128 + k.toNat * 16 + m.toNat * 4 + t.toNat)
  | .vmulVv d a b k m t => BitVec.ofNat 32 (0x92000000 + d.toNat * 131072 + a.toNat * 4096 + b.toNat * 128 + k.toNat * 16 + m.toNat * 4 + t.toNat)
  | .vmulVs d a sb k m t => BitVec.ofNat 32 (0x92400000 + d.toNat * 131072 + a.toNat * 4096 + sb.toNat * 128 + k.toNat * 16 + m.toNat * 4 + t.toNat)
  | .vmulVi d a imm k m t => BitVec.ofNat 32 (0x92800000 + d.toNat * 131072 + a.toNat * 4096 + imm.toNat * 128 + k.toNat * 16 + m.toNat * 4 + t.toNat)
  | .vfmaVv d a b k m t => BitVec.ofNat 32 (0x93000000 + d.toNat * 131072 + a.toNat * 4096 + b.toNat * 128 + k.toNat * 16 + m.toNat * 4 + t.toNat)
  | .vfmaVs d a sb k m t => BitVec.ofNat 32 (0x93400000 + d.toNat * 131072 + a.toNat * 4096 + sb.toNat * 128 + k.toNat * 16 + m.toNat * 4 + t.toNat)
  | .vfmaVi d a imm k m t => BitVec.ofNat 32 (0x93800000 + d.toNat * 131072 + a.toNat * 4096 + imm.toNat * 128 + k.toNat * 16 + m.toNat * 4 + t.toNat)
  | .vfmsVv d a b k m t => BitVec.ofNat 32 (0x94000000 + d.toNat * 131072 + a.toNat * 4096 + b.toNat * 128 + k.toNat * 16 + m.toNat * 4 + t.toNat)
  | .vfmsVs d a sb k m t => BitVec.ofNat 32 (0x94400000 + d.toNat * 131072 + a.toNat * 4096 + sb.toNat * 128 + k.toNat * 16 + m.toNat * 4 + t.toNat)
  | .vfmsVi d a imm k m t => BitVec.ofNat 32 (0x94800000 + d.toNat * 131072 + a.toNat * 4096 + imm.toNat * 128 + k.toNat * 16 + m.toNat * 4 + t.toNat)
  | .vfnmaVv d a b k m t => BitVec.ofNat 32 (0x95000000 + d.toNat * 131072 + a.toNat * 4096 + b.toNat * 128 + k.toNat * 16 + m.toNat * 4 + t.toNat)
  | .vfnmaVs d a sb k m t => BitVec.ofNat 32 (0x95400000 + d.toNat * 131072 + a.toNat * 4096 + sb.toNat * 128 + k.toNat * 16 + m.toNat * 4 + t.toNat)
  | .vfnmaVi d a imm k m t => BitVec.ofNat 32 (0x95800000 + d.toNat * 131072 + a.toNat * 4096 + imm.toNat * 128 + k.toNat * 16 + m.toNat * 4 + t.toNat)
  | .vdivVv d a b k m t => BitVec.ofNat 32 (0x96000000 + d.toNat * 131072 + a.toNat * 4096 + b.toNat * 128 + k.toNat * 16 + m.toNat * 4 + t.toNat)
  | .vdivVs d a sb k m t => BitVec.ofNat 32 (0x96400000 + d.toNat * 131072 + a.toNat * 4096 + sb.toNat * 128 + k.toNat * 16 + m.toNat * 4 + t.toNat)
  | .vdivVi d a imm k m t => BitVec.ofNat 32 (0x96800000 + d.toNat * 131072 + a.toNat * 4096 + imm.toNat * 128 + k.toNat * 16 + m.toNat * 4 + t.toNat)
  | .vsqrt d a k m t => BitVec.ofNat 32 (0x97000000 + d.toNat * 131072 + a.toNat * 4096 + k.toNat * 16 + m.toNat * 4 + t.toNat)
  | .vminVv d a b k m t => BitVec.ofNat 32 (0x98000000 + d.toNat * 131072 + a.toNat * 4096 + b.toNat * 128 + k.toNat * 16 + m.toNat * 4 + t.toNat)
  | .vminVs d a sb k m t => BitVec.ofNat 32 (0x98400000 + d.toNat * 131072 + a.toNat * 4096 + sb.toNat * 128 + k.toNat * 16 + m.toNat * 4 + t.toNat)
  | .vminVi d a imm k m t => BitVec.ofNat 32 (0x98800000 + d.toNat * 131072 + a.toNat * 4096 + imm.toNat * 128 + k.toNat * 16 + m.toNat * 4 + t.toNat)
  | .vmaxVv d a b k m t => BitVec.ofNat 32 (0x99000000 + d.toNat * 131072 + a.toNat * 4096 + b.toNat * 128 + k.toNat * 16 + m.toNat * 4 + t.toNat)
  | .vmaxVs d a sb k m t => BitVec.ofNat 32 (0x99400000 + d.toNat * 131072 + a.toNat * 4096 + sb.toNat * 128 + k.toNat * 16 + m.toNat * 4 + t.toNat)
  | .vmaxVi d a imm k m t => BitVec.ofNat 32 (0x99800000 + d.toNat * 131072 + a.toNat * 4096 + imm.toNat * 128 + k.toNat * 16 + m.toNat * 4 + t.toNat)
  | .vabs d a k m t => BitVec.ofNat 32 (0x9A000000 + d.toNat * 131072 + a.toNat * 4096 + k.toNat * 16 + m.toNat * 4 + t.toNat)
  | .vneg d a k m t => BitVec.ofNat 32 (0x9B000000 + d.toNat * 131072 + a.toNat * 4096 + k.toNat * 16 + m.toNat * 4 + t.toNat)
  | .vrsqrt d a k m t => BitVec.ofNat 32 (0x9C000000 + d.toNat * 131072 + a.toNat * 4096 + k.toNat * 16 + m.toNat * 4 + t.toNat)
  | .vexp2 d a k m t => BitVec.ofNat 32 (0x9D000000 + d.toNat * 131072 + a.toNat * 4096 + k.toNat * 16 + m.toNat * 4 + t.toNat)
  | .vlog2 d a k m t => BitVec.ofNat 32 (0x9E000000 + d.toNat * 131072 + a.toNat * 4096 + k.toNat * 16 + m.toNat * 4 + t.toNat)
  | .vmulhVv d a b k m t => BitVec.ofNat 32 (0x9F000000 + d.toNat * 131072 + a.toNat * 4096 + b.toNat * 128 + k.toNat * 16 + m.toNat * 4 + t.toNat)
  | .vmulhVs d a sb k m t => BitVec.ofNat 32 (0x9F400000 + d.toNat * 131072 + a.toNat * 4096 + sb.toNat * 128 + k.toNat * 16 + m.toNat * 4 + t.toNat)
  | .vmulhVi d a imm k m t => BitVec.ofNat 32 (0x9F800000 + d.toNat * 131072 + a.toNat * 4096 + imm.toNat * 128 + k.toNat * 16 + m.toNat * 4 + t.toNat)
  | .vandVv d a b k t => BitVec.ofNat 32 (0xA0000000 + d.toNat * 131072 + a.toNat * 4096 + b.toNat * 128 + k.toNat * 16 + t.toNat)
  | .vandVs d a sb k t => BitVec.ofNat 32 (0xA0400000 + d.toNat * 131072 + a.toNat * 4096 + sb.toNat * 128 + k.toNat * 16 + t.toNat)
  | .vandVi d a imm k t => BitVec.ofNat 32 (0xA0800000 + d.toNat * 131072 + a.toNat * 4096 + imm.toNat * 128 + k.toNat * 16 + t.toNat)
  | .vorVv d a b k t => BitVec.ofNat 32 (0xA1000000 + d.toNat * 131072 + a.toNat * 4096 + b.toNat * 128 + k.toNat * 16 + t.toNat)
  | .vorVs d a sb k t => BitVec.ofNat 32 (0xA1400000 + d.toNat * 131072 + a.toNat * 4096 + sb.toNat * 128 + k.toNat * 16 + t.toNat)
  | .vorVi d a imm k t => BitVec.ofNat 32 (0xA1800000 + d.toNat * 131072 + a.toNat * 4096 + imm.toNat * 128 + k.toNat * 16 + t.toNat)
  | .vxorVv d a b k t => BitVec.ofNat 32 (0xA2000000 + d.toNat * 131072 + a.toNat * 4096 + b.toNat * 128 + k.toNat * 16 + t.toNat)
  | .vxorVs d a sb k t => BitVec.ofNat 32 (0xA2400000 + d.toNat * 131072 + a.toNat * 4096 + sb.toNat * 128 + k.toNat * 16 + t.toNat)
  | .vxorVi d a imm k t => BitVec.ofNat 32 (0xA2800000 + d.toNat * 131072 + a.toNat * 4096 + imm.toNat * 128 + k.toNat * 16 + t.toNat)
  | .vnot d a k t => BitVec.ofNat 32 (0xA3000000 + d.toNat * 131072 + a.toNat * 4096 + k.toNat * 16 + t.toNat)
  | .vshlVv d a b k t => BitVec.ofNat 32 (0xA4000000 + d.toNat * 131072 + a.toNat * 4096 + b.toNat * 128 + k.toNat * 16 + t.toNat)
  | .vshlVs d a sb k t => BitVec.ofNat 32 (0xA4400000 + d.toNat * 131072 + a.toNat * 4096 + sb.toNat * 128 + k.toNat * 16 + t.toNat)
  | .vshlVi d a imm k t => BitVec.ofNat 32 (0xA4800000 + d.toNat * 131072 + a.toNat * 4096 + imm.toNat * 128 + k.toNat * 16 + t.toNat)
  | .vshrVv d a b k t => BitVec.ofNat 32 (0xA5000000 + d.toNat * 131072 + a.toNat * 4096 + b.toNat * 128 + k.toNat * 16 + t.toNat)
  | .vshrVs d a sb k t => BitVec.ofNat 32 (0xA5400000 + d.toNat * 131072 + a.toNat * 4096 + sb.toNat * 128 + k.toNat * 16 + t.toNat)
  | .vshrVi d a imm k t => BitVec.ofNat 32 (0xA5800000 + d.toNat * 131072 + a.toNat * 4096 + imm.toNat * 128 + k.toNat * 16 + t.toNat)
  | .vsraVv d a b k t => BitVec.ofNat 32 (0xA6000000 + d.toNat * 131072 + a.toNat * 4096 + b.toNat * 128 + k.toNat * 16 + t.toNat)
  | .vsraVs d a sb k t => BitVec.ofNat 32 (0xA6400000 + d.toNat * 131072 + a.toNat * 4096 + sb.toNat * 128 + k.toNat * 16 + t.toNat)
  | .vsraVi d a imm k t => BitVec.ofNat 32 (0xA6800000 + d.toNat * 131072 + a.toNat * 4096 + imm.toNat * 128 + k.toNat * 16 + t.toNat)
  | .vcmpeqVv d a b k t => BitVec.ofNat 32 (0xA7000000 + d.toNat * 131072 + a.toNat * 4096 + b.toNat * 128 + k.toNat * 16 + t.toNat)
  | .vcmpeqVs d a sb k t => BitVec.ofNat 32 (0xA7400000 + d.toNat * 131072 + a.toNat * 4096 + sb.toNat * 128 + k.toNat * 16 + t.toNat)
  | .vcmpeqVi d a imm k t => BitVec.ofNat 32 (0xA7800000 + d.toNat * 131072 + a.toNat * 4096 + imm.toNat * 128 + k.toNat * 16 + t.toNat)
  | .vcmpltVv d a b k t => BitVec.ofNat 32 (0xA8000000 + d.toNat * 131072 + a.toNat * 4096 + b.toNat * 128 + k.toNat * 16 + t.toNat)
  | .vcmpltVs d a sb k t => BitVec.ofNat 32 (0xA8400000 + d.toNat * 131072 + a.toNat * 4096 + sb.toNat * 128 + k.toNat * 16 + t.toNat)
  | .vcmpltVi d a imm k t => BitVec.ofNat 32 (0xA8800000 + d.toNat * 131072 + a.toNat * 4096 + imm.toNat * 128 + k.toNat * 16 + t.toNat)
  | .vcmpleVv d a b k t => BitVec.ofNat 32 (0xA9000000 + d.toNat * 131072 + a.toNat * 4096 + b.toNat * 128 + k.toNat * 16 + t.toNat)
  | .vcmpleVs d a sb k t => BitVec.ofNat 32 (0xA9400000 + d.toNat * 131072 + a.toNat * 4096 + sb.toNat * 128 + k.toNat * 16 + t.toNat)
  | .vcmpleVi d a imm k t => BitVec.ofNat 32 (0xA9800000 + d.toNat * 131072 + a.toNat * 4096 + imm.toNat * 128 + k.toNat * 16 + t.toNat)
  | .kand d a b t => BitVec.ofNat 32 (0xAA000000 + d.toNat * 131072 + a.toNat * 4096 + b.toNat * 128 + t.toNat)
  | .kor d a b t => BitVec.ofNat 32 (0xAB000000 + d.toNat * 131072 + a.toNat * 4096 + b.toNat * 128 + t.toNat)
  | .kxor d a b t => BitVec.ofNat 32 (0xAC000000 + d.toNat * 131072 + a.toNat * 4096 + b.toNat * 128 + t.toNat)
  | .knot d a t => BitVec.ofNat 32 (0xAD000000 + d.toNat * 131072 + a.toNat * 4096 + t.toNat)
  | .kffs d a t => BitVec.ofNat 32 (0xAE000000 + d.toNat * 131072 + a.toNat * 4096 + t.toNat)
  | .kpopc d a t => BitVec.ofNat 32 (0xAF000000 + d.toNat * 131072 + a.toNat * 4096 + t.toNat)
  | .vredsum d a k m t => BitVec.ofNat 32 (0xB0000000 + d.toNat * 131072 + a.toNat * 4096 + k.toNat * 16 + m.toNat * 4 + t.toNat)
  | .vredmin d a k m t => BitVec.ofNat 32 (0xB1000000 + d.toNat * 131072 + a.toNat * 4096 + k.toNat * 16 + m.toNat * 4 + t.toNat)
  | .vredmax d a k m t => BitVec.ofNat 32 (0xB2000000 + d.toNat * 131072 + a.toNat * 4096 + k.toNat * 16 + m.toNat * 4 + t.toNat)
  | .vredxor d a k t => BitVec.ofNat 32 (0xB3000000 + d.toNat * 131072 + a.toNat * 4096 + k.toNat * 16 + t.toNat)
  | .vredarg d a k t => BitVec.ofNat 32 (0xB4000000 + d.toNat * 131072 + a.toNat * 4096 + k.toNat * 16 + t.toNat)
  | .vscan d a k m t => BitVec.ofNat 32 (0xB5000000 + d.toNat * 131072 + a.toNat * 4096 + k.toNat * 16 + m.toNat * 4 + t.toNat)
  | .vscanx d a k m t => BitVec.ofNat 32 (0xB6000000 + d.toNat * 131072 + a.toNat * 4096 + k.toNat * 16 + m.toNat * 4 + t.toNat)
  | .vdot d a b k m t => BitVec.ofNat 32 (0xB7000000 + d.toNat * 131072 + a.toNat * 4096 + b.toNat * 128 + k.toNat * 16 + m.toNat * 4 + t.toNat)
  | .kset d a b t => BitVec.ofNat 32 (0xB8000000 + d.toNat * 131072 + a.toNat * 4096 + b.toNat * 128 + t.toNat)
  | .kmv d a t => BitVec.ofNat 32 (0xB9000000 + d.toNat * 131072 + a.toNat * 4096 + t.toNat)
  | .vround d a k m t => BitVec.ofNat 32 (0xBA000000 + d.toNat * 131072 + a.toNat * 4096 + k.toNat * 16 + m.toNat * 4 + t.toNat)
  | .vld v a b k f g h t => BitVec.ofNat 32 (0xC0000000 + v.toNat * 524288 + a.toNat * 16384 + b.toNat * 512 + k.toNat * 64 + f.toNat * 32 + g.toNat * 16 + h.toNat * 4 + t.toNat)
  | .vlds v a b k f g h t => BitVec.ofNat 32 (0xC1000000 + v.toNat * 524288 + a.toNat * 16384 + b.toNat * 512 + k.toNat * 64 + f.toNat * 32 + g.toNat * 16 + h.toNat * 4 + t.toNat)
  | .vldx v a b k f g h t => BitVec.ofNat 32 (0xC2000000 + v.toNat * 524288 + a.toNat * 16384 + b.toNat * 512 + k.toNat * 64 + f.toNat * 32 + g.toNat * 16 + h.toNat * 4 + t.toNat)
  | .vldq q a b k f g h t => BitVec.ofNat 32 (0xC3000000 + q.toNat * 524288 + a.toNat * 16384 + b.toNat * 512 + k.toNat * 64 + f.toNat * 32 + g.toNat * 16 + h.toNat * 4 + t.toNat)
  | .vst v a b k h t => BitVec.ofNat 32 (0xC4000000 + v.toNat * 524288 + a.toNat * 16384 + b.toNat * 512 + k.toNat * 64 + h.toNat * 4 + t.toNat)
  | .vsts v a b k h t => BitVec.ofNat 32 (0xC5000000 + v.toNat * 524288 + a.toNat * 16384 + b.toNat * 512 + k.toNat * 64 + h.toNat * 4 + t.toNat)
  | .vstx v a b k h t => BitVec.ofNat 32 (0xC6000000 + v.toNat * 524288 + a.toNat * 16384 + b.toNat * 512 + k.toNat * 64 + h.toNat * 4 + t.toNat)
  | .vstq q a b k h t => BitVec.ofNat 32 (0xC7000000 + q.toNat * 524288 + a.toNat * 16384 + b.toNat * 512 + k.toNat * 64 + h.toNat * 4 + t.toNat)
  | .vlda v a b k f scope t => BitVec.ofNat 32 (0xC8000000 + v.toNat * 524288 + a.toNat * 16384 + b.toNat * 512 + k.toNat * 64 + f.toNat * 32 + scope.toNat * 4 + t.toNat)
  | .vstr v a b k scope t => BitVec.ofNat 32 (0xC9000000 + v.toNat * 524288 + a.toNat * 16384 + b.toNat * 512 + k.toNat * 64 + scope.toNat * 4 + t.toNat)
  | .vpf a b k h t => BitVec.ofNat 32 (0xCA000000 + a.toNat * 16384 + b.toNat * 512 + k.toNat * 64 + h.toNat * 4 + t.toNat)
  | .vzero a b k h t => BitVec.ofNat 32 (0xCB000000 + a.toNat * 16384 + b.toNat * 512 + k.toNat * 64 + h.toNat * 4 + t.toNat)
  | .vldtag v a b k f g h t => BitVec.ofNat 32 (0xCC000000 + v.toNat * 524288 + a.toNat * 16384 + b.toNat * 512 + k.toNat * 64 + f.toNat * 32 + g.toNat * 16 + h.toNat * 4 + t.toNat)
  | .vflush a b k scope t => BitVec.ofNat 32 (0xCD000000 + a.toNat * 16384 + b.toNat * 512 + k.toNat * 64 + scope.toNat * 4 + t.toNat)
  | .vinvl a b k scope t => BitVec.ofNat 32 (0xCE000000 + a.toNat * 16384 + b.toNat * 512 + k.toNat * 64 + scope.toNat * 4 + t.toNat)
  | .vamoadd v a b k t => BitVec.ofNat 32 (0xD0000000 + v.toNat * 524288 + a.toNat * 16384 + b.toNat * 512 + k.toNat * 64 + t.toNat)
  | .vamomin v a b k t => BitVec.ofNat 32 (0xD1000000 + v.toNat * 524288 + a.toNat * 16384 + b.toNat * 512 + k.toNat * 64 + t.toNat)
  | .vamomax v a b k t => BitVec.ofNat 32 (0xD2000000 + v.toNat * 524288 + a.toNat * 16384 + b.toNat * 512 + k.toNat * 64 + t.toNat)
  | .vamoswp v a b k t => BitVec.ofNat 32 (0xD3000000 + v.toNat * 524288 + a.toNat * 16384 + b.toNat * 512 + k.toNat * 64 + t.toNat)
  | .vamoand v a b k t => BitVec.ofNat 32 (0xD4000000 + v.toNat * 524288 + a.toNat * 16384 + b.toNat * 512 + k.toNat * 64 + t.toNat)
  | .vamoor v a b k t => BitVec.ofNat 32 (0xD5000000 + v.toNat * 524288 + a.toNat * 16384 + b.toNat * 512 + k.toNat * 64 + t.toNat)
  | .vcas v a b k t => BitVec.ofNat 32 (0xD6000000 + v.toNat * 524288 + a.toNat * 16384 + b.toNat * 512 + k.toNat * 64 + t.toNat)
  | .vgll v a b k t => BitVec.ofNat 32 (0xD7000000 + v.toNat * 524288 + a.toNat * 16384 + b.toNat * 512 + k.toNat * 64 + t.toNat)
  | .vsc v a b k t => BitVec.ofNat 32 (0xD8000000 + v.toNat * 524288 + a.toNat * 16384 + b.toNat * 512 + k.toNat * 64 + t.toNat)
  | .vgnm v a b k f g t => BitVec.ofNat 32 (0xD9000000 + v.toNat * 524288 + a.toNat * 16384 + b.toNat * 512 + k.toNat * 64 + f.toNat * 32 + g.toNat * 16 + t.toNat)
  | .vsnm v a b k t => BitVec.ofNat 32 (0xDA000000 + v.toNat * 524288 + a.toNat * 16384 + b.toNat * 512 + k.toNat * 64 + t.toNat)
  | .vsanm v a b k t => BitVec.ofNat 32 (0xDB000000 + v.toNat * 524288 + a.toNat * 16384 + b.toNat * 512 + k.toNat * 64 + t.toNat)
  | .vsxnm v a b k t => BitVec.ofNat 32 (0xDC000000 + v.toNat * 524288 + a.toNat * 16384 + b.toNat * 512 + k.toNat * 64 + t.toNat)
  | .trapset d a b t => BitVec.ofNat 32 (0xE0000000 + d.toNat * 524288 + a.toNat * 16384 + b.toNat * 512 + t.toNat)
  | .mapsetUnmap d a b c t => BitVec.ofNat 32 (0xE1000000 + d.toNat * 524288 + a.toNat * 16384 + b.toNat * 512 + c.toNat * 16 + t.toNat)
  | .mapsetPerm d a b c t => BitVec.ofNat 32 (0xE1000000 + d.toNat * 524288 + a.toNat * 16384 + b.toNat * 512 + c.toNat * 16 + t.toNat)
  | .mapsetAlloc d a b c t => BitVec.ofNat 32 (0xE1000000 + d.toNat * 524288 + a.toNat * 16384 + b.toNat * 512 + c.toNat * 16 + t.toNat)
  | .mapsetQuery d a b c t => BitVec.ofNat 32 (0xE1000000 + d.toNat * 524288 + a.toNat * 16384 + b.toNat * 512 + c.toNat * 16 + t.toNat)
  | .tlbinva a b t => BitVec.ofNat 32 (0xE2000000 + a.toNat * 16384 + b.toNat * 512 + t.toNat)
  | .ctxsave d a b t => BitVec.ofNat 32 (0xE3000000 + d.toNat * 524288 + a.toNat * 16384 + b.toNat * 512 + t.toNat)
  | .ctxload d a b t => BitVec.ofNat 32 (0xE4000000 + d.toNat * 524288 + a.toNat * 16384 + b.toNat * 512 + t.toNat)
  | .pgqrd d a t => BitVec.ofNat 32 (0xE5000000 + d.toNat * 524288 + a.toNat * 16384 + t.toNat)
  | .pgqackGrant d a b t => BitVec.ofNat 32 (0xE6000000 + d.toNat * 524288 + a.toNat * 16384 + b.toNat * 512 + t.toNat)
  | .pgqackRefuse d a b t => BitVec.ofNat 32 (0xE6000000 + d.toNat * 524288 + a.toNat * 16384 + b.toNat * 512 + t.toNat)
  | .errrd d a t => BitVec.ofNat 32 (0xE7000000 + d.toNat * 524288 + a.toNat * 16384 + t.toNat)
  | .errack d a t => BitVec.ofNat 32 (0xE8000000 + d.toNat * 524288 + a.toNat * 16384 + t.toNat)
  | .grant d a b t => BitVec.ofNat 32 (0xE9000000 + d.toNat * 524288 + a.toNat * 16384 + b.toNat * 512 + t.toNat)
  | .strandctlStatus d a b t => BitVec.ofNat 32 (0xEA000000 + d.toNat * 524288 + a.toNat * 16384 + b.toNat * 512 + t.toNat)
  | .strandctlHalt d a b t => BitVec.ofNat 32 (0xEA000000 + d.toNat * 524288 + a.toNat * 16384 + b.toNat * 512 + t.toNat)
  | .strandctlResume d a b t => BitVec.ofNat 32 (0xEA000000 + d.toNat * 524288 + a.toNat * 16384 + b.toNat * 512 + t.toNat)
  | .strandctlKill d a b t => BitVec.ofNat 32 (0xEA000000 + d.toNat * 524288 + a.toNat * 16384 + b.toNat * 512 + t.toNat)
  | .thalt => BitVec.ofNat 32 (0x00000000)
  | .tloopImm l n => BitVec.ofNat 32 (0x04000000 + l.toNat * 16777216 + n.toNat)
  | .tloopParam l k => BitVec.ofNat 32 (0x04800000 + l.toNat * 16777216 + k.toNat)
  | .tnext l o => BitVec.ofNat 32 (0x08000000 + l.toNat * 16777216 + o.toNat)
  | .tjmp o => BitVec.ofNat 32 (0x0C000000 + o.toNat)
  | .tagsetImm g fsel imm => BitVec.ofNat 32 (0x10000000 + g.toNat * 16777216 + fsel.toNat * 2097152 + imm.toNat)
  | .tagsetParam g fsel k => BitVec.ofNat 32 (0x10100000 + g.toNat * 16777216 + fsel.toNat * 2097152 + k.toNat)
  | .trd b g => BitVec.ofNat 32 (0x14000000 + b.toNat * 8388608 + g.toNat * 2097152)
  | .twr b g => BitVec.ofNat 32 (0x18000000 + b.toNat * 8388608 + g.toNat * 2097152)
  | .tcvt d src f r x p => BitVec.ofNat 32 (0x1C000000 + d.toNat * 8388608 + src.toNat * 1048576 + f.toNat * 16384 + r.toNat * 2048 + x.toNat * 1024 + p.toNat * 32)
  | .tpack d src w v p => BitVec.ofNat 32 (0x20000000 + d.toNat * 8388608 + src.toNat * 1048576 + w.toNat * 131072 + v.toNat * 16384 + p.toNat * 512)
  | .tunpk d src w v p => BitVec.ofNat 32 (0x24000000 + d.toNat * 8388608 + src.toNat * 1048576 + w.toNat * 131072 + v.toNat * 16384 + p.toNat * 512)
  | .ttrn w => BitVec.ofNat 32 (0x28000000 + w.toNat * 8388608)
  | .tscl b f => BitVec.ofNat 32 (0x2C000000 + b.toNat * 8388608 + f.toNat * 131072)
  | .tbsc b => BitVec.ofNat 32 (0x30000000 + b.toNat * 8388608)
  | .tsig r => BitVec.ofNat 32 (0x34000000 + r.toNat * 33554432)
  | .twt r => BitVec.ofNat 32 (0x38000000 + r.toNat * 33554432)
  | .jrnlbaseWrite .. => 0xFF000000#32
  | .qcfgWrite .. => 0xFF000000#32
  | .tkselWrite .. => 0xFF000000#32
  | .scopestWrite .. => 0xFF000000#32
  | .sqendWrite .. => 0xFF000000#32
  | .trapstatusWrite .. => 0xFF000000#32
  | .s1rootWrite .. => 0xFF000000#32
  | .engineFaultTrap => 0xFF000000#32
  | .commandStart .. => 0xFF000000#32
  | .commandComplete .. => 0xFF000000#32
  | .cpeUnit .. => 0xFF000000#32
  | .mxeStep .. => 0xFF000000#32
  | .multicastForm .. => 0xFF000000#32
  | .rowRelease .. => 0xFF000000#32
  | .mxeOutputRow .. => 0xFF000000#32
  | .tsqInstructionIssue .. => 0xFF000000#32
  | .rceLineRecode .. => 0xFF000000#32
  | .rcePack .. => 0xFF000000#32
  | .fitCheckedWrite .. => 0xFF000000#32
  | .segmentSwitch .. => 0xFF000000#32
  | .writebackMerge .. => 0xFF000000#32
  | .l1Eviction .. => 0xFF000000#32
  | .dirtyAgeSweep .. => 0xFF000000#32
  | .hostSnoop .. => 0xFF000000#32
  | .lineReadComplete .. => 0xFF000000#32
  | .patrolRead .. => 0xFF000000#32
  | .activationAlert .. => 0xFF000000#32
  | .backoffEnd .. => 0xFF000000#32
  | .scrubBank .. => 0xFF000000#32
  | .walkComplete .. => 0xFF000000#32
  | .pageRequestDeliver .. => 0xFF000000#32
  | .elementReplay .. => 0xFF000000#32
  | .longStallTimeout .. => 0xFF000000#32
  | .unmapChunkReturn .. => 0xFF000000#32
  | .scalarStorePerform .. => 0xFF000000#32
  | .issueRound .. => 0xFF000000#32
  | .queueSquash .. => 0xFF000000#32
  | .sliceEnd .. => 0xFF000000#32
  | .partitionContextSwap .. => 0xFF000000#32
  | .partitionContextRestore .. => 0xFF000000#32
  | .braidStart .. => 0xFF000000#32
  | .plyPlacement .. => 0xFF000000#32
  | .stageEnd .. => 0xFF000000#32
  | .braidComplete .. => 0xFF000000#32
  | .rebalanceRise .. => 0xFF000000#32
  | .rebalanceFull .. => 0xFF000000#32
  | .rebalanceDrain .. => 0xFF000000#32
  | .plyReplace .. => 0xFF000000#32
  | .coilFusionChange .. => 0xFF000000#32
  | .barrierComplete .. => 0xFF000000#32
  | .xmessageReceive .. => 0xFF000000#32
  | .memberFail .. => 0xFF000000#32
  | .collectiveTimeout .. => 0xFF000000#32
  | .mirrorReference .. => 0xFF000000#32
  | .packedLineReceive .. => 0xFF000000#32
  | .linkRetry .. => 0xFF000000#32
  | .linkRetrain .. => 0xFF000000#32
  | .createVf .. => 0xFF000000#32
  | .assign .. => 0xFF000000#32
  | .schedule .. => 0xFF000000#32
  | .pause .. => 0xFF000000#32
  | .resume .. => 0xFF000000#32
  | .evictContext .. => 0xFF000000#32
  | .evictSegment .. => 0xFF000000#32
  | .restore .. => 0xFF000000#32
  | .resize .. => 0xFF000000#32
  | .reset .. => 0xFF000000#32
  | .pageReplyGrant .. => 0xFF000000#32
  | .pageReplyRefuse .. => 0xFF000000#32
  | .queryIdentifier .. => 0xFF000000#32
  | .queryVfState .. => 0xFF000000#32
  | .queryFreeChunks .. => 0xFF000000#32
  | .resetVf .. => 0xFF000000#32
  | .powerGood => 0xFF000000#32
  | .stage0Complete => 0xFF000000#32
  | .stage1Complete .. => 0xFF000000#32
  | .stage2Complete .. => 0xFF000000#32
  | .sensorSweep .. => 0xFF000000#32
  | .illegalInstructionWord .. => 0xFF000000#32
  | .fetchFault => 0xFF000000#32
  | .cxlMemAccess .. => 0xFF000000#32
  | .hostLinkTraining .. => 0xFF000000#32
  | .spdmMessage .. => 0xFF000000#32
  | .xredContributionReceive .. => 0xFF000000#32
  | .groupMembershipMessage .. => 0xFF000000#32
  | .measuredTemperature .. => 0xFF000000#32

/-- The consumers that accept a LIMM (R32). -/
def Instr.takesLimm : Instr → Bool
  | .addi .. => true
  | .andi .. => true
  | .ori .. => true
  | .xori .. => true
  | .shli .. => true
  | .shri .. => true
  | .srai .. => true
  | .slti .. => true
  | .sld8 .. => true
  | .sld16 .. => true
  | .sld32 .. => true
  | .sld64 .. => true
  | .sst8 .. => true
  | .sst16 .. => true
  | .sst32 .. => true
  | .sst64 .. => true
  | .spf .. => true
  | .vmvVi .. => true
  | .vmergeVi .. => true
  | .vslupVi .. => true
  | .vsldnVi .. => true
  | .vaddVi .. => true
  | .vsubVi .. => true
  | .vmulVi .. => true
  | .vfmaVi .. => true
  | .vfmsVi .. => true
  | .vfnmaVi .. => true
  | .vdivVi .. => true
  | .vminVi .. => true
  | .vmaxVi .. => true
  | .vmulhVi .. => true
  | .vandVi .. => true
  | .vorVi .. => true
  | .vxorVi .. => true
  | .vshlVi .. => true
  | .vshrVi .. => true
  | .vsraVi .. => true
  | .vcmpeqVi .. => true
  | .vcmpltVi .. => true
  | .vcmpleVi .. => true
  | _ => false

end Sys2Proof
end

