-- ==== Sys2Proof/Machine/State.lean ====
section
/-!
DEFINITION. The machine's state as plain data, every piece the spec gives it, the reasons a step stops, and the state
after reset. Numbers: a core is 128·hank + 8·coil + core (0–1,023), so that 8·core + ctx is the CORECOORD layout of
R356; a coil is 16·hank + coil (0–127); a pair is 4·core + k. Tables whose entries may be absent are lists of a number
and a value; an unlisted number reads as the default its accessor names (Sys2Proof/Machine/Ops.lean).
-/
namespace Sys2Proof.Machine

/-- Why the machine stops with a fault. -/
inductive Fault where
  /-- R428: power was removed from the rails by a thermal shutdown; no step follows it. Raised by `step`. Safe. -/
  | powerRemoved
  deriving DecidableEq, Repr

/-- Why a step has no meaning. -/
inductive Refusal where
  /-- the instruction has no meaning in this model yet; raised by `exec`'s refused arms only. Safe. -/
  | notModelled (mnemonic : String)
  deriving DecidableEq, Repr

/-- A row v0–v31: 8,192 bits and a tag (R241). -/
structure Row where
  bits : RowBits := 0
  tag : Tag := 0x5FC0#32
  deriving DecidableEq, Repr

/-- An entry of q0–q3: a row with its SEW code and VL (R251). -/
structure QEntry where
  row : Row
  sew : Nat
  vl : Nat
  deriving DecidableEq, Repr

/-- The scalar operands a vector instruction captures when it enters the DQ (R334): the registers its fields name,
and the LIMM-extended immediate before it, if any (R31). -/
structure Capture where
  regA : Word := 0
  regB : Word := 0
  limm : Option (BitVec 24) := none
  /-- JRNLHEAD at entry: the commands journaled before the instruction (R312) -/
  head : Word := 0
  deriving DecidableEq, Repr

/-- The resume record (R382): operand row tags, or the queue entries a VSTQ popped, and the trapped instruction's address. -/
structure ResumeRec where
  pc : Word
  tags : List Tag
  entries : List QEntry
  deriving DecidableEq, Repr

/-- A combined entry (R111). -/
structure TlbEntry where
  vf : Nat
  vseg : Nat
  rd : Bool
  wr : Bool
  ex : Bool
  priv : Bool
  lw : Nat
  pw : Nat
  dem : Nat
  dfmt : Nat
  strict : Bool
  near : Bool
  shadowed : Bool
  iseg : Nat
  chunks : List Nat
  /-- the segment is one of a host window (R316), not of device memory -/
  host : Bool := false
  /-- MODEL's own field: which mapping of the segment it was formed under (Seg.map) -/
  map : Nat := 0
  deriving DecidableEq, Repr

/-- A line as accesses name it. -/
inductive LineLoc where
  | store (core line : Nat)
  | page (e : TlbEntry) (j : Nat)
  deriving DecidableEq, Repr

/-- An active element of a vector memory instruction with its place: group index, address as computed. -/
structure Elem where
  j : Nat
  va : Nat
  loc : LineLoc
  deriving DecidableEq, Repr

/-- An element's fault: group index, cause, TRAPVAL. -/
abbrev ElemFault := Nat × Nat × Word

/-- An element of a load that has been performed: the line as it was read (R158). -/
structure Taken where
  elem : Elem
  data : Line
  tag : Tag
  deriving DecidableEq, Repr

/-- A pending element (R116): group index, the address that missed, and the intermediate segment missing in stage 2. -/
structure Pending where
  j : Nat
  va : Nat
  /-- where a shadowed buffer sends the address (R223) -/
  target : Nat
  iseg : Nat
  deriving DecidableEq, Repr

/-- An entry of the scalar store queue (R335). -/
structure SsqEntry where
  addr : Word
  bytes : Nat
  value : Word
  /-- number of vector instructions entered before it, which must complete first -/
  older : Nat
  priv : Bool
  /-- the translation it was checked under; none in local store -/
  entry : Option TlbEntry
  /-- JRNLHEAD then: the commands journaled before it (R208) -/
  head : Word
  deriving DecidableEq, Repr

/-- A record of the checkpoint log (R336): the previous value of a scalar register (0–31), FCSR (32) or the
journal head (33, R213). -/
structure CkptRec where
  what : Nat
  old : Word
  /-- number of vector instructions entered before it -/
  at_ : Nat
  deriving DecidableEq, Repr

/-- What a vector memory instruction has done of its elements before it was parked (R116, R119): lists in ascending order. -/
structure Progress where
  /-- its mask as it stood when the instruction started (R250) -/
  mask : Option MaskBits := none
  /-- translated, and not performed yet -/
  placed : List Elem := []
  /-- performed loads, with what they read -/
  taken : List Taken := []
  /-- performed stores -/
  stored : List Nat := []
  /-- the lowest element that failed -/
  fault : Option ElemFault := none
  /-- handles of shadowed buffers whose front was ALT when the VLSU started it (R223) -/
  fronts : List Nat := []
  /-- entries that a VSTQ has popped (R196) -/
  popped : Option (List QEntry) := none
  deriving DecidableEq, Repr

/-- What a trap reports: cause and TRAPVAL (Table 2 of R381), and for row and element causes the place. -/
structure TrapReq where
  cause : Nat
  val : Word := 0
  row : Nat := 0
  elem : Nat := 0
  /-- a row-level or element cause -/
  isElem : Bool := false
  /-- TRAPPC when it is not the instruction's own address: TRAP's successor, CODE_END at a line's end -/
  pc : Option Word := none
  async : Bool := false
  /-- the resume record to keep (R382) -/
  record : Option (List Tag × List QEntry) := none
  deriving DecidableEq, Repr

/-- An entry of the dispatch queue (R334), or a vector instruction on its way through its unit. -/
structure DqEntry where
  instr : Instr
  cap : Capture
  /-- its number among the vector instructions that the strand has entered, from 1 on -/
  seq : Nat := 0
  /-- code address that a trap reports: the instruction's, or its LIMM's (R33) -/
  pc : Word
  /-- its token wait is satisfied (R34) -/
  tkSat : Bool := false
  /-- the record that RETT gave it to go on with (R383) -/
  use : Option ResumeRec := none
  /-- virtual segments of it that failed, with the cause (R120, R121) -/
  denied : List (Nat × Nat) := []
  /-- command numbers that it waits for (R218, R312) -/
  waits : List Nat := []
  /-- what it has done of its elements (R116) -/
  done_ : Option Progress := none
  deriving DecidableEq, Repr

/-- A vector instruction held in its unit: a memory instruction with its pending elements (R116), lowest first, or one that traps
once every older one has completed (R338). -/
structure Parked where
  entry : DqEntry
  pending : List Pending
  trap : Option TrapReq := none
  deriving DecidableEq, Repr

/-- Status of a strand's latest fault on one engine (R216). -/
structure EngFault where
  code : Nat := 0
  num : Word := 0
  addr : Word := 0
  deriving DecidableEq, Repr

/-- Run state of a strand (R352, R386, R391, R395). -/
inductive RunState where
  | running
  | halted
  | double
  /-- halted by the Anchor's swap of its function or partition (R393, R405) -/
  | paused
  deriving DecidableEq, Repr

/-- A strand (R4, R241–R258, R334–R337, R379–R386). -/
structure Strand where
  /-- the context holds a strand that has not exited -/
  live : Bool := false
  core : Nat := 0
  ctx : Nat := 0
  part : Nat := 0
  vf : Nat := 0
  strandId : Nat := 0
  plyId : Nat := 0
  stage : Nat := 0
  braid : Nat := 0
  braidNo : Word := 0
  /-- ROLE: 0 ACC, 1 EXE -/
  role : Nat := 0
  /-- s0–s31; s0 stays zero (R19) -/
  regs : Vector Word 32 := Vector.replicate 32 0
  rows : Vector Row 32 := Vector.replicate 32 {}
  /-- k0–k7; k0 is read as all ones and never written (R250) -/
  masks : Vector MaskBits 8 := Vector.replicate 8 0
  /-- code address of the next instruction (R13) -/
  pc : Word := 0
  /-- image base of the braid (R10) -/
  image : Word := 0
  /-- link word of the code line that holds the last instruction fetched (R11) -/
  link : BitVec 32 := 0
  /-- execution passed slot LAST of an END line (R15) -/
  fellOff : Bool := false
  /-- the next fetch is the first of a handler (R386) -/
  atVec : Bool := false
  /-- LIMM executed just before: its imm24 and its code address (R31) -/
  limm : Option (BitVec 24 × Word) := none
  vl : Nat := 0
  rc : Nat := 1
  /-- VTYPE.SEW code, REPRO, RM code, ILL (R242); RCM1 is `rc` − 1 unless ILL -/
  sew : Nat := 0
  repro : Bool := false
  rm : Nat := 0
  ill : Bool := true
  vstart : Nat := 0
  rstart : Nat := 0
  slices : Nat := 8
  pend : Nat := 8
  rowsInit : Bool := false
  osc : Word := 0
  diceSeed : Word := 0
  fcsr : Word := 0
  wmBind : Word := 0
  /-- TKSEL.WAITF and SIGF (R259) -/
  waitF : Nat := 0
  sigF : Nat := 8
  jrnlBase : Word := 0
  jrnlHead : Word := 0
  jrnlDone : Word := 0
  scopeCount : Nat := 0
  scopeSticky : Bool := false
  laneCount : Nat := 0
  sqEnd : BitVec 16 := 0
  trapVec : Word := 0
  trapCause : Word := 0
  trapPc : Word := 0
  trapVal : Word := 0
  trapElem : Word := 0
  pm : Bool := false
  ppm : Bool := false
  tkw : Bool := false
  trapScratch : Word := 0
  /-- the resume record; TRAPSTATUS.RR is whether one is held -/
  resume : Option ResumeRec := none
  /-- RETT came back to the record's address: the next execution uses it (R383) -/
  resumeUse : Bool := false
  /-- the token wait of the instruction at `pc` is satisfied and it has not retired (R34) -/
  tkSat : Bool := false
  /-- the instruction at `pc` has had its effect; its signal waits for room (R34) -/
  sigPend : Option Word := none
  wake : Bool := false
  /-- lines linked by VGLL: page-line keys (R163) -/
  links : List Nat := []
  /-- token counts: TSQ to this strand, MXE, CPE0, CPE1 completions, this strand to the TSQ (R258) -/
  tokTsq : Nat := 0
  tokMxe : Nat := 0
  tokCpe0 : Nat := 0
  tokCpe1 : Nat := 0
  tokToTsq : Nat := 0
  dq : List DqEntry := []
  issued : Option DqEntry := none
  ssq : List SsqEntry := []
  ckpt : List CkptRec := []
  /-- vector instructions entered so far, for the checkpoint log -/
  entered : Nat := 0
  /-- instructions held in the units, oldest first -/
  parked : List Parked := []
  /-- a scalar access or fetch held for stage 2 (R116): its virtual address and the missing intermediate segment -/
  held : Option (Nat × Nat) := none
  /-- the held access is the Anchor's, of a service: no stall (R353) -/
  anchorHold : Bool := false
  /-- virtual segments whose page request was refused or timed out under the front end's instruction, with the cause it traps
  (R120, R121) -/
  denied : List (Nat × Nat) := []
  /-- the same of the vector instruction under way -/
  vecDenied : List (Nat × Nat) := []
  /-- addresses of the front end's instruction that have been resolved, and where a shadowed buffer sent them (R223) -/
  resolved : List (Nat × Nat) := []
  /-- the round, plus one, in which the strand last issued on its core's vector unit and on its VLSU (R370); 0: never -/
  lastVec : Nat := 0
  lastVlsu : Nat := 0
  /-- command numbers whose asynchronous ENGINE_FAULT is not yet taken, ascending (R218) -/
  asyncFaults : List Nat := []
  engFaults : Vector EngFault 4 := Vector.replicate 4 {}
  /-- the strand has arrived at barrier n in the current generation (R375); 16 + n: that generation has completed -/
  barAt : Option Nat := none
  /-- what the vector memory instruction under way did of its elements before it was parked (R116) -/
  done_ : Option Progress := none
  /-- command numbers that a waiting EWAIT, VACCRD or EXIT waits for (R218) -/
  engWait : List Nat := []
  /-- an XRED that has sent its header: its sequence number (R329); or a GRPOPEN or GRPSPARE in progress: its group (R353) -/
  xseq : Option Nat := none
  /-- a TSQLD that has not retired (R227): the code address it has come to in its chain, and the next word of instruction memory -/
  tsqLoad : Option (Word × Nat) := none
  /-- a PARK waits (R395) -/
  inPark : Bool := false
  /-- a STRANDCTL HALT waits for the strand at this coordinate (R395) -/
  ctl : Option Nat := none
  run : RunState := .running
  deriving DecidableEq, Repr

/-- Queues of a strand pair (R251–R258). -/
structure Pair where
  q : Vector (List QEntry) 4 := Vector.replicate 4 []
  sq : Vector (List Word) 2 := Vector.replicate 2 []
  /-- QCFG: VCL, SCL, TCL0, TCL1 -/
  qcfg : BitVec 8 := 0
  /-- tokens EXE → ACC and ACC → EXE -/
  tokToAcc : Nat := 0
  tokToExe : Nat := 0
  /-- entries of q0–q3 that a VLDQ has reserved and not yet filled (R196, R251) -/
  reserved : Vector Nat 4 := Vector.replicate 4 0
  deriving DecidableEq, Repr

/-- A line of an L1 (R127, R131). `key` is the page line's key (Mem.lean); `data` is expanded to the layout width. -/
structure L1Line where
  key : Nat
  /-- the translation it was filled or written under, and the line of its segment: where its dirty bytes go (R132, R413) -/
  page : TlbEntry
  line : Nat
  data : Line := 0
  valid : ByteMask := 0
  dirty : ByteMask := 0
  /-- the line was filled, with this tag -/
  filled : Bool := false
  fill : Tag := 0x5FC0#32
  /-- the dirty bytes hold a typed store, whose tag and container width (R432) these are -/
  typed : Bool := false
  wtag : Tag := 0x5FC0#32
  width : Nat := 0
  /-- a line-atomic write that clears DEM is among the writes that its dirty bytes hold (R49) -/
  whole : Bool := false
  /-- placement hint (R27) -/
  hint : Nat := 0
  deriving DecidableEq, Repr

/-- A command waiting in an engine's pending queue (R209). -/
structure PendCmd where
  ctx : Nat
  num : Nat
  /-- the format context at EGO, TSQGO, EJRNL or CTXLOAD (R62) -/
  fmts : List (Nat × BitVec 19) := []
  plt : List (Nat × BitVec 8) := []
  /-- DICESEED then (R226, R309) -/
  dice : Word := 0
  /-- since when it may start: commands of the engine in the order in which they became startable (R209) -/
  ready : Option Nat := none
  deriving DecidableEq, Repr

/-- A command an engine runs: its snapshot and progress (R207–R209). -/
structure RunCmd where
  ctx : Nat
  num : Nat
  vf : Nat
  part : Nat
  braid : Nat
  image : Word
  priv : Bool
  arg : Word
  prog : Word
  regs : List Word
  /-- DICESEED and the format context captured at EGO, TSQGO or replay (R62, R226, R309) -/
  dice : Word
  fmts : List (Nat × BitVec 19) := []
  plt : List (Nat × BitVec 8) := []
  /-- flags to be ORed into FCSR at completion or fault (R238, R304) -/
  flags : Word := 0
  /-- destination resolved at start for a shadowed buffer (R224) -/
  dest : Word := 0
  /-- the work is done: only completion, or its token, is outstanding -/
  finished : Bool := false
  /-- the start checks were made (R220, R299) -/
  checked : Bool := false
  /-- ECANCEL stops it at the next unit boundary (R217) -/
  cancel : Bool := false
  /-- MXE: tile of the last finished pass, and its row groups 0–7 not yet released (R308) -/
  tile : Nat := 0
  unreleased : List Nat := []
  /-- MXE: next row of the output stage in progress (R309) -/
  outRow : Option Nat := none
  /-- MXE: BSC chosen for the pass in output (R309) -/
  outBsc : Option Nat := none
  /-- MXE: its multicast group has formed (R307) -/
  formed : Bool := false
  /-- held for stage 2: virtual address and intermediate segment (R116) -/
  held : Option (Nat × Nat) := none
  /-- virtual segments whose page request was refused or timed out, with the cause (R120, R121) -/
  denied : List (Nat × Nat) := []
  deriving DecidableEq, Repr

/-- One of the four engines of a core (R209). -/
structure Engine where
  pending : List PendCmd := []
  running : Option RunCmd := none
  deriving DecidableEq, Repr

/-- An accumulator tile (R295). `accf` 0 is ZERO-state, else the format index 1, 2 or 12. -/
structure Tile where
  accf : Nat := 0
  /-- nonzero element codes by element number, ascending -/
  vals : List (Nat × Nat) := []
  /-- poison flags of rows 0–127 -/
  poison : BitVec 128 := 0
  deriving DecidableEq, Repr

/-- An address generator of the TSQ (R226). -/
structure AddrGen where
  base : Word := 0
  strides : Vector Word 4 := Vector.replicate 4 0
  rowStride : Word := 0
  deriving DecidableEq, Repr

/-- The transform sequencer (R226, R229). -/
structure Tsq where
  /-- instruction memory, words 0–4,095; an unlisted word is zero -/
  imem : List (Nat × BitVec 32) := []
  tb : Vector (Line × Tag) 8 := Vector.replicate 8 (0, 0x5FC0#32)
  ag : Vector AddrGen 4 := Vector.replicate 4 {}
  loopC : Vector Nat 4 := Vector.replicate 4 0
  loopN : Vector Nat 4 := Vector.replicate 4 0
  scale : Nat := 127
  pc : Nat := 0
  /-- TSTATE.ST: 0 idle, 1 running, 2 token wait, 3 parked, 4 stopping -/
  st : Nat := 0
  deriving DecidableEq, Repr

/-- A core's saved context: its shadow slots and tile shadow (R140, R297). -/
structure Saved where
  /-- function whose strand executed CTXSAVE; none for a swap by the Anchor -/
  owner : Option Nat
  /-- tenant of the partition when it was saved -/
  tenant : Option Nat
  /-- the core held no other strand: tiles, sequencer and local store were saved too -/
  whole : Bool
  strands : List Strand
  pairs : List (Nat × Pair)
  tiles : Vector Tile 4
  engines : Vector Engine 4
  tsq : Tsq
  /-- image of the 1 MiB local store in device-reserved rows (R393): bytes and tags by offset -/
  store : Option (List (Nat × BitVec 8) × List (Nat × Tag))
  deriving DecidableEq, Repr

/-- A core (R2, R112, R127, R295). -/
structure Core where
  /-- most recently filled or written first: 128 sets of 16 ways -/
  l1 : List L1Line := []
  /-- micro-TLBs of the front end and of the VLSU: at most 64 entries each (R112). The spec gives no number of VLSU ports: the model
  has one (assumption 11). -/
  frontTlb : List TlbEntry := []
  vlsuTlb : List TlbEntry := []
  /-- entries that a newer one has displaced and no synchronisation has dropped: a lookup may still take one (R115, assumption 11) -/
  oldTlb : List TlbEntry := []
  /-- the core TLB: 512 sets of 8 ways -/
  tlb : List TlbEntry := []
  /-- invalidation generation applied, by virtual function (R114) -/
  gen : List (Nat × Nat) := []
  tiles : Vector Tile 4 := Vector.replicate 4 {}
  engines : Vector Engine 4 := Vector.replicate 4 {}
  tsq : Tsq := {}
  /-- round counters of the arbiters of the vector unit and of the VLSU (R370) -/
  vecRound : Nat := 0
  vlsuRound : Nat := 0
  saved : Option Saved := none
  deriving DecidableEq, Repr

/-- A line of a shared operand that a formed multicast group has read at a step (R307): group, members, step and line number. -/
structure SharedLine where
  grp : Nat
  mask : Nat
  step : Nat
  line : Nat
  data : Line
  tag : Tag
  deriving DecidableEq, Repr

/-- A coil: fusion (R129), forecast and throttle (R356, R409, R431). -/
structure Coil where
  fused : Bool := false
  temp : BitVec 16 := 0
  overLimit : Bool := false
  sweep : BitVec 32 := 0
  /-- issue rate in eighths of full rate under attribution (R409) -/
  rate : Nat := 8
  /-- the banks for whose sake that rate was lowered, by channel -/
  lowered : List Nat := []
  /-- formed multicast groups: group, members, instance (R307) -/
  groups : List (Nat × Nat × Word) := []
  shared : List SharedLine := []
  deriving DecidableEq, Repr

/-- A request in a hank's RCE queue (R239). -/
structure RceReq where
  vf : Nat
  part : Nat
  vseg : Nat
  fmt : Nat
  bsc : Nat
  auto : Bool
  /-- custom descriptors of the issuing braid at the request (R432) -/
  fmts : List (Nat × BitVec 19)
  /-- intermediate segment, once the pass has begun -/
  iseg : Option Nat := none
  /-- next page line to rewrite -/
  next : Nat := 0
  /-- BSC chosen for the lines that will share a machine line (AUTO) -/
  bscNow : Nat := 127
  /-- growth ended the pass (R93) -/
  ended : Bool := false
  deriving DecidableEq, Repr

/-- A walk-cache entry: a stage-1 non-leaf entry by function, level and table index prefix (R112). -/
structure WalkEntry where
  vf : Nat
  lvl : Nat
  pfx : Nat
  next : Nat
  deriving DecidableEq, Repr

/-- A stage-2 table entry that a walk cache holds (R108, R112): function, level 2 or 1, and the address bits above the entry's reach. -/
structure S2Entry where
  vf : Nat
  lvl : Nat
  pfx : Nat
  deriving DecidableEq, Repr

/-- A segment descriptor in force (R108), with the Anchor's dirty bit (R405) and opaque handle (R404). -/
structure Seg where
  rd : Bool
  wr : Bool
  ex : Bool
  lw : Nat
  pw : Nat
  chunks : List Nat
  dirty : Bool := false
  /-- MODEL's own field: the number of this mapping among its function's, which tells a stale translation from a current one -/
  map : Nat := 0
  deriving DecidableEq, Repr

/-- A segment descriptor as a hank's walk cache holds it (R112). -/
structure DescEntry where
  vf : Nat
  iseg : Nat
  seg : Seg
  deriving DecidableEq, Repr

/-- A hank. -/
structure Hank where
  cycle : Word := 0
  /-- 4,096 sets of 16 ways -/
  tlb : List TlbEntry := []
  gen : List (Nat × Nat) := []
  /-- the walk cache: stage-1 non-leaf entries, stage-2 table entries and segment descriptors (R112) -/
  walk : List WalkEntry := []
  s2 : List S2Entry := []
  descs : List DescEntry := []
  /-- memory references that its walks have made (R110, R423) -/
  refs : Nat := 0
  rce : List RceReq := []
  /-- cache-die key slots 0–31 that are loaded: slot and tenant (R125) -/
  keys : List (Nat × Nat) := []
  /-- thermal throttle (R428) -/
  throttled : Bool := false
  /-- what each of its temperature sensors read last, in thousandths of a degree (R428) -/
  temps : List (Nat × Nat) := []
  deriving DecidableEq, Repr

/-- A machine line held in an L2 slice (R122): in-channel offset, the key slot it was filled under, and R27's hint. -/
structure L2Line where
  off : Nat
  key : Nat
  /-- its bytes have not been written back to the bank -/
  dirty : Bool := false
  /-- its contents are those listed in Channel.bank: it was filled from there and not written since -/
  asBank : Bool := false
  hint : Nat := 0
  deriving DecidableEq, Repr

/-- A read of a stored line that waits at the channel controller (R99, R101): its line, how it is found, whether it is a patrol
read or one of a NEAR page, and the function and CORECOORD its events name. -/
structure ChanReq where
  off : Nat
  err : ReadError
  patrol : Bool
  near : Bool
  vf : Nat
  coord : Nat
  deriving DecidableEq, Repr

/-- An HBM4 channel: its L2 slice, controller and banks (R83, R98–R101, R122). The contents of a line are those of State.mem and
State.tags, but for the lines that `bank` lists: what their bank holds while the slice holds something else or nothing. -/
structure Channel where
  trained : Bool := true
  corrected : Nat := 0
  /-- lines of the L2 slice, most recently used first: 512 sets of 12 ways -/
  l2 : List L2Line := []
  /-- by in-channel offset -/
  bank : List (Nat × (Line × Tag)) := []
  /-- activation counts by bank·65536 + row -/
  act : List (Nat × Nat) := []
  /-- the open row of each bank -/
  openRow : List (Nat × Nat) := []
  /-- banks in back-off -/
  backoff : List Nat := []
  /-- banks the ZE has still to scrub, ascending -/
  scrub : List Nat := []
  /-- reads that wait for a back-off or a scrub, in arrival order -/
  queue : List ChanReq := []
  deriving DecidableEq, Repr

/-- A stage's descriptor in a launch record (Table 1 of R358). -/
structure StageDesc where
  accEnt : Nat
  exeEnt : Nat
  pairs : Nat
  exeOnly : Bool
  minPly : Nat
  maxPly : Nat
  inQ : Option Nat
  outQ : Option Nat
  nPly : Nat
  wmBind : Word
  deriving DecidableEq, Repr

/-- A stage queue: its descriptor and records (R365). -/
structure StageQueue where
  num : Nat
  qbase : Word
  cap : Nat
  src : Nat
  dst : Nat
  high : Nat
  low : Nat
  recs : List (Word × Word) := []
  deriving DecidableEq, Repr

/-- A resident or waiting ply (R363, R369, R375). -/
structure Ply where
  stage : Nat
  id : Nat
  placed : Bool := false
  parked : Bool := false
  /-- strands created and not exited, by STRANDID -/
  strands : List Nat := []
  /-- generation of each barrier 0–15 -/
  barGen : List (Nat × Nat) := []
  deriving DecidableEq, Repr

/-- A braid-table entry (R361). -/
structure Braid where
  no : Nat
  vf : Nat
  running : Bool := false
  image : Word
  fuse : Bool
  prio : Nat
  early : Bool
  pred : Nat
  predWm : Nat
  predBnd : Word
  stages : List StageDesc
  queues : List StageQueue
  /-- custom descriptors by index 23–63 (R59, R62) -/
  fmts : List (Nat × BitVec 19)
  /-- written PLT entries by 64·a + b (R63, R376) -/
  plt : List (Nat × BitVec 8) := []
  plies : List Ply := []
  /-- next PLYID of each stage -/
  nextPly : List (Nat × Nat) := []
  ended : List Nat := []
  /-- trap vector written with reach 3 (R397) -/
  trapVec : Option Word := none
  /-- rebalancing actions by stage (R377) -/
  rebal : List (Nat × Nat) := []
  /-- stages whose grants a FULL event holds lowered (R369) -/
  lowered : List Nat := []
  /-- crossings not yet handled: event (0 RISE, 1 FULL, 2 DRAIN) and queue, oldest first (R369) -/
  crossed : List (Nat × Nat) := []
  deriving DecidableEq, Repr

/-- A buffer-map entry (R223). -/
structure BufEntry where
  base : Nat
  alt : Nat
  segs : Nat
  front : Bool
  vf : Nat
  deriving DecidableEq, Repr

/-- A message queued for XRECV (R332). -/
structure XMsg where
  rank : Nat
  mtag : Nat
  rows : List QEntry
  deriving DecidableEq, Repr

/-- A collective group (R324–R333). -/
structure Group where
  /-- function whose strand opened it -/
  vf : Nat
  order : Nat
  tmo : Nat
  logBase : Word
  rank : Nat
  members : List Word
  /-- 1 active, 2 joining -/
  gstate : Nat
  gen : Nat
  seq : Nat
  liveSet : List Nat
  /-- members that have opened the group -/
  openedBy : List Nat
  /-- contributions received for the XRED in progress or later ones -/
  contrib : List Contribution := []
  /-- members live at the start of the XRED in progress -/
  startSet : List Nat := []
  /-- our own header was sent, with our contribution -/
  own : Option Contribution := none
  /-- ranks that spares have asked this member, their donor, for while an XRED is in flight (R327) -/
  wanted : List Nat := []
  inbox : List XMsg := []
  /-- row credits toward each rank; unlisted: 8 -/
  credits : List (Nat × Nat) := []
  deriving DecidableEq, Repr

/-- An error-log entry (R410). -/
structure LogEntry where
  seq : Nat
  event : Nat
  vf : Nat
  coord : Nat
  addr : Word
  detail : Word
  deriving DecidableEq, Repr

/-- A partition (R399). -/
structure Part where
  tenant : Option Nat := none
  coils : List Nat := []
  /-- RES: channels in ascending global number (R95) -/
  chans : List Nat := []
  braids : List (Nat × Braid) := []
  braidCtr : Nat := 0
  bufs : List (Nat × BufEntry) := []
  wm : List (Nat × Word) := []
  groups : List (Nat × Group) := []
  /-- GRPOPENs of other members that came before this one's, oldest first, by group (R353) -/
  joins : List (Nat × MemberMsg) := []
  /-- allocated chunk numbers -/
  used : List Nat := []
  /-- reserve set by the policy; none selects the default of R94 -/
  reserve : Option Nat := none
  errLog : List LogEntry := []
  errSeq : Nat := 0
  errLost : Nat := 0
  /-- unmapped chunks waiting for the cores to apply a generation: function, generation, chunks (R413) -/
  returning : List (Nat × Nat × List Nat) := []
  /-- a RESET is under way: the tag of its capsule (R406) -/
  resetTag : Option Nat := none
  /-- coils taken away whose plies are parked until they move (R398) -/
  parkedCoils : List Nat := []
  deriving DecidableEq, Repr

/-- An outstanding page request (R117). -/
structure PageReq where
  id : Nat
  iseg : Nat
  kind : Nat
  lw : Nat
  pw : Nat
  read : Bool := false
  /-- its record is in the capsule mailbox -/
  delivered : Bool := false
  deriving DecidableEq, Repr

/-- An invalidation record (R114): generation, whether it names intermediate segments (R414), first segment, count. -/
structure InvRec where
  gen : Nat
  inter : Bool
  seg : Nat
  count : Nat
  deriving DecidableEq, Repr

/-- State of a virtual function as QUERY reports it (R403). -/
inductive VfState where
  | bound
  | resident
  | paused
  | resetting
  deriving DecidableEq, Repr

/-- A virtual function. -/
structure Vf where
  st : VfState := .bound
  part : Nat := 0
  tenant : Nat := 0
  policy : Policy
  s1root : Word := 0
  trapVec : Word := 0
  gen : Nat := 0
  /-- the last 64 invalidation records -/
  ring : List InvRec := []
  segs : List (Nat × Seg) := []
  /-- mappings made so far, for Seg.map -/
  maps : Nat := 0
  /-- bits [9:1] of descriptors that UNMAP has left, V being 0 (R413) -/
  unmapped : List (Nat × Nat) := []
  /-- unmapped segments that had been written since the last dirty-page report (R405) -/
  dirtied : List Nat := []
  pgq : List PageReq := []
  nextReq : Nat := 0
  /-- misses that found the queue full, in the order of their first misses (R117, R424): segment, KIND, LW and PW -/
  late : List (Nat × Nat × Nat × Nat) := []
  /-- records and completions in the capsule mailbox, oldest first: 16-byte values -/
  mailbox : List (BitVec 128) := []
  mailboxOpen : Bool := true
  slice : Nat := 0
  /-- a RESET_VF is under way: the tag of its capsule (R407) -/
  resetTag : Option Nat := none
  /-- a reset of its partition allows a new CREATE_VF (R402, R406) -/
  wasReset : Bool := false
  /-- an SPDM-bound TDI in the RUN state (R401) -/
  tdiBound : Bool := false
  tdiRun : Bool := false
  /-- its IDE stream is keyed (R401) -/
  ideKeyed : Bool := false
  deriving DecidableEq, Repr

/-- A tenant (R401). -/
structure Tenant where
  num : Nat
  /-- the ML-DSA-87 public key registered over SPDM -/
  key : Nat
  /-- its keys exist: it holds a virtual function (R401, R407) -/
  keyLoaded : Bool := false
  evictCtr : Nat := 0
  deriving DecidableEq, Repr

/-- An evicted image, by host handle (R404). -/
structure Evicted where
  handle : Nat
  tenant : Nat
  vf : Nat
  ctr : Nat
  /-- what the host holds of it: ciphertext and integrity tag -/
  cipher : Nat
  mac : BitVec 128
  contexts : List (Nat × Saved)
  seg : Option (Nat × Seg × List (Line × Tag))
  deriving DecidableEq, Repr

/-- A scale-up port or host port (R316, R321). -/
structure Port where
  up : Bool := false
  retries : Nat := 0
  feats : Option LinkFeatures := none
  deriving DecidableEq, Repr

/-- A mirror of one peer and plane (R323): the ring and HEAD. -/
structure Mirror where
  ring : List (Nat × PackedLine) := []
  head : Nat := 0
  deriving DecidableEq, Repr

/-- What leaves the device on a link or port: a message of a collective, a packed line or a report (R321, R332). -/
inductive Sent where
  | xred (part grp : Nat) (c : Contribution)
  | xsend (part grp : Nat) (msg : PeerMsg) (dst : Nat)
  | member (part grp : Nat) (msg : MemberMsg)
  /-- a line of a message for a peer, with its sequence number, on a plane (R321); or a reference to a mirror's slot (R323) -/
  | line (peer plane seq : Nat) (l : PackedLine)
  | reference (peer plane seq slot : Nat)
  | completion (tag status : Nat) (result : Word)
  | report (event : Nat) (detail : Word)
  /-- CXL.cache requests for half of a host line (R317): RdShared; WOWrInv with its byte mask, WOWrInvF where that is full -/
  | hostRead (addr : Nat)
  | hostWrite (addr : Nat) (data : BitVec 512) (mask : BitVec 64)
  /-- a packed-line message to a peer with Chroale capability (R319), with the bytes of it that are written -/
  | hostLine (addr : Nat) (l : PackedLine) (mask : ByteMask)
  /-- the answer to a CXL.mem read (R316) -/
  | memRead (addr : Nat) (byte : BitVec 8)
  /-- the same to a peer with Chroale capability: the packed line that holds the byte (R319) -/
  | memLine (addr : Nat) (l : PackedLine)
  | abort (vf : Nat)
  /-- a snoop response (R317): the line, and whether dirty bytes were written back before it -/
  | snoop (line : Nat) (dirty : Bool)
  /-- an evicted image for a host handle: ciphertext and integrity tag (R404) -/
  | image (handle cipher : Nat) (mac : BitVec 128)
  deriving DecidableEq, Repr

/-- The Anchor and the management core (R401, R425–R431). -/
structure Anchor where
  /-- 0 before power-good, then 1, 2, 3 while stages 0, 1 and 2 run, 4 when stage 2 has completed (R425) -/
  stage : Nat := 0
  powered : Bool := true
  tenants : List Tenant := []
  evicted : List Evicted := []
  /-- events reported to the Anchor, newest first -/
  reports : List LogEntry := []
  /-- the non-volatile log (R428) -/
  nvLog : List Nat := []
  /-- management threshold of the row-activation counters (R98) -/
  actThreshold : Nat := 2048
  sweeps : Nat := 0
  /-- capsules that wait in their mailboxes, oldest first: the function of the mailbox, or none for the physical function's (R403) -/
  capsules : List (Option Nat × Capsule) := []
  /-- rail telemetry of the last sweep: hank logic 0–7, hank cache 8–15, stack core 16–47, stack I/O 48–79, I/O die 80–81, link 82–83
  (R429) -/
  rails : Vector RailSample 84 := Vector.replicate 84 {}
  /-- forecast peaks of the HBM4 stacks (R431) -/
  stackPeaks : Vector (BitVec 16) 32 := Vector.replicate 32 0
  /-- PKCAP of each hop by number: scale-up port p, or 18 + k on the device (R322) -/
  pkcap : List (Nat × BitVec 32) := []
  deriving DecidableEq, Repr

/-- What acts next when it is not the front end of `me` (the arbiters, engines, links, Anchor and host): a step of the
table, another strand's front end, or the entry of the next vector instruction into the DQ instead of its dispatch. -/
inductive Choice where
  | event (i : Instr)
  | strand (core ctx : Nat)
  | enter
  deriving DecidableEq, Repr

end Sys2Proof.Machine

namespace Sys2Proof.Machine

/-- The whole machine. -/
structure State where
  /-- the strand whose front end steps -/
  me : Strand := {}
  others : List Strand := []
  pairs : List (Nat × Pair) := []
  cores : List (Nat × Core) := []
  coils : List (Nat × Coil) := []
  hanks : List (Nat × Hank) := []
  chans : List (Nat × Channel) := []
  parts : List (Nat × Part) := []
  vfs : List (Nat × Vf) := []
  /-- every byte of device memory, local store and host memory that is not zero (Ops.lean gives the addresses) -/
  mem : List Host.Cell := []
  /-- tag words of stored lines, by line; an unlisted line holds the scrubbed tag 0x5FC0 (R100, R138) -/
  tags : List (Nat × Tag) := []
  anchor : Anchor := {}
  ports : List (Nat × Port) := []
  hostPorts : List (Nat × Port) := []
  mirrors : List (Nat × Mirror) := []
  /-- the mirrors kept for lines sent (R323) -/
  sentMirrors : List (Nat × Mirror) := []
  outbox : List Sent := []
  /-- sequence numbers of lines (R321), by peer: of the next one sent, and of the next one to be delivered -/
  sendNos : List (Nat × Nat) := []
  recvNos : List (Nat × Nat) := []
  /-- lines that have come before one with a lower number: peer, number, plane, line -/
  early : List (Nat × Nat × Nat × PackedLine) := []
  /-- lines delivered, in the order of their numbers (R321, R323): peer, plane, line -/
  arrivals : List (Nat × Nat × PackedLine) := []
  /-- MODEL's own field: the environment's and the arbiters' choices still to come -/
  agenda : List Choice := []
  /-- MODEL's own field: `me` is blocked and nothing has changed since -/
  waiting : Bool := false
  /-- MODEL's own fields: turns that front ends have taken, and choices made, under the default schedule (Schedule.lean) -/
  turns : Nat := 0
  picks : Nat := 0
  /-- MODEL's own field: how many free values have been taken (Config.lean) -/
  freeCtr : Nat := 0
  deriving DecidableEq, Repr

/-- The machine right after reset (R425, R426): power-good has not been signalled, no partition, function or
strand exists, and every register stands at the value R247, R242, R259 and R380 give it. -/
def State.reset : State := {}

end Sys2Proof.Machine
end

