-- ==== Sys2Proof/Machine/Formats.lean ====
section
/-!
DEFINITION. Element formats, tags and the promotion lattice (R47–R66): the fields of a tag, the fixed and custom
formats, the values their codes denote, the lattice table and the tags of results.
-/
namespace Sys2Proof.Machine

/-! ## Tags (R47) -/

/-- FMT [5:0]. -/
def fmtOf (t : Tag) : Nat := t.toNat % 64

/-- BSC [13:6]. -/
def bscOf (t : Tag) : Nat := t.toNat / 2 ^ 6 % 256

/-- VCLASS [16:14] (R50): 0 VALID, 1 ZERO, 2 POISON, 3 CONFLICT, 4 UNINIT. -/
def classOf (t : Tag) : Nat := t.toNat / 2 ^ 14 % 8

/-- DEM [17] (R49). -/
def demOf (t : Tag) : Bool := t.toNat / 2 ^ 17 % 2 == 1

/-- A tag from its fields. -/
def mkTag (fmt bsc cls : Nat) (dem : Bool) : Tag :=
  BitVec.ofNat 32 (fmt % 64 + bsc % 256 * 2 ^ 6 + cls % 8 * 2 ^ 14 + dem.toNat * 2 ^ 17)

/-- The tag with another class. -/
def withClass (t : Tag) (cls : Nat) : Tag := mkTag (fmtOf t) (bscOf t) cls (demOf t)

/-- The tag with another DEM bit. -/
def withDem (t : Tag) (dem : Bool) : Tag := mkTag (fmtOf t) (bscOf t) (classOf t) dem

/-- The tag of a scrubbed line: FMT 0, BSC 127, ZERO, DEM 0 (R47, R100). -/
def zeroTag : Tag := 0x5FC0#32

/-! ## Formats (R54–R61) -/

/-- How the codes of a format are read. -/
inductive FmtKind where
  | none
  | float
  | fixedPt
  | int
  | nat
  | e8m0
  deriving DecidableEq, Repr

/-- A format: sign, exponent and mantissa bits, bias, SPECIAL policy, SCALED. An integer keeps its width in `m`. -/
structure Fmt where
  kind : FmtKind
  s : Nat
  e : Nat
  m : Nat
  bias : Int
  special : Nat
  scaled : Bool
  deriving DecidableEq, Repr

/-- Total width S + E + M (R55); 0 for NONE and an unassigned index. -/
def Fmt.width (f : Fmt) : Nat := f.s + f.e + f.m

/-- The smallest of 2, 4, 8, 16, 32 and 64 that is at least `w` (R55). -/
def containerOf (w : Nat) : Nat :=
  if w ≤ 2 then 2 else if w ≤ 4 then 4 else if w ≤ 8 then 8 else if w ≤ 16 then 16 else if w ≤ 32 then 32 else 64

/-- Container width, the slot's own width `slot` standing for NONE and unassigned formats (R55). -/
def Fmt.container (f : Fmt) (slot : Nat) : Nat :=
  match f.kind with
  | .none => slot
  | _ => containerOf f.width

def Fmt.unassigned : Fmt := ⟨.none, 0, 0, 0, 0, 0, false⟩

/-- Fixed formats (Table 3 of R54). -/
def fixedFmt : Nat → Fmt
  | 1 => ⟨.float, 1, 11, 52, 1023, 0, false⟩
  | 2 => ⟨.float, 1, 8, 23, 127, 0, false⟩
  | 3 => ⟨.float, 1, 5, 10, 15, 0, false⟩
  | 4 => ⟨.float, 1, 8, 7, 127, 0, false⟩
  | 5 => ⟨.float, 1, 4, 3, 7, 1, true⟩
  | 6 => ⟨.float, 1, 5, 2, 15, 0, true⟩
  | 7 => ⟨.float, 1, 3, 2, 3, 2, true⟩
  | 8 => ⟨.float, 1, 2, 3, 1, 2, true⟩
  | 9 => ⟨.float, 1, 2, 1, 1, 2, true⟩
  | 10 => ⟨.e8m0, 0, 8, 0, 127, 1, false⟩
  | 11 => ⟨.int, 0, 0, 64, 0, 0, false⟩
  | 12 => ⟨.int, 0, 0, 32, 0, 0, false⟩
  | 13 => ⟨.int, 0, 0, 16, 0, 0, false⟩
  | 14 => ⟨.int, 0, 0, 8, 0, 0, false⟩
  | 15 => ⟨.int, 0, 0, 4, 0, 0, false⟩
  | 16 => ⟨.int, 0, 0, 2, 0, 0, false⟩
  | 17 => ⟨.nat, 0, 0, 64, 0, 0, false⟩
  | 18 => ⟨.nat, 0, 0, 32, 0, 0, false⟩
  | 19 => ⟨.nat, 0, 0, 16, 0, 0, false⟩
  | 20 => ⟨.nat, 0, 0, 8, 0, 0, false⟩
  | 21 => ⟨.nat, 0, 0, 4, 0, 0, false⟩
  | 22 => ⟨.nat, 0, 0, 2, 0, 0, false⟩
  | _ => .unassigned

/-- A descriptor word is valid (R60); its bits [31:18] are checked where the whole word is at hand. -/
def descValid (d : Nat) : Bool :=
  let e := d % 8
  let m := d / 8 % 8
  let s := d / 64 % 2
  let sp := d / 2 ^ 15 % 4
  decide (1 ≤ s + e + m ∧ s + e + m ≤ 8 ∧ sp ≠ 3 ∧ (sp = 0 → 2 ≤ e ∧ 1 ≤ m) ∧ (sp = 1 → 1 ≤ e) ∧ (e = 0 → sp = 2)
    ∧ d < 2 ^ 18)

/-- The format of a custom descriptor (R59, R61). -/
def descFmt (d : Nat) : Fmt :=
  let e := d % 8
  let b : Int := if d / 2 ^ 14 % 2 = 1 then (d / 2 ^ 7 % 256 : Nat) - 256 else (d / 2 ^ 7 % 256 : Nat)
  ⟨if e = 0 then .fixedPt else .float, d / 64 % 2, e, d / 8 % 8, b, d / 2 ^ 15 % 4, d / 2 ^ 17 % 2 == 1⟩

/-- A format context (R62): custom descriptors by index and the written lattice entries by 64·a + b. -/
structure FmtCtx where
  fmts : List (Nat × BitVec 19)
  plt : List (Nat × BitVec 8)
  deriving DecidableEq, Repr

/-- The format of an index in a context. -/
def FmtCtx.fmt (c : FmtCtx) (i : Nat) : Fmt :=
  if i < 23 then fixedFmt i
  else match c.fmts.lookup i with
    | some d => descFmt d.toNat
    | none => .unassigned

/-- The index names no format that arithmetic can use by itself: unassigned (R62). -/
def FmtCtx.isUnassigned (c : FmtCtx) (i : Nat) : Bool := decide (23 ≤ i) && (c.fmts.lookup i).isNone

/-- Default lattice rows (Table 5 of R65); 0x40 forbids. -/
def pltRow : Nat → List Nat
  | 0 => [64, 64, 64, 64, 64, 64, 64, 64, 64, 64, 64, 64, 64, 64, 64, 64, 64, 64, 64, 64, 64, 64, 64]
  | 1 => [64, 1, 1, 1, 1, 1, 1, 1, 1, 1, 64, 64, 64, 64, 64, 64, 64, 64, 64, 64, 64, 64, 64]
  | 2 => [64, 1, 2, 2, 2, 2, 2, 2, 2, 2, 64, 64, 64, 64, 64, 64, 64, 64, 64, 64, 64, 64, 64]
  | 3 => [64, 1, 2, 3, 2, 2, 2, 2, 2, 2, 64, 64, 64, 64, 64, 64, 64, 64, 64, 64, 64, 64, 64]
  | 4 => [64, 1, 2, 2, 4, 4, 4, 4, 4, 4, 64, 64, 64, 64, 64, 64, 64, 64, 64, 64, 64, 64, 64]
  | 5 => [64, 1, 2, 2, 4, 5, 3, 5, 5, 5, 64, 64, 64, 64, 64, 64, 64, 64, 64, 64, 64, 64, 64]
  | 6 => [64, 1, 2, 2, 4, 3, 6, 6, 3, 6, 64, 64, 64, 64, 64, 64, 64, 64, 64, 64, 64, 64, 64]
  | 7 => [64, 1, 2, 2, 4, 5, 6, 7, 5, 7, 64, 64, 64, 64, 64, 64, 64, 64, 64, 64, 64, 64, 64]
  | 8 => [64, 1, 2, 2, 4, 5, 3, 5, 8, 8, 64, 64, 64, 64, 64, 64, 64, 64, 64, 64, 64, 64, 64]
  | 9 => [64, 1, 2, 2, 4, 5, 6, 7, 8, 9, 64, 64, 64, 64, 64, 64, 64, 64, 64, 64, 64, 64, 64]
  | 10 => [64, 64, 64, 64, 64, 64, 64, 64, 64, 64, 64, 64, 64, 64, 64, 64, 64, 64, 64, 64, 64, 64, 64]
  | 11 => [64, 64, 64, 64, 64, 64, 64, 64, 64, 64, 64, 11, 11, 11, 11, 11, 11, 64, 11, 11, 11, 11, 11]
  | 12 => [64, 64, 64, 64, 64, 64, 64, 64, 64, 64, 64, 11, 12, 12, 12, 12, 12, 64, 11, 12, 12, 12, 12]
  | 13 => [64, 64, 64, 64, 64, 64, 64, 64, 64, 64, 64, 11, 12, 13, 13, 13, 13, 64, 11, 12, 13, 13, 13]
  | 14 => [64, 64, 64, 64, 64, 64, 64, 64, 64, 64, 64, 11, 12, 13, 14, 14, 14, 64, 11, 12, 13, 14, 14]
  | 15 => [64, 64, 64, 64, 64, 64, 64, 64, 64, 64, 64, 11, 12, 13, 14, 15, 15, 64, 11, 12, 13, 14, 15]
  | 16 => [64, 64, 64, 64, 64, 64, 64, 64, 64, 64, 64, 11, 12, 13, 14, 15, 16, 64, 11, 12, 13, 14, 15]
  | 17 => [64, 64, 64, 64, 64, 64, 64, 64, 64, 64, 64, 64, 64, 64, 64, 64, 64, 17, 17, 17, 17, 17, 17]
  | 18 => [64, 64, 64, 64, 64, 64, 64, 64, 64, 64, 64, 11, 11, 11, 11, 11, 11, 17, 18, 18, 18, 18, 18]
  | 19 => [64, 64, 64, 64, 64, 64, 64, 64, 64, 64, 64, 11, 12, 12, 12, 12, 12, 17, 18, 19, 19, 19, 19]
  | 20 => [64, 64, 64, 64, 64, 64, 64, 64, 64, 64, 64, 11, 12, 13, 13, 13, 13, 17, 18, 19, 20, 20, 20]
  | 21 => [64, 64, 64, 64, 64, 64, 64, 64, 64, 64, 64, 11, 12, 13, 14, 14, 14, 17, 18, 19, 20, 21, 21]
  | 22 => [64, 64, 64, 64, 64, 64, 64, 64, 64, 64, 64, 11, 12, 13, 14, 15, 15, 17, 18, 19, 20, 21, 22]
  | _ => []

/-- Default lattice entry (R64, R65): a custom index gives itself with itself. -/
def pltDefault (a b : Nat) : Nat :=
  if a < 23 ∧ b < 23 then (pltRow a).getD b 0x40 else if a = b then a else 0x40

/-- PLT[a][b] as stored: bit 7 is zero (R63). -/
def FmtCtx.pltAt (c : FmtCtx) (a b : Nat) : Nat :=
  match c.plt.lookup (64 * a + b) with
  | some v => v.toNat % 128
  | none => pltDefault a b

/-- The RESULT of an entry, unless it forbids the pair or its RESULT cannot be used (R63). -/
def FmtCtx.joinFmt (c : FmtCtx) (a b : Nat) : Option Nat :=
  let v := c.pltAt a b
  let r := v % 64
  if v / 64 % 2 = 1 ∨ r = 0 ∨ r = 10 ∨ c.isUnassigned r then none else some r

/-- joinRow of R66; none is its FORMAT_PAIR trap. -/
def joinRow (c : FmtCtx) (a b : Tag) : Option Tag :=
  let ta := if classOf a = 1 ∧ classOf b ≠ 1 then b else a
  let tb := if classOf b = 1 ∧ classOf a ≠ 1 then a else if classOf a = 1 ∧ classOf b = 1 then a else b
  let fa := fmtOf ta
  let fb := fmtOf tb
  if c.isUnassigned fa ∨ c.isUnassigned fb then none
  else
    let col := if fa = fb ∧ (c.fmt fa).scaled ∧ bscOf ta ≠ bscOf tb then 4 else fb
    match c.joinFmt fa col with
    | none => none
    | some r => some (mkTag r (if r = fa then bscOf ta else if r = fb then bscOf tb else 127) 0 false)

/-- The formats fa and fb that joinRow joins: a ZERO operand takes the other's tag (R66). -/
def joinFmts (a b : Tag) : Nat × Nat :=
  (fmtOf (if classOf a = 1 ∧ classOf b ≠ 1 then b else a), fmtOf (if classOf b = 1 then a else b))

/-- The BSC of a polymorphic result of format `f` (R66): OSC, or inherited from the first operand not of class ZERO. -/
def resultBsc (c : FmtCtx) (f : Nat) (osc : Word) (ops : List Tag) : Nat :=
  if (c.fmt f).scaled then
    if osc.toNat / 2 ^ 8 % 2 = 1 then
      match ops.find? (fun t => classOf t != 1) with
      | some t => bscOf t
      | none => osc.toNat % 256
    else osc.toNat % 256
  else 127

/-! ## Values of codes (R56–R58, R61) -/

/-- A value: NaN (signalling or quiet), an infinity, the infinity of a division by zero (Table 9 of R72), or
±(num/den), of which `sticky` says that the true value lies above num/den by less than every rounding step. -/
inductive Num where
  | nan (sig : Bool)
  | inf (neg : Bool)
  | dz (neg : Bool)
  | fin (neg : Bool) (num den : Nat) (sticky : Bool)
  deriving DecidableEq, Repr

/-- n·2^k as a nonnegative fraction. -/
def Num.scale2 (neg : Bool) (n : Nat) (k : Int) : Num :=
  if 0 ≤ k then .fin neg (n * 2 ^ k.toNat) 1 false else .fin neg n (2 ^ (-k).toNat) false

/-- +0. -/
def Num.zero : Num := .fin false 0 1 false

/-- An integer's value. -/
def Num.ofInt (i : Int) : Num := .fin (decide (i < 0)) i.natAbs 1 false

/-- A `w`-bit code as a two's complement integer. -/
def signedOf (w n : Nat) : Int := if n % 2 ^ w ≥ 2 ^ (w - 1) then (n % 2 ^ w : Nat) - (2 ^ w : Nat) else (n % 2 ^ w : Nat)

/-- The value of a code before any block scale (R56, R58, R61). A code of format NONE has none: an operand of it, which takes part only
where PLTSET has made its lattice entry usable (R66), is read as +0 (assumption 81). -/
def Fmt.decode (f : Fmt) (code : Nat) : Num :=
  match f.kind with
  | .none => .zero
  | .int => .ofInt (signedOf f.m code)
  | .nat => .ofInt (code % 2 ^ f.m : Nat)
  | .e8m0 => if code % 256 = 255 then .nan false else .scale2 false 1 ((code % 256 : Nat) - 127)
  | .fixedPt =>
    let w := f.s + f.m
    let v : Int := if f.s = 1 then signedOf w code else (code % 2 ^ w : Nat)
    .scale2 (decide (v < 0)) v.natAbs (-f.bias)
  | .float =>
    let neg := f.s = 1 ∧ code / 2 ^ (f.e + f.m) % 2 = 1
    let x := code / 2 ^ f.m % 2 ^ f.e
    let q := code % 2 ^ f.m
    if f.special = 0 ∧ x = 2 ^ f.e - 1 then
      if q = 0 then .inf neg else .nan (decide (q < 2 ^ (f.m - 1)))
    else if f.special = 1 ∧ x = 2 ^ f.e - 1 ∧ q = 2 ^ f.m - 1 then .nan false
    else if x = 0 then .scale2 neg q (1 - f.bias - f.m)
    else .scale2 neg (2 ^ f.m + q) ((x : Int) - f.bias - f.m)

/-- Multiply a value by 2^k. -/
def Num.mul2 (v : Num) (k : Int) : Num :=
  match v with
  | .fin neg n d st => if 0 ≤ k then .fin neg (n * 2 ^ k.toNat) d st else .fin neg n (d * 2 ^ (-k).toNat) st
  | v => v

/-- The value of an element of a line or row with tag `t` (R57). -/
def elemValue (f : Fmt) (bsc code : Nat) : Num :=
  if f.scaled then
    if bsc = 255 then .nan false else (f.decode code).mul2 ((bsc : Int) - 127)
  else f.decode code

/-- The canonical NaN's code (R56). -/
def Fmt.nanCode (f : Fmt) : Nat :=
  if f.special = 0 then (2 ^ f.e - 1) * 2 ^ f.m + 2 ^ (f.m - 1) else 2 ^ (f.e + f.m) - 1

/-- The format has a NaN code. -/
def Fmt.hasNan (f : Fmt) : Bool := f.kind == .float && decide (f.special ≤ 1)

/-- The largest finite magnitude's code of a floating format (R54, R56). -/
def Fmt.maxCode (f : Fmt) : Nat :=
  match f.special with
  | 0 => (2 ^ f.e - 1) * 2 ^ f.m - 1
  | 1 => 2 ^ (f.e + f.m) - 2
  | _ => 2 ^ (f.e + f.m) - 1

end Sys2Proof.Machine
end

