-- ==== Sys2Proof/Machine/Flags.lean ====
section
/-!
DEFINITION. Arithmetic on exact values, rounding and the flags it raises (R67–R76). A flag set is a number at FCSR's bit
positions (Table 10 of R74).
-/
namespace Sys2Proof.Machine

def flagNV : Nat := 1
def flagDZ : Nat := 2
def flagOF : Nat := 4
def flagUF : Nat := 8
def flagNX : Nat := 16
def flagPSN : Nat := 32
def flagIDZ : Nat := 64
def flagSAT : Nat := 128

/-! ## Exact operations -/

/-- ⌊√n⌋, bit by bit from bit `k` − 1. -/
def isqrtFrom : Nat → Nat → Nat → Nat
  | 0, _, acc => acc
  | k + 1, n, acc =>
    let c := acc + 2 ^ k
    isqrtFrom k n (if c * c ≤ n then c else acc)

/-- ⌊√n⌋. -/
def isqrt (n : Nat) : Nat := isqrtFrom (Nat.log2 n / 2 + 1) n 0

/-- A NaN operand makes the result NaN; a signalling one raises NV (R72). -/
def nanOf (a b : Num) : Option (Num × Nat) :=
  match a, b with
  | .nan s, .nan t => some (.nan false, if s || t then flagNV else 0)
  | .nan s, _ => some (.nan false, if s then flagNV else 0)
  | _, .nan t => some (.nan false, if t then flagNV else 0)
  | _, _ => none

/-- Sign of an exact zero sum of opposite signs: −0 only under RDN (R68). -/
def zeroSum (rm : Nat) : Num := .fin (rm == 2) 0 1 false

/-- a + b: the exact sum and the flags of Table 9. -/
def Num.add (rm : Nat) (a b : Num) : Num × Nat :=
  match nanOf a b with
  | some r => r
  | none =>
    match a, b with
    | .inf s, .inf t => if s = t then (.inf s, 0) else (.nan false, flagNV)
    | .inf s, _ => (.inf s, 0)
    | _, .inf t => (.inf t, 0)
    | .fin s n d x, .fin t m e y =>
      let p := n * e
      let q := m * d
      let st := x || y
      if s = t then (.fin s (p + q) (d * e) st, 0)
      else if p = q then (zeroSum rm, 0)
      else if q < p then (.fin s (p - q) (d * e) st, 0)
      else (.fin t (q - p) (d * e) st, 0)
    | _, _ => (.nan false, 0)

def Num.neg : Num → Num
  | .nan s => .nan s
  | .inf s => .inf (!s)
  | .dz s => .dz (!s)
  | .fin s n d x => .fin (!s) n d x

def Num.sub (rm : Nat) (a b : Num) : Num × Nat := a.add rm b.neg

/-- The value is ±0. -/
def Num.isZero : Num → Bool
  | .fin _ 0 _ false => true
  | _ => false

/-- The sign of a value. -/
def Num.isNeg : Num → Bool
  | .nan _ => false
  | .inf s => s
  | .dz s => s
  | .fin s _ _ _ => s

def Num.isNan : Num → Bool
  | .nan _ => true
  | _ => false

def Num.isInf : Num → Bool
  | .inf _ => true
  | _ => false

/-- a·b. -/
def Num.mul (a b : Num) : Num × Nat :=
  match nanOf a b with
  | some r => r
  | none =>
    let s := a.isNeg != b.isNeg
    match a, b with
    | .fin _ n d x, .fin _ m e y => (.fin s (n * m) (d * e) (x || y), 0)
    | _, _ => if a.isZero || b.isZero then (.nan false, flagNV) else (.inf s, 0)

/-- a·b + c with the product exact. For 0·∞ with a quiet NaN addend R72 can be read either way: Table 9 raises NV for 0·∞, the text
before it none for an operation on a quiet NaN; the model raises NV (assumption 75). -/
def Num.fma (rm : Nat) (a b c : Num) : Num × Nat :=
  let p := a.mul b
  let sigC := match c with
    | .nan true => flagNV
    | _ => 0
  match p.1 with
  | .nan _ => (.nan false, p.2 ||| sigC)
  | v => let r := v.add rm c; (r.1, p.2 ||| r.2)

/-- a/b. -/
def Num.div (a b : Num) : Num × Nat :=
  match nanOf a b with
  | some r => r
  | none =>
    let s := a.isNeg != b.isNeg
    match a, b with
    | .inf _, .inf _ => (.nan false, flagNV)
    | .inf _, _ => (.inf s, 0)
    | _, .inf _ => (.fin s 0 1 false, 0)
    | .fin _ n d x, .fin _ m e _ =>
      if m = 0 then
        if n = 0 ∧ x = false then (.nan false, flagNV) else (.dz s, flagDZ)
      else (.fin s (n * e) (d * m) x, 0)
    | _, _ => (.nan false, 0)

/-- n/d scaled so that its integer square root keeps at least 256 bits: the root and its exponent. -/
def rootOf (n d : Nat) : Num :=
  -- √(n/d) = √(n·d)/d
  let k := 256 + Nat.log2 d
  let q := n * d * 2 ^ (2 * k)
  let r := isqrt q
  .fin false r (d * 2 ^ k) (r * r != q)

/-- √a. -/
def Num.sqrt (a : Num) : Num × Nat :=
  match a with
  | .nan s => (.nan false, if s then flagNV else 0)
  | .inf false => (.inf false, 0)
  | .inf true => (.nan false, flagNV)
  | .dz s => (.dz s, 0)
  | .fin s n d _ => if n = 0 then (.fin s 0 1 false, 0) else if s then (.nan false, flagNV) else (rootOf n d, 0)

/-- 1/√a. -/
def Num.rsqrt (a : Num) : Num × Nat :=
  match a with
  | .nan s => (.nan false, if s then flagNV else 0)
  | .inf false => (.fin false 0 1 false, 0)
  | .inf true => (.nan false, flagNV)
  | .dz s => (.dz s, 0)
  | .fin s n d _ => if n = 0 then (.dz s, flagDZ) else if s then (.nan false, flagNV) else (rootOf d n, 0)

/-- Bits kept of a transcendental result; the true value lies within 2^−300 of what they give (assumption 12). -/
def transBits : Nat := 512

/-- Product of 2^(2^−i) over the set bits i ≥ 1 of the fraction `f`/2^`k`, as a `transBits`-bit fixed-point number:
`root` is 2^(2^−i) at the current bit. -/
def exp2Frac : Nat → Nat → Nat → Nat → Nat
  | 0, _, _, acc => acc
  | k + 1, f, root, acc =>
    let acc' := if f / 2 ^ k % 2 = 1 then acc * root / 2 ^ transBits else acc
    exp2Frac k f (isqrt (root * 2 ^ transBits)) acc'

/-- 2^a, for a = n/2^j; a magnitude of 8,192 or more is taken as 8,192, which lies beyond every format's range. -/
def Num.exp2 (a : Num) : Num × Nat :=
  match a with
  | .nan s => (.nan false, if s then flagNV else 0)
  | .inf false => (.inf false, 0)
  | .inf true => (.fin false 0 1 false, 0)
  | .dz s => (.dz s, 0)
  | .fin s n d _ =>
    if n ≥ 8192 * d then
      if s then (.fin false 1 (2 ^ 8192) true, 0) else (.fin false (2 ^ 8192) 1 true, 0)
    else
      let r := n % d
      -- −x = −⌈x⌉ + (⌈x⌉ − x)
      let ip : Int := if s then (if r = 0 then -((n / d : Nat) : Int) else -((n / d + 1 : Nat) : Int)) else (n / d : Nat)
      let fr := if s then (if r = 0 then 0 else d - r) else r
      if fr = 0 then (Num.scale2 false 1 ip, 0)
      else
        let k := Nat.log2 d
        let m := exp2Frac k fr (isqrt (2 * 2 ^ (2 * transBits))) (2 ^ transBits)
        match Num.scale2 false m (ip - transBits) with
        | .fin g p q _ => (.fin g p q true, 0)
        | v => (v, 0)

/-- `k` further bits of log2 of m/2^1024 in [1, 2), appended to `acc`. -/
def log2Bits : Nat → Nat → Nat → Nat
  | 0, _, acc => acc
  | k + 1, m, acc =>
    let q := m * m / 2 ^ 1024
    if q ≥ 2 ^ 1025 then log2Bits k (q / 2) (2 * acc + 1) else log2Bits k q (2 * acc)

/-- ⌊log2(n/d)⌋ for n, d > 0. -/
def ilog2 (n d : Nat) : Int :=
  let g : Int := (Nat.log2 n : Int) - (Nat.log2 d : Int)
  -- n/d lies in (2^(g−1), 2^(g+1))
  if 0 ≤ g then (if n ≥ d * 2 ^ g.toNat then g else g - 1) else (if n * 2 ^ (-g).toNat ≥ d then g else g - 1)

/-- log2 a. -/
def Num.log2 (a : Num) : Num × Nat :=
  match a with
  | .nan s => (.nan false, if s then flagNV else 0)
  | .inf false => (.inf false, 0)
  | .inf true => (.nan false, flagNV)
  | .dz s => (.dz s, 0)
  | .fin s n d _ =>
    if n = 0 then (.dz true, flagDZ)
    else if s then (.nan false, flagNV)
    else
      -- take the reciprocal below 1, so that the magnitude is a logarithm of a number ≥ 1
      let flip := decide (n < d)
      let p := if flip then d else n
      let q := if flip then n else d
      let e := (ilog2 p q).toNat
      if p = q * 2 ^ e then (.fin (flip && e != 0) e 1 false, 0)
      else (.fin flip (e * 2 ^ 256 + log2Bits 256 (p * 2 ^ 1024 / (q * 2 ^ e)) 0) (2 ^ 256) true, 0)

/-- Order of two values that are not NaN. -/
def Num.lt (a b : Num) : Bool :=
  match a, b with
  | .inf s, .inf t => s && !t
  | .inf s, _ => s
  | _, .inf t => !t
  | .fin s n d _, .fin t m e _ =>
    let p := n * e
    let q := m * d
    if n = 0 ∧ m = 0 then false
    else if s then (if t then decide (q < p) else true)
    else if t then false else decide (p < q)
  | _, _ => false

def Num.eq (a b : Num) : Bool :=
  match a, b with
  | .inf s, .inf t => s == t
  | .fin s n d _, .fin t m e _ => (n == 0 && m == 0) || (s == t && n * e == m * d)
  | _, _ => false

/-- The smaller or the larger value (R269): −0 lies below +0; a NaN operand gives a NaN, NV for a signalling one. -/
def Num.minmax (max : Bool) (a b : Num) : Num × Nat :=
  match nanOf a b with
  | some r => r
  | none =>
    let aLess := Num.lt a b || (a.isZero && b.isZero && a.isNeg)
    (if aLess == max then b else a, 0)

/-- The relation of a compare (R272): equal raises NV only for a signalling NaN, less and less-or-equal for any NaN; a NaN
compares false. -/
def relation (r : Nat) (a b : Num) : Bool × Nat :=
  match nanOf a b with
  | some x => (false, if r = 0 then x.2 else flagNV)
  | none => (match r with
    | 0 => Num.eq a b
    | 1 => Num.lt a b
    | _ => Num.lt a b || Num.eq a b, 0)

/-- Class bits (Table 5 of R280): 0 −∞, 1 negative normal, 2 negative subnormal, 3 −0, 4 +0, 5 positive subnormal,
6 positive normal, 7 +∞, 8 signalling NaN, 9 quiet NaN. -/
def classBits (f : Fmt) (v : Num) (code : Nat) : Nat :=
  match v with
  | .nan s => if s then 256 else 512
  | .inf n => if n then 1 else 128
  | .dz n => if n then 1 else 128
  | .fin n 0 _ _ => if n then 8 else 16
  | .fin n _ _ _ =>
    let sub := f.kind == .float && decide (code / 2 ^ f.m % 2 ^ f.e = 0)
    if n then (if sub then 4 else 2) else if sub then 32 else 64

/-! ## Rounding (R67–R71) -/

/-- diceBits (R69). -/
def diceBits (seed row element : Nat) : Nat :=
  let x := (seed % 2 ^ 32) ^^^ (row * 2 ^ 16 % 2 ^ 32) ^^^ (element % 2 ^ 32)
  let x := x ^^^ (x / 2 ^ 16)
  let x := x * 0x045D9F3B % 2 ^ 32
  x ^^^ (x / 2 ^ 16)

/-- A rounding selection (R68): mode code and the random bits of DICE. -/
structure Rounding where
  rm : Nat
  dice : Nat := 0
  /-- the saturate column of R71 -/
  sat : Bool := false
  deriving DecidableEq, Repr

/-- ⌊(n/d)·2^k⌋ and whether nothing was cut off. -/
def floorScale (n d : Nat) (st : Bool) (k : Int) : Nat × Bool :=
  let p := if 0 ≤ k then n * 2 ^ k.toNat else n
  let q := if 0 ≤ k then d else d * 2 ^ (-k).toNat
  (p / q, decide (p % q = 0) && !st)

/-- The magnitude n/d in units of 2^q, rounded to an integer, and whether it was exact. A tie of RNE goes to the even multiple of
2^q; in a custom float with M = 0, where no mantissa bit can be even (R68), that makes a tie between normal values go up
(assumption 75). -/
def roundMag (r : Rounding) (neg : Bool) (n d : Nat) (st : Bool) (q : Int) : Nat × Bool :=
  let lo := floorScale n d st (-q)
  if lo.2 then (lo.1, true)
  else
    let half := floorScale n d st (1 - q)
    let up :=
      match r.rm with
      | 0 => if half.1 % 2 = 0 then false else if half.2 then lo.1 % 2 == 1 else true
      | 1 => false
      | 2 => neg
      | 3 => !neg
      | 4 => half.1 % 2 == 1
      | _ => decide ((floorScale n d st (32 - q)).1 - lo.1 * 2 ^ 32 + r.dice ≥ 2 ^ 32)
    (if up then lo.1 + 1 else lo.1, false)

/-- What an overflow gives (Table 8 of R71): `neg` is the sign; `inf`, `nan`, `max` the candidates' codes. -/
def overflowCode (f : Fmt) (r : Rounding) (neg : Bool) (infC nanC maxC : Nat) : Nat :=
  let toMax := r.sat || r.rm == 1 || (r.rm == 2 && !neg) || (r.rm == 3 && neg)
  if f.kind == .fixedPt || f.special == 2 || toMax then maxC
  else if f.special == 0 then infC else nanC

/-- Place a sign above a floating magnitude code. -/
def Fmt.signed (f : Fmt) (neg : Bool) (mag : Nat) : Nat :=
  if neg && f.s == 1 then mag + 2 ^ (f.e + f.m) else mag

/-- The largest-magnitude code of the sign: ±max (R71). -/
def Fmt.maxSigned (f : Fmt) (neg : Bool) : Nat :=
  match f.kind with
  | .fixedPt =>
    let w := f.s + f.m
    if f.s = 1 then (if neg then 2 ^ (w - 1) else 2 ^ (w - 1) - 1) else 2 ^ w - 1
  | _ => f.signed neg f.maxCode

/-- Round a finite nonzero magnitude to a floating format: code and flags. -/
def roundFloat (f : Fmt) (r : Rounding) (neg : Bool) (n d : Nat) (st : Bool) : Nat × Nat :=
  let e0 := ilog2 n d
  let emin : Int := 1 - f.bias
  let eq := if e0 < emin then emin else e0
  let u := roundMag r neg n d st (eq - f.m)
  -- subnormals have exponent field 0; otherwise the leading one of u adds the field's 1
  let code := (eq - emin).toNat * 2 ^ f.m + u.1
  if code > f.maxCode then
    (overflowCode f r neg (f.signed neg ((2 ^ f.e - 1) * 2 ^ f.m)) f.nanCode (f.maxSigned neg), flagOF ||| flagNX)
  else
    let tiny := decide (e0 < emin) &&
      (let v := roundMag r neg n d st (e0 - f.m)
       !(e0 == emin - 1 && v.1 == 2 ^ (f.m + 1)))
    (f.signed neg code, if u.2 then 0 else if tiny then flagUF ||| flagNX else flagNX)

/-- Round a finite nonzero magnitude to a fixed-point format (R61): code and flags. -/
def roundFixed (f : Fmt) (r : Rounding) (neg : Bool) (n d : Nat) (st : Bool) : Nat × Nat :=
  let w := f.s + f.m
  let u := roundMag r neg n d st (-f.bias)
  let lim := if f.s = 1 then (if neg then 2 ^ (w - 1) else 2 ^ (w - 1) - 1) else 2 ^ w - 1
  if u.1 > lim then (f.maxSigned neg, flagOF ||| flagNX)
  else (if neg then (2 ^ w - u.1) % 2 ^ w else u.1, if u.2 then 0 else flagNX)

/-- roundTo for a floating or fixed-point format (R67–R72): code and flags. A negative division by zero or log2(0) into a Single-NaN
format with S = 0 falls under two rows of Table 9, canonical NaN and the dash of NV and NX: the model gives +0 with NV and NX
beside DZ (assumption 75). -/
def roundTo (f : Fmt) (bsc : Nat) (r : Rounding) (v : Num) : Nat × Nat :=
  if f.scaled ∧ bsc = 255 then (0, flagNV)
  else
    match v with
    | .nan s =>
      if f.hasNan then (f.nanCode, if s then flagNV else 0) else (0, flagNV)
    | .inf neg =>
      if neg ∧ f.s = 0 then (0, flagNV ||| flagNX)
      else if f.kind = .float ∧ f.special = 0 then (f.signed neg ((2 ^ f.e - 1) * 2 ^ f.m), 0)
      else (overflowCode f r neg 0 f.nanCode (f.maxSigned neg), flagOF ||| flagNX)
    | .dz neg =>
      if neg ∧ f.s = 0 then (0, flagNV ||| flagNX)
      else if f.kind = .float ∧ f.special = 0 then (f.signed neg ((2 ^ f.e - 1) * 2 ^ f.m), 0)
      else if f.kind = .float ∧ f.special = 1 then (f.nanCode, 0)
      else (f.maxSigned neg, 0)
    | .fin neg n d st =>
      if n = 0 ∧ st = false then (if f.kind = .float then f.signed neg 0 else 0, 0)
      else if neg ∧ f.s = 0 then (0, flagNV ||| flagNX)
      else
        -- a SCALED result rounds v·2^(127−s)
        match (if f.scaled then (Num.fin neg n d st).mul2 (127 - (bsc : Int)) else .fin neg n d st) with
        | .fin g p q x => if f.kind = .float then roundFloat f r g p q x else roundFixed f r g p q x
        | _ => (0, 0)

/-- Round to an integer (R278): the integer, and whether the value was integral. -/
def roundToInt (r : Rounding) (neg : Bool) (n d : Nat) (st : Bool) : Int × Bool :=
  let u := roundMag r neg n d st 0
  (if neg then -(u.1 : Int) else (u.1 : Int), u.2)

/-- The range of an integer format: least and greatest value (R54). -/
def Fmt.intMin (f : Fmt) : Int := if f.kind = .int then -(2 ^ (f.m - 1) : Nat) else 0
def Fmt.intMax (f : Fmt) : Int := if f.kind = .int then (2 ^ (f.m - 1) : Nat) - 1 else (2 ^ f.m : Nat) - 1

/-- The code of an integer in a format of width w: modulo 2^w (R73). -/
def Fmt.intCode (f : Fmt) (i : Int) : Nat := (i % (2 ^ f.m : Nat)).toNat

/-- Wrap, or clamp with SAT under the saturate modifier (R73). -/
def Fmt.intResult (f : Fmt) (sat : Bool) (i : Int) : Nat × Nat :=
  if sat then
    if i < f.intMin then (f.intCode f.intMin, flagSAT)
    else if i > f.intMax then (f.intCode f.intMax, flagSAT)
    else (f.intCode i, 0)
  else (f.intCode i, 0)

/-- A value converted to an integer format with saturation (R278): out of range raises NV, a NaN gives 0 and NV, and
NX is raised when the value was not integral. Every negative value is out of range of a natural format, also one that
rounds to zero. -/
def toIntSat (f : Fmt) (r : Rounding) (v : Num) : Nat × Nat :=
  match v with
  | .nan _ => (0, flagNV)
  | .inf neg => (f.intCode (if neg then f.intMin else f.intMax), flagNV)
  | .dz neg => (f.intCode (if neg then f.intMin else f.intMax), flagNV)
  | .fin neg n d st =>
    let u := roundToInt r neg n d st
    let nx := if u.2 then 0 else flagNX
    if u.1 < f.intMin ∨ (neg = true ∧ f.intMin = 0 ∧ (n ≠ 0 ∨ u.2 = false)) then (f.intCode f.intMin, flagNV ||| nx)
    else if u.1 > f.intMax then (f.intCode f.intMax, flagNV ||| nx)
    else (f.intCode u.1, nx)

/-! ## FCSR (R74, R75) -/

/-- The enabled ones among flags that an element would raise (R75); IDZ and SAT have no enable. -/
def trapFlags (fcsr : Word) (fl : Nat) : Nat := fl % 64 &&& (fcsr.toNat / 2 ^ 8 % 64)

/-- OR flags into FCSR. -/
def orFlags (fcsr : Word) (fl : Nat) : Word := fcsr ||| BitVec.ofNat 64 (fl % 256)

/-! ## Reproducible sums (R76) -/

/-- Round into an accumulation format (FP32 or FP64, RNE) and read the value back; the flags are ORed in. -/
def accRound (f : Fmt) (v : Num) (fl : Nat) : Num × Nat :=
  let c := roundTo f 127 ⟨0, 0, false⟩ v
  (f.decode c.1, fl ||| c.2)

/-- One level of the tree: neighbours added, rounding RNE. -/
def pairUp (f : Fmt) : List Num → Nat → List Num × Nat
  | a :: b :: t, fl =>
    let s := a.add 0 b
    let c := accRound f s.1 (fl ||| s.2)
    let r := pairUp f t c.2
    (c.1 :: r.1, r.2)
  | l, fl => (l, fl)

/-- Round each element into the accumulation format. -/
def accRoundAll (f : Fmt) : List Num → Nat → List Num × Nat
  | [], fl => ([], fl)
  | a :: t, fl =>
    let c := accRound f a fl
    let r := accRoundAll f t c.2
    (c.1 :: r.1, r.2)

/-- The sum of one block of 32. -/
def blockSum (f : Fmt) (x : List Num) (fl : Nat) : Num × Nat :=
  let t := accRoundAll f (x ++ List.replicate (32 - x.length) Num.zero) fl
  let t := pairUp f t.1 t.2
  let t := pairUp f t.1 t.2
  let t := pairUp f t.1 t.2
  let t := pairUp f t.1 t.2
  let t := pairUp f t.1 t.2
  (t.1.headD Num.zero, t.2)

/-- reproSum over at most `fuel` blocks (R76). -/
def reproSumFrom (f : Fmt) : Nat → List Num → Option Num → Nat → Num × Nat
  | 0, _, tot, fl => (tot.getD Num.zero, fl)
  | fuel + 1, x, tot, fl =>
    if x.isEmpty then (tot.getD Num.zero, fl)
    else
      let b := blockSum f (x.take 32) fl
      match tot with
      | none => reproSumFrom f fuel (x.drop 32) (some b.1) b.2
      | some t =>
        let s := t.add 0 b.1
        let c := accRound f s.1 (b.2 ||| s.2)
        reproSumFrom f fuel (x.drop 32) (some c.1) c.2

/-- reproSum (R76). -/
def reproSum (f : Fmt) (x : List Num) : Num × Nat := reproSumFrom f (x.length / 32 + 1) x none 0

end Sys2Proof.Machine
end

