-- ==== Sys2Proof/Machine/Ops.lean ====
section
/-!
DEFINITION. The named operations every meaning is built from: tables, bytes of memory, registers, strands and pairs,
tokens, the journal's place in local store, taking a trap (R379) and returning from one (R383), and how an instruction
issues, retires, waits or traps (R34, R335–R338).
-/
namespace Sys2Proof.Machine

/-- An outcome of a step. -/
abbrev Out := Host.Outcome State Fault Refusal

/-! ## Tables: lists by ascending number -/

/-- The entry of number `k`, or `d`. -/
def look {α : Type} (l : List (Nat × α)) (k : Nat) (d : α) : α := (l.lookup k).getD d

/-- Replace or insert the entry of number `k`. -/
def put {α : Type} : List (Nat × α) → Nat → α → List (Nat × α)
  | [], k, v => [(k, v)]
  | (j, w) :: t, k, v =>
    if k < j then (k, v) :: (j, w) :: t else if k = j then (k, v) :: t else (j, w) :: put t k v

/-- Remove the entry of number `k`. -/
def del {α : Type} (l : List (Nat × α)) (k : Nat) : List (Nat × α) := l.filter (fun e => e.1 != k)

/-- Change the entry of number `k` (from `d` when there is none). -/
def upd {α : Type} (l : List (Nat × α)) (k : Nat) (d : α) (f : α → α) : List (Nat × α) := put l k (f (look l k d))

/-! ## Bytes of memory (R5)

Addresses of the model's one byte space: device memory byte b of physical line P (R79) stands at 128·P + b, P < 2^35;
byte o of the local store of core c at 128·(2^36 + 8,192·c) + o (R136); host byte a at 128·2^40 + a (R316). -/

/-- First byte of the local store of core `c`. -/
def lsByte (c off : Nat) : Nat := (2 ^ 36 + 8192 * c) * 128 + off

/-- First byte of host memory. -/
def hostByte (a : Nat) : Nat := 2 ^ 40 * 128 + a

/-- One byte; a byte not listed is zero (R100, R138; assumption 4 for host memory). -/
def memGet (m : List Host.Cell) (a : Nat) : BitVec 8 := (m.lookup a).getD 0

/-- Write one byte, keeping the list ascending and free of zeros. -/
def memPut : List Host.Cell → Nat → BitVec 8 → List Host.Cell
  | [], a, b => if b = 0 then [] else [(a, b)]
  | (c, x) :: t, a, b =>
    if a < c then (if b = 0 then (c, x) :: t else (a, b) :: (c, x) :: t)
    else if a = c then (if b = 0 then t else (a, b) :: t)
    else (c, x) :: memPut t a b

/-- The canonical form of memory: addresses strictly rising, no zero byte listed. -/
def Memory.wf : List Host.Cell → Bool
  | [] => true
  | [(_, x)] => x != 0
  | (a, x) :: (b, y) :: t => decide (a < b) && x != 0 && Memory.wf ((b, y) :: t)

/-- `n` bytes from `a`, little-endian (R5). -/
def memNat (m : List Host.Cell) (a : Nat) : Nat → Nat
  | 0 => 0
  | n + 1 => (memGet m a).toNat + 256 * memNat m (a + 1) n

/-- Write the low `n` bytes of `v` from `a`, little-endian. -/
def memPutNat (m : List Host.Cell) (a v : Nat) : Nat → List Host.Cell
  | 0 => m
  | n + 1 => memPutNat (memPut m a (BitVec.ofNat 8 v)) (a + 1) (v / 256) n

/-- The 128 bytes of the line at byte `a`, gathered in one pass. -/
def memLine (m : List Host.Cell) (a : Nat) : Line :=
  BitVec.ofNat 1024 (m.foldl (fun acc c => if a ≤ c.1 ∧ c.1 < a + 128 then acc + c.2.toNat * 2 ^ (8 * (c.1 - a)) else acc) 0)

/-- Byte `i` of a line. -/
def lineByte (l : Line) (i : Nat) : BitVec 8 := BitVec.ofNat 8 (l.toNat / 2 ^ (8 * i))

/-- Write the bytes of `l` that `mask` names from byte index 128 − `n` on. -/
def memPutLineFrom (m : List Host.Cell) (a : Nat) (l : Line) (mask : ByteMask) : Nat → List Host.Cell
  | 0 => m
  | n + 1 =>
    let i := 127 - n
    memPutLineFrom (if mask.getLsbD i then memPut m (a + i) (lineByte l i) else m) a l mask n

/-- Write the bytes of `l` that `mask` names into the line at byte `a`. -/
def memPutLine (m : List Host.Cell) (a : Nat) (l : Line) (mask : ByteMask) : List Host.Cell :=
  memPutLineFrom m a l mask 128

/-- All 128 bytes. -/
def fullMask : ByteMask := BitVec.allOnes 128

/-- Bits of the bytes that a mask names. -/
def byteBits (mask : ByteMask) : Line :=
  BitVec.ofNat 1024 ((List.range 128).foldl (fun acc i => if mask.getLsbD i then acc + 255 * 2 ^ (8 * i) else acc) 0)

/-- `b` where the mask names a byte, `a` elsewhere. -/
def mergeLine (a b : Line) (mask : ByteMask) : Line :=
  let k := byteBits mask
  (a &&& ~~~k) ||| (b &&& k)

/-- A run of `n` bytes from `off`. -/
def byteRun (off n : Nat) : ByteMask := BitVec.ofNat 128 ((2 ^ n - 1) * 2 ^ off)

/-- The tag of the stored line of number `k`; an unlisted one is scrubbed. -/
def State.tagAt (s : State) (k : Nat) : Tag := look s.tags k zeroTag

/-- Write a stored tag; the scrubbed tag is not listed. -/
def State.setTag (s : State) (k : Nat) (t : Tag) : State :=
  { s with tags := if t = zeroTag then del s.tags k else put s.tags k t }

/-! ## Registers -/

/-- A scalar register (R4). -/
def Strand.reg (t : Strand) (r : BitVec 5) : Word := t.regs[r.toNat]'(by have := r.isLt; omega)

/-- Write a scalar register; a write to s0 is discarded (R19). -/
def Strand.setReg (t : Strand) (r : BitVec 5) (v : Word) : Strand :=
  if r = 0 then t else { t with regs := t.regs.set r.toNat v (by have := r.isLt; omega) }

/-- A vector row. -/
def Strand.row (t : Strand) (r : Nat) : Row := t.rows.getD r {}

def Strand.setRow (t : Strand) (r : Nat) (v : Row) : Strand := { t with rows := t.rows.setIfInBounds r v }

/-- A mask; k0 reads as all ones (R250). -/
def Strand.mask (t : Strand) (k : Nat) : MaskBits := if k = 0 then BitVec.allOnes 32768 else t.masks.getD k 0

/-- Write a mask; a write to k0 is ignored (R250). -/
def Strand.setMask (t : Strand) (k : Nat) (v : MaskBits) : Strand :=
  if k = 0 then t else { t with masks := t.masks.setIfInBounds k v }

/-- A vector instruction of the strand has not completed: it is queued, dispatched or parked (R334, R116). -/
def Strand.older (t : Strand) : Bool := !t.dq.isEmpty || t.issued.isSome || !t.parked.isEmpty

/-- The vector instruction under way, with what it has to go on with. -/
def Strand.underWay (t : Strand) : Option DqEntry :=
  t.issued.map (fun e =>
    { e with
      tkSat := t.tkSat
      use := if t.resumeUse then t.resume else none
      denied := t.vecDenied
      waits := t.engWait
      done_ := t.done_ })

/-- The strand without a vector instruction under way. -/
def Strand.putAside (t : Strand) : Strand :=
  { t with issued := none, tkSat := false, resume := if t.resumeUse then none else t.resume, resumeUse := false, vecDenied := [], engWait := [], done_ := none }

/-- The strand with a vector instruction under way again. -/
def Strand.takeUp (t : Strand) (e : DqEntry) : Strand :=
  { t with issued := some e, tkSat := e.tkSat, resume := if e.use.isSome then e.use else t.resume, resumeUse := e.use.isSome
           vecDenied := e.denied, engWait := e.waits, done_ := e.done_ }

/-- The strand's dispatched instruction cannot be set aside: it has had its effect and its signal waits for room (R34), it is an
XRED that has sent its header (R329), or it was held in the VLSU and goes on (R119). -/
def Strand.dispatched (t : Strand) : Bool := t.issued.isSome && (t.sigPend.isSome || t.xseq.isSome || t.done_.isSome)

/-- Vector instructions of the strand that have not completed. -/
def Strand.uncompleted (t : Strand) : List DqEntry :=
  t.parked.map (fun p => p.entry) ++ t.issued.toList ++ t.dq

/-- An instruction that waits before it has had an effect goes back to the head of the DQ, and the front end goes on. -/
def Strand.unissue (t : Strand) : Strand :=
  match t.underWay with
  | some e => if t.dispatched then t else { t.putAside with dq := e :: t.dq }
  | none => t

/-- Keep the previous value for a rollback while an older vector instruction can still trap (R336); s0 holds none. -/
def Strand.record (t : Strand) (what : Nat) (old : Word) : Strand :=
  if t.older && what != 0 then { t with ckpt := t.ckpt ++ [⟨what, old, t.entered⟩] } else t

def State.reg (s : State) (r : BitVec 5) : Word := s.me.reg r

/-- A scalar instruction's register write, recorded while older vector work can be undone (R336). -/
def State.setReg (s : State) (r : BitVec 5) (v : Word) : State :=
  { s with me := (s.me.record r.toNat (s.me.reg r)).setReg r v }

/-- A vector instruction's write of a scalar register. -/
def State.setRegV (s : State) (r : BitVec 5) (v : Word) : State := { s with me := s.me.setReg r v }

/-- OR flags into FCSR, and into every value that a rollback would restore. -/
def Strand.orFcsr (t : Strand) (fl : Nat) : Strand :=
  { t with
    fcsr := orFlags t.fcsr fl
    ckpt := t.ckpt.map (fun r => if r.what = 32 then { r with old := orFlags r.old fl } else r) }

/-- OR flags into FCSR: a scalar instruction's are recorded as R336 says; a dispatched vector instruction is older than what a
rollback undoes, and its flags stay. -/
def State.raise (s : State) (fl : Nat) : State :=
  if fl = 0 then s
  else if s.me.issued.isSome then { s with me := s.me.orFcsr fl }
  else { s with me := { s.me.record 32 s.me.fcsr with fcsr := orFlags s.me.fcsr fl } }

/-! ## Strands, pairs, cores -/

/-- A strand of a core's context, wherever the model holds it. -/
def State.strand? (s : State) (core ctx : Nat) : Option Strand :=
  if s.me.live ∧ s.me.core = core ∧ s.me.ctx = ctx then some s.me
  else s.others.find? (fun t => t.live && t.core == core && t.ctx == ctx)

/-- Change the strands that `p` names. -/
def State.mapStrands (s : State) (p : Strand → Bool) (f : Strand → Strand) : State :=
  { s with
    me := if s.me.live && p s.me then f s.me else s.me
    others := s.others.map (fun t => if t.live && p t then f t else t) }

/-- Change the strand of a context. -/
def State.mapStrand (s : State) (core ctx : Nat) (f : Strand → Strand) : State :=
  s.mapStrands (fun t => t.core == core && t.ctx == ctx) f

/-- A core's saved strands changed. -/
def Saved.mapStrands (v : Saved) (p : Strand → Bool) (f : Strand → Strand) : Saved :=
  { v with strands := v.strands.map (fun t => if p t then f t else t) }

/-- Change strands that have not exited, resident or saved by CTXSAVE or a context swap. -/
def State.mapEvery (s : State) (p : Strand → Bool) (f : Strand → Strand) : State :=
  let s := s.mapStrands p f
  { s with cores := s.cores.map (fun c => (c.1, { c.2 with saved := c.2.saved.map (fun v => v.mapStrands p f) })) }

/-- Strands that a core holds saved. -/
def Core.savedStrands (c : Core) : List Strand :=
  match c.saved with
  | some v => v.strands
  | none => []

/-- All strands that have not exited, resident first. -/
def State.everyStrand (s : State) : List Strand :=
  (s.me :: s.others).filter (fun t => t.live) ++ (s.cores.map (fun c => c.2.savedStrands)).flatten

/-- All live strands. -/
def State.strands (s : State) : List Strand := (s.me :: s.others).filter (fun t => t.live)

/-- Let the front end of another context step next. -/
def State.switchTo (s : State) (core ctx : Nat) : State :=
  if s.me.live ∧ s.me.core = core ∧ s.me.ctx = ctx then s
  else match s.others.find? (fun t => t.live && t.core == core && t.ctx == ctx) with
    | none => s
    | some t =>
      let rest := s.others.filter (fun u => !(u.live && u.core == core && u.ctx == ctx))
      { s with me := t, others := if s.me.live then rest ++ [s.me] else rest }

/-- Number of the strand's pair: contexts 2k and 2k + 1 (R363). -/
def Strand.pairNo (t : Strand) : Nat := 4 * t.core + t.ctx / 2

def State.pair (s : State) (n : Nat) : Pair := look s.pairs n {}

def State.setPair (s : State) (n : Nat) (p : Pair) : State := { s with pairs := put s.pairs n p }

def State.core (s : State) (c : Nat) : Core := look s.cores c {}

def State.updCore (s : State) (c : Nat) (f : Core → Core) : State := { s with cores := upd s.cores c {} f }

def State.coil (s : State) (c : Nat) : Coil := look s.coils c {}

def State.hank (s : State) (h : Nat) : Hank := look s.hanks h {}

def State.updHank (s : State) (h : Nat) (f : Hank → Hank) : State := { s with hanks := upd s.hanks h {} f }

def State.part (s : State) (p : Nat) : Part := look s.parts p {}

def State.updPart (s : State) (p : Nat) (f : Part → Part) : State := { s with parts := upd s.parts p {} f }

def State.vf? (s : State) (v : Nat) : Option Vf := s.vfs.lookup v

/-- Change a virtual function that exists. -/
def State.updVf (s : State) (v : Nat) (f : Vf → Vf) : State :=
  match s.vfs.lookup v with
  | some x => { s with vfs := put s.vfs v (f x) }
  | none => s

def State.chan (s : State) (g : Nat) : Channel := look s.chans g {}

def State.updChan (s : State) (g : Nat) (f : Channel → Channel) : State := { s with chans := upd s.chans g {} f }

/-- CORECOORD of a strand (R356): 8·core + ctx with the numbers of State.lean. -/
def Strand.coord (t : Strand) : Nat := 8 * t.core + t.ctx

/-- The coil of a core, and its hank. -/
def coilOf (core : Nat) : Nat := core / 8
def hankOf (core : Nat) : Nat := core / 128

/-- Take a free value (Config.lean). -/
def State.free (s : State) : Word × State := (Config.freeWord s.freeCtr, { s with freeCtr := s.freeCtr + 1 })

/-- Take a free choice below `n` (0 when `n` is 0). -/
def State.pick (s : State) (n : Nat) : Nat × State := (Config.freePick s.freeCtr % n, { s with freeCtr := s.freeCtr + 1 })

/-- The braid a strand belongs to. -/
def State.braidOf? (s : State) (part slot : Nat) : Option Braid := (s.part part).braids.lookup slot

def State.updBraid (s : State) (part slot : Nat) (f : Braid → Braid) : State :=
  match s.braidOf? part slot with
  | some b => s.updPart part (fun p => { p with braids := put p.braids slot (f b) })
  | none => s

/-- The format context of the strand's braid (R62). -/
def State.ctxOf (s : State) (part slot : Nat) : FmtCtx :=
  match s.braidOf? part slot with
  | some b => ⟨b.fmts, b.plt⟩
  | none => ⟨[], []⟩

def State.myCtx (s : State) : FmtCtx := s.ctxOf s.me.part s.me.braid

/-! ## Events of the error log (R410) -/

/-- Write an event to a partition's log, or count it as lost, and report it to the Anchor. A lost event takes no number (assumption 75). -/
def State.logEvent (s : State) (part event vf coord : Nat) (addr detail : Word) : State :=
  let p := s.part part
  let e : LogEntry := ⟨p.errSeq + 1, event, vf, coord, addr, detail⟩
  let p' := if p.errLog.length < 256 then { p with errLog := p.errLog ++ [e], errSeq := p.errSeq + 1 }
    else { p with errLost := Nat.min (p.errLost + 1) 0xFFFFFFFF }
  { s with parts := put s.parts part p', anchor := { s.anchor with reports := e :: s.anchor.reports } }

/-- An event of a strand's instruction: VF and COORD are the strand's (R410). -/
def State.logStrand (s : State) (event : Nat) (addr detail : Word) : State :=
  s.logEvent s.me.part event s.me.vf s.me.coord addr detail

/-! ## Token FIFOs (R258) -/

/-- Tokens in the FIFO of code `f` seen from strand `t`. -/
def State.tokens (s : State) (t : Strand) (f : Nat) : Nat :=
  let p := s.pair t.pairNo
  match f with
  | 0 => if t.role = 0 then p.tokToAcc else p.tokToExe
  | 1 => t.tokTsq
  | 2 => t.tokMxe
  | 3 => t.tokCpe0
  | 4 => t.tokCpe1
  | 8 => if t.role = 0 then p.tokToExe else p.tokToAcc
  | 9 => t.tokToTsq
  | _ => 0

/-- Set the number of tokens of FIFO `f` of the front-end strand. -/
def State.setTokens (s : State) (f n : Nat) : State :=
  let t := s.me
  let p := s.pair t.pairNo
  match f with
  | 0 => s.setPair t.pairNo (if t.role = 0 then { p with tokToAcc := n } else { p with tokToExe := n })
  | 1 => { s with me := { t with tokTsq := n } }
  | 2 => { s with me := { t with tokMxe := n } }
  | 3 => { s with me := { t with tokCpe0 := n } }
  | 4 => { s with me := { t with tokCpe1 := n } }
  | 8 => s.setPair t.pairNo (if t.role = 0 then { p with tokToExe := n } else { p with tokToAcc := n })
  | 9 => { s with me := { t with tokToTsq := n } }
  | _ => s

/-- The FIFO's sender has closed it (QCFG bits 6 and 7, R252); the TSQ and completion FIFOs never close. -/
def State.fifoClosed (s : State) (t : Strand) (f : Nat) : Bool :=
  let q := (s.pair t.pairNo).qcfg
  match f with
  | 0 => if t.role = 0 then q.getLsbD 6 else q.getLsbD 7
  | 8 => if t.role = 0 then q.getLsbD 7 else q.getLsbD 6
  | _ => false

/-- Codes that receive and codes that send (Table 4 of R258). -/
def recvCode (f : Nat) : Bool := decide (f ≤ 4)
def sendCode (f : Nat) : Bool := decide (f = 8 ∨ f = 9)

/-! ## Traps (R378–R386) -/

def causeIllegal : Nat := 0x01
def causeVtype : Nat := 0x02
def causePrivilege : Nat := 0x03
def causeMisaligned : Nat := 0x04
def causeAccess : Nat := 0x05
def causeUnmapped : Nat := 0x06
def causeDenied : Nat := 0x07
def causeFormatPair : Nat := 0x08
def causeFormatFit : Nat := 0x09
def causePoison : Nat := 0x0A
def causeConflict : Nat := 0x0B
def causeUninit : Nat := 0x0C
def causeChunk : Nat := 0x0D
def causeQueue : Nat := 0x0E
def causeFp : Nat := 0x0F
def causeTagMixed : Nat := 0x10
def causeEngine : Nat := 0x11
def causeBreak : Nat := 0x12
def causeSoftware : Nat := 0x13
def causeForeign : Nat := 0x14
def causeCodeEnd : Nat := 0x15
def causeLongStall : Nat := 0x16
def causeJournal : Nat := 0x17

/-- Code address that a trap of the executing instruction reports: a dispatched instruction's own, else the front
end's, or its LIMM's (R33, R381). -/
def Strand.instrPc (t : Strand) : Word :=
  match t.issued with
  | some e => e.pc
  | none => match t.limm with
    | some l => l.2
    | none => t.pc

/-! ### Journal entries in local store (R205–R207) -/

/-- Local-store byte of entry `n` mod 64 of a strand's command journal. -/
def Strand.journalAt (t : Strand) (n : Nat) : Nat :=
  lsByte t.core (t.jrnlBase.toNat / 2 ^ 15 % 32 * 32768 + n % 64 * 256)

/-- NUM of the entry for command `n`. -/
def State.jNum (s : State) (t : Strand) (n : Nat) : Nat := memNat s.mem (t.journalAt n) 8

/-- The entry's second word: ENGINE, STATE, FCODE, PRIVM. -/
def State.jHead (s : State) (t : Strand) (n : Nat) : Nat := memNat s.mem (t.journalAt n + 8) 8

/-- STATE: 0 FREE, 1 PENDING, 2 STARTED, 3 DONE, 4 CANCELLED, 5 FAULTED, 6 REPLAY, 7 treated as FAULTED. -/
def State.jState (s : State) (t : Strand) (n : Nat) : Nat := s.jHead t n / 8 % 8

def State.jEngine (s : State) (t : Strand) (n : Nat) : Nat := s.jHead t n % 8

/-- Tag of journal and shadow lines: NAT64, BSC 127, VALID (R205). -/
def journalTag : Tag := mkTag 17 127 0 false

/-- Key of a local-store line, for links. -/
def storeKey (core line : Nat) : Nat := 2 ^ 61 + core * 8192 + line

/-- A write applied to a line breaks every link on it but one strand's own (R163). -/
def State.breakLinks (s : State) (key : Nat) (keep : Option (Nat × Nat)) : State :=
  s.mapStrands (fun t => t.links.contains key && keep != some (t.core, t.ctx))
    (fun t => { t with links := t.links.filter (fun k => k != key) })

/-- A write of the device into a journal or shadow line, with that line's tag; it breaks the links on the line. -/
def State.jWrite (s : State) (a v n : Nat) : State :=
  ({ s with mem := memPutNat s.mem a v n }.setTag (a / 128) journalTag).breakLinks (storeKey 0 (a / 128 - 2 ^ 36)) none

/-- Set STATE of an entry, and FCODE where a fault gives one; 0 leaves it (R218). -/
def State.jSetState (s : State) (t : Strand) (n st fcode : Nat) : State :=
  let h := s.jHead t n
  let h' := h - h / 8 % 8 * 8 + st * 8
  let h'' := if fcode = 0 then h' else h' - h' / 256 % 256 * 256 + fcode * 256
  s.jWrite (t.journalAt n + 8) h'' 8

/-- Withdraw PENDING commands numbered above `head` (R213): their entries become FREE and they never start. -/
def State.withdraw (s : State) (t : Strand) (head : Nat) : Nat → State
  | 0 => s
  | k + 1 =>
    let s := s.withdraw t head k
    let n := head + k + 1
    if n ≤ t.jrnlHead.toNat ∧ s.jNum t n = n ∧ s.jState t n = 1 then
      let s := s.jSetState t n 0 0
      s.updCore t.core (fun c =>
        { c with engines := c.engines.map (fun e =>
            { e with pending := e.pending.filter (fun p => !(p.ctx == t.ctx && p.num == n)) }) })
    else s

/-- Undo one checkpoint record (R336). -/
def undoRec (t : Strand) (r : CkptRec) : Strand :=
  if r.what < 32 then t.setReg (BitVec.ofNat 5 r.what) r.old
  else if r.what = 32 then { t with fcsr := r.old }
  else t

/-- Roll the strand's younger scalar work back to the vector instruction entered `k`-th (R336): registers and FCSR youngest
first, the scalar store queue's younger entries dropped, JRNLHEAD restored and PENDING commands above it withdrawn
(R213). -/
def State.rollback (s : State) (k : Nat) : State :=
  let t := s.me
  let young := t.ckpt.filter (fun r => r.at_ > k)
  let head := match young.find? (fun r => r.what == 33) with
    | some r => r.old
    | none => t.jrnlHead
  let s := s.withdraw t head.toNat 64
  let t' := young.reverse.foldl undoRec t
  { s with me := { t' with
      jrnlHead := head
      ckpt := t.ckpt.filter (fun r => r.at_ ≤ k)
      ssq := t.ssq.filter (fun e => e.older ≤ k)
      entered := k } }

/-- Write the trap CSRs and enter the handler (R379); the strand is at the trapping instruction. -/
def Strand.enterTrap (t : Strand) (r : TrapReq) : Strand :=
  let pc := r.pc.getD t.instrPc
  { t with
    links := []
    trapCause := BitVec.ofNat 64 (r.cause + (if r.async then 256 else 0))
    trapPc := pc
    trapVal := r.val
    trapElem := if r.isElem then BitVec.ofNat 64 (2 ^ 31 + r.row * 2 ^ 16 + r.elem) else 0
    rstart := r.row
    vstart := if r.isElem then r.elem else 0
    ppm := t.pm
    pm := true
    tkw := t.tkSat && r.cause != causeSoftware
    tkSat := false
    sigPend := none
    resume := r.record.map (fun x => ⟨pc, x.1, x.2⟩)
    resumeUse := false
    denied := []
    vecDenied := []
    resolved := []
    done_ := none
    engWait := []
    inPark := false
    ctl := none
    held := none
    anchorHold := false
    tsqLoad := none
    limm := none
    fellOff := false
    issued := none
    pc := t.trapVec
    atVec := true }

/-- Put an instruction among those held in the units, oldest first. -/
def insertParked (p : Parked) : List Parked → List Parked
  | [] => [p]
  | q :: qs => if p.entry.seq < q.entry.seq then p :: q :: qs else q :: insertParked p qs

/-- An older vector instruction of the strand than the one numbered `n` has not completed. -/
def Strand.olderThan (t : Strand) (n : Nat) : Bool := t.uncompleted.any (fun e => decide (e.seq < n))

/-- Performing the scalar store queue belongs to Mem.lean; a trap is taken with it empty (R379). A trap waits until every older
instruction has completed or trapped (R338): a front-end instruction runs again then, and a dispatched vector instruction stands
in its unit with the trap. Taking it discards everything entered after it; a younger instruction that has dispatched past a
parked one has had its effects, and executes again after the handler (assumption 28). -/
def State.trapped (s : State) (r : TrapReq) : State :=
  match s.me.underWay with
  | some e =>
    if s.me.olderThan e.seq then
      { s with waiting := false, me := { s.me.putAside with parked := insertParked ⟨e, [], some r⟩ s.me.parked } }
    else
      let s' := { s with me := { s.me with dq := [], parked := [] } }.rollback (e.seq - 1)
      { s' with me := s'.me.enterTrap r, waiting := false }
  | none =>
    if s.me.older then { s with waiting := true }
    else { s with me := s.me.enterTrap r, waiting := false }

/-- Take a trap, as a step's outcome. -/
def State.takeTrap (s : State) (r : TrapReq) : Out := .next (s.trapped r)

/-- Return from a trap (R383). -/
def Strand.returnTrap (t : Strand) : Strand :=
  let use := match t.resume with
    | some r => decide (r.pc = t.trapPc)
    | none => false
  let v := t.trapElem.getLsbD 31
  { t with
    pm := t.ppm
    rstart := if v then t.trapElem.toNat / 2 ^ 16 % 8 else 0
    vstart := if v then t.trapElem.toNat % 2 ^ 16 else 0
    resumeUse := use
    resume := if use then t.resume else none
    tkSat := t.tkw
    tkw := false
    limm := none
    fellOff := false
    atVec := false
    pc := t.trapPc }

/-! ## Where control goes (R12, R15, R21) -/

/-- Line address of a code address. -/
def lineOf6 (a : Word) : Word := a - BitVec.ofNat 64 (a.toNat % 64)

/-- LAST and END of the current line's link word. -/
def linkLast (l : BitVec 32) : Nat := l.toNat / 2 ^ 24 % 16
def linkEnd (l : BitVec 32) : Bool := l.getLsbD 28

/-- The code address of the sequential successor, or where there is none the address past LAST (R12, R15, R346), and
whether there is none. -/
def Strand.succ (t : Strand) : Word × Bool :=
  let k := t.pc.toNat / 4 % 16
  if k < linkLast t.link then (t.pc + 4, false)
  else if linkEnd t.link then (lineOf6 t.pc + BitVec.ofNat 64 (4 * (linkLast t.link + 1)), true)
  else (t.image + BitVec.ofNat 64 (64 * (t.link.toNat % 2 ^ 24) + 4), false)

/-- The target of a branch (R21): the line offset counts lines of the image. -/
def Strand.target (t : Strand) (off : Int) (slot : Nat) : Word :=
  lineOf6 t.pc + BitVec.ofInt 64 (64 * off) + BitVec.ofNat 64 (4 * slot)

/-! ## Issue and retirement (R34, R35, R337, R338) -/

/-- What a meaning's body does. -/
inductive Eff where
  /-- retire, and go on at the sequential successor -/
  | done (s : State)
  /-- retire, and go on at a code address -/
  | jump (s : State) (pc : Word)
  | trap (s : State) (r : TrapReq)
  /-- return from a trap (R383) -/
  | ret (s : State)
  /-- nothing further can happen yet -/
  | wait (s : State)
  /-- the instruction is held in the VLSU, and the strand goes on (R116) -/
  | held (s : State)

/-- Go on, or pass a trap or wait through. -/
def Eff.bind (e : Eff) (f : State → Eff) : Eff :=
  match e with
  | .done s => f s
  | e => e

/-- A trap at the instruction with a TRAPVAL. -/
def trapI (s : State) (cause : Nat) (val : Word) : Eff := .trap s { cause := cause, val := val }

/-- TRAPVAL of QUEUE_MISUSE (R257). -/
def queueVal (num reason kind : Nat) (offending : Word) : Word :=
  BitVec.ofNat 64 (num % 16 + reason * 16 + kind * 256
    + (if reason = 4 ∨ reason = 5 then offending.toNat % 2 ^ 48 * 2 ^ 16 else 0))

/-- Nothing can happen now. -/
def blocked (s : State) : Out := .next { s with waiting := true }

/-- Forget the executed instruction's issue state; a dispatched vector instruction leaves the front end where it is. -/
def State.finish (s : State) (pc : Word × Bool) : State :=
  match s.me.issued with
  | some _ =>
    { s with
      waiting := false
      me := { s.me with
        issued := none
        tkSat := false
        sigPend := none
        vecDenied := []
        done_ := none
        engWait := []
        resume := if s.me.resumeUse then none else s.me.resume
        resumeUse := false
        -- records that no uncompleted vector instruction is older than are dropped (R336)
        ckpt := s.me.ckpt.filter (fun r => (s.me.parked.map (fun p => p.entry) ++ s.me.dq).any (fun e => decide (e.seq ≤ r.at_))) } }
  | none =>
    { s with
      waiting := false
      me := { s.me with
        pc := pc.1
        fellOff := pc.2
        atVec := false
        limm := none
        tkSat := false
        sigPend := none
        denied := []
        resolved := []
        engWait := []
        inPark := false
        ctl := none
        held := none
        anchorHold := false
        tsqLoad := none
        resume := if s.me.resumeUse then none else s.me.resume
        resumeUse := false } }

/-- The token that field `t` waits for is popped, or was before (R34, R35). -/
def State.takeToken (s : State) (t : BitVec 2) : State :=
  if t.getLsbD 0 && !s.me.tkSat then
    let u := s.setTokens s.me.waitF (s.tokens s.me s.me.waitF - 1)
    { u with me := { u.me with tkSat := true } }
  else s

/-- The token that field `t` signals is pushed into the FIFO that SIGF selects (R34). -/
def State.giveToken (s : State) (t : BitVec 2) : State :=
  if t.getLsbD 1 then s.setTokens s.me.sigF (s.tokens s.me s.me.sigF + 1) else s

/-- The FIFO that field `t` signals has room. -/
def State.canGive (s : State) (t : BitVec 2) : Bool := !t.getLsbD 1 || decide (s.tokens s.me s.me.sigF < 32)

/-- Retire with the signal of TK, held while its FIFO is full (R34). -/
def State.retire (s : State) (t : BitVec 2) (pc : Word × Bool) : Out :=
  if s.canGive t then .next ((s.giveToken t).finish pc)
  else .next { s with
    waiting := true
    me := { s.me with sigPend := some pc.1, fellOff := if s.me.issued.isSome then s.me.fellOff else pc.2 } }

/-- An instruction with token field `t` may issue: nothing older holds it back (R337), and its FIFOs let it (R34, R257). -/
inductive IssueCheck where
  | go
  | hold
  /-- a FIFO that the wait or signal needs is closed -/
  | closed (fifo : Nat)
  deriving DecidableEq, Repr

def State.issueCheck (s : State) (t : BitVec 2) (ahead : Bool) : IssueCheck :=
  if s.me.issued.isNone && s.me.older && !(ahead && t == 0) then .hold
  else if t.getLsbD 1 && s.fifoClosed s.me s.me.sigF then .closed s.me.sigF
  else if t.getLsbD 0 && !s.me.tkSat && s.tokens s.me s.me.waitF == 0 then
    if s.fifoClosed s.me s.me.waitF then .closed s.me.waitF else .hold
  else .go

/-- What an instruction's effect comes to (R34, R35, R383). -/
def Eff.settle (e : Eff) (t : BitVec 2) : Out :=
  match e with
  | .done r => r.retire t r.me.succ
  | .jump r pc => r.retire t (pc, false)
  | .trap r q => r.takeTrap q
  | .ret r =>
    if r.canGive t then
      let r := (r.giveToken t).finish (r.me.pc, false)
      .next { r with me := r.me.returnTrap }
    else blocked r
  | .wait r => blocked r
  | .held r => .next { r with waiting := false }

/-- A strand whose instruction has had its effect tries its signal again; a dispatched vector instruction leaves the front end as it is. -/
def State.signalled (s : State) : State :=
  { s with me := { s.me with sigPend := none, fellOff := s.me.issued.isSome && s.me.fellOff } }

/-- Issue an instruction with token field `t` (R34), run its body, and retire it. `ahead` says that a scalar instruction
may run while older vector instructions are outstanding (R337); a vector instruction reaches here when it dispatches. -/
def runInstr (t : BitVec 2) (ahead : Bool) (body : State → Eff) (s : State) : Out :=
  match s.me.sigPend with
  | some pc => s.signalled.retire 2 (pc, s.me.fellOff)
  | none =>
    match s.issueCheck t ahead with
    | .hold => blocked s
    | .closed f => s.takeTrap { cause := causeQueue, val := queueVal f 2 1 0 }
    | .go => (body (s.takeToken t)).settle t

/-- A scalar instruction that may run ahead (R337). -/
def runAhead (t : BitVec 2) (body : State → Eff) (s : State) : Out := runInstr t true body s

/-- A scalar instruction that waits for older vector instructions, or a vector instruction. -/
def runOrdered (t : BitVec 2) (body : State → Eff) (s : State) : Out := runInstr t false body s

/-- An instruction that only computes one scalar register. -/
def runReg (t : BitVec 2) (d : BitVec 5) (f : State → Word) (s : State) : Out :=
  runAhead t (fun s => .done (s.setReg d (f s))) s

end Sys2Proof.Machine
end

