-- ==== Sys2Proof/Machine/Banks.lean ====
section
/-!
DEFINITION. Stored lines and their tags (R48, R79–R87), the channel controllers with their banks (R83, R85, R98–R101), and the
L2 slices (R122–R126). Every line is read by `homeLine` and reached by `reach`; every write of a device line goes through
`writeLine`.
-/
namespace Sys2Proof.Machine

/-- Who reads: the virtual function and CORECOORD an event names (R410); 0xFF and 0 for the device itself; and the hint of R27. -/
structure Reader where
  vf : Nat := 0xFF
  coord : Nat := 0
  hint : Nat := 0
  deriving DecidableEq, Repr

/-! ## Tags (R48, R87) -/

/-- A tag word with reserved bits or a reserved class (R48). -/
def badTag (t : Tag) : Bool := decide (t.toNat / 2 ^ 18 ≠ 0) || decide (5 ≤ classOf t)

/-- CLS of packed slot `i` (Table 2 of R87). -/
def packedCls (w : Tag) (i : Nat) : Nat := w.toNat / 2 ^ (16 + 2 * i) % 4

/-- A packed-mode tag word from its fields. -/
def packedWord (fmt bsc : Nat) (dem : Bool) (cls : List Nat) : Tag :=
  BitVec.ofNat 32 (fmt % 64 + bsc % 256 * 2 ^ 6 + dem.toNat * 2 ^ 14
    + (cls.zipIdx.foldl (fun acc c => acc + c.1 % 4 * 2 ^ (16 + 2 * c.2)) 0))

/-- DEM of a packed-mode word. -/
def packedDem (w : Tag) : Bool := w.getLsbD 14

/-- The tag of a line found with an uncorrectable error (R83). DEM, of which the rule says nothing, stays as read, and is 0 where
FMT and BSC are lost (assumption 75). -/
def poisonTag (m : Nat) (t : Tag) (tagBad : Bool) : Tag :=
  let f := if tagBad then 0 else fmtOf t
  let b := if tagBad then 127 else bscOf t
  if m ≤ 1 then mkTag f b 2 (!tagBad && demOf t) else packedWord f b (!tagBad && packedDem t) (List.replicate m 2)

/-! ## Where a line lies (R80, R95) -/

/-- Channel, bank and row of a physical line. -/
def chanOf (p : Nat) : Nat := p / 2 ^ 25
def bankOf (p : Nat) : Nat := p % 2 ^ 25 / 8 % 64
def rowOf (p : Nat) : Nat := p % 2 ^ 25 / 512

/-- The partition of a physical line: the one that holds its channel. -/
def State.partOfLine (s : State) (p : Nat) : Nat :=
  match s.parts.find? (fun q => q.2.chans.contains (chanOf p)) with
  | some q => q.1
  | none => 0

/-- Packing factor of a layout. -/
def packing (lw pw : Nat) : Nat := if pw = 0 then 1 else lw / pw

/-- Packing factor of the segment whose machine image holds a physical line; 1 when no segment does. -/
def State.packingOf (s : State) (p : Nat) : Nat :=
  match s.parts.find? (fun q => q.2.chans.contains (chanOf p)) with
  | none => 1
  | some q =>
    let k := (p % 2 ^ 25 * q.2.chans.length + q.2.chans.idxOf (chanOf p)) / 128
    let segs : List (Nat × Seg) := ((s.vfs.filter (fun v => v.2.part == q.1)).map (fun v => v.2.segs)).flatten
    match segs.find? (fun g => g.2.chunks.contains k) with
    | some g => packing g.2.lw g.2.pw
    | none => 1

/-- Log an event about a physical line to the partition that owns its channel, and report it to the Anchor. -/
def State.logLine (s : State) (p event : Nat) (r : Reader) (detail : Nat) : State :=
  match s.parts.find? (fun q => q.2.chans.contains (chanOf p)) with
  | some q => s.logEvent q.1 event r.vf r.coord (BitVec.ofNat 64 p) (BitVec.ofNat 64 detail)
  | none => { s with anchor := { s.anchor with
      reports := ⟨0, event, r.vf, r.coord, BitVec.ofNat 64 p, BitVec.ofNat 64 detail⟩ :: s.anchor.reports } }

/-! ## Rows, back-off and scrub (R98–R101) -/

/-- Key of a row's activation count. -/
def rowKey (bank row : Nat) : Nat := bank * 65536 + row

/-- An alert (R98): the row's count and its four neighbours' return to 0, and the bank backs off. -/
def Channel.alert (c : Channel) (bank row : Nat) : Channel :=
  let near := ([row - 2, row - 1, row, row + 1, row + 2].filter (fun r => decide (r < 65536 ∧ r ≤ row + 2 ∧ row ≤ r + 2))).map (rowKey bank)
  { c with
    act := c.act.filter (fun x => !near.contains x.1)
    backoff := if c.backoff.contains bank then c.backoff else c.backoff ++ [bank] }

/-- The ZE has finished a bank (R100): its counts are 0 and no row of it is open. -/
def Channel.scrubbed (c : Channel) (bank : Nat) : Channel :=
  { c with
    scrub := c.scrub.erase bank
    act := c.act.filter (fun x => x.1 / 65536 != bank)
    openRow := del c.openRow bank }

/-- The bank that the ZE finishes next (R101): the one whose first held access came first, else the lowest. -/
def Channel.nextScrub (c : Channel) : Option Nat :=
  match (c.queue.map (fun q => bankOf q.off)).find? (fun b => c.scrub.contains b) with
  | some b => some b
  | none => c.scrub.head?

/-- An access reaches a row (R98): another row than the open one is an activation, once a back-off of the bank is over. -/
def Channel.openFor (c : Channel) (threshold bank row : Nat) : Channel :=
  if c.openRow.lookup bank = some row then c
  else
    let n := look c.act (rowKey bank row) 0 + 1
    let c := { c with
      backoff := c.backoff.erase bank
      act := put c.act (rowKey bank row) n
      openRow := put c.openRow bank row }
    if threshold ≤ n then c.alert bank row else c

/-- A read that must wait at the controller: for its bank's scrub, for reads of its bank before it, or for a back-off. -/
def Channel.holds (c : Channel) (bank row : Nat) : Bool :=
  c.scrub.contains bank || c.queue.any (fun q => bankOf q.off == bank)
    || (c.backoff.contains bank && c.openRow.lookup bank != some row)

/-- User lines of a channel (R81). -/
def userLines : Nat := 33488896

/-- The ZE finishes bank `b` of channel `g` (R100): its user lines hold zeros, of class ZERO; device-reserved rows stay. -/
def State.scrubBank (s : State) (g b : Nat) : State :=
  let mine (p : Nat) : Bool := chanOf p == g && bankOf p == b && decide (p % 2 ^ 25 < userLines)
  { s.updChan g (fun c => c.scrubbed b) with
    mem := s.mem.filter (fun c => !(decide (c.1 < 2 ^ 42) && mine (c.1 / 128)))
    tags := s.tags.filter (fun t => !(decide (t.1 < 2 ^ 35) && mine t.1)) }

/-- The ZE finishes the requested banks and then `bank`, which an access waits for (R101). -/
def State.scrubFor (s : State) (g bank : Nat) : State :=
  let c := s.chan g
  if c.scrub.contains bank then
    (((c.queue.map (fun q => bankOf q.off)).filter (fun b => c.scrub.contains b)).eraseDups ++ [bank]).foldl (fun s b => s.scrubBank g b) s
  else s

/-! ## The L2 slice (R122, R126) -/

def Channel.l2? (c : Channel) (off : Nat) : Option L2Line := c.l2.find? (fun l => l.off == off)

/-- Set of a line in its slice: assumption 76. -/
def l2Set (off : Nat) : Nat := off % 512

/-- The line a full set gives up (R27): stream lines first, keep lines last, the least recently used among equals. -/
def l2Victim (set : List L2Line) : Option L2Line :=
  match set.reverse.find? (fun l => l.hint == 1) with
  | some l => some l
  | none => match set.reverse.find? (fun l => l.hint != 3) with
    | some l => some l
    | none => set.getLast?

/-- A write of a line has entered the controller: reads of it that wait do not rewrite it (R83). -/
def Channel.overtake (c : Channel) (off : Nat) : Channel :=
  { c with queue := c.queue.map (fun q => if q.off = off then { q with err := { q.err with written := true } } else q) }

/-- A line leaves the slice: a dirty one is what its bank holds from then on. -/
def Channel.leave (c : Channel) (threshold : Nat) (l : L2Line) : Channel :=
  let c := { c with l2 := c.l2.filter (fun x => x.off != l.off) }
  if l.dirty then ({ c with bank := del c.bank l.off }.overtake l.off).openFor threshold (bankOf l.off) (rowOf l.off) else c

/-- The line that makes room for another one, where its set is full. -/
def Channel.victim? (c : Channel) (off : Nat) : Option L2Line :=
  let set := c.l2.filter (fun x => x.off != off && l2Set x.off == l2Set off)
  if set.length < 12 then none else l2Victim set

/-- Put a line into the slice, most recently used, making room in its set. -/
def Channel.enter (c : Channel) (threshold : Nat) (l : L2Line) : Channel :=
  let c := match c.victim? l.off with
    | some v => c.leave threshold v
    | none => c
  { c with l2 := l :: c.l2.filter (fun x => x.off != l.off) }

/-- An access under key slot `key` reaches a line that is not NEAR (R122, R123, R126): a hit, or a fetch from the bank. -/
def Channel.access (c : Channel) (threshold key off hint : Nat) : Channel :=
  match c.l2? off with
  | some l =>
    if l.key = key then c.enter threshold { l with hint := hint }
    else ((c.leave threshold l).openFor threshold (bankOf off) (rowOf off)).enter threshold
      { off := off, key := key, hint := hint, asBank := !l.dirty && (c.bank.lookup off).isSome }
  | none => (c.openFor threshold (bankOf off) (rowOf off)).enter threshold
      { off := off, key := key, hint := hint, asBank := (c.bank.lookup off).isSome }

/-- The cache-die key slot of a channel's owner (R125); 32 where none is loaded. -/
def State.keySlot (s : State) (g : Nat) : Nat :=
  match (s.parts.find? (fun q => q.2.chans.contains g)).bind (fun q => q.2.tenant) with
  | some t => match (s.hank (g / 128)).keys.find? (fun k => k.2 == t) with
    | some k => k.1
    | none => 32
  | none => 32

/-! ## Contents -/

/-- Line number `k` as State.mem and State.tags list it. -/
def State.rawLine (s : State) (k : Nat) : Line × Tag := (memLine s.mem (128 * k), s.tagAt k)

/-- What the bank of a device line holds. -/
def State.bankLine (s : State) (p : Nat) : Line × Tag :=
  ((s.chan (chanOf p)).bank.lookup (p % 2 ^ 25)).getD (s.rawLine p)

/-- Line number `k` as its home serves it: a device line's slice where it holds the line, else its bank. -/
def State.homeLine (s : State) (k : Nat) : Line × Tag :=
  if 2 ^ 35 ≤ k then s.rawLine k
  else
    let c := s.chan (chanOf k)
    match c.bank.lookup (k % 2 ^ 25) with
    | none => s.rawLine k
    | some b => match c.l2? (k % 2 ^ 25) with
      | some l => if l.asBank || l.key != s.keySlot (chanOf k) then b else s.rawLine k
      | none => b

/-- List line `k` as holding a line and tag. -/
def State.putRaw (s : State) (k : Nat) (d : Line) (t : Tag) : State :=
  { s with mem := memPutLine s.mem (128 * k) d fullMask }.setTag k t

/-- What the slice and bank of a line keep of it once it has been written: the slice's copy is dirty and the bank's is `old`;
`near` writes go into the bank (R96). -/
def Channel.written (c : Channel) (near : Bool) (off : Nat) (old : Line × Tag) : Channel :=
  match (if near then none else c.l2? off) with
  | none => { c with bank := del c.bank off, l2 := c.l2.filter (fun l => l.off != off) }
  | some _ =>
    { c with
      bank := put c.bank off old
      l2 := c.l2.map (fun l => if l.off = off then { l with dirty := true, asBank := false } else l) }

/-- Write line number `k` at its home, which an access has reached. -/
def State.writeLine (s : State) (near : Bool) (k : Nat) (d : Line) (t : Tag) : State :=
  if 2 ^ 35 ≤ k then s.putRaw k d t
  else
    let old := s.bankLine k
    (s.updChan (chanOf k) (fun c => c.written near (k % 2 ^ 25) old)).putRaw k d t

/-- Change a bank's copy of a line without the slice's (R83, R85). -/
def State.setBank (s : State) (p : Nat) (d : Line) (t : Tag) : State :=
  let off := p % 2 ^ 25
  match (s.chan (chanOf p)).l2? off with
  | none => (s.updChan (chanOf p) (fun c => { c with bank := del c.bank off })).putRaw p d t
  | some l =>
    let held := if l.asBank then s.bankLine p else s.rawLine p
    (s.updChan (chanOf p) (fun c => { c with
      bank := put c.bank off (d, t)
      l2 := c.l2.map (fun x => if x.off = off then { x with asBank := false } else x) })).putRaw p held.1 held.2

/-! ## Reads of stored lines (R48, R82, R83, R85, R87) -/

/-- The tag that a stored one with reserved bits or class is read as and rewritten with, POISON, and a packed word with bit 15 set,
every slot POISON (R48, R87). -/
def badTag? (m : Nat) (t : Tag) : Option Tag :=
  if m ≤ 1 then (if badTag t then some (mkTag (fmtOf t) (bscOf t) 2 (demOf t)) else none)
  else if t.getLsbD 15 then some (packedWord (fmtOf t) (bscOf t) (packedDem t) (List.replicate m 2))
  else none

/-- A stored line as its home serves it; a bad tag is rewritten and logged once (R48). -/
def State.fixTag (s : State) (near : Bool) (part k m : Nat) (r : Reader) : (Line × Tag) × State :=
  let x := s.homeLine k
  match badTag? m x.2 with
  | some t => ((x.1, t), (s.writeLine near k x.1 t).logEvent part 0x03 r.vf r.coord (BitVec.ofNat 64 k) (BitVec.ofNat 64 x.2.toNat))
  | none => (x, s)

/-- Symbols of a codeword in error (R82). -/
def symbolsOf (e : ReadError) : Nat :=
  ((List.range 128).filter (fun i => lineByte e.flip i != 0)).length
    + ((List.range 4).filter (fun i => e.flipTag.toNat / 2 ^ (8 * i) % 256 != 0)).length + Nat.min e.checks 4

/-- The line that the controller delivers and, unless a write has entered since, stores again (R82, R83): as found where the error
goes unseen, what the codeword is taken for, or POISON. -/
def State.foundLine (s : State) (e : ReadError) (p : Nat) : Line × Tag :=
  let b := s.bankLine p
  let d := b.1 ^^^ e.flip
  let t := b.2 ^^^ e.flipTag
  let n := symbolsOf e
  if n ≤ 1 then b
  else if 4 ≤ n ∧ (e.missed = 1 ∨ e.missed = 2) then (d, t)
  else (d, poisonTag (s.packingOf p) t (e.flipTag != 0))

/-- The counts and events of such a read (R83). -/
def State.noteRead (s : State) (e : ReadError) (p : Nat) (r : Reader) : State :=
  let n := symbolsOf e
  if n = 0 ∨ (4 ≤ n ∧ e.missed = 1) then s
  else if n = 1 ∨ (4 ≤ n ∧ e.missed = 2) then
    let s := s.updChan (chanOf p) (fun c => { c with corrected := c.corrected + 1 })
    s.logLine p 0x01 r (s.chan (chanOf p)).corrected
  else s.logLine p 0x02 r n

/-- Put a line that the controller delivers into the slice, without changing what its bank holds. -/
def State.deliverLine (s : State) (p : Nat) (x : Line × Tag) : State :=
  let off := p % 2 ^ 25
  let key := s.keySlot (chanOf p)
  let s := s.updChan (chanOf p) (fun c => c.access s.anchor.actThreshold key off 0)
  if s.homeLine p = x then s
  else
    let b := s.bankLine p
    (s.updChan (chanOf p) (fun c => { c with
      bank := put c.bank off b
      l2 := c.l2.map (fun l => if l.off = off then { l with asBank := false } else l) })).putRaw p x.1 x.2

/-- What the controller does with a line as it finds it (R82, R83), once its row is open. The line is delivered, to the slice or
for a NEAR page to the access alone (R96); a bad tag is logged (R48). Only the two rewrites are left out where a write has entered
since the read. -/
def State.readDone (s : State) (q : ChanReq) (p : Nat) : State :=
  let e := q.err
  let r : Reader := { vf := q.vf, coord := q.coord }
  let x := s.foundLine e p
  let s := if e.written || x == s.bankLine p then s else s.setBank p x.1 x.2
  let s := s.noteRead e p r
  if q.patrol then s
  else
    let bad := badTag? (s.packingOf p) x.2
    let s := if q.near then s else s.deliverLine p (x.1, bad.getD x.2)
    match bad with
    | none => s
    | some t =>
      (if e.written then s else s.setBank p x.1 t).logEvent (s.partOfLine p) 0x03 r.vf r.coord (BitVec.ofNat 64 p) (BitVec.ofNat 64 x.2.toNat)

/-- Make the reads of a channel that wait for nothing any more, in arrival order; the others wait on (R99). -/
def State.serveReads (s : State) (g : Nat) (qs : List ChanReq) : State :=
  qs.foldl (fun s q =>
    let c := s.chan g
    if c.holds (bankOf q.off) (rowOf q.off) then s.updChan g (fun c => { c with queue := c.queue ++ [q] })
    else
      let s := s.updChan g (fun c => c.openFor s.anchor.actThreshold (bankOf q.off) (rowOf q.off))
      s.readDone q (g * 2 ^ 25 + q.off)) s

/-- Try a channel's waiting reads again. -/
def State.retryReads (s : State) (g : Nat) : State :=
  let qs := (s.chan g).queue
  (s.updChan g (fun c => { c with queue := [] })).serveReads g qs

/-- A bank's scrub ends, and its waiting reads are made, before an access that comes after them, which waits for each back-off
(R99, R101). -/
def State.drainBank (s : State) (g bank : Nat) : State :=
  let s := s.scrubFor g bank
  let qs := (s.chan g).queue.filter (fun q => bankOf q.off == bank)
  if qs.isEmpty then s
  else
    let s := s.updChan g (fun c => { c with queue := c.queue.filter (fun q => bankOf q.off != bank) })
    qs.foldl (fun s q =>
      (s.updChan g (fun c => c.openFor s.anchor.actThreshold bank (rowOf q.off))).readDone q (g * 2 ^ 25 + q.off)) s

/-- Write a line into its bank, past the slice, as an access of its row, behind the reads that wait there (R98, R99): allocation and the
Anchor's copies. -/
def State.putBank (s : State) (p : Nat) (d : Line) (t : Tag) : State :=
  ((s.drainBank (chanOf p) (bankOf p)).updChan (chanOf p) (fun c =>
    { c with bank := del c.bank (p % 2 ^ 25), l2 := c.l2.filter (fun l => l.off != p % 2 ^ 25) }.openFor s.anchor.actThreshold
      (bankOf p) (rowOf p))).putRaw p d t

/-- A dirty line is about to be written back to its bank: the reads that wait there are made first (R99). -/
def State.drainFor (s : State) (g : Nat) (l : Option L2Line) : State :=
  match l with
  | some l => if l.dirty then s.drainBank g (bankOf l.off) else s
  | none => s

/-- A device line leaves its slice, written back to its bank where it is dirty. -/
def State.flushLine (s : State) (p : Nat) : State :=
  let s := s.drainFor (chanOf p) ((s.chan (chanOf p)).l2? (p % 2 ^ 25))
  match (s.chan (chanOf p)).l2? (p % 2 ^ 25) with
  | some l => s.updChan (chanOf p) (fun c => c.leave s.anchor.actThreshold l)
  | none => s

/-- An access reaches the home of line number `k`: for a device line its slice, or for a NEAR one its bank (R96, R122). -/
def State.reach (s : State) (near : Bool) (k : Nat) (r : Reader) : State :=
  if 2 ^ 35 ≤ k then s
  else
    let g := chanOf k
    let off := k % 2 ^ 25
    let hit := match (s.chan g).l2? off with
      | some l => !near && l.key == s.keySlot g
      | none => false
    let s := if hit then s else s.drainBank g (bankOf k)
    let s := if near then s else s.drainFor g ((s.chan g).victim? off)
    let key := s.keySlot g
    s.updChan g (fun c =>
      if near then c.openFor s.anchor.actThreshold (bankOf k) (rowOf k) else c.access s.anchor.actThreshold key off r.hint)

/-- A stored line with its own tag at line number `k` (R48, R82). -/
def State.readRaw (s : State) (near : Bool) (part k : Nat) (r : Reader) : Line × Tag × State :=
  let x := (s.reach near k r).fixTag near part k 1 r
  (x.1.1, x.1.2, x.2)

/-- A read that the channel controller makes for itself or for an access of the agenda: LINE_READ_COMPLETE where the slice does
not hold the line or the page is NEAR, PATROL_READ of the bank always. A channel that failed its training makes none (R427). -/
def State.lineRead (s : State) (p : Nat) (e : ReadError) (patrol near : Bool) (r : Reader) : State :=
  let g := chanOf p
  let hit := match (s.chan g).l2? (p % 2 ^ 25) with
    | some l => !near && l.key == s.keySlot g
    | none => false
  if (hit && !patrol) || !(s.chan g).trained then s else s.serveReads g [⟨p % 2 ^ 25, e, patrol, near, r.vf, r.coord⟩]

end Sys2Proof.Machine
end

