-- ==== Sys2Proof/Machine/Mem.lean ====
section
/-!
DEFINITION. From an address to a line and back: the address map (R102), page lines at their homes (R86–R90),
two-stage translation with its caches and page requests (R104–R121), the L1 (R127–R135), fit, growth and the chunk
reserve (R91–R94), and links (R163).
-/
namespace Sys2Proof.Machine

/-! ## Where an address points (R102) -/

/-- The class of an address used by a strand or engine of a core. -/
inductive AddrClass where
  | device
  /-- local store of a core of the coil, at a byte offset -/
  | window (core off : Nat)
  | nonCanonical
  deriving DecidableEq, Repr

def classify (core a : Nat) : AddrClass :=
  if a < 2 ^ 56 then .device
  else if 0xFFFE000000000000 ≤ a ∧ a < 0xFFFE000001000000 then
    let o := a % 2 ^ 20
    let n := a / 2 ^ 20 % 8
    if a / 2 ^ 23 % 2 = 1 then (if n = 0 then .window core o else .nonCanonical)
    else .window (core / 8 * 8 + n) o
  else .nonCanonical

/-- Key of a page line: virtual function, intermediate segment, line of the segment (R86). -/
def pageKey (vf iseg j : Nat) : Nat := (vf * 2 ^ 34 + iseg) * 2048 + j

def keyVf (k : Nat) : Nat := k / 2048 / 2 ^ 34
def keySeg (k : Nat) : Nat := k / 2048 % 2 ^ 34
def keyLine (k : Nat) : Nat := k % 2048

/-- Key of a host line (R316), whichever function names it. -/
def hostKey (a : Nat) : Nat := 2 ^ 62 + a / 128

/-- Host byte of line `j` of a segment of the intermediate addresses that a host window may stand at: IA 2^51 + a is host byte a,
where no descriptor maps the segment (assumption 7). -/
def hostAddr (iseg j : Nat) : Nat := (iseg - 2 ^ 33) * 2 ^ 18 + 128 * j

def LineLoc.key : LineLoc → Nat
  | .store c l => storeKey c l
  | .page e j => if e.host then hostKey (hostAddr e.iseg j) else pageKey e.vf e.iseg j

/-- The line is in device memory. -/
def LineLoc.device : LineLoc → Bool
  | .store _ _ => false
  | .page e _ => !e.host

/-! ## Segments and machine lines (R86, R95, R108) -/

/-- The host window that holds host byte `a` of a function. -/
def Vf.window? (v : Vf) (a : Nat) : Option Window :=
  v.policy.windows.find? (fun w => decide (w.base.toNat ≤ a ∧ a < w.base.toNat + w.size.toNat))

/-- The ceiling that a host window gives a segment, of no layout width and no chunks, where no descriptor maps it. -/
def Vf.hostSeg? (v : Vf) (iseg : Nat) : Option Seg :=
  if 2 ^ 33 ≤ iseg then
    (v.window? (hostAddr iseg 0)).map (fun _ =>
      { rd := v.policy.ceil.getLsbD 0, wr := v.policy.ceil.getLsbD 1, ex := v.policy.ceil.getLsbD 2, lw := 0, pw := 0, chunks := [] })
  else none

/-- The descriptor in force for an intermediate segment, or the host window that stands there. -/
def State.seg? (s : State) (vf iseg : Nat) : Option Seg :=
  match s.vf? vf with
  | none => none
  | some v => match v.segs.lookup iseg with
    | some g => some g
    | none => v.hostSeg? iseg

/-- A descriptor of a host window. -/
def Seg.host (g : Seg) : Bool := g.lw == 0

/-- Change a segment's descriptor. -/
def State.updSeg (s : State) (vf iseg : Nat) (f : Seg → Seg) : State :=
  s.updVf vf (fun v => match v.segs.lookup iseg with
    | some g => { v with segs := put v.segs iseg (f g) }
    | none => v)

/-- Physical line address of machine line `l` of a partition (R95). -/
def Part.phys (p : Part) (l : Nat) : Nat :=
  let n := p.chans.length
  p.chans.getD (l % n) 0 * 2 ^ 25 + l / n

/-- Machine line `i` of a chunk list. -/
def Part.chunkLine (p : Part) (chunks : List Nat) (i : Nat) : Nat := p.phys (chunks.getD (i / 128) 0 * 128 + i % 128)

/-- Where page line `j` is stored: physical line, packing factor and packed slot. A translation of the mapping in force sees its
growth and recoding; a stale one uses the chunks it holds (R92, R413). -/
structure Stored where
  p : Nat
  m : Nat
  slot : Nat
  lw : Nat
  pw : Nat
  deriving DecidableEq, Repr

def State.stored (s : State) (e : TlbEntry) (j : Nat) : Stored :=
  let d := match (s.vf? e.vf).bind (fun v => v.segs.lookup e.iseg) with
    | some g => if g.map = e.map then (g.lw, g.pw, g.chunks) else (e.lw, e.pw, e.chunks)
    | none => (e.lw, e.pw, e.chunks)
  let m := packing d.1 d.2.1
  let part := match s.vf? e.vf with
    | some v => s.part v.part
    | none => {}
  ⟨part.chunkLine d.2.2 (j / m), m, j % m, d.1, d.2.1⟩

/-! ## Stored lines and tags (R48, R87, R90) -/

/-- The slots of `n` codes of width `w`, widened to width `v`. -/
def spread (n w v x : Nat) : Nat :=
  (List.range n).foldl (fun acc i => acc + x / 2 ^ (w * i) % 2 ^ w * 2 ^ (v * i)) 0

/-- The low `w` bits of each of `n` slots of width `v`, packed. -/
def squeeze (n w v x : Nat) : Nat :=
  (List.range n).foldl (fun acc i => acc + x / 2 ^ (v * i) % 2 ^ w * 2 ^ (w * i)) 0

/-- The partition of a core: the one that holds its coil, or whose plies there are still to move (R398). -/
def State.partOfCore (s : State) (core : Nat) : Nat :=
  match s.parts.find? (fun p => p.2.coils.contains (coilOf core) || p.2.parkedCoils.contains (coilOf core)) with
  | some p => p.1
  | none => 0

/-- A page line as its home holds it, expanded to its layout width, with its tag (R82–R90). -/
def State.readStored (s : State) (near : Bool) (part : Nat) (h : Stored) (r : Reader) : Line × Tag × State :=
  let x := (s.reach near h.p r).fixTag near part h.p h.m r
  if h.m ≤ 1 then (x.1.1, x.1.2, x.2)
  else
    let bits := 1024 / h.m
    let pay := x.1.1.toNat / 2 ^ (bits * h.slot) % 2 ^ bits
    (BitVec.ofNat 1024 (spread (1024 / h.lw) h.pw h.lw pay),
     mkTag (fmtOf x.1.2) (bscOf x.1.2) (packedCls x.1.2 h.slot) (packedDem x.1.2), x.2)

/-- Tag word of a packed machine line of word `w` once slot `slot` holds a line of tag `t` (R87, R91). The shared DEM is the new
line's, with the old one while another slot is VALID (assumption 75). -/
def repack (w : Tag) (m slot : Nat) (t : Tag) : Tag :=
  let cls := (List.range m).map (fun i => if i = slot then classOf t else packedCls w i)
  let othersValid := (List.range m).any (fun i => i != slot && packedCls w i == 0)
  if classOf t = 0 then packedWord (fmtOf t) (bscOf t) (demOf t || (othersValid && packedDem w)) cls
  else packedWord (fmtOf w) (bscOf w) (packedDem w) cls

/-- Replace a stored page line and its tag; a packed one keeps its neighbours and shares its format (R87, R91). -/
def State.writeStored (s : State) (near : Bool) (h : Stored) (d : Line) (t : Tag) : State :=
  if h.m ≤ 1 then s.writeLine near h.p d t
  else
    let x := s.homeLine h.p
    let n := 128 / h.m
    let pay := squeeze (1024 / h.lw) h.pw h.lw d.toNat
    s.writeLine near h.p (mergeLine x.1 (BitVec.ofNat 1024 (pay * 2 ^ (8 * n * h.slot))) (byteRun (n * h.slot) n)) (repack x.2 h.m h.slot t)

/-- Tag-table byte of the host line at `a`, when a window of the function holds it (R318). -/
def Vf.tagByte? (v : Vf) (a : Nat) : Option Nat :=
  (v.window? a).map (fun w => hostByte (w.tagBase.toNat + 4 * ((a - w.base.toNat) / 128)))

/-- A host-window line and its tag entry (R318); a window that is gone reads as a scrubbed line's tag. -/
def State.hostLine (s : State) (vf a : Nat) : Line × Tag :=
  (memLine s.mem (hostByte a), match (s.vf? vf).bind (fun v => v.tagByte? a) with
    | some b => BitVec.ofNat 32 (memNat s.mem b 4)
    | none => zeroTag)

/-- A request that leaves on a host link. -/
def State.emit (s : State) (ms : List Sent) : State := { s with outbox := s.outbox ++ ms }

/-- The two halves of a host line, and the half of the tag table that holds its entry, as a device read fetches them (R317, R318). -/
def hostReads (a : Nat) (tag : Option Nat) : List Sent :=
  [.hostRead a, .hostRead (a + 64)] ++ (match tag with
    | some b => [.hostRead ((b - hostByte 0) / 64 * 64)]
    | none => [])

/-- A read of a host-window line (R318): a bad entry reads as POISON, is logged, and stays. -/
def State.readHost (s : State) (part vf a : Nat) (r : Reader) : Line × Tag × State :=
  let x := s.hostLine vf a
  let s := s.emit (hostReads a ((s.vf? vf).bind (fun v => v.tagByte? a)))
  if badTag x.2 then
    (x.1, mkTag (fmtOf x.2) (bscOf x.2) 2 (demOf x.2),
     s.logEvent part 0x03 r.vf r.coord (BitVec.ofNat 64 a) (BitVec.ofNat 64 x.2.toNat))
  else (x.1, x.2, s)

/-- The part of a function. -/
def State.vfPart (s : State) (vf : Nat) : Nat :=
  match s.vf? vf with
  | some v => v.part
  | none => 0

/-- Address by which an access reaches line `j` of its page. -/
def TlbEntry.addr (e : TlbEntry) (j : Nat) : Nat := e.vseg * 2 ^ 18 + 128 * j

/-- Bits of an address below a level's index (Table 1 of R104): entries of one table prefix share those above. -/
def lvlShift (lvl : Nat) : Nat :=
  match lvl with
  | 3 => 43
  | 2 => 30
  | 1 => 24
  | _ => 18

/-- Index of a table level (Table 1 of R104). -/
def s1Index (va lvl : Nat) : Nat := va / 2 ^ lvlShift lvl % (if 2 ≤ lvl then 8192 else 64)

def bit (x i : Nat) : Bool := x / 2 ^ i % 2 == 1

/-- The intermediate segment that stage 1 now gives an address, from the table at `ia`, as its lines stand at their homes. -/
def State.segOf? (s : State) (vf va : Nat) : Nat → Nat → Option Nat
  | 0, _ => none
  | lvl + 1, ia =>
    let a := ia + 8 * s1Index va lvl
    match (s.vf? vf).bind (fun v => v.segs.lookup (a / 2 ^ 18)) with
    | none => none
    | some g =>
      let p := (s.part (s.vfPart vf)).chunkLine g.chunks (a % 2 ^ 18 / 128)
      let e := (s.homeLine p).1.toNat / 2 ^ (8 * (a % 128)) % 2 ^ 64
      if !bit e 0 then none
      else if bit e 1 then some ((e / 2 ^ 20 % 2 ^ 34 * 2 ^ 18 + va % 2 ^ lvlShift lvl) / 2 ^ 18)
      else s.segOf? vf va lvl (e / 2 ^ 20 % 2 ^ 43 * 2 ^ 9)

/-- The virtual addresses by which line `j` of a page may lie in a queue's storage: its own, and in each segment of the storage that
is the same intermediate segment under another virtual one (R143). -/
def State.storageAddrs (s : State) (e : TlbEntry) (j : Nat) (q : StageQueue) : List Nat :=
  let root := match s.vf? e.vf with
    | some v => v.s1root.toNat % 2 ^ 52
    | none => 0
  let first := q.qbase.toNat / 2 ^ 18
  let segs := (List.range ((q.qbase.toNat % 2 ^ 18 + 16 * q.cap + 2 ^ 18 - 1) / 2 ^ 18)).map (fun i => first + i)
  e.addr j :: (segs.filter (fun g => g != e.vseg && s.segOf? e.vf (g * 2 ^ 18) 4 root == some e.iseg)).map (fun g => g * 2 ^ 18 + 128 * j)

/-- How many bytes of a line, from its first, are storage of a stage queue while its braid runs (R358), as an access of software names
it. -/
def State.queueBytes (s : State) (e : TlbEntry) (j : Nat) : Nat :=
  let within (q : StageQueue) (a : Nat) : Nat :=
    if q.qbase.toNat ≤ a then Nat.min 128 (q.qbase.toNat + 16 * q.cap - a) else 0
  let braids := (s.part (s.vfPart e.vf)).braids.filter (fun b => b.2.running && b.2.vf == e.vf)
  if 2 ^ 46 ≤ e.vseg then 0
  else (braids.map (fun b => (b.2.queues.map (fun q => (s.storageAddrs e j q).map (within q))).flatten)).flatten.foldl Nat.max 0

/-- What a read finds in such storage: nothing is specified (R358), so free values. -/
def State.unsettled (s : State) (e : TlbEntry) (j : Nat) (x : Line × Tag × State) : Line × Tag × State :=
  match s.queueBytes e j with
  | 0 => x
  | n + 1 =>
    let u := x.2.2
    let any := (List.range 16).foldl (fun (d : Nat) i => d + (Config.freeWord (u.freeCtr + i)).toNat * 2 ^ (64 * i)) 0
    (mergeLine x.1 (BitVec.ofNat 1024 any) (byteRun 0 (n + 1)), x.2.1, { u with freeCtr := u.freeCtr + 16 })

/-- A line and its tag at its home. -/
def State.readHome (s : State) (l : LineLoc) (r : Reader) : Line × Tag × State :=
  match l with
  | .store c i => s.readRaw false (s.partOfCore c) (2 ^ 36 + 8192 * c + i) r
  | .page e j => s.unsettled e j (
    if e.host then s.readHost (s.vfPart e.vf) e.vf (hostAddr e.iseg j) r
    else s.readStored e.near (s.vfPart e.vf) (s.stored e j) r)

/-- A line and its tag as a write that covers it finds them: the home checks no tag (R48), but a packed line's word, which the write
keeps in part (R87); of the tag there only DEM counts. A write to a host line makes no report of its entry. -/
def State.meetHome (s : State) (l : LineLoc) (full : Bool) (r : Reader) : Line × Tag × State :=
  match l with
  | .store c i =>
    if full then (0, s.tagAt (2 ^ 36 + 8192 * c + i), s) else s.readRaw false (s.partOfCore c) (2 ^ 36 + 8192 * c + i) r
  | .page e j =>
    if e.host then
      let x := s.hostLine e.vf (hostAddr e.iseg j)
      (x.1, if badTag x.2 then mkTag (fmtOf x.2) (bscOf x.2) 2 (demOf x.2) else x.2, s)
    else
      let h := s.stored e j
      if full && decide (h.m ≤ 1) then (0, (s.homeLine h.p).2, s.reach e.near h.p r) else s.readStored e.near (s.vfPart e.vf) h r

/-! ## Merging at the home (R132) -/

/-- A write that reaches a home. -/
structure Write where
  data : Line
  mask : ByteMask
  tag : Tag
  typed : Bool
  /-- container width of its format (R432) -/
  width : Nat := 0
  /-- a write of the whole line leaves DEM set: it is no line-atomic write, or a demotion (R49) -/
  keepDem : Bool := false
  deriving DecidableEq, Repr

/-- The tag that a write leaves on a line of tag `h` (Table 2 of R132); DEM by R49. -/
def mergeTag (h : Tag) (w : Write) : Tag :=
  let full := w.mask == fullMask
  let hc := classOf h
  let keep (cls : Nat) : Tag := mkTag (fmtOf h) (bscOf h) cls (demOf h || (w.typed && demOf w.tag))
  if w.typed then
    if full then (if w.keepDem then withDem w.tag (demOf h || demOf w.tag) else w.tag)
    else match classOf w.tag with
      | 0 =>
        if hc = 2 then keep 2
        else if hc = 3 then keep 3
        else if hc = 0 then
          (if fmtOf h = fmtOf w.tag ∧ bscOf h = bscOf w.tag then keep 0 else keep 3)
        else mkTag (fmtOf w.tag) (bscOf w.tag) 0 (demOf h || demOf w.tag)
      | 1 => if hc = 0 ∨ hc = 2 ∨ hc = 3 then keep hc else keep 1
      | 3 => keep 3
      | _ => keep 2
  else
    if hc = 2 then keep 2 else if hc = 3 then keep 3 else keep 0

/-- The line and tag a write leaves. -/
def mergeWrite (d : Line) (t : Tag) (w : Write) : Line × Tag := (mergeLine d w.data w.mask, mergeTag t w)

/-- The host port that a host address is reached through, of those that are up. Which of two the spec leaves open (assumption 81). -/
def State.hostPortOf (s : State) (a : Nat) : Option Port :=
  match (s.hostPorts.filter (fun p => p.2.up)).map (fun p => p.2) with
  | [] => none
  | [p] => some p
  | p :: q :: _ => some (if Config.hostPort a % 2 = 0 then p else q)

/-- The peer at a host address has advertised Chroale capability (R319). -/
def State.chroalePeer (s : State) (a : Nat) : Bool :=
  match (s.hostPortOf a).bind (fun p => p.feats) with
  | some f => f.chroale
  | none => false

/-- What a write of a host line sends (R317–R319): each half that it touches with its mask, and then the tag entry; or one packed
line to a peer with Chroale capability. -/
def State.hostWrites (s : State) (a : Nat) (tag : Option Nat) (d : Line) (t : Tag) (mask : ByteMask) : List Sent :=
  if s.chroalePeer a then [.hostLine a ⟨d, t, 1⟩ mask]
  else
    (([0, 1].filter (fun h => mask.toNat / 2 ^ (64 * h) % 2 ^ 64 != 0)).map (fun h =>
      Sent.hostWrite (a + 64 * h) (BitVec.ofNat 512 (d.toNat / 2 ^ (512 * h))) (BitVec.ofNat 64 (mask.toNat / 2 ^ (64 * h)))))
    ++ (match tag with
      | some b =>
        let o := b - hostByte 0
        [.hostWrite (o / 64 * 64) (BitVec.ofNat 512 (t.toNat * 2 ^ (8 * (o % 64)))) (BitVec.ofNat 64 (15 * 2 ^ (o % 64)))]
      | none => [])

/-- Write a host line and its tag entry (R318), of which a write changed the bytes of `mask`. -/
def State.putHost (s : State) (vf a : Nat) (d : Line) (t : Tag) (mask : ByteMask) : State :=
  let tag := (s.vf? vf).bind (fun v => v.tagByte? a)
  let s := s.emit (s.hostWrites a tag d t mask)
  let s := { s with mem := memPutLine s.mem (hostByte a) d mask }
  match tag with
  | some b => { s with mem := memPutNat s.mem b t.toNat 4 }
  | none => s

/-- Write a line and tag at a home, without merging; `mask` says which bytes of it the write changed. -/
def State.putHome (s : State) (l : LineLoc) (d : Line) (t : Tag) (mask : ByteMask) : State :=
  match l with
  | .store c i =>
    s.putRaw (2 ^ 36 + 8192 * c + i) d t
  | .page e j =>
    if e.host then s.putHost e.vf (hostAddr e.iseg j) d t mask else s.writeStored e.near (s.stored e j) d t

/-- Apply a write at its home: merge, break the line's links, mark the segment dirty (R132, R163, R405). -/
def State.applyHome (s : State) (l : LineLoc) (w : Write) (keep : Option (Nat × Nat)) (r : Reader) : State :=
  let h := s.meetHome l (w.typed && w.mask == fullMask) r
  let x := mergeWrite h.1 h.2.1 w
  let s := (h.2.2.putHome l x.1 x.2 w.mask).breakLinks l.key keep
  match l with
  | .store _ _ => s
  | .page e _ => s.updSeg e.vf e.iseg (fun g => { g with dirty := true })

/-! ## Chunks, growth and fit (R91–R95) -/

/-- Chunks a partition holds (R95). -/
def Part.chunkCount (p : Part) : Nat := p.chans.length * 261632

/-- Chunks counted as taken: allocated or still on their way back. -/
def Part.taken (p : Part) : Nat := p.used.length + (p.returning.map (fun r => r.2.2.length)).foldl (· + ·) 0

def Part.freeCount (p : Part) : Nat := p.chunkCount - p.taken

/-- Reserve in effect (R94). -/
def Part.reserveNow (p : Part) : Nat := p.reserve.getD (p.chunkCount / 64)

/-- The `k` lowest chunk numbers from `i` on that are not taken; assumption 9. -/
def lowestFree (taken : List Nat) : Nat → Nat → Nat → List Nat
  | 0, _, _ => []
  | fuel + 1, i, k =>
    if k = 0 then []
    else if taken.contains i then lowestFree taken fuel (i + 1) k
    else i :: lowestFree taken fuel (i + 1) (k - 1)

/-- All chunk numbers taken. -/
def Part.takenList (p : Part) : List Nat := p.used ++ (p.returning.map (fun r => r.2.2)).flatten

/-- Choose `k` free chunks. -/
def Part.chooseChunks (p : Part) (k : Nat) : List Nat := lowestFree p.takenList (p.takenList.length + k) 0 k

/-- Write the machine lines of chunks as R89 says: zero payload, class UNINIT, or ZERO where lines are packed. -/
def State.initChunks (s : State) (part : Nat) (chunks : List Nat) (m : Nat) : State :=
  let p := s.part part
  let t : Tag := if m ≤ 1 then mkTag 0 127 4 false else packedWord 0 127 false (List.replicate m 1)
  (List.range (128 * chunks.length)).foldl (fun s i =>
    let a := p.chunkLine chunks i
    s.putBank a 0 t) s

/-- Copy page lines `n` − 1 down to 0 of a segment from one layout to another (R92). -/
def State.copySeg (s : State) (part : Nat) (src dst : Seg) : Nat → State
  | 0 => s
  | j + 1 =>
    let s := s.copySeg part src dst j
    let p := s.part part
    let at_ (g : Seg) : Stored :=
      let m := packing g.lw g.pw
      ⟨p.chunkLine g.chunks (j / m), m, j % m, g.lw, g.pw⟩
    let x := s.readStored false part (at_ src) {}
    (x.2.2.reach false (at_ dst).p {}).writeStored false (at_ dst) x.1 x.2.1

/-- Growth ends a recoding pass over its segment (R93). -/
def State.endPasses (s : State) (vf iseg : Nat) : State :=
  { s with hanks := s.hanks.map (fun h =>
      (h.1, { h.2 with rce := h.2.rce.map (fun q => if q.vf = vf ∧ q.iseg = some iseg then { q with ended := true } else q) })) }

/-- Switch a segment to full layout width on new chunks and return the old ones (R92). -/
def State.growSeg (s : State) (vf iseg : Nat) (new : List Nat) : State :=
  match s.vf? vf with
  | none => s
  | some v =>
    match v.segs.lookup iseg with
    | none => s
    | some g =>
      let s := s.updPart v.part (fun p => { p with used := p.used ++ new })
      let g' := { g with pw := g.lw, chunks := new }
      let s := (s.initChunks v.part new 1).copySeg v.part g g' 2048
      let s := s.updSeg vf iseg (fun h => { g' with dirty := h.dirty })
      s.updPart v.part (fun p => { p with used := p.used.filter (fun c => !g.chunks.contains c) })

/-- Take chunks for a write, or refuse (R94): P-mode writes may use the reserve; events as R94 says. -/
def State.grantChunks (s : State) (part need : Nat) (priv : Bool) (r : Reader) (va : Word) : Option (List Nat) × State :=
  let p := s.part part
  if (if priv then 0 else p.reserveNow) + need ≤ p.freeCount then
    let left := p.freeCount - need
    (some (p.chooseChunks need),
     if left < p.reserveNow then s.logEvent part 0x06 r.vf r.coord 0 (BitVec.ofNat 64 left) else s)
  else (none, s.logEvent part 0x07 r.vf r.coord va (BitVec.ofNat 64 need))

/-- The line that a write leaves can be stored at the segment's PW (fit, R90, R91). `cls`, `fmt`, `bsc` are that line's;
`width` is its format's container width. -/
def State.fits (s : State) (h : Stored) (t : Tag) (width : Nat) (typed : Bool) : Bool :=
  if h.m ≤ 1 then
    !typed || classOf t != 0 || decide (width ≤ h.pw)
  else if !typed then false
  else if classOf t ≠ 0 then true
  else
    let w := (s.homeLine h.p).2
    decide (width ≤ h.pw) &&
      ((fmtOf w == fmtOf t && bscOf w == bscOf t) ||
       (List.range h.m).all (fun i => i == h.slot || packedCls w i != 0))

/-- A write fits: one of class ZERO always does, since its FMT carries no value (R91, R185); otherwise the line it leaves must. -/
def State.fitsWrite (s : State) (h : Stored) (t : Tag) (w : Write) : Bool :=
  (w.typed && classOf w.tag == 1) || s.fits h t w.width w.typed

/-- A fit-checked write (R91): applied, or the segment is grown first, or refused (none: CHUNK_DENIED). -/
def State.fitWrite (s : State) (e : TlbEntry) (j : Nat) (w : Write) (keep : Option (Nat × Nat)) (priv : Bool) (r : Reader) (va : Word) :
    Option State × State :=
  let l := LineLoc.page e j
  let h := s.meetHome l (w.typed && w.mask == fullMask) r
  let x := mergeWrite h.1 h.2.1 w
  let s := h.2.2
  let done (s : State) : State :=
    ((s.putHome l x.1 x.2 w.mask).breakLinks l.key keep).updSeg e.vf e.iseg (fun g => { g with dirty := true })
  if s.fitsWrite (s.stored e j) x.2 w then (some (done s), s)
  else
    -- the request for growth ends a pass over the segment, granted or not (R93)
    match (s.endPasses e.vf e.iseg).grantChunks (s.vfPart e.vf) 16 priv r va with
    | (none, s) => (none, s)
    | (some new, s) => (some (done (s.growSeg e.vf e.iseg new)), s)

/-! ## The L1 (R127–R135) -/

/-- The core whose L1 holds a line for a core: its own, or in a fused coil the line's slice (R128). A host
line has no channel or offset: the model gives it the slice of its line number mod 8 (assumption 75). -/
def State.l1Core (s : State) (core : Nat) (e : TlbEntry) (j : Nat) : Nat :=
  if (s.coil (coilOf core)).fused then
    let i := if e.host then hostAddr e.iseg j / 128 % 8
      else
        let p := (s.stored e j).p
        (p % 2 ^ 25 + p / 2 ^ 25) % 8
    coilOf core * 8 + i
  else core

/-- Lines of SHADOWED and NEAR pages are held in no L1 (R130). -/
def TlbEntry.cached (e : TlbEntry) : Bool := !e.shadowed && !e.near

def Core.line? (c : Core) (key : Nat) : Option L1Line := c.l1.find? (fun l => l.key == key)

def Core.dropLine (c : Core) (key : Nat) : Core := { c with l1 := c.l1.filter (fun x => x.key != key) }

/-- Set of a line in an L1: assumption 76. -/
def l1Set (key : Nat) : Nat := key % 128

/-- The line that a full set gives up (R27): stream lines first, keep lines last, the one used longest ago among equals. -/
def l1Victim (set : List L1Line) : Option L1Line :=
  match set.reverse.find? (fun l => l.hint == 1) with
  | some l => some l
  | none => match set.reverse.find? (fun l => l.hint != 3) with
    | some l => some l
    | none => set.getLast?

/-- The line that makes room for one of key `key`, where its set is full of others (R127). -/
def Core.l1Victim? (c : Core) (key : Nat) : Option L1Line :=
  let set := c.l1.filter (fun x => x.key != key && l1Set x.key == l1Set key)
  if set.length < 16 ∨ (c.line? key).isSome = true then none else l1Victim set

/-- The write that an L1 line's dirty bytes make. -/
def L1Line.write (l : L1Line) : Write :=
  { data := l.data, mask := l.dirty, tag := if l.typed then l.wtag else l.fill, typed := l.typed, width := l.width, keepDem := !l.whole }

/-- The tag a read of an L1 line sees: what the home would hold after its dirty bytes (R158). -/
def L1Line.seen (l : L1Line) : Tag := if l.dirty = 0 then l.fill else mergeTag l.fill l.write

/-- Where an L1 line's bytes come from and go to. -/
def L1Line.loc (l : L1Line) : LineLoc := .page l.page l.line

/-- Put a line into an L1, most recently used. The line that makes room is evicted: clean it goes silently, dirty it is written back
(R132). -/
def State.install (s : State) (core : Nat) (l : L1Line) : State :=
  let s := match (s.core core).l1Victim? l.key with
    | some v =>
      let t := s.updCore core (fun c => c.dropLine v.key)
      if v.dirty = 0 then t else t.applyHome v.loc v.write none {}
    | none => s
  s.updCore core (fun c => { c with l1 := l :: c.l1.filter (fun x => x.key != l.key) })

/-- Write one L1 line's dirty bytes back to its home (R132). The line stays, clean, where its bytes are what a read of the home
with this tag may give; else its clean bytes go (R157, R158). -/
def State.writeBackLine (s : State) (core key : Nat) : State :=
  match (s.core core).line? key with
  | none => s
  | some l =>
    if l.dirty = 0 then s
    else
      let s := s.applyHome l.loc l.write none {}
      let t := (s.readHome l.loc {}).2.1
      s.updCore core (fun c =>
        if l.filled && l.valid ||| l.dirty == fullMask && t == l.seen then
          { c with l1 := c.l1.map (fun x =>
              if x.key = key then { x with valid := fullMask, dirty := 0, fill := t, typed := false, whole := false } else x) }
        else c.dropLine key)

/-- Write back every dirty line of a core's L1. -/
def State.writeBackCore (s : State) (core : Nat) : State :=
  ((s.core core).l1.filter (fun l => l.dirty != 0)).foldl (fun s l => s.writeBackLine core l.key) s

/-- The cores whose L1s form the level of a core's releases and acquires: its own, or its fused coil's eight. -/
def State.levelCores (s : State) (core : Nat) : List Nat :=
  if (s.coil (coilOf core)).fused then (List.range 8).map (fun i => coilOf core * 8 + i) else [core]

/-- Clear the valid bits of every clean byte of a core's L1 (R133). -/
def Core.dropClean (c : Core) : Core :=
  { c with l1 := (c.l1.map (fun l => { l with valid := 0, filled := false })).filter (fun l => l.dirty != 0) }

/-- A hit makes a line its set's most recently used, under the hint of this use (R27). -/
def Core.use (c : Core) (key hint : Nat) : Core :=
  match c.line? key with
  | some l => { c with l1 := { l with hint := hint } :: c.l1.filter (fun x => x.key != key) }
  | none => c

/-- The home's line under the dirty bytes that the core's own L1 holds of it, by whatever page (R143), but for the first `n`. -/
def State.readUnder (s : State) (core : Nat) (l : LineLoc) (e : TlbEntry) (j n : Nat) (r : Reader) : Line × Tag × State :=
  let h := s.readHome l r
  match (s.core (s.l1Core core e j)).line? l.key with
  | none => h
  | some c =>
    if c.dirty = 0 then h else (mergeLine h.1 c.data (c.dirty &&& ~~~(byteRun 0 n)), mergeTag h.2.1 c.write, h.2.2)

/-- A line as a read by a core finds it (R127, R158): its L1's copy where the whole line is held, else the home's under the
core's own dirty bytes, all of it read at once (R156, R157). Storage of a running queue is unsettled in every copy, and no L1 takes
a line that holds some (R358). -/
def State.loadLine (s : State) (core : Nat) (l : LineLoc) (hint : Nat) (r : Reader) : Line × Tag × State :=
  match l with
  | .store _ _ => s.readHome l r
  | .page e j =>
    let n := s.queueBytes e j
    if !e.cached || n != 0 then s.readUnder core l e j n r
    else
      let k := l.key
      let c := s.l1Core core e j
      let cur := ((s.core c).line? k).getD { key := k, page := e, line := j }
      if cur.valid ||| cur.dirty = fullMask ∧ (cur.filled = true ∨ (cur.dirty = fullMask ∧ cur.typed = true ∧ cur.whole = true)) then
        (cur.data, cur.seen, s.updCore c (fun x => x.use k hint))
      else
        let h := s.readHome l { r with hint := hint }
        let new := { cur with
          data := mergeLine h.1 cur.data cur.dirty, valid := ~~~cur.dirty, filled := true, fill := h.2.1, hint := hint }
        let s := if hint = 2 ∧ cur.dirty = 0 then h.2.2 else h.2.2.install c new
        (new.data, new.seen, s)

/-- A typed store that meets bytes held dirty under another tag, and does not cover them: an entry holds one tag (R131). -/
def L1Line.clashes (l : L1Line) (w : Write) : Bool :=
  l.typed && w.typed && l.dirty &&& ~~~w.mask != 0
    && (fmtOf l.wtag != fmtOf w.tag || bscOf l.wtag != bscOf w.tag || classOf l.wtag != classOf w.tag)

/-- A store clears the DEM of the line: a line-atomic write that is no demotion (R49). -/
def Write.clears (w : Write) : Bool := w.typed && w.mask == fullMask && !w.keepDem

/-- The tag of an L1 line's dirty bytes once a store is added to them: the store's (R131), with the DEM of those held before, which
stays set through partial writes (R49). -/
def L1Line.storeTag (l : L1Line) (w : Write) : Tag :=
  if !w.typed then l.wtag
  else if l.typed && l.dirty != 0 && demOf l.wtag && !w.clears then withDem w.tag true
  else w.tag

/-- An ordinary store into the L1 (R131). Bytes held under another tag are written back first, an eviction (R132), so that the
home merges both writes and a reader sees what R158 says (assumption 70). A noalloc store to a line that the L1 does not hold goes
through to the home (R27). -/
def State.storeL1 (s : State) (core : Nat) (e : TlbEntry) (j : Nat) (w : Write) (hint : Nat) : State :=
  let l := LineLoc.page e j
  let k := l.key
  let c := s.l1Core core e j
  let s := if (((s.core c).line? k).map (fun l => l.clashes w)).getD false then s.writeBackLine c k else s
  if hint = 2 ∧ ((s.core c).line? k).isNone then s.applyHome l w none { hint := hint }
  else
    let cur := ((s.core c).line? k).getD { key := k, page := e, line := j }
    s.install c { cur with
      data := mergeLine cur.data w.data w.mask
      dirty := cur.dirty ||| w.mask
      typed := cur.typed || w.typed
      wtag := cur.storeTag w
      whole := w.clears || (cur.whole && cur.dirty != 0)
      width := if w.typed then w.width else cur.width
      hint := hint }

/-- Update a copy held in L1 with the bytes and tag that the home now holds (R131, R164): they are clean there, and of the rest of
the line only the core's own dirty bytes stay, so that no read mixes them with an older copy (R157). -/
def State.refreshL1 (s : State) (core : Nat) (e : TlbEntry) (j : Nat) (w : Write) : State :=
  let k := (LineLoc.page e j).key
  let c := s.l1Core core e j
  match (s.core c).line? k with
  | none => s
  | some l =>
    let h := s.readHome (.page e j) {}
    let dirty := l.dirty &&& ~~~w.mask
    s.updCore c (fun x => { x with l1 := x.l1.map (fun y => if y.key = k then
      { l with
        data := mergeLine l.data h.1 w.mask
        valid := w.mask
        dirty := dirty
        typed := l.typed && dirty != 0
        whole := l.whole && dirty == l.dirty
        fill := h.2.1
        filled := true } else y) })

/-- Write back and drop every L1 line of a segment, wherever it is held: its chunks are about to serve another use (R89, R413). -/
def State.dropSegL1 (s : State) (vf iseg : Nat) : State :=
  s.cores.foldl (fun s c =>
    (c.2.l1.filter (fun l => l.page.vf == vf && l.page.iseg == iseg)).foldl (fun s l =>
      (s.writeBackLine c.1 l.key).updCore c.1 (fun x => x.dropLine l.key)) s) s

/-- A fit-checked page: BACKGROUND, or stored narrower than its layout (R91). -/
def State.fitChecked (s : State) (e : TlbEntry) : Bool :=
  e.dem == 2 || (match s.seg? e.vf e.iseg with
    | some g => decide (g.pw < g.lw)
    | none => decide (e.pw < e.lw))

/-- A plain store by a core: into its L1, or through to the home; none when growth is refused (CHUNK_DENIED). -/
def State.storeLine (s : State) (core : Nat) (l : LineLoc) (w : Write) (hint : Nat) (priv : Bool) (r : Reader) (va : Word) :
    Option State × State :=
  match l with
  | .store _ _ => (some (s.applyHome l w none r), s)
  | .page e j =>
    if s.fitChecked e ∧ !e.host then
      match s.fitWrite e j w none priv r va with
      | (some t, u) => (some (t.refreshL1 core e j w), u)
      | (none, u) => (none, u)
    else if e.cached then (some (s.storeL1 core e j w hint), s)
    else (some ((s.applyHome l w none r).refreshL1 core e j w), s)

/-- A write of an engine: through to the home, any L1 copy updated (R164); none when growth is refused. -/
def State.storeThrough (s : State) (core : Nat) (l : LineLoc) (w : Write) (priv : Bool) (r : Reader) (va : Word) :
    Option State × State :=
  match l with
  | .store _ _ => (some (s.applyHome l w none r), s)
  | .page e j =>
    if s.fitChecked e ∧ !e.host then
      match s.fitWrite e j w none priv r va with
      | (some t, u) => (some (t.refreshL1 core e j w), u)
      | (none, u) => (none, u)
    else (some ((s.applyHome l w none r).refreshL1 core e j w), s)

/-- A write applied at the home at once (atomics, conditional scatters, near-memory writes): fit-checked where the page is;
`keep` names the strand whose link survives; none when growth is refused. -/
def State.homeWrite (s : State) (l : LineLoc) (w : Write) (keep : Option (Nat × Nat)) (priv : Bool) (r : Reader) (va : Word) :
    Option State × State :=
  match l with
  | .store _ _ => (some (s.applyHome l w keep r), s)
  | .page e j =>
    if s.fitChecked e ∧ !e.host then s.fitWrite e j w keep priv r va
    else (some (s.applyHome l w keep r), s)

/-- Before an atomic: the line's dirty bytes go home and its clean bytes are dropped (R135). -/
def State.writeBackAndDrop (s : State) (core : Nat) (l : LineLoc) : State :=
  match l with
  | .store _ _ => s
  | .page e j =>
    let c := s.l1Core core e j
    (s.writeBackLine c l.key).updCore c (fun x => x.dropLine l.key)

/-! ## Page requests (R117) -/

/-- The first REQID from `n` on that no outstanding request has (R117). -/
def freeReq (q : List PageReq) : Nat → Nat → Nat
  | 0, n => n
  | k + 1, n => if q.any (fun r => r.id == n) then freeReq q k ((n + 1) % 2 ^ 16) else n

/-- Enter a request (R117). -/
def Vf.enter (v : Vf) (iseg kind lw pw : Nat) : Vf :=
  let id := freeReq v.pgq 64 v.nextReq
  { v with pgq := v.pgq ++ [⟨id, iseg, kind, lw, pw, false, false⟩], nextReq := (id + 1) % 2 ^ 16 }

/-- The function's request for a segment: the first miss enters one while room is left, and waits for room in turn otherwise (R117,
R424). -/
def State.request (s : State) (vf iseg kind lw pw : Nat) : State :=
  s.updVf vf (fun v =>
    if v.pgq.any (fun q => q.iseg == iseg) || v.late.any (fun q => q.1 == iseg) then v
    else if 64 ≤ v.pgq.length then { v with late := v.late ++ [(iseg, kind, lw, pw)] }
    else v.enter iseg kind lw pw)

/-- Misses that waited for room enter their requests, in the order of their first misses (R424). -/
def Vf.enterLate (v : Vf) : Vf :=
  v.late.foldl (fun v q => if v.pgq.length < 64 then { v with late := v.late.drop 1 }.enter q.1 q.2.1 q.2.2.1 q.2.2.2 else v) v

/-- Requests retire (R117), and those that waited for room take their places. -/
def Vf.retire (v : Vf) (p : PageReq → Bool) : Vf := { v with pgq := v.pgq.filter (fun q => !p q) }.enterLate

/-- No request is outstanding for a segment any more. -/
def Vf.retireSeg (v : Vf) (iseg : Nat) : Vf :=
  { v with late := v.late.filter (fun q => q.1 != iseg) }.retire (fun q => q.iseg == iseg)

/-- PW that R88 assigns at allocation: the container width of F under STORE, else LW. -/
def allocPw (c : FmtCtx) (lw dem dfmt : Nat) : Nat := if dem = 1 then (c.fmt dfmt).container lw else lw

/-! ## The walk (R104–R111) -/

/-- Bits of a width code (Table 2 of R105). -/
def widthOf (code : Nat) : Nat := 2 ^ (code + 1)

/-- Page size of a level's leaf (Table 1 of R104). -/
def pageSize (lvl : Nat) : Nat :=
  match lvl with
  | 2 => 2 ^ 30
  | 1 => 2 ^ 24
  | _ => 2 ^ 18

/-- Size of a table of a level. -/
def tableSize (lvl : Nat) : Nat := if 2 ≤ lvl then 2 ^ 16 else 2 ^ 9

/-- A malformed entry of a level (R106). -/
def malformed (c : FmtCtx) (e lvl : Nat) : Bool :=
  if bit e 1 then
    let lw := e / 2 ^ 6 % 8
    let dem := e / 2 ^ 9 % 4
    let f := e / 2 ^ 11 % 64
    let w := widthOf lw
    let fw := (c.fmt f).container w
    decide (lvl = 3) || decide (e / 2 ^ 54 ≠ 0) || decide (6 ≤ lw) || decide (dem = 3) || decide (dem ≠ 1 ∧ f ≠ 0)
      || decide (dem = 1 ∧ (f = 0 ∨ f = 10 ∨ fw > w ∨ fw < w / 8))
      || (bit e 18 && (decide (dem ≠ 0) || bit e 19))
      || (bit e 17 && (decide (dem = 2) || decide (dem = 1 ∧ fw < w)))
      || decide (e / 2 ^ 20 % 2 ^ 34 * 2 ^ 18 % pageSize lvl ≠ 0)
  else
    decide (lvl = 0) || decide (e / 2 ^ 63 ≠ 0) || decide (e / 4 % 2 ^ 18 ≠ 0)
      || decide (e / 2 ^ 20 % 2 ^ 43 * 2 ^ 9 % tableSize (lvl - 1) ≠ 0)

/-- A translation's outcome. -/
inductive XRes where
  | ok (s : State) (e : TlbEntry)
  | fail (s : State) (cause : Nat)
  /-- a stage-2 miss on the named intermediate segment: the access parks -/
  | park (s : State) (iseg : Nat)

/-- Who translates: core, function, P-mode, the braid's format context (R432), the events' reader, and for page requests
whether an engine asks. -/
structure Walker where
  core : Nat
  vf : Nat
  pm : Bool
  ctx : FmtCtx
  reader : Reader
  engine : Bool := false
  /-- virtual segments whose request was refused or timed out, with the cause to report -/
  denied : List (Nat × Nat) := []
  /-- the page must be NEAR (R203) -/
  near : Bool := false
  /-- the VLSU asks, not the front end (R112) -/
  vlsu : Bool := false
  /-- a prefetch, flush or invalidation: a miss makes no request (R116) -/
  quiet : Bool := false
  /-- the access is one of the front end's instruction, which resolves an address once (R223) -/
  own : Bool := false

/-- KIND of a page request (Table 4 of R117). The table has no kind for an atomic: the model gives a data write's; a stage-1 table
that an engine's walk misses has the kind of a table, not of an engine (assumption 75). -/
def reqKind (engine : Bool) (acc : Access) : Nat :=
  if engine then 4 else match acc with
    | .read => 0
    | .write => 1
    | .atomic => 1
    | .fetch => 2

/-- A stage-2 miss: it enters a request and parks (R116, R117). -/
def State.s2Miss (s : State) (w : Walker) (iseg kind lw pw : Nat) : XRes :=
  .park (if w.quiet then s else s.request w.vf iseg kind lw pw) iseg

/-- The access writes. -/
def writes (acc : Access) : Bool :=
  match acc with
  | .read => false
  | .write => true
  | .atomic => true
  | .fetch => false

/-- Permissions of an access. -/
def needs (acc : Access) (rd wr ex : Bool) : Bool :=
  match acc with
  | .read => rd
  | .write => wr
  | .atomic => rd && wr
  | .fetch => ex

/-- A segment as the device reaches its lines for itself, under a descriptor. No virtual segment names it. -/
def Seg.homeEntry (g : Seg) (vf iseg : Nat) : TlbEntry :=
  { vf := vf, vseg := 2 ^ 46, rd := true, wr := true, ex := false, priv := false, lw := g.lw, pw := g.pw, dem := 0, dfmt := 0,
    strict := false, near := false, shadowed := false, iseg := iseg, chunks := g.chunks, host := g.host && decide (2 ^ 33 ≤ iseg),
    map := g.map }

/-- The translation of a walk, of the RCE, of the Anchor, under the descriptor in force. -/
def State.homeEntry (s : State) (vf iseg : Nat) : TlbEntry :=
  ((s.seg? vf iseg).getD { rd := true, wr := true, ex := false, lw := 0, pw := 0, chunks := [] }).homeEntry vf iseg

/-- Stage-2 table entries above a segment (R108): level 2 by IA[51:41], level 1 by IA[51:30]. -/
def s2Entry (vf iseg lvl : Nat) : S2Entry := ⟨vf, lvl, iseg / 2 ^ (if lvl = 2 then 23 else 12)⟩

/-- Such an entry is valid once a descriptor below it has been written. -/
def Vf.s2Valid (v : Vf) (e : S2Entry) : Bool :=
  let under (iseg : Nat) : Bool := s2Entry e.vf iseg e.lvl == e
  v.segs.any (fun g => under g.1) || v.unmapped.any (fun g => under g.1)

/-- The stage-2 table entries that a translation of a segment reads: one held in the walk cache is not read, nor what lies above it
(R110, R423). -/
def State.s2Reads (s : State) (hank vf iseg : Nat) : List S2Entry × Bool :=
  let held (l : Nat) : Bool := (s.hank hank).s2.contains (s2Entry vf iseg l)
  let ok (l : Nat) : Bool := match s.vf? vf with
    | some v => v.s2Valid (s2Entry vf iseg l)
    | none => false
  if held 1 then ([], true)
  else
    let top := if held 2 then [] else [s2Entry vf iseg 2]
    if !held 2 && !ok 2 then (top, false) else (top ++ [s2Entry vf iseg 1], ok 1)

/-- Stage 2 of a walk (R110, R112, R423): the descriptor that the hank's walk cache holds, with what a permission widened since adds
(R413); else the one in force, which the cache then holds. A descriptor with V = 0, or a host window's, it never holds. -/
def State.s2Find (s : State) (hank vf iseg : Nat) : Option Seg × State :=
  let live := s.seg? vf iseg
  match (s.hank hank).descs.find? (fun d => d.vf == vf && d.iseg == iseg) with
  | some d =>
    let g := d.seg
    (some (match live with
      | some w => { g with rd := g.rd || w.rd, wr := g.wr || w.wr, ex := g.ex || w.ex }
      | none => g), s)
  | none =>
    let t := s.s2Reads hank vf iseg
    let valid (e : S2Entry) : Bool := match s.vf? vf with
      | some v => v.s2Valid e
      | none => false
    (live, s.updHank hank (fun h => { h with
      refs := h.refs + t.1.length + t.2.toNat
      s2 := t.1.filter valid ++ h.s2
      descs := match live with
        | some g => if g.host then h.descs else ⟨vf, iseg, g⟩ :: h.descs
        | none => h.descs }))

/-- A stage-1 non-leaf entry that a walk has read: the hank's walk cache holds it (R112). -/
def State.holdTable (s : State) (hank vf va lvl next : Nat) : State :=
  s.updHank hank (fun h =>
    { h with walk := ⟨vf, lvl, va / 2 ^ lvlShift lvl, next⟩
        :: h.walk.filter (fun c => !(c.vf == vf && c.lvl == lvl && c.pfx == va / 2 ^ lvlShift lvl)) })

/-- The walk from a level with table IA `ia` (R110). -/
def State.walkFrom (s : State) (w : Walker) (va : Nat) (acc : Access) : Nat → Nat → XRes
  | 0, _ => .fail s causeUnmapped
  | n + 1, ia =>
    let lvl := n
    let hank := hankOf w.core
    let a := ia + 8 * s1Index va lvl
    match s.s2Find hank w.vf (a / 2 ^ 18) with
    | (none, s) => s.s2Miss w (a / 2 ^ 18) 3 64 64
    | (some g, s) =>
      if !g.rd then .fail s causeDenied
      else
        let s := s.updHank hank (fun h => { h with refs := h.refs + 1 })
        let x := s.readHome (.page (g.homeEntry w.vf (a / 2 ^ 18)) (a % 2 ^ 18 / 128)) w.reader
        let cls := classOf x.2.1
        let part := s.vfPart w.vf
        if cls = 2 ∨ cls = 3 then
          .fail (x.2.2.logEvent part 0x05 w.reader.vf w.reader.coord (BitVec.ofNat 64 va) (BitVec.ofNat 64 lvl)) causeUnmapped
        else
          let e := if cls = 0 then x.1.toNat / 2 ^ (8 * (a % 128)) % 2 ^ 64 else 0
          if !bit e 0 then .fail x.2.2 causeUnmapped
          else if malformed w.ctx e lvl then
            .fail (x.2.2.logEvent part 0x04 w.reader.vf w.reader.coord (BitVec.ofNat 64 va) (BitVec.ofNat 64 e)) causeUnmapped
          else if bit e 1 then
            if !needs acc (bit e 2) (bit e 3) (bit e 4) || (bit e 5 && !w.pm) || (w.near && !bit e 18) then .fail x.2.2 causeAccess
            else
              let iseg := (e / 2 ^ 20 % 2 ^ 34 * 2 ^ 18 + va % pageSize lvl) / 2 ^ 18
              let lw := widthOf (e / 2 ^ 6 % 8)
              let dem := e / 2 ^ 9 % 4
              let f := e / 2 ^ 11 % 64
              match x.2.2.s2Find hank w.vf iseg with
              | (none, s) => s.s2Miss w iseg (reqKind w.engine acc) lw (allocPw w.ctx lw dem f)
              | (some d, s) =>
                let demOk := match s.vf? w.vf with
                  | some v => v.policy.demFmt.getLsbD f
                  | none => false
                if !needs acc d.rd d.wr d.ex then .fail s causeDenied
                else if d.lw ≠ lw ∧ !d.host then .fail s causeDenied
                else if dem = 1 ∧ writes acc = true ∧ demOk = false then .fail s causeDenied
                else .ok s
                  { vf := w.vf, vseg := va / 2 ^ 18, rd := bit e 2 && d.rd, wr := bit e 3 && d.wr, ex := bit e 4 && d.ex,
                    priv := bit e 5, lw := lw, pw := if d.host then lw else d.pw, dem := dem, dfmt := f,
                    strict := bit e 17, near := bit e 18, shadowed := bit e 19, iseg := iseg, chunks := d.chunks, host := d.host,
                    map := d.map }
          else
            let next := e / 2 ^ 20 % 2 ^ 43 * 2 ^ 9
            (x.2.2.holdTable hank w.vf va lvl next).walkFrom w va acc n next

/-- The deepest cached table of an address in the hank's walk cache (R112): entries left to read and the table's IA. -/
def State.walkStart (s : State) (hank vf va : Nat) : Nat × Nat :=
  let h := s.hank hank
  let hit (lvl : Nat) := h.walk.find? (fun c => c.vf == vf && c.lvl == lvl && c.pfx == va / 2 ^ lvlShift lvl)
  match hit 1 with
  | some c => (1, c.next)
  | none => match hit 2 with
    | some c => (2, c.next)
    | none => match hit 3 with
      | some c => (3, c.next)
      | none => (4, match s.vf? vf with
        | some v => v.s1root.toNat % 2 ^ 52
        | none => 0)

/-- A cached combined entry permits the access; failures are never cached, so any other needs a walk (R111). A STORE page
whose demotion the policy forbids is written only through a walk's check (R109). -/
def TlbEntry.permits (e : TlbEntry) (w : Walker) (acc : Access) (demOk : Bool) : Bool :=
  needs acc e.rd e.wr e.ex && (!e.priv || w.pm) && (!w.near || e.near) && !(e.dem == 1 && writes acc && !demOk)

/-- Put a combined entry into a TLB of `sets` sets of `ways` ways; a full set drops the entry filled first (assumption 11). -/
def tlbFill (l : List TlbEntry) (e : TlbEntry) (sets ways : Nat) : List TlbEntry :=
  let rest := l.filter (fun x => !(x.vf == e.vf && x.vseg == e.vseg))
  let set := rest.filter (fun x => x.vseg % sets == e.vseg % sets)
  if set.length < ways then e :: rest
  else match set.getLast? with
    | some o => e :: rest.filter (fun x => x != o)
    | none => e :: rest

/-- The micro-TLB that a walker looks in first; an engine has none (R112). -/
def Core.micro (c : Core) (w : Walker) : List TlbEntry := if w.engine then [] else if w.vlsu then c.vlsuTlb else c.frontTlb

/-- The core's entries of a segment, in each of its TLBs. -/
def Core.entriesOf (c : Core) (vf vseg : Nat) : List TlbEntry :=
  (c.tlb ++ c.frontTlb ++ c.vlsuTlb ++ c.oldTlb).filter (fun x => x.vf == vf && x.vseg == vseg)

/-- A core's TLBs with an entry that a walker has used; another entry of the segment that it displaces is not forgotten before a
synchronisation drops it. -/
def Core.fillTlb (c : Core) (w : Walker) (e : TlbEntry) : Core :=
  let c := { c with
    oldTlb := ((c.entriesOf e.vf e.vseg).filter (fun x => x != e)).eraseDups ++ c.oldTlb.filter (fun x => !(x.vf == e.vf && x.vseg == e.vseg))
    tlb := tlbFill c.tlb e 512 8 }
  if w.engine then c
  else if w.vlsu then { c with vlsuTlb := tlbFill c.vlsuTlb e 1 64 } else { c with frontTlb := tlbFill c.frontTlb e 1 64 }

/-- The entries that a lookup may take (R111, R112, R115): those of the micro-TLB, the core TLB and the hank TLB that permit the
access, and one that these held before. -/
def State.cachedEntries (s : State) (w : Walker) (va : Nat) (acc : Access) : List TlbEntry :=
  let vseg := va / 2 ^ 18
  let c := s.core w.core
  let demOk (f : Nat) := match s.vf? w.vf with
    | some v => v.policy.demFmt.getLsbD f
    | none => false
  let find (l : List TlbEntry) := l.filter (fun x => x.vf == w.vf && x.vseg == vseg && x.permits w acc (demOk x.dfmt))
  (find (c.micro w) ++ find c.tlb ++ find (s.hank (hankOf w.core)).tlb ++ find c.oldTlb).eraseDups

/-- A walk, and what it puts into the TLBs. -/
def State.walk (s : State) (w : Walker) (va : Nat) (acc : Access) : XRes :=
  let st := s.walkStart (hankOf w.core) w.vf va
  match s.walkFrom w va acc st.1 st.2 with
  | .ok t e => .ok ((t.updCore w.core (fun c => c.fillTlb w e)).updHank (hankOf w.core) (fun x => { x with tlb := tlbFill x.tlb e 4096 16 })) e
  | r => r

/-- Translate a device virtual address (R109–R113): by what the TLBs hold, else by a walk. Where they hold several entries of the
segment each lookup takes one of them, whichever (R115). A segment whose request was refused or timed out fails (R120, R121),
whatever maps it since. -/
def State.translate (s : State) (w : Walker) (va : Nat) (acc : Access) : XRes :=
  let use (s : State) (e : TlbEntry) : XRes :=
    .ok (if ((s.core w.core).micro w).contains e then s else s.updCore w.core (fun c => c.fillTlb w e)) e
  match w.denied.lookup (va / 2 ^ 18) with
  | some c => .fail s c
  | none => match s.cachedEntries w va acc with
    | [] => s.walk w va acc
    | [e] => use s e
    | e :: es => let k := s.pick (es.length + 1); use k.2 ((e :: es).getD k.1 e)

/-- The strand as a walker, for the instruction under way or the front end's. -/
def State.walker (s : State) : Walker :=
  { core := s.me.core, vf := s.me.vf, pm := s.me.pm, ctx := s.myCtx, reader := { vf := s.me.vf, coord := s.me.coord }
    denied := if s.me.issued.isSome then s.me.vecDenied else s.me.denied }

def State.reader (s : State) : Reader := { vf := s.me.vf, coord := s.me.coord }

/-- The line that holds an address, for an access (R102, R109): ACCESS for a non-canonical address. -/
inductive LRes where
  | ok (s : State) (l : LineLoc)
  | fail (s : State) (cause : Nat)
  | park (s : State) (iseg : Nat)

def State.locate (s : State) (w : Walker) (a : Nat) (acc : Access) : LRes :=
  match classify w.core a with
  | .nonCanonical => .fail s causeAccess
  | .window c o => .ok s (.store c (o / 128))
  | .device =>
    match s.translate w a acc with
    | .ok t e => .ok t (.page e (a % 2 ^ 18 / 128))
    | .fail t c => .fail t c
    | .park t i => .park t i

/-- A buffer-map entry covers an address of a function. -/
def BufEntry.covers (b : BufEntry) (vf a : Nat) : Bool := b.vf == vf && decide (b.base ≤ a ∧ a < b.base + 2 ^ 18 * b.segs)

/-- The address is in the ALT range of an entry of the function, which no entry redirects (R223). -/
def BufEntry.spares (b : BufEntry) (vf a : Nat) : Bool := b.vf == vf && decide (b.alt ≤ a ∧ a < b.alt + 2 ^ 18 * b.segs)

/-- The entry that redirects an address of a function: of two whose ranges hold it, the one with the lower handle (assumption 81). -/
def Part.buffer? (p : Part) (vf a : Nat) : Option (Nat × BufEntry) :=
  if p.bufs.any (fun b => b.2.spares vf a) then none else p.bufs.find? (fun b => b.2.covers vf a)

/-- Redirection of a strand's access to a shadowed buffer by the fronts that are ALT (R223): an address in the range of a VALID entry
of the function goes to the same offset of ALT. -/
def State.resolveBy (s : State) (fronts : Nat × BufEntry → Bool) (vf a : Nat) : Nat :=
  match (s.part (s.vfPart vf)).buffer? vf a with
  | some b => if fronts b then b.2.alt + (a - b.2.base) else a
  | none => a

/-- Redirection by the fronts as they stand. -/
def State.resolve (s : State) (vf a : Nat) : Nat := s.resolveBy (fun b => b.2.front) vf a

/-- Where an address of the front end's instruction goes: it is resolved once, so that an access which a stage-2 miss held goes where
it went then (R223). -/
def State.resolveMe (s : State) (a : Nat) : Nat := (s.me.resolved.lookup a).getD (s.resolve s.me.vf a)

/-- The front end's instruction keeps where an address of its own goes. -/
def State.fixAddr (s : State) (a : Nat) : State :=
  { s with me := { s.me with resolved := if (s.me.resolved.lookup a).isSome then s.me.resolved else (a, s.resolve s.me.vf a) :: s.me.resolved } }

/-- Handles of a partition's buffers whose front is ALT. -/
def State.fronts (s : State) (part : Nat) : List Nat := ((s.part part).bufs.filter (fun b => b.2.front)).map (fun b => b.1)

/-! ## Releases, acquires and translations (R114, R115, R133, R134, R169) -/

/-- The scope actually used: system is performed at tenant scope where the policy caps it (R169); the state counts it. -/
def State.clampScope (s : State) (scope : Nat) : Nat × State :=
  let capped := match s.vf? s.me.vf with
    | some v => !v.policy.maxScope
    | none => true
  if scope = 5 ∧ capped = true then
    (4, { s with me := { s.me with scopeCount := Nat.min (s.me.scopeCount + 1) 0xFFFFFFFF, scopeSticky := true } })
  else (scope, s)

/-- Write back to the level of a scope (R134). -/
def State.release (s : State) (scope : Nat) : State :=
  let fused := (s.coil (coilOf s.me.core)).fused
  if scope = 0 ∨ (scope = 1 ∧ fused = true) then s
  else (s.levelCores s.me.core).foldl (fun s c => s.writeBackCore c) s

/-- An invalidation record drops a translation (R114, R414). -/
def InvRec.hits (r : InvRec) (e : TlbEntry) : Bool :=
  r.count == 0 ||
    (let g := if r.inter then e.iseg else e.vseg
     decide (r.seg ≤ g ∧ g < r.seg + r.count))

/-- Apply records to a TLB's entries of a function. -/
def dropHits (l : List TlbEntry) (vf : Nat) (rs : List InvRec) : List TlbEntry :=
  l.filter (fun e => !(e.vf == vf && rs.any (fun r => r.hits e)))

/-- The records that a TLB at generation `g` has still to apply; all entries go when it lags by more than 64 (R115). -/
def Vf.since (v : Vf) (g : Nat) : List InvRec :=
  if v.gen - g > 64 then [⟨v.gen, false, 0, 0⟩] else v.ring.filter (fun r => r.gen > g)

/-- A core's translations without some of a function's. -/
def Core.filterTlb (c : Core) (p : TlbEntry → Bool) : Core :=
  { c with frontTlb := c.frontTlb.filter p, vlsuTlb := c.vlsuTlb.filter p, tlb := c.tlb.filter p, oldTlb := c.oldTlb.filter p }

/-- A core applies records of a function. -/
def Core.applyRecs (c : Core) (vf : Nat) (rs : List InvRec) : Core :=
  c.filterTlb (fun e => !(e.vf == vf && rs.any (fun r => r.hits e)))

/-- A hank applies records of a function; any of them clears what its walk cache holds of the function. -/
def Hank.applyRecs (h : Hank) (vf : Nat) (rs : List InvRec) : Hank :=
  { h with
    tlb := dropHits h.tlb vf rs
    walk := if rs.isEmpty then h.walk else h.walk.filter (fun e => e.vf != vf)
    s2 := if rs.isEmpty then h.s2 else h.s2.filter (fun e => e.vf != vf)
    descs := if rs.isEmpty then h.descs else h.descs.filter (fun e => e.vf != vf) }

/-- Bring a core's TLB and its hank's up to date with a function's invalidations (R115). -/
def State.refreshTlb (s : State) (core vf : Nat) : State :=
  match s.vf? vf with
  | none => s
  | some v =>
    let rs := v.since (look (s.core core).gen vf 0)
    let rh := v.since (look (s.hank (hankOf core)).gen vf 0)
    let s := s.updCore core (fun c => { c.applyRecs vf rs with gen := put c.gen vf v.gen })
    s.updHank (hankOf core) (fun h => { h.applyRecs vf rh with gen := put h.gen vf v.gen })

/-- Self-invalidate to the level of a scope, and from part scope on bring translations up to date (R133, R174). -/
def State.acquire (s : State) (scope : Nat) : State :=
  let fused := (s.coil (coilOf s.me.core)).fused
  if scope = 0 ∨ (scope = 1 ∧ fused = true) then s
  else
    let s := (s.levelCores s.me.core).foldl (fun s c => s.updCore c Core.dropClean) s
    if 3 ≤ scope then s.refreshTlb s.me.core s.me.vf else s

end Sys2Proof.Machine
end

