-- ==== Sys2Proof/Machine/Fetch.lean ====
section
/-!
DEFINITION. Fetching an instruction (R10–R15), the causes found before it executes (R14, R36, R378), and the steps that
take them: FETCH_FAULT, ILLEGAL_INSTRUCTION_WORD and ENGINE_FAULT_TRAP. Entering the dispatch queue (R22, R334).
-/
namespace Sys2Proof.Machine

/-- What a fetch finds. -/
inductive FetchRes where
  | word (s : State) (link : BitVec 32) (w : Code)
  | fault (s : State) (cause : Nat) (val : Word)
  | park (s : State) (iseg : Nat)

/-- Word `k` of the code line at an address of a located line. -/
def lineWord (d : Line) (a k : Nat) : BitVec 32 := BitVec.ofNat 32 (d.toNat / 2 ^ (8 * (a % 128 + 4 * k)))

/-- Fetch the word at a code address for a stream of engine code `eng`, causes in the order of R14. A strand's fetch is an access of
its own and goes where a shadowed buffer's front is (R223). Of a word written to a line that a running braid executes, R17 leaves
open whether and when it is fetched: the model fetches what the line's home then holds, not what the core's own L1 holds dirty
(assumption 75). -/
def State.fetchAt (s : State) (w : Walker) (eng : Nat) (pc : Word) : FetchRes :=
  let a := pc.toNat
  let k := a / 4 % 16
  if a % 4 ≠ 0 ∨ k = 0 then .fault s causeMisaligned pc
  else if 2 ^ 56 ≤ a then .fault s causeAccess pc
  else
    let base := a / 64 * 64
    let at_ := if w.engine then base else s.resolveMe base
    match s.translate w at_ .fetch with
    | .fail t c => .fault t c pc
    | .park t i => .park t i
    | .ok t e =>
      let x := t.readHome (.page e (at_ % 2 ^ 18 / 128)) w.reader
      let link := lineWord x.1 base 0
      if link.toNat / 2 ^ 29 ≠ eng then .fault x.2.2 causeForeign (BitVec.ofNat 64 base)
      else if linkLast link = 0 ∨ linkLast link < k then .fault x.2.2 causeCodeEnd (BitVec.ofNat 64 base)
      else .word x.2.2 link (lineWord x.1 base k)

/-- The front end's fetch: past an END line it is CODE_END (R15). -/
def State.fetch (s : State) : FetchRes :=
  if s.me.fellOff then
    .fault s causeCodeEnd (s.me.pc - BitVec.ofNat 64 (4 * (linkLast s.me.link + 1)))
  else s.fetchAt s.walker s.me.role s.me.pc

/-- A defined CSR (Table 9 of R355, R377, R380, R417). -/
def csrDefined (n : Nat) : Bool :=
  decide (n ≤ 0x009 ∨ (0x010 ≤ n ∧ n ≤ 0x016) ∨ n = 0x020 ∨ n = 0x021 ∨ (0x040 ≤ n ∧ n ≤ 0x042)
    ∨ (0x050 ≤ n ∧ n ≤ 0x053) ∨ (0x060 ≤ n ∧ n ≤ 0x064) ∨ (0x100 ≤ n ∧ n ≤ 0x106) ∨ (0x120 ≤ n ∧ n ≤ 0x127))

/-- CSR index of an access to one. -/
def csrIndex (w : Code) : Option Nat :=
  if 0x4C ≤ opOf w ∧ opOf w ≤ 0x4E then some (w.toNat / 4 % 2 ^ 12) else none

/-- Decode causes of an instruction word that decodes (R36 steps 6 to 8): none when it may go on. -/
def State.decodeCause (s : State) (i : Instr) (w : Code) : Option Nat :=
  if s.me.limm.isSome && !i.takesLimm then some causeIllegal
  else
    let priv := decide (0xE0 ≤ opOf w ∧ opOf w ≤ 0xEA) || opOf w == 0x3A
      || (match csrIndex w with
          | some n => decide (0x100 ≤ n)
          | none => false)
    if priv && !s.me.pm then some causePrivilege
    else match csrIndex w with
      | some n => if csrDefined n then none else some causeIllegal
      | none => none

/-- Outside P-mode a privileged instruction traps PRIVILEGE, with TRAPVAL its word (R36 step 7). -/
def privileged (w : Word) (body : State → Eff) (s : State) : Eff :=
  if s.me.pm then body s else trapI s causePrivilege w

/-- A word that is no instruction for this strand (R36): ILLEGAL_INSTRUCTION, TRAPVAL the word. -/
def execIllegalInstructionWord (w : BitVec 32) (s : State) : Out :=
  s.takeTrap { cause := causeIllegal, val := w.setWidth 64 }

/-- Enter DOUBLE (R386): the trap CSRs stay, and the event carries TRAPCAUSE with the fetch cause above it. -/
def State.enterDouble (s : State) (cause : Nat) (_val : Word) : State :=
  let t := s.me
  (s.logStrand 0x09 t.trapVec (BitVec.ofNat 64 (t.trapCause.toNat % 256 + cause * 256))).mapStrand t.core t.ctx
    (fun t => { t with run := .double })

/-- Hold the front end at an access to a device address, for an intermediate segment (R116); the instruction's own fetch has gone
where it went. -/
def State.holdMe (s : State) (target iseg : Nat) : State :=
  let s := s.fixAddr (s.me.pc.toNat / 64 * 64)
  { s with me := { s.me with held := some (target, iseg) } }

/-- The fetch at the front end's address fails: the trap is taken there, or at the LIMM before it (R33), but past slot LAST at the
address R15 names; a stage-2 miss holds the strand (R116), and the first fetch of a handler that faults enters DOUBLE (R14, R386).
A strand that is not running fetches nothing. -/
def execFetchFault (s : State) : Out :=
  if s.me.run ≠ .running then .next s
  else match s.fetch with
  | .word _ _ _ => .next s
  | .park t i => blocked (t.holdMe (t.resolveMe (t.me.pc.toNat / 64 * 64)) i)
  | .fault t c v =>
    if t.me.older then blocked t
    else if t.me.atVec then .next { t.enterDouble c v with waiting := true }
    else t.takeTrap { cause := c, val := v, pc := if t.me.limm.isSome && !t.me.fellOff then none else some t.me.pc }

/-- An asynchronous ENGINE_FAULT at an instruction boundary outside P-mode, lowest command number first (R218, R378). -/
def execEngineFaultTrap (s : State) : Out :=
  match s.me.asyncFaults with
  | [] => .next s
  | n :: rest =>
    if s.me.pm || s.me.issued.isSome || s.me.sigPend.isSome || s.me.older then blocked s
    else
      { s with me := { s.me with asyncFaults := rest } }.takeTrap
        { cause := causeEngine, val := BitVec.ofNat 64 n, async := true }

/-! ## The dispatch queue (R22, R334) -/

/-- A vector instruction: one that enters the DQ (formats V and VM; VSETL executes in the front end, R244). -/
def isVector (i : Instr) : Bool :=
  let o := opOf (encode i)
  decide ((0x81 ≤ o ∧ o ≤ 0xBA) ∨ o = 0x53 ∨ o = 0x54 ∨ (0x6C ≤ o ∧ o ≤ 0x6E) ∨ (0x77 ≤ o ∧ o ≤ 0x79) ∨ (0xC0 ≤ o ∧ o ≤ 0xDC))

/-- The scalar operands that a vector instruction captures (R22, R25, R334): sa, [18:14] of VM and [16:12] of V; sb,
[13:9] of VM and [11:7] of V. -/
def State.captureOf (s : State) (i : Instr) : Capture :=
  let w := encode i
  let vm := decide (0xC0 ≤ opOf w)
  { regA := s.reg (if vm then fld w 14 5 else fld w 12 5)
    regB := s.reg (if vm then fld w 9 5 else fld w 7 5)
    limm := s.me.limm.map (fun l => l.1)
    head := s.me.jrnlHead }

/-- The strand with the instruction at the front end entered into the DQ, going on behind it (R334). -/
def State.enterDq (s : State) (i : Instr) : State :=
  let t := s.me
  let e : DqEntry := { instr := i, cap := s.captureOf i, seq := t.entered + 1, pc := t.instrPc, tkSat := t.tkSat,
                       use := if t.resumeUse then t.resume else none }
  { s with
    waiting := false
    me := { t.putAside with dq := t.dq ++ [e], entered := t.entered + 1, limm := none, atVec := false, held := none, denied := [], resolved := [],
                            pc := t.succ.1, fellOff := t.succ.2 } }

/-- sb, or sa of a VM word's base: as captured when the instruction entered the DQ, else as it stands. -/
def State.capB (s : State) (r : BitVec 5) : Word :=
  match s.me.issued with
  | some e => e.cap.regB
  | none => s.reg r

def State.capA (s : State) (r : BitVec 5) : Word :=
  match s.me.issued with
  | some e => e.cap.regA
  | none => s.reg r

/-- The imm24 of the LIMM before the executing instruction. -/
def State.limm24 (s : State) : Option (BitVec 24) :=
  match s.me.issued with
  | some e => e.cap.limm
  | none => s.me.limm.map (fun l => l.1)

/-- The immediate of an SI consumer (R31). -/
def State.immSI (s : State) (imm : BitVec 12) : Word :=
  match s.limm24 with
  | some h => (h ++ imm).signExtend 64
  | none => imm.signExtend 64

/-- The immediate of a VI consumer (R31). -/
def State.immVI (s : State) (imm : BitVec 5) : Word :=
  match s.limm24 with
  | some h => (h ++ imm).signExtend 64
  | none => imm.signExtend 64

end Sys2Proof.Machine
end

