-- ==== Sys2Proof/Machine/Branch.lean ====
section
/-!
DEFINITION. Branches and jumps (R21, R345–R347), BRK and TRAP (R348), RETT (R349, R383) and YIELD (R351).
-/
namespace Sys2Proof.Machine

/-- A conditional branch of format SB (R345). -/
def branch (c : Word → Word → Bool) (a b : BitVec 5) (o : BitVec 8) (slot : BitVec 4) (t : BitVec 2) (s : State) : Out :=
  runAhead t (fun s => if c (s.reg a) (s.reg b) then .jump s (s.me.target o.toInt slot.toNat) else .done s) s

def execBeq (a b : BitVec 5) (o : BitVec 8) (slot : BitVec 4) (t : BitVec 2) (s : State) : Out :=
  branch (fun x y => x == y) a b o slot t s

def execBne (a b : BitVec 5) (o : BitVec 8) (slot : BitVec 4) (t : BitVec 2) (s : State) : Out :=
  branch (fun x y => x != y) a b o slot t s

def execBlt (a b : BitVec 5) (o : BitVec 8) (slot : BitVec 4) (t : BitVec 2) (s : State) : Out :=
  branch (fun x y => decide (x.toInt < y.toInt)) a b o slot t s

def execBge (a b : BitVec 5) (o : BitVec 8) (slot : BitVec 4) (t : BitVec 2) (s : State) : Out :=
  branch (fun x y => decide (y.toInt ≤ x.toInt)) a b o slot t s

/-- s[sa] := s[sa] − 1, and branch when the new value is not zero; with s0 always (R345). -/
def execBnzd (a : BitVec 5) (o : BitVec 8) (slot : BitVec 4) (t : BitVec 2) (s : State) : Out :=
  runAhead t (fun s =>
    let v := s.reg a - 1
    let s := s.setReg a v
    if v ≠ 0 then .jump s (s.me.target o.toInt slot.toNat) else .done s) s

def execJmp (o : BitVec 18) (slot : BitVec 4) (t : BitVec 2) (s : State) : Out :=
  runAhead t (fun s => .jump s (s.me.target o.toInt slot.toNat)) s

/-- s31 := the sequential successor's code address, then jump (R346). -/
def execCall (o : BitVec 18) (slot : BitVec 4) (t : BitVec 2) (s : State) : Out :=
  runAhead t (fun s => .jump (s.setReg 31 s.me.succ.1) (s.me.target o.toInt slot.toNat)) s

/-- s[sd] := the sequential successor, and jump to s[sa] as read before that write (R347). -/
def execJr (d a : BitVec 5) (t : BitVec 2) (s : State) : Out :=
  runAhead t (fun s => .jump (s.setReg d s.me.succ.1) (s.reg a)) s

/-- BREAKPOINT at the BRK; TRAPVAL holds imm12 (R348). -/
def execBrk (imm : BitVec 12) (t : BitVec 2) (s : State) : Out :=
  runOrdered t (fun s => trapI s causeBreak (imm.setWidth 64)) s

/-- SOFTWARE with TRAPPC at the sequential successor (R348). TRAP retires as it traps: its signal is pushed then, held
while the FIFO is full. -/
def execTrap (imm : BitVec 12) (t : BitVec 2) (s : State) : Out :=
  runOrdered (t &&& 1) (fun s =>
    let n := s.tokens s.me s.me.sigF
    if t.getLsbD 1 && s.fifoClosed s.me s.me.sigF then trapI s causeQueue (queueVal s.me.sigF 2 1 0)
    else if t.getLsbD 1 && decide (32 ≤ n) then .wait s
    else
      let s := if t.getLsbD 1 then s.setTokens s.me.sigF (n + 1) else s
      .trap s { cause := causeSoftware, val := imm.setWidth 64, pc := some s.me.succ.1 }) s

/-- Return from a trap (R383); outside P-mode PRIVILEGE (R349). -/
def execRett (t : BitVec 2) (s : State) : Out :=
  runOrdered t (privileged ((encode (.rett t)).setWidth 64) (fun s => .ret s)) s

/-- No architectural effect (R351); the arbiters take the strand as just issued (R370), and the point is kept for a
squash at slice end (R390). -/
def execYield (t : BitVec 2) (s : State) : Out :=
  runOrdered t (fun s =>
    let c := s.core s.me.core
    .done { s with me := { s.me with lastVec := c.vecRound + 1, lastVlsu := c.vlsuRound + 1 } }) s

end Sys2Proof.Machine
end

