-- ==== Sys2Proof/Machine/Operands.lean ====
section
/-!
DEFINITION. Operand forms: instruction words by format (for TRAPVAL), vector elements, masks and groups (R24, R177, R180,
R242–R250), splats (R264), and the checks made before a vector instruction acts (R245, R263).
-/
namespace Sys2Proof.Machine

/-! ## Words by format (Table 2 of R18) -/

/-- SR: OP, sd, sa, sb, sc, MOD, TK. -/
def wordSR (op : Nat) (d a b c : BitVec 5) (m t : BitVec 2) : Word :=
  BitVec.ofNat 64 (op * 2 ^ 24 + d.toNat * 2 ^ 19 + a.toNat * 2 ^ 14 + b.toNat * 2 ^ 9 + c.toNat * 2 ^ 4 + m.toNat * 4 + t.toNat)

/-- SI: OP, sd, sa, imm12, TK. -/
def wordSI (op : Nat) (d a : BitVec 5) (imm : BitVec 12) (t : BitVec 2) : Word :=
  BitVec.ofNat 64 (op * 2 ^ 24 + d.toNat * 2 ^ 19 + a.toNat * 2 ^ 14 + imm.toNat * 4 + t.toNat)

/-- V: OP, FORM, vd, va, [11:7], k, MOD, TK. -/
def wordV (op form : Nat) (d a b : BitVec 5) (k : BitVec 3) (m t : BitVec 2) : Word :=
  BitVec.ofNat 64 (op * 2 ^ 24 + form * 2 ^ 22 + d.toNat * 2 ^ 17 + a.toNat * 2 ^ 12 + b.toNat * 2 ^ 7 + k.toNat * 2 ^ 4
    + m.toNat * 4 + t.toNat)

/-- VM: OP, v, sa, [13:9], k, MODM, TK. -/
def wordVM (op : Nat) (v a b : BitVec 5) (k : BitVec 3) (modm : Nat) (t : BitVec 2) : Word :=
  BitVec.ofNat 64 (op * 2 ^ 24 + v.toNat * 2 ^ 19 + a.toNat * 2 ^ 14 + b.toNat * 2 ^ 9 + k.toNat * 2 ^ 6 + modm * 4 + t.toNat)

/-! ## The vector configuration (R242, R243) -/

/-- SEW in bits. -/
def Strand.sewBits (t : Strand) : Nat := widthOf t.sew

/-- VLMAX of the current VTYPE and grant (R243). -/
def Strand.vlmax (t : Strand) : Nat := 1024 * t.slices / t.sewBits

/-- Elements of the group: VL·RC. -/
def Strand.count (t : Strand) : Nat := t.vl * t.rc

/-- Bit j of the instruction's mask (R250): for a memory instruction that was held in the VLSU, as it stood when it started. -/
def Strand.active (t : Strand) (k : BitVec 3) (j : Nat) : Bool :=
  k == 0 || (((t.done_.bind (fun p => p.mask)).getD (t.mask k.toNat)).getLsbD j)

/-- Group index of the start point (R180). -/
def Strand.start (t : Strand) : Nat := t.rstart * t.vl + t.vstart

/-- Element j of the group is active (R180): at or above the start point, and its mask bit is 1. -/
def Strand.act (t : Strand) (k : BitVec 3) (j : Nat) : Bool := decide (t.start ≤ j) && t.active k j

/-- Element e of a row at `w` bits a slot. -/
def getElem_ (bits : RowBits) (w e : Nat) : Nat := bits.toNat / 2 ^ (w * e) % 2 ^ w

/-- Replace element e of a row; the whole slot is written (R55). -/
def setElem (bits : RowBits) (w e v : Nat) : RowBits :=
  BitVec.ofNat 8192 (bits.toNat - bits.toNat / 2 ^ (w * e) % 2 ^ w * 2 ^ (w * e) + v % 2 ^ w * 2 ^ (w * e))

/-- Code of an element of a row read under a tag: zero for a ZERO row (R52). -/
def rowCode (bits : RowBits) (tag : Tag) (w e : Nat) : Nat := if classOf tag = 1 then 0 else getElem_ bits w e

/-- Tag of row v. -/
def Strand.tag (t : Strand) (v : Nat) : Tag := (t.row v).tag

/-- Codes of all elements of a group, in group order (R177). -/
def Strand.groupCodes (t : Strand) (v : Nat) : List Nat :=
  ((List.range t.rc).map (fun r =>
    let x := t.row (v + r)
    (List.range t.vl).map (fun e => rowCode x.bits x.tag t.sewBits e))).flatten

/-- Tags of the rows of a group. -/
def Strand.groupTags (t : Strand) (v : Nat) : List Tag := (List.range t.rc).map (fun r => t.tag (v + r))

/-- Container width of a format in the current slots (R55). -/
def FmtCtx.cw (c : FmtCtx) (f sew : Nat) : Nat := Nat.min ((c.fmt f).container sew) sew

/-- VTYPE_ILLEGAL at (0, 0): ill configuration, or a group of RC rows beyond v31 (R245, R263). -/
def Strand.vtypeIll (t : Strand) (groups : List (BitVec 5)) : Bool :=
  t.ill || groups.any (fun v => decide (v.toNat + t.rc > 32))

/-- Two groups overlap without coinciding (R263). -/
def Strand.straddle (t : Strand) (d a : BitVec 5) : Bool :=
  d != a && decide (d.toNat < a.toNat + t.rc ∧ a.toNat < d.toNat + t.rc)

/-- Two groups overlap. -/
def Strand.overlap (t : Strand) (d a : BitVec 5) : Bool := decide (d.toNat < a.toNat + t.rc ∧ a.toNat < d.toNat + t.rc)

/-- An instruction-level trap at (0, 0). -/
def trap00 (s : State) (cause : Nat) (val : Word) : Eff := .trap s { cause := cause, val := val }

/-- A trap of a row or an element. -/
def trapAt (s : State) (cause : Nat) (val : Word) (r e : Nat) : Eff :=
  .trap s { cause := cause, val := val, row := r, elem := e, isElem := true }

/-- TRAPVAL of FORMAT_PAIR and FORMAT_FIT (Table 2 of R381). -/
def pairVal (a b : Nat) : Word := BitVec.ofNat 64 (a % 64 + b % 64 * 256)
def fitVal (f sew : Nat) : Word := BitVec.ofNat 64 (f % 64 + sew % 8 * 256)

/-- Instruction-level checks, then the body. -/
def vecOp (word : Word) (groups : List (BitVec 5)) (bad : Strand → Bool) (body : State → Eff) (s : State) : Eff :=
  if s.me.vtypeIll groups || bad s.me then trap00 s causeVtype word else body s

/-- VSTART and RSTART return to 0 when a vector instruction completes. -/
def State.clearStart (s : State) : State := { s with me := { s.me with vstart := 0, rstart := 0 } }

/-- TE.PSN is set: consuming a POISON row traps (R75). -/
def Strand.tePsn (t : Strand) : Bool := t.fcsr.getLsbD 13

/-- Consume POISON rows (R75): the trap's row under TE.PSN, or PSN is set. -/
def consume (s : State) (poison : Bool) (r : Nat) (f : State → Eff) : Eff :=
  if poison then
    if s.me.tePsn then trapAt s causeFp 0x20 r 0 else f (s.raise flagPSN)
  else f s

/-- The rounding selection of a vector instruction at (row, element) (R24, R68, R266). -/
def Strand.rounding (t : Strand) (m : BitVec 2) (r e : Nat) : Rounding :=
  match m.toNat with
  | 2 => ⟨1, 0, false⟩
  | 3 => ⟨5, diceBits t.diceSeed.toNat r e, false⟩
  | x => ⟨t.rm, if t.rm = 5 then diceBits t.diceSeed.toNat r e else 0, x == 1⟩

/-! ## Values of elements -/

/-- The value of an element of a row: +0 for a ZERO row (R52, R67). -/
def rowValue (c : FmtCtx) (t : Tag) (code : Nat) : Num :=
  if classOf t = 1 then Num.zero else elemValue (c.fmt (fmtOf t)) (bscOf t) code

/-- A second operand: a row group, or a splat (R264). -/
inductive Src where
  | row (v : BitVec 5)
  /-- VS: the captured scalar; VI: the immediate (its float reading is an integer) -/
  | splat (x : Word) (imm : Bool)
  deriving DecidableEq, Repr

/-- A splat's value under va's format (R264). -/
def splatValue (f : Fmt) (x : Word) (imm : Bool) : Num :=
  match f.kind with
  | .int => .ofInt x.toInt
  | .nat => .ofInt x.toNat
  | _ => if imm then .ofInt x.toInt else (fixedFmt 1).decode x.toNat

/-- Src of the three forms. -/
def srcVV (b : BitVec 5) (_ : State) : Src := .row b
def srcVS (sb : BitVec 5) (s : State) : Src := .splat (s.capB sb) false
def srcVI (imm : BitVec 5) (s : State) : Src := .splat (s.immVI imm) true

/-- Rows that a source group contributes to the group checks. -/
def Src.groups : Src → List (BitVec 5)
  | .row v => [v]
  | .splat _ _ => []

end Sys2Proof.Machine
end

