-- ==== Sys2Proof/Machine/ScalarMem.lean ====
section
/-!
DEFINITION. Scalar memory instructions (R189–R192), the scalar store queue (R335, R387) and CLAIM (R373).
-/
namespace Sys2Proof.Machine

/-- What checkScalar finds (R189): a place, a trap, or a stage-2 miss that holds the front end (R116). -/
inductive ScalarAt where
  | ok (s : State) (l : LineLoc) (off : Nat) (strict : Bool)
  | trap (s : State) (cause : Nat)
  | hold (s : State) (iseg : Nat)

/-- The STRICT bit of a located line's page. -/
def LineLoc.strict : LineLoc → Bool
  | .store _ _ => false
  | .page e _ => e.strict

/-- checkScalar of R189 for `n` bytes: MISALIGNED, then causes 2–5 of Table 1 of R184. -/
def State.checkScalar (s : State) (a : Word) (n : Nat) (acc : Access) : ScalarAt :=
  if a.toNat % n ≠ 0 then .trap s causeMisaligned
  else match s.locate s.walker (s.resolveMe a.toNat) acc with
    | .ok t l => .ok t l (a.toNat % 128) l.strict
    | .fail t c => .trap t c
    | .park t i => .hold t i

/-- Hold the front end at a scalar access (R116), at the address that a shadowed buffer gives it. -/
def holdAt (s : State) (a : Word) (iseg : Nat) : Eff :=
  .wait ((s.fixAddr a.toNat).holdMe (s.resolveMe a.toNat) iseg)

/-- Bytes of a line. -/
def lineNat (d : Line) (off n : Nat) : Nat := d.toNat / 2 ^ (8 * off) % 2 ^ (8 * n)

/-- A line with `n` bytes at an offset. -/
def lineOfNat (v off n : Nat) : Line := BitVec.ofNat 1024 (v % 2 ^ (8 * n) * 2 ^ (8 * off))

/-- An untyped write of `n` bytes at an offset of a line (R158). -/
def untyped (v off n : Nat) : Write := ⟨lineOfNat v off n, byteRun off n, zeroTag, false, 0, false⟩

/-! ## The scalar store queue -/

/-- The line of a queue entry. -/
def SsqEntry.loc (e : SsqEntry) (t : Strand) : LineLoc :=
  match e.entry with
  | some x => .page x (e.addr.toNat % 2 ^ 18 / 128)
  | none => match classify t.core e.addr.toNat with
    | .window c o => .store c (o / 128)
    | _ => .store t.core 0

/-- Overlay an entry's bytes on the value of `n` bytes from offset `off` of its line. -/
def SsqEntry.overlay (e : SsqEntry) (off n v : Nat) : Nat :=
  let a := e.addr.toNat % 128
  (List.range n).foldl (fun acc i =>
    let b := off + i
    let x := if a ≤ b ∧ b < a + e.bytes then e.value.toNat / 2 ^ (8 * (b - a)) % 256 else v / 2 ^ (8 * i) % 256
    acc + x * 2 ^ (8 * i)) 0

/-- A load takes the bytes that the queue holds from the youngest older entry (R335), whatever address named them (R143). -/
def Strand.forward (t : Strand) (l : LineLoc) (off n v : Nat) : Nat :=
  t.ssq.foldl (fun acc e => if (e.loc t).key = l.key then e.overlay off n acc else acc) v

/-- Perform the oldest entry of the front-end strand's queue, once every vector instruction older than it has completed
(R335). A growth that is refused discards the write, which the event log records (R94; assumption 14). -/
def State.performOldest (s : State) : State :=
  match s.me.ssq with
  | [] => s
  | e :: rest =>
    if !s.me.olderThan (e.older + 1) then
      let w := untyped e.value.toNat (e.addr.toNat % 128) e.bytes
      let x := s.storeLine s.me.core (e.loc s.me) w 0 e.priv s.reader e.addr
      let t := x.1.getD x.2
      { t with waiting := false, me := { t.me with ssq := rest } }
    else s

/-- SCALAR_STORE_PERFORM (R335). -/
def execScalarStorePerform (core ctx : Nat) (s : State) : Out :=
  let home := (s.me.core, s.me.ctx)
  .next (((s.switchTo core ctx).performOldest).switchTo home.1 home.2)

/-- Smallest byte interval that holds a queued instruction's elements (R387): start and end, or none for an indexed,
atomic or near-memory instruction. -/
def Strand.extent (t : Strand) (e : DqEntry) : Option (Nat × Nat) :=
  let o := opOf (encode e.instr)
  let n := t.count
  let w := t.sewBits
  let base := (e.cap.regA + e.cap.regB).toNat
  if n = 0 then some (0, 0)
  else if o = 0xC0 ∨ o = 0xC3 ∨ o = 0xC4 ∨ o = 0xC7 ∨ o = 0xC8 ∨ o = 0xC9 then some (base, base + (n * w + 7) / 8)
  else if o = 0xCB then some (base / 128 * 128, (base + (n * w + 7) / 8 + 127) / 128 * 128)
  else if o = 0xC1 ∨ o = 0xC5 then
    let a := e.cap.regA.toNat
    let span := e.cap.regB.toInt * ((n - 1 : Nat) : Int)
    if 0 ≤ span then some (a, a + span.toNat + w / 8) else some (a - (-span).toNat, a + w / 8)
  else none

/-- The instruction stores (R387). -/
def storesVector (i : Instr) : Bool :=
  let o := opOf (encode i)
  o == 0xC4 || o == 0xC5 || o == 0xC7 || o == 0xC9 || o == 0xCB

/-- An address as bytes of one place: the local-store windows name each byte once (R102, R143). -/
def placeOf (core a : Nat) : Nat :=
  match classify core a with
  | .window c o => 2 ^ 64 + c * 2 ^ 20 + o
  | _ => a

/-- `n` bytes at `a` may be among those of an interval: they are, or the interval's pages may name the same segment at another
address (R143), which leaves the place within the segment. -/
def mayMeet (a n lo hi : Nat) : Bool :=
  decide (lo < a + n ∧ a < hi)
    || (decide (lo < hi ∧ a < 2 ^ 56 ∧ lo < 2 ^ 56) && (decide (2 ^ 18 ≤ hi - lo) ||
        (let x := a % 2 ^ 18
         let y := lo % 2 ^ 18
         let len := hi - lo
         decide (y < x + n ∧ x < y + len) || decide (y < x + 2 ^ 18 + n ∧ x + 2 ^ 18 < y + len))))

/-- A run-ahead scalar load is held by an uncompleted vector store whose extent holds its bytes (R387). -/
def Strand.loadHeld (t : Strand) (a n : Nat) : Bool :=
  t.uncompleted.any (fun e => storesVector e.instr && (match t.extent e with
    | some x =>
      let lo := placeOf t.core x.1
      mayMeet (placeOf t.core a) n lo (lo + (x.2 - x.1))
    | none => false))

/-- The instruction acquires when it is performed: VLDA, a load gated by WMBIND, XRED and XRECV (R329, R332), or one that waits for a
token (R150). -/
def Strand.acquires (t : Strand) (e : DqEntry) : Bool :=
  let w := encode e.instr
  let o := opOf w
  o == 0xC8 || o == 0x6C || o == 0x6E || (t.wmBind.getLsbD 14 && (decide (0xC0 ≤ o ∧ o ≤ 0xC3) || o == 0xD7)) || ((fld w 0 1 == (1 : BitVec 1)) && !e.tkSat)

/-- The instruction releases when it is performed: VSTR, XRED and XSEND (R329, R332), or one that signals a token (R34, R150). -/
def releases (i : Instr) : Bool :=
  let w := encode i
  let o := opOf w
  o == 0xC9 || o == 0x6C || o == 0x6D || (fld w 1 1 == (1 : BitVec 1))

/-- A run-ahead scalar load waits for older vector instructions: one that acquires (R145), and for any where it reads a shadowed
buffer, of which no later read may take an earlier front (R166). -/
def State.loadWaits (s : State) (a n : Nat) : Bool :=
  s.me.loadHeld a n || s.me.uncompleted.any (fun e => s.me.acquires e)
    || (s.me.older && ((s.part (s.vfPart s.me.vf)).bufs.any (fun b => b.2.covers s.me.vf a)))

/-! ## Loads and stores -/

/-- A POISON line under a scalar load or atomic: FP_EXCEPTION under TE.PSN, else PSN (R189, R190). -/
def scalarPsn (s : State) (poison : Bool) (f : State → Eff) : Eff :=
  if poison then (if s.me.tePsn then trapI s causeFp 0x20 else f (s.raise flagPSN)) else f s

/-- SLD (R189). -/
def scalarLoad (n : Nat) (d a : BitVec 5) (imm : BitVec 12) (t : BitVec 2) (s : State) : Out :=
  runAhead t (fun s =>
    let va := s.reg a + s.immSI imm
    match s.checkScalar va n .read with
    | .trap t c => trapI t c va
    | .hold t i => holdAt t va i
    | .ok s l off strict =>
      if s.loadWaits va.toNat n then .wait s
      else
        let x := s.loadLine s.me.core l 0 s.reader
        let cls := classOf x.2.1
        if cls = 4 ∧ strict = true then trapI x.2.2 causeUninit va
        else
          let v := if cls = 4 then 0 else lineNat x.1 off n
          scalarPsn x.2.2 (cls == 2) (fun s => .done (s.setReg d (BitVec.ofNat 64 (s.me.forward l off n v))))) s

def execSld8 (d a : BitVec 5) (imm : BitVec 12) (t : BitVec 2) (s : State) : Out := scalarLoad 1 d a imm t s
def execSld16 (d a : BitVec 5) (imm : BitVec 12) (t : BitVec 2) (s : State) : Out := scalarLoad 2 d a imm t s
def execSld32 (d a : BitVec 5) (imm : BitVec 12) (t : BitVec 2) (s : State) : Out := scalarLoad 4 d a imm t s
def execSld64 (d a : BitVec 5) (imm : BitVec 12) (t : BitVec 2) (s : State) : Out := scalarLoad 8 d a imm t s

/-- The page of a located line, for a queue entry. -/
def LineLoc.entry? : LineLoc → Option TlbEntry
  | .store _ _ => none
  | .page e _ => some e

/-- SST (R189): into the scalar store queue while older vector instructions are outstanding (R335), else performed. A store
whose growth could be refused waits until nothing older can trap, so that CHUNK_DENIED is taken at it. -/
def scalarStore (n : Nat) (d a : BitVec 5) (imm : BitVec 12) (t : BitVec 2) (s : State) : Out :=
  runAhead t (fun s =>
    let va := s.reg a + s.immSI imm
    match s.checkScalar va n .write with
    | .trap t c => trapI t c va
    | .hold t i => holdAt t va i
    | .ok s l off _ =>
      let v := (s.reg d).toNat % 2 ^ (8 * n)
      let checked := match l with
        | .page e _ => s.fitChecked e && !e.host
        | .store _ _ => false
      if s.me.older then
        if checked || decide (16 ≤ s.me.ssq.length) then .wait s
        else .done { s with me := { s.me with
          ssq := s.me.ssq ++ [⟨BitVec.ofNat 64 (s.resolveMe va.toNat), n, BitVec.ofNat 64 v, s.me.entered, s.me.pm, l.entry?, s.me.jrnlHead⟩] } }
      else
        match s.storeLine s.me.core l (untyped v off n) 0 s.me.pm s.reader va with
        | (some t, _) => .done t
        | (none, t) => trapI t causeChunk va) s

def execSst8 (d a : BitVec 5) (imm : BitVec 12) (t : BitVec 2) (s : State) : Out := scalarStore 1 d a imm t s
def execSst16 (d a : BitVec 5) (imm : BitVec 12) (t : BitVec 2) (s : State) : Out := scalarStore 2 d a imm t s
def execSst32 (d a : BitVec 5) (imm : BitVec 12) (t : BitVec 2) (s : State) : Out := scalarStore 4 d a imm t s
def execSst64 (d a : BitVec 5) (imm : BitVec 12) (t : BitVec 2) (s : State) : Out := scalarStore 8 d a imm t s

/-! ## Atomics -/

/-- New value of SAMO (Table 3 of R190) in `n` bytes. -/
def samoValue (op n old x : Nat) : Nat :=
  let m := 2 ^ (8 * n)
  let so := signedOf (8 * n) old
  let sx := signedOf (8 * n) x
  match op with
  | 0 => (old + x) % m
  | 1 => old &&& x
  | 2 => old ||| x
  | 3 => old ^^^ x
  | 4 => if sx < so then x else old
  | 5 => if so < sx then x else old
  | 6 => if x < old then x else old
  | 7 => if old < x then x else old
  | _ => x

/-- A read-modify-write of `n` bytes at the home (R135, R160, R190): `f` gives the value to write and its bytes, if any; the
line's tag is ignored but for POISON. -/
def homeAtomic (va : Word) (n : Nat) (psn : Bool) (f : Nat → Option (Nat × Nat)) (k : State → Nat → Eff) (s : State) : Eff :=
  match s.checkScalar va n .atomic with
  | .trap t c => trapI t c va
  | .hold t i => holdAt t va i
  | .ok s l off _ =>
    let x := (s.writeBackAndDrop s.me.core l).readHome l s.reader
    let old := lineNat x.1 off n
    let go (s : State) : Eff :=
      match f old with
      | none => k s old
      | some w =>
        match s.homeWrite l (untyped w.1 off w.2) none s.me.pm s.reader va with
        | (some t, _) => k t old
        | (none, t) => trapI t causeChunk va
    if psn then scalarPsn x.2.2 (classOf x.2.1 == 2) go else go x.2.2

def execSamo32 (d a b o : BitVec 5) (t : BitVec 2) (s : State) : Out :=
  runOrdered t (fun s =>
    let x := (s.reg b).toNat % 2 ^ 32
    homeAtomic (s.reg a) 4 true (fun old => some (samoValue o.toNat 4 old x, 4)) (fun s old => .done (s.setReg d (BitVec.ofNat 64 old))) s) s

def execSamo64 (d a b o : BitVec 5) (t : BitVec 2) (s : State) : Out :=
  runOrdered t (fun s =>
    let x := (s.reg b).toNat
    homeAtomic (s.reg a) 8 true (fun old => some (samoValue o.toNat 8 old x, 8)) (fun s old => .done (s.setReg d (BitVec.ofNat 64 old))) s) s

def execScas32 (d a b c : BitVec 5) (t : BitVec 2) (s : State) : Out :=
  runOrdered t (fun s =>
    let x := (s.reg b).toNat % 2 ^ 32
    let y := (s.reg c).toNat % 2 ^ 32
    homeAtomic (s.reg a) 4 true (fun old => if old = x then some (y, 4) else none) (fun s old => .done (s.setReg d (BitVec.ofNat 64 old))) s) s

def execScas64 (d a b c : BitVec 5) (t : BitVec 2) (s : State) : Out :=
  runOrdered t (fun s =>
    let x := (s.reg b).toNat
    let y := (s.reg c).toNat
    homeAtomic (s.reg a) 8 true (fun old => if old = x then some (y, 8) else none) (fun s old => .done (s.setReg d (BitVec.ofNat 64 old))) s) s

/-- A prefetch's, flush's or invalidation's line, and what its walk leaves: a failure of any kind drops it, without a page request
(R116). -/
def State.quietly (s : State) (w : Walker) (fronts : Nat × BufEntry → Bool) (a : Nat) (acc : Access) : Option LineLoc × State :=
  match s.locate { w with quiet := true, denied := [] } (s.resolveBy fronts s.me.vf a) acc with
  | .ok t l => (some l, t)
  | .fail t _ => (none, t)
  | .park t _ => (none, t)

/-- SPF (R192): fills the line into the L1; never faults. -/
def execSpf (h : BitVec 2) (a : BitVec 5) (imm : BitVec 12) (t : BitVec 2) (s : State) : Out :=
  runAhead t (fun s =>
    match s.quietly s.walker (fun b => b.2.front) (s.reg a + s.immSI imm).toNat .read with
    | (some l, t) => .done (t.loadLine t.me.core l h.toNat t.reader).2.2
    | (none, t) => .done t) s

/-- CLAIM (R373). -/
def execClaim (d a b : BitVec 5) (t : BitVec 2) (s : State) : Out :=
  runOrdered t (fun s =>
    if s.me.ill then trapI s causeVtype (wordSR 0x60 d a b 0 0 t)
    else
      let va := s.reg a
      let vlmax := s.me.vlmax
      if va.toNat % 16 ≠ 0 then trapAt s causeMisaligned va 0 0
      else
        let req := if s.reg b = 0 then vlmax else (s.reg b).toNat
        let grant (x : Nat) : Nat :=
          let next := x % 2 ^ 64
          let limit := x / 2 ^ 64
          if limit ≤ next then 0 else Nat.min (Nat.min req (limit - next)) vlmax
        homeAtomic va 16 false (fun x => some ((x + grant x) % 2 ^ 64, 8)) (fun s x =>
          let g := grant x
          let s := { s with me := { s.me with vl := g, vstart := 0, rstart := 0 } }
          .done (s.setReg d (if 0 < g then BitVec.ofNat 64 (x % 2 ^ 64) else BitVec.allOnes 64))) s) s

end Sys2Proof.Machine
end

