-- ==== Sys2Proof/Machine/Control.lean ====
section
/-!
DEFINITION. CSR access (R354–R357, R377, R380, R417 and the registers' own rules), VSETL (R242–R248), fences, REL and
ACQ (R171–R174), watermarks (R374), PARK and WAKE (R352), and the format context (R376).
-/
namespace Sys2Proof.Machine

/-! ## Reading CSRs -/

/-- Numbers of the strand's commands journaled and not DONE or CANCELLED, ascending (R206, R208). -/
def State.incomplete (s : State) (t : Strand) : List Nat :=
  if t.jrnlBase.getLsbD 0 then
    ((List.range 64).map (fun i => t.jrnlHead.toNat - 63 + i)).filter (fun n =>
      decide (1 ≤ n) && decide (n ≤ t.jrnlHead.toNat) && s.jNum t n == n && s.jState t n != 3 && s.jState t n != 4)
  else []

/-- VTYPE (R242). -/
def Strand.vtype (t : Strand) : Nat :=
  if t.ill then 2 ^ 63 else t.sew + (t.rc - 1) * 8 + t.repro.toNat * 64 + t.rm * 128

/-- Resident and parked plies of the strand's stage (R377). -/
def State.plyStat (s : State) (t : Strand) : Nat :=
  match s.braidOf? t.part t.braid with
  | none => 0
  | some b =>
    let ps := b.plies.filter (fun p => p.stage == t.stage && p.placed)
    let away := (s.part t.part).parkedCoils
    let parked (p : Ply) : Bool := p.parked || s.strands.any (fun u =>
      u.part == t.part && u.braid == t.braid && u.stage == p.stage && u.plyId == p.id && away.contains (coilOf u.core))
    ps.length % 65536 + (ps.filter parked).length % 65536 * 65536

/-- A CSR that is not of the counters of a hank. -/
def State.csrValue (s : State) (n : Nat) : Nat :=
  let t := s.me
  let v := s.vf? t.vf
  let p := s.part t.part
  let pol (f : Policy → Nat) : Nat := match v with
    | some x => f x.policy
    | none => 0
  match n with
  | 0x000 => t.vl
  | 0x001 => t.rc
  | 0x002 => t.vtype
  | 0x003 => t.vstart
  | 0x004 => t.rstart
  | 0x005 => t.slices + t.pend * 256
  | 0x006 => t.osc.toNat
  | 0x007 => t.diceSeed.toNat
  | 0x008 => t.fcsr.toNat
  | 0x009 => t.wmBind.toNat
  | 0x010 => t.strandId
  | 0x011 => t.plyId
  | 0x012 => t.stage
  | 0x013 => t.braid
  | 0x014 => t.role
  | 0x015 => t.coord
  | 0x016 => t.part + t.vf * 16
  | 0x020 => t.waitF + t.sigF * 256
  | 0x021 => (s.pair t.pairNo).qcfg.toNat
  | 0x040 => t.jrnlBase.toNat
  | 0x041 => t.jrnlHead.toNat
  | 0x042 => t.jrnlDone.toNat
  | 0x050 => t.scopeCount + t.scopeSticky.toNat * 2 ^ 63
  | 0x052 =>
    let c := s.coil (coilOf t.core)
    c.temp.toNat + c.overLimit.toNat * 2 ^ 16 + c.sweep.toNat * 2 ^ 32
  | 0x053 => t.laneCount % 2 ^ 32 + (if t.pend = t.slices then 0 else 2 ^ 32)
  | 0x060 => t.braidNo.toNat
  | 0x061 => s.plyStat t
  | 0x062 => t.sqEnd.toNat
  | 0x063 => match s.braidOf? t.part t.braid with
    | some b => b.prio
    | none => 0
  | 0x064 => match s.braidOf? t.part t.braid with
    | some b => Nat.min (look b.rebal t.stage 0) 0xFFFFFFFF
    | none => 0
  | 0x100 => t.trapVec.toNat
  | 0x101 => t.trapCause.toNat
  | 0x102 => t.trapPc.toNat
  | 0x103 => t.trapVal.toNat
  | 0x104 => t.trapElem.toNat
  | 0x105 => t.pm.toNat + t.ppm.toNat * 2 + t.tkw.toNat * 4 + t.resume.isSome.toNat * 8
  | 0x106 => t.trapScratch.toNat
  | 0x120 => match v with
    | some x => x.s1root.toNat % 2 ^ 52 / 2 ^ 16 * 2 ^ 16
    | none => 0
  | 0x121 => pol (fun q => q.maxScope.toNat + q.ceil.toNat * 2 + q.preempt.toNat * 16 + q.bwWeight % 128 * 256)
  | 0x122 => Nat.min p.errLog.length 511 + p.errLost % 2 ^ 32 * 2 ^ 32
  | 0x123 => match v with
    | some x => x.pgq.length + (x.pgq.filter (fun r => !r.read)).length * 128
    | none => 0
  | 0x124 => p.freeCount
  | 0x125 => p.reserveNow
  | 0x126 => match v with
    | some x => x.tenant
    | none => 0
  | 0x127 => match v with
    | some x => x.gen
    | none => 0
  | _ => 0

/-- The value of a CSR. CYCLE moves on by a free amount between two reads: the model keeps no time (R357). -/
def State.csrRead (s : State) (n : Nat) : Word × State :=
  if n = 0x051 then
    let h := hankOf s.me.core
    let x := s.pick (2 ^ 32)
    let c := (s.hank h).cycle + BitVec.ofNat 64 x.1
    (c, x.2.updHank h (fun k => { k with cycle := c }))
  else (BitVec.ofNat 64 (s.csrValue n), s)

/-! ## Writing CSRs (R7, R354) -/

/-- Bits of QCFG that a strand may set: those of the queues and the FIFO it writes (R252). -/
def Strand.closable (t : Strand) : BitVec 8 := if t.role = 0 then 0x93 else 0x6C

/-- TKSEL: a code not listed for a field leaves the field (R259). -/
def Strand.writeTksel (t : Strand) (v : Word) : Strand :=
  let w := v.toNat % 16
  let g := v.toNat / 256 % 16
  { t with waitF := if recvCode w then w else t.waitF, sigF := if sendCode g then g else t.sigF }

/-- TRAPSTATUS: PPM and TKW are written, a 1 in RR discards the record (R380). -/
def Strand.writeTrapStatus (t : Strand) (v : Word) : Strand :=
  { t with ppm := v.getLsbD 1, tkw := v.getLsbD 2, resume := if v.getLsbD 3 then none else t.resume }

/-- Close what QCFG's written ones name (R252). -/
def State.writeQcfg (s : State) (v : Word) : State :=
  let n := s.me.pairNo
  let p := s.pair n
  s.setPair n { p with qcfg := p.qcfg ||| (v.setWidth 8 &&& s.me.closable) }

/-- The writable part of each CSR; a read-only one ignores the write. -/
def State.csrWrite (s : State) (n : Nat) (v : Word) : State :=
  let t := s.me
  let set (u : Strand) : State := { s with me := u }
  match n with
  | 0x003 => set { t with vstart := v.toNat % 2 ^ 16 }
  | 0x004 => set { t with rstart := v.toNat % 8 }
  | 0x006 => set { t with osc := v &&& 0x1FF }
  | 0x007 => set { t with diceSeed := v &&& 0xFFFFFFFF }
  | 0x008 => set { t with fcsr := v &&& 0x3FFF }
  | 0x009 => set { t with wmBind := v &&& 0xFFFFFFFF00007FFF }
  | 0x020 => set (t.writeTksel v)
  | 0x021 => s.writeQcfg v
  | 0x040 => set { t with jrnlBase := v &&& 0xF8001 }
  | 0x050 => set { t with scopeSticky := t.scopeSticky && !v.getLsbD 63 }
  | 0x062 => set { t with sqEnd := t.sqEnd &&& ~~~v.setWidth 16 }
  | 0x100 => set { t with trapVec := v }
  | 0x101 => set { t with trapCause := v &&& 0x1FF }
  | 0x102 => set { t with trapPc := v }
  | 0x103 => set { t with trapVal := v }
  | 0x104 => set { t with trapElem := v &&& 0x8007FFFF }
  | 0x105 => set (t.writeTrapStatus v)
  | 0x106 => set { t with trapScratch := v }
  | 0x120 => s.updVf t.vf (fun x => { x with s1root := v &&& 0xFFFFFFFFF0000 })
  | _ => s

/-- The checks of an access (R354): PRIVILEGE, then ILLEGAL_INSTRUCTION; a write of JRNLBASE while a command is incomplete
is illegal too (R206). -/
def csrAccess (n : Nat) (writes : Bool) (word : Word) (f : State → Eff) (s : State) : Eff :=
  if 0x100 ≤ n ∧ s.me.pm = false then trapI s causePrivilege word
  else if !csrDefined n then trapI s causeIllegal word
  else if writes && n == 0x040 && !(s.incomplete s.me).isEmpty then trapI s causeIllegal word
  else f s

/-- CSRR; of the CSRs 0x010–0x05F it runs ahead (R337). -/
def execCsrr (d : BitVec 5) (imm : BitVec 12) (t : BitVec 2) (s : State) : Out :=
  let n := imm.toNat
  runInstr t (decide (0x010 ≤ n ∧ n ≤ 0x05F)) (csrAccess n false (wordSI 0x4C d 0 imm t) (fun s =>
    let x := s.csrRead n
    .done (x.2.setReg d x.1))) s

/-- Issue an instruction that may select or close the FIFO of its own signal: TKSEL is read again when it retires (R259), and a
push to a FIFO that is closed by then traps, the instruction without effect (R257). -/
def runSelecting (t : BitVec 2) (body : State → Eff) (s : State) : Out :=
  if s.me.sigPend.isSome then runOrdered t body s
  else match s.issueCheck (t &&& 1) false with
    | .hold => blocked s
    | .closed f => s.takeTrap { cause := causeQueue, val := queueVal f 2 1 0 }
    | .go =>
      let w := s.takeToken t
      match body w with
      | .done r =>
        if t.getLsbD 1 && r.fifoClosed r.me r.me.sigF then w.takeTrap { cause := causeQueue, val := queueVal r.me.sigF 2 1 0 }
        else r.retire t r.me.succ
      | e => e.settle t

def execCsrw (a : BitVec 5) (imm : BitVec 12) (t : BitVec 2) (s : State) : Out :=
  runSelecting t (csrAccess imm.toNat true (wordSI 0x4D 0 a imm t) (fun s => .done (s.csrWrite imm.toNat (s.reg a)))) s

def execCsrx (d a : BitVec 5) (imm : BitVec 12) (t : BitVec 2) (s : State) : Out :=
  runSelecting t (csrAccess imm.toNat true (wordSI 0x4E d a imm t) (fun s =>
    let x := s.csrRead imm.toNat
    .done ((x.2.csrWrite imm.toNat (s.reg a)).setReg d x.1))) s

/-! ### Writes of single CSRs, as the steps the table names -/

def execJrnlbaseWrite (v : Word) (s : State) : Out := .next (s.csrWrite 0x040 v)
def execQcfgWrite (v : Word) (s : State) : Out := .next (s.csrWrite 0x021 v)
def execTkselWrite (v : Word) (s : State) : Out := .next (s.csrWrite 0x020 v)
def execScopestWrite (v : Word) (s : State) : Out := .next (s.csrWrite 0x050 v)
def execSqendWrite (v : Word) (s : State) : Out := .next (s.csrWrite 0x062 v)
def execTrapstatusWrite (v : Word) (s : State) : Out := .next (s.csrWrite 0x105 v)
def execS1rootWrite (v : Word) (s : State) : Out := .next (s.csrWrite 0x120 v)

/-! ## VSETL (R244–R248) -/

/-- Rows with the slot bits from bit `w` on zero (R246). -/
def clipRows (rows : Vector Row 32) (w : Nat) : Vector Row 32 :=
  rows.map (fun r => { r with bits := BitVec.ofNat 8192 (r.bits.toNat % 2 ^ w) })

/-- Take the pending grant (R246). -/
def Strand.takeGrant (t : Strand) : Strand :=
  if t.pend = t.slices then t
  else { t with
    rows := clipRows t.rows (1024 * Nat.min t.pend t.slices)
    slices := t.pend
    laneCount := (t.laneCount + 1) % 2 ^ 32 }

/-- The first successful VSETL clears the rows (R248). -/
def Strand.initRows (t : Strand) : Strand :=
  if t.rowsInit then t else { t with rows := Vector.replicate 32 {}, rowsInit := true }

def execVsetl (d a : BitVec 5) (sew c : BitVec 3) (p : BitVec 1) (r : BitVec 3) (z t : BitVec 2) (s : State) : Out :=
  runOrdered t (fun s =>
    if z ≠ 0 ∨ 5 < sew.toNat ∨ 5 < r.toNat then
      let u := { s.me with sew := 0, repro := false, rm := 0, ill := true, vl := 0 }
      .done ({ s with me := u }.setReg d 0)
    else
      let g := s.me.takeGrant
      let vlmax := 1024 * g.slices / widthOf sew.toNat
      let avl := if a = 0 then vlmax else (s.reg a).toNat
      let vl := Nat.min avl vlmax
      let u := { g with sew := sew.toNat, rc := c.toNat + 1, repro := p == 1, rm := r.toNat, ill := false, vl := vl,
                        vstart := 0, rstart := 0 }
      .done ({ s with me := u.initRows }.setReg d (BitVec.ofNat 64 vl))) s

/-! ## Fences, releases and acquires (R171–R174) -/

/-- Perform the whole scalar store queue, as a fence, release or trap needs it. -/
def State.performAll (s : State) : State := (List.range s.me.ssq.length).foldl (fun s _ => s.performOldest) s

def execFenceSv (t : BitVec 2) (s : State) : Out := runOrdered t (fun s => .done s.performAll) s

/-- Older vector memory instructions are performed when nothing older is left (R337). -/
def execFenceVs (t : BitVec 2) (s : State) : Out := runOrdered t (fun s => .done s) s

def execFenceVv (t : BitVec 2) (s : State) : Out := runOrdered t (fun s => .done s) s

def execRel (scope : BitVec 3) (t : BitVec 2) (s : State) : Out :=
  runOrdered t (fun s =>
    let c := s.clampScope scope.toNat
    .done (c.2.performAll.release c.1)) s

def execAcq (scope : BitVec 3) (t : BitVec 2) (s : State) : Out :=
  runOrdered t (fun s =>
    let c := s.clampScope scope.toNat
    .done (c.2.acquire c.1)) s

/-! ## Watermarks (R167, R374) -/

/-- ACCESS for an index above 255. -/
def wmIndex (s : State) (x : Word) (f : Nat → Eff) : Eff := if 255 < x.toNat then trap00 s causeAccess x else f x.toNat

def State.wmAt (s : State) (m : Nat) : Word := look (s.part s.me.part).wm m 0

def execWmpub (a b : BitVec 5) (t : BitVec 2) (s : State) : Out :=
  runOrdered t (fun s => wmIndex s (s.reg a) (fun m =>
    let v := s.reg b
    let s := s.performAll.release 3
    .done (s.updPart s.me.part (fun p => { p with wm := upd p.wm m 0 (fun x => if x.toNat < v.toNat then v else x) })))) s

def execWmwait (a b : BitVec 5) (t : BitVec 2) (s : State) : Out :=
  runOrdered t (fun s => wmIndex s (s.reg a) (fun m =>
    if (s.wmAt m).toNat < (s.reg b).toNat then .wait s else .done (s.acquire 3))) s

def execWmread (d a : BitVec 5) (t : BitVec 2) (s : State) : Out :=
  runOrdered t (fun s => wmIndex s (s.reg a) (fun m => .done (s.setReg d (s.wmAt m)))) s

/-! ## PARK and WAKE (R352) -/

/-- Strand `id` of the front-end strand's ply, that has not exited. -/
def Strand.mate (t u : Strand) (id : Nat) : Bool :=
  u.part == t.part && u.braid == t.braid && u.stage == t.stage && u.plyId == t.plyId && u.strandId == id

def execWake (d a : BitVec 5) (t : BitVec 2) (s : State) : Out :=
  runOrdered t (fun s =>
    let s := s.performAll.release 1
    let id := (s.reg a).toNat
    if s.everyStrand.any (fun u => s.me.mate u id) then
      .done ((s.mapEvery (fun u => s.me.mate u id) (fun u => { u with wake := true })).setReg d 1)
    else .done (s.setReg d 0)) s

def execPark (d : BitVec 5) (t : BitVec 2) (s : State) : Out :=
  runOrdered t (fun s =>
    if s.me.wake then .done (({ s with me := { s.me with wake := false } }.acquire 1).setReg d 1)
    else .wait { s with me := { s.me with inPark := true } }) s

/-! ## The format context (R62, R376) -/

def execFmtset (d a b : BitVec 5) (t : BitVec 2) (s : State) : Out :=
  runOrdered t (fun s =>
    let i := (s.reg a).toNat
    let x := (s.reg b).toNat
    if i < 23 ∨ 63 < i then .done (s.setReg d 2)
    else if x / 2 ^ 32 ≠ 0 ∨ descValid x = false then .done (s.setReg d 1)
    else .done ((s.updBraid s.me.part s.me.braid (fun b => { b with fmts := put b.fmts i (BitVec.ofNat 19 x) })).setReg d 0)) s

def execFmtget (d a : BitVec 5) (t : BitVec 2) (s : State) : Out :=
  runOrdered t (fun s =>
    let i := (s.reg a).toNat
    let v := if i < 23 then 2 ^ 63 + i
      else if 63 < i then 2 ^ 63 + 255
      else match s.myCtx.fmts.lookup i with
        | some x => x.toNat
        | none => 0
    .done (s.setReg d (BitVec.ofNat 64 v))) s

def execPltset (d a b c : BitVec 5) (t : BitVec 2) (s : State) : Out :=
  runOrdered t (fun s =>
    let x := (s.reg a).toNat
    let y := (s.reg b).toNat
    let v := (s.reg c).toNat
    if 63 < x ∨ 63 < y ∨ 255 < v then .done (s.setReg d 2)
    else
      .done ((s.updBraid s.me.part s.me.braid (fun q =>
        { q with plt := put q.plt (64 * x + y) (BitVec.ofNat 8 (v % 128)) })).setReg d 0)) s

def execPltget (d a b : BitVec 5) (t : BitVec 2) (s : State) : Out :=
  runOrdered t (fun s =>
    let x := (s.reg a).toNat
    let y := (s.reg b).toNat
    let v := if 63 < x ∨ 63 < y then 2 ^ 63 + 255 else s.myCtx.pltAt x y
    .done (s.setReg d (BitVec.ofNat 64 v))) s

end Sys2Proof.Machine
end

