-- ==== Sys2Proof/Machine/Launch.lean ====
section
/-!
DEFINITION. Launch records and LAUNCH (R358–R360), the braid table (R361, R362), placement (R363, R364), stage queues
(R365–R367), the end of stages and braids (R366, R368), rebalancing (R369), BAR (R375), EXIT (R350) and coil fusion (R129).
-/
namespace Sys2Proof.Machine

/-! ## Reading a block of memory at its homes -/

/-- What reading a block finds: its bytes as a little-endian number, a failure, or a stage-2 miss. -/
inductive BlockRes where
  | ok (s : State) (v : Nat)
  | fail (s : State)
  | hold (s : State) (va iseg : Nat)

/-- Read `n` lines from the line at `a`, each at its home; `poisonOk` says that a POISON line is no failure. -/
def State.readLines (w : Walker) (poisonOk : Bool) : Nat → Nat → State → BlockRes
  | 0, _, s => .ok s 0
  | n + 1, a, s =>
    let at_ := if w.own then s.resolveMe a else s.resolve w.vf a
    match (if w.own then s.fixAddr a else s).locate w at_ .read with
    | .fail t _ => .fail t
    | .park t i => .hold t at_ i
    | .ok t l =>
      let h := t.readHome l w.reader
      let cls := classOf h.2.1
      if (cls = 2 ∧ poisonOk = false) ∨ (cls = 4 ∧ l.strict = true) then .fail h.2.2
      else
        match State.readLines w poisonOk n ((a + 128) % 2 ^ 64) h.2.2 with
        | .ok u v => .ok u ((if cls = 4 then 0 else h.1.toNat) + 2 ^ 1024 * v)
        | r => r

/-- Read `n` bytes from `a`. -/
def State.readBlock (s : State) (w : Walker) (poisonOk : Bool) (a n : Nat) : BlockRes :=
  let o := a % 128
  match s.readLines w poisonOk ((o + n + 127) / 128) (a - o) with
  | .ok t v => .ok t (v / 2 ^ (8 * o) % 2 ^ (8 * n))
  | r => r

/-- Bits [lo + w − 1 : lo] at byte offset `off` of a block. -/
def rfld (v off lo w : Nat) : Nat := v / 2 ^ (8 * off + lo) % 2 ^ w

/-! ## Launch records (R358, R359) -/

/-- A stage's descriptor. -/
def stageDesc (r s : Nat) : StageDesc :=
  let o := 0x40 + 32 * s
  { accEnt := rfld r o 0 32, exeEnt := rfld r o 32 32, pairs := rfld r (o + 8) 0 6, exeOnly := rfld r (o + 8) 6 1 == 1
    minPly := rfld r (o + 8) 16 16, maxPly := rfld r (o + 8) 32 16
    inQ := if rfld r (o + 16) 4 1 = 1 then some (rfld r (o + 16) 0 4) else none
    outQ := if rfld r (o + 16) 12 1 = 1 then some (rfld r (o + 16) 8 4) else none
    nPly := rfld r (o + 16) 32 32, wmBind := BitVec.ofNat 64 (rfld r (o + 24) 0 64) &&& 0xFFFFFFFF00007FFF }

/-- The declared stage queues. -/
def queueDescs (r : Nat) : List StageQueue :=
  (List.range 16).filterMap (fun q =>
    let o := 0x140 + 16 * q
    if rfld r (o + 8) 23 1 = 1 then
      some { num := q, qbase := BitVec.ofNat 64 (rfld r o 0 64), cap := rfld r (o + 8) 0 17, src := rfld r (o + 8) 17 3,
             dst := rfld r (o + 8) 20 3, high := rfld r (o + 8) 24 17, low := rfld r (o + 8) 41 17 }
    else none)

def recStages (r : Nat) : List StageDesc := (List.range (rfld r 0 8 3 + 1)).map (stageDesc r)
def recNfmt (r : Nat) : Nat := rfld r 0 15 6
def recFmtPtr (r : Nat) : Nat := rfld r 0x10 0 64
def recPred (r : Nat) : Nat := rfld r 0x18 0 64

/-- A reserved field of the record is nonzero, or the descriptor of an unused stage or queue is. -/
def recReserved (r : Nat) : Bool :=
  rfld r 0 21 43 != 0 || rfld r 0x20 8 24 != 0 || rfld r 0x28 0 192 != 0 ||
  (List.range 8).any (fun s =>
    let o := 0x40 + 32 * s
    if s ≤ rfld r 0 8 3 then
      rfld r (o + 8) 7 9 != 0 || rfld r (o + 8) 48 16 != 0 || rfld r (o + 16) 5 3 != 0 || rfld r (o + 16) 13 19 != 0
        || rfld r (o + 24) 15 17 != 0
    else rfld r o 0 256 != 0) ||
  (List.range 16).any (fun q =>
    let o := 0x140 + 16 * q
    if rfld r (o + 8) 23 1 = 1 then rfld r (o + 8) 58 6 != 0 else rfld r o 0 128 != 0)

/-- An entry offset that forms no valid code address of an aligned image (R13). -/
def badEntry (o : Nat) : Bool := o % 4 != 0 || o / 4 % 16 == 0

/-- R359. -/
def malformedRecord (r : Nat) (descs : List Nat) (issued : Nat) : Bool :=
  let st := recStages r
  let qs := queueDescs r
  rfld r 0 0 8 != 1 || recReserved r || rfld r 8 0 64 % 64 != 0 || recFmtPtr r % 4 != 0
    || decide (41 < recNfmt r) || descs.any (fun d => !descValid d)
    || st.any (fun d => badEntry d.exeEnt || (!d.exeOnly && badEntry d.accEnt) || d.pairs == 0 || decide (32 < d.pairs)
        || d.maxPly == 0 || decide (d.maxPly < d.minPly) || (d.inQ.isNone && (d.minPly == 0 || d.nPly == 0)))
    || qs.any (fun q => decide (q.dst ≤ q.src) || decide (st.length ≤ q.dst) || q.cap == 0 || decide (65536 < q.cap)
        || decide (q.cap < q.high) || decide (q.high ≤ q.low) || q.qbase.toNat % 128 != 0
        || (st[q.src]?).all (fun d => d.outQ != some q.num) || (st[q.dst]?).all (fun d => d.inQ != some q.num))
    || st.zipIdx.any (fun d =>
        (d.1.inQ.any (fun n => !qs.any (fun q => q.num == n && q.dst == d.2))) ||
        (d.1.outQ.any (fun n => !qs.any (fun q => q.num == n && q.src == d.2))))
    || (rfld r 0 14 1 == 1 && recPred r == 0) || decide (issued < recPred r)

/-- The braid of a well-formed record (R361). -/
def braidOf (r : Nat) (descs : List Nat) (no vf : Nat) : Braid :=
  { no := no, vf := vf, image := BitVec.ofNat 64 (rfld r 8 0 64), fuse := rfld r 0 11 1 == 1, prio := rfld r 0 12 2
    early := rfld r 0 14 1 == 1, pred := recPred r, predWm := rfld r 0x20 0 8, predBnd := BitVec.ofNat 64 (rfld r 0x20 32 32)
    stages := recStages r, queues := queueDescs r
    fmts := descs.zipIdx.map (fun d => (23 + d.2, BitVec.ofNat 19 d.1)) }

/-- Table of 2^63 | status. -/
def launchStatus (n : Nat) : Word := BitVec.ofNat 64 (2 ^ 63 + n)

/-- LAUNCH once its record has been read (R360); also the host's (R403). -/
def State.launch (s : State) (part vf r : Nat) (descs : List Nat) : Word × State :=
  let p := s.part part
  if s.anchor.stage < 3 then (launchStatus 4, s)
  else if malformedRecord r descs p.braidCtr then (launchStatus 2, s)
  else
    match (List.range 64).find? (fun i => (p.braids.lookup i).isNone) with
    | none => (launchStatus 3, s)
    | some slot =>
      let n := p.braidCtr + 1
      (BitVec.ofNat 64 n,
       s.updPart part (fun p => { p with braidCtr := n, braids := put p.braids slot (braidOf r descs n vf) }))

/-- The record at an address and its descriptors: the whole of LAUNCH's reads. -/
inductive RecordRes where
  | ok (s : State) (r : Nat) (descs : List Nat)
  | fail (s : State)
  | hold (s : State) (va iseg : Nat)

def State.readRecord (s : State) (w : Walker) (a : Nat) : RecordRes :=
  if a % 64 ≠ 0 then .fail s
  else match s.readBlock w false a 576 with
    | .fail t => .fail t
    | .hold t v i => .hold t v i
    | .ok t r =>
      if recNfmt r = 0 then .ok t r []
      else match t.readBlock w false (recFmtPtr r) (4 * recNfmt r) with
        | .fail u => .fail u
        | .hold u v i => .hold u v i
        | .ok u x => .ok u r ((List.range (recNfmt r)).map (fun i => rfld x (4 * i) 0 32))

def execLaunch (d a : BitVec 5) (t : BitVec 2) (s : State) : Out :=
  runOrdered t (fun s =>
    let s := s.performAll.release 3
    match s.readRecord { s.walker with own := true } (s.reg a).toNat with
    | .fail u => .done (u.setReg d (launchStatus 1))
    | .hold u v i => .wait (u.holdMe v i)
    | .ok u r descs =>
      let x := u.launch u.me.part u.me.vf r descs
      .done (x.2.setReg d x.1)) s

/-! ## Braid start (R361, R362, R364) -/

/-- A waiting braid's condition. -/
def Part.ready (p : Part) (b : Braid) : Bool :=
  b.pred == 0 ||
    (if b.early then decide (b.predBnd.toNat ≤ (look p.wm b.predWm 0).toNat) else !p.braids.any (fun x => x.2.no == b.pred))

/-- `n` further plies of a stage, queued for placement. -/
def Braid.addPlies (b : Braid) (stage n : Nat) : Braid :=
  let first := look b.nextPly stage 0
  { b with
    plies := b.plies ++ (List.range n).map (fun i => { stage := stage, id := first + i })
    nextPly := put b.nextPly stage (first + n) }

/-- Start a braid: MINPLY plies of each stage are queued for placement (R364). -/
def Braid.start (b : Braid) : Braid :=
  b.stages.zipIdx.foldl (fun b d =>
    b.addPlies d.2 (if d.1.inQ.isNone then Nat.min d.1.minPly d.1.nPly else d.1.minPly)) { b with running := true }

/-- BRAID_START: a WAITING braid whose condition holds starts. -/
def State.startBraid (s : State) (part slot : Nat) : State :=
  match s.braidOf? part slot with
  | some b => if !b.running && (s.part part).ready b then s.updBraid part slot Braid.start else s
  | none => s

def execBraidStart (part slot : Nat) (s : State) : Out := .next (s.startBraid part slot)

/-! ## The end of stages and braids (R366, R368) -/

/-- A queue has ended. -/
def Braid.queueEnded (b : Braid) (q : StageQueue) : Bool := b.ended.contains q.src && q.recs.isEmpty

/-- A stage's condition for ending (R366). -/
def Braid.stageDone (b : Braid) (st : Nat) : Bool :=
  b.running && !b.ended.contains st && (match b.stages[st]? with
    | none => false
    | some d =>
      let plies := b.plies.filter (fun p => p.stage == st)
      match d.inQ with
      | none => plies.isEmpty && decide (d.nPly ≤ look b.nextPly st 0)
      | some n => plies.all (fun p => p.strands.isEmpty) && b.queues.any (fun q => q.num == n && b.queueEnded q))

/-- End a stage: plies of it still waiting for a place are dropped, as none is created any more (R364). -/
def Braid.endStage (b : Braid) (st : Nat) : Braid :=
  if b.stageDone st then { b with ended := b.ended ++ [st], plies := b.plies.filter (fun p => p.stage != st) } else b

/-- Every stage has ended. -/
def Braid.complete (b : Braid) : Bool := b.running && (List.range b.stages.length).all (fun st => b.ended.contains st)

/-- Cores of a partition's coils, and of those whose plies still have to move. -/
def Part.cores (p : Part) : List Nat := ((p.coils ++ p.parkedCoils).map (fun c => (List.range 8).map (fun i => 8 * c + i))).flatten

/-- Complete a braid: its writes are released at part scope by every core of the partition that may hold them (R150, R368),
and its entry becomes free. -/
def State.completeBraid (s : State) (part slot : Nat) : State :=
  match s.braidOf? part slot with
  | none => s
  | some b =>
    if b.complete then
      ((s.part part).cores.foldl (fun s c => s.writeBackCore c) s).updPart part (fun p => { p with braids := del p.braids slot })
    else s

/-- End every stage of a braid that has ended, in ascending order, and the braid with its last. -/
def State.settleBraid (s : State) (part slot : Nat) : State :=
  (s.updBraid part slot (fun b => (List.range b.stages.length).foldl Braid.endStage b)).completeBraid part slot

def execStageEnd (part slot stage : Nat) (s : State) : Out := .next (s.updBraid part slot (fun b => b.endStage stage))

def execBraidComplete (part slot : Nat) (s : State) : Out := .next (s.completeBraid part slot)

/-! ## Coil fusion (R129) -/

/-- A coil holds a resident strand. -/
def State.coilBusy (s : State) (coil : Nat) : Bool := s.strands.any (fun t => coilOf t.core == coil)

/-- Write a core's L1 back and invalidate it. -/
def State.flushL1 (s : State) (core : Nat) : State := (s.writeBackCore core).updCore core (fun c => { c with l1 := [] })

/-- Change an empty coil between unfused and fused: its L1s are written back and invalidated. -/
def State.setFusion (s : State) (coil : Nat) (fuse : Bool) : State :=
  if s.coilBusy coil ∨ (s.coil coil).fused = fuse then s
  else
    let s := (List.range 8).foldl (fun s i => s.flushL1 (8 * coil + i)) s
    { s with coils := upd s.coils coil {} (fun c => { c with fused := fuse }) }

def execCoilFusionChange (coil : Nat) (fuse : Bool) (s : State) : Out := .next (s.setFusion coil fuse)

/-! ## Placement (R363) -/

/-- Pair k of a core is free: neither context holds a strand, and no ply keeps its ACC context empty (EXEONLY frees it with
its EXE strand). -/
def State.pairFree (s : State) (core k : Nat) : Bool := !s.strands.any (fun t => t.core == core && t.ctx / 2 == k)

/-- Free pairs of a coil. -/
def State.freePairs (s : State) (coil : Nat) : Nat :=
  ((List.range 32).filter (fun i => s.pairFree (8 * coil + i / 4) (i % 4))).length

/-- The coil can take a ply of `n` pairs of a braid with this FUSE bit: fused as asked, or empty. -/
def State.canTake (s : State) (fuse : Bool) (n coil : Nat) : Bool :=
  decide (n ≤ s.freePairs coil) && ((s.coil coil).fused == fuse || !s.coilBusy coil)

/-- Of some coils, TFCAST.OVER only if there is no other, then the lowest forecast, then the lowest number (R363). -/
def State.coolest (s : State) (all : List Nat) : Option Nat :=
  let cool := all.filter (fun c => !(s.coil c).overLimit)
  let pool := if cool.isEmpty then all else cool
  pool.foldl (fun best c => match best with
    | none => some c
    | some b =>
      let tb := (s.coil b).temp.toNat
      let tc := (s.coil c).temp.toNat
      if tc < tb ∨ (tc = tb ∧ c < b) then some c else some b) none

/-- The coil that takes a ply of `n` pairs. -/
def State.chooseCoil (s : State) (part : Nat) (fuse : Bool) (n : Nat) : Option Nat :=
  s.coolest ((s.part part).coils.filter (fun c => s.canTake fuse n c))

/-- Resident plies of a stage. -/
def Braid.resident (b : Braid) (st : Nat) : List Ply := b.plies.filter (fun p => p.stage == st && p.placed)

/-- A stage has a resident ply that issues. -/
def Braid.staffed (b : Braid) (st : Nat) : Bool := (b.resident st).any (fun p => !p.parked)

/-- A stage's output queue is not full. -/
def Braid.room (b : Braid) (d : StageDesc) : Bool :=
  d.outQ.all (fun m => b.queues.any (fun q => q.num == m && decide (q.recs.length < q.cap)))

/-- Park or unpark plies. -/
def Braid.setParked (b : Braid) (p : Ply → Bool) (on : Bool) : Braid :=
  { b with plies := b.plies.map (fun y => if p y then { y with parked := on } else y) }

/-- What R371 promises a stage whose input has records, or that has plies left, while its output is not full: a ply that issues,
one of its parked plies, one that waits for its place, or a new one. -/
def Braid.staff (b : Braid) (st : Nat) (d : StageDesc) (fresh : Bool) : Braid :=
  if b.staffed st || !b.room d then b
  else match (b.resident st).find? (fun p => p.parked) with
    | some y => b.setParked (fun p => p.stage == st && p.id == y.id) false
    | none => if fresh && !b.plies.any (fun p => p.stage == st) then b.addPlies st 1 else b

/-- What the dispatcher does by itself: the further plies of a source stage (R364), and the progress rule (R371). -/
def Braid.refill (b : Braid) : Braid :=
  if !b.running then b
  else b.stages.zipIdx.foldl (fun b d =>
    let st := d.2
    let here := (b.plies.filter (fun p => p.stage == st)).length
    if b.ended.contains st then b
    else match d.1.inQ with
      | none =>
        if look b.nextPly st 0 < d.1.nPly then
          if here < d.1.maxPly then b.addPlies st 1 else b.staff st d.1 false
        else b
      | some n => if b.queues.any (fun q => q.num == n && !q.recs.isEmpty) then b.staff st d.1 true else b) b

/-- A waiting ply may take a place: its stage has fewer than MAXPLY resident plies, and its input has not ended (R364, R369). -/
def Braid.mayPlace (b : Braid) (x : Ply) : Bool :=
  !x.placed && (match b.stages[x.stage]? with
    | none => false
    | some d => decide ((b.resident x.stage).length < d.maxPly)
      && d.inQ.all (fun n => !b.queues.any (fun q => q.num == n && b.queueEnded q)))

/-- The waiting ply to serve first, of a resident function's braid: priority class, braid number, stage, PLYID. -/
def Part.nextPly? (p : Part) (resident : Nat → Bool) : Option (Nat × Braid × Ply) :=
  let all := ((p.braids.filter (fun b => resident b.2.vf)).map (fun b => (b.2.plies.filter b.2.mayPlace).map (fun x => (b.1, b.2, x)))).flatten
  let key (x : Nat × Braid × Ply) : Nat := ((x.2.1.prio * 2 ^ 64 + x.2.1.no) * 8 + x.2.2.stage) * 2 ^ 32 + x.2.2.id
  all.foldl (fun best x => match best with
    | none => some x
    | some b => if key x < key b then some x else some b) none

/-- The grant of a new strand (R363, R369). -/
def State.newGrant (s : State) (part slot : Nat) (b : Braid) (st : Nat) : Nat :=
  let ps := ((s.strands.filter (fun t => t.part == part && t.braid == slot && t.stage == st)).map (fun t => t.pend))
  if b.lowered.contains st then ps.foldl Nat.min 8 else 8

/-- A new strand (R247, R363, R380). -/
def State.newStrand (s : State) (part slot : Nat) (b : Braid) (d : StageDesc) (ply : Ply) (i role core k : Nat) : Strand :=
  let vec := match b.trapVec with
    | some v => v
    | none => match s.vf? b.vf with
      | some v => v.trapVec
      | none => 0
  let g := s.newGrant part slot b ply.stage
  { live := true, core := core, ctx := 2 * k + role, part := part, vf := b.vf, strandId := 2 * i + role, plyId := ply.id
    stage := ply.stage, braid := slot, braidNo := BitVec.ofNat 64 b.no, role := role, image := b.image
    pc := b.image + BitVec.ofNat 64 (if role = 0 then d.accEnt else d.exeEnt), wmBind := d.wmBind, trapVec := vec
    slices := g, pend := g }

/-- Create the strands of pair i of a ply at (core, k), which have issued on no unit (R370); the core acquires at part scope
(R362). -/
def State.placePair (s : State) (part slot : Nat) (b : Braid) (d : StageDesc) (ply : Ply) (i : Nat) (at_ : Nat × Nat) : State :=
  let core := at_.1
  let acc := if d.exeOnly then [] else [s.newStrand part slot b d ply i 0 core at_.2]
  let exe := s.newStrand part slot b d ply i 1 core at_.2
  let s := s.setPair (4 * core + at_.2) { qcfg := if d.exeOnly then 0x93 else 0 }
  let s := { s with others := s.others ++ acc ++ [exe] }
  ((s.levelCores core).foldl (fun s c => s.updCore c Core.dropClean) s).refreshTlb core b.vf

/-- The pairs named are distinct free pairs of the coil, one for each pair of the ply. -/
def State.goodPairs (s : State) (coil n : Nat) (at_ : List (Nat × Nat)) : Bool :=
  at_.length == n && at_.Nodup && at_.all (fun x => coilOf x.1 == coil && decide (x.2 < 4) && s.pairFree x.1 x.2)

/-- PLY_PLACEMENT: the first waiting ply is placed on the coil R363 chooses, at the pairs the dispatcher names. -/
def State.placePly (s : State) (part : Nat) (at_ : List (Nat × Nat)) : State :=
  let s := s.updPart part (fun p => { p with braids := p.braids.map (fun b => (b.1, b.2.refill)) })
  let resident (v : Nat) : Bool := match s.vf? v with
    | some x => x.st == .resident
    | none => false
  match (s.part part).nextPly? resident with
  | none => s
  | some (slot, b, ply) =>
    match b.stages[ply.stage]? with
    | none => s
    | some d =>
      match s.chooseCoil part b.fuse d.pairs with
      | none => s
      | some coil =>
        if s.goodPairs coil d.pairs at_ then
          let s := s.setFusion coil b.fuse
          let s := at_.zipIdx.foldl (fun s x => s.placePair part slot b d ply x.2 x.1) s
          let ids := ((List.range d.pairs).map (fun i => if d.exeOnly then [2 * i + 1] else [2 * i, 2 * i + 1])).flatten
          s.updBraid part slot (fun b => { b with plies := b.plies.map (fun p =>
            if p.stage = ply.stage ∧ p.id = ply.id then { p with placed := true, strands := ids } else p) })
        else s

def execPlyPlacement (part : Nat) (at_ : List (Nat × Nat)) (s : State) : Out := .next (s.placePly part at_)

/-! ## Barriers (R375) -/

/-- A strand of a ply. -/
def Strand.ofPly (t : Strand) (part slot stage ply : Nat) : Bool :=
  t.part == part && t.braid == slot && t.stage == stage && t.plyId == ply

/-- Every strand of the ply that has not exited waits at barrier n in the current generation. -/
def State.barFull (s : State) (part slot stage ply n : Nat) : Bool :=
  let ts := s.everyStrand.filter (fun t => t.ofPly part slot stage ply)
  !ts.isEmpty && ts.all (fun t => t.barAt == some n)

/-- Complete a barrier in all its strands; its generation advances. -/
def State.completeBar (s : State) (part slot stage ply n : Nat) : State :=
  if s.barFull part slot stage ply n then
    (s.mapEvery (fun t => t.ofPly part slot stage ply) (fun t => { t with barAt := some (16 + n) })).updBraid part slot (fun b =>
      { b with plies := b.plies.map (fun p =>
        if p.stage = stage ∧ p.id = ply then { p with barGen := upd p.barGen n 0 (fun g => g + 1) } else p) })
  else s

def execBarrierComplete (part slot stage ply n : Nat) (s : State) : Out :=
  .next (if n < 16 then s.completeBar part slot stage ply n else s)

/-- BAR #n: a release at coil scope on arrival, an acquire at coil scope on completion. -/
def execBar (imm : BitVec 12) (t : BitVec 2) (s : State) : Out :=
  runOrdered t (fun s =>
    let n := imm.toNat
    let arrived := s.me.barAt == some n || s.me.barAt == some (16 + n)
    let s := if arrived then s else
      let s := s.performAll.release 1
      { s with me := { s.me with barAt := some n } }
    let s := s.completeBar s.me.part s.me.braid s.me.stage s.me.plyId n
    if s.me.barAt = some (16 + n) then .done ({ s with me := { s.me with barAt := none } }.acquire 1) else .wait s) s

/-! ## Stage queues (R365, R367) -/

/-- QUEUE_MISUSE of a stage queue. -/
def stageMisuse (s : State) (reason : Nat) (c : Word) : Eff := trapI s causeQueue (queueVal (c.toNat % 16) reason 2 c)

/-- The declared queue that s[sc] names, in the strand's braid. -/
def withStageQueue (c : Word) (f : Braid → StageQueue → Eff) (s : State) : Eff :=
  if 16 ≤ c.toNat then stageMisuse s 5 c
  else match s.braidOf? s.me.part s.me.braid with
    | none => stageMisuse s 1 c
    | some b => match b.queues.find? (fun q => q.num == c.toNat) with
      | none => stageMisuse s 1 c
      | some q => f b q

/-- Replace a queue's records and note the water marks crossed (R369). -/
def State.setRecs (s : State) (q : StageQueue) (recs : List (Word × Word)) : State :=
  let n := q.recs.length
  let m := recs.length
  let ev := (if n + 1 = q.high ∧ m = q.high then [(0, q.num)] else [])
    ++ (if n < m ∧ m = q.cap then [(1, q.num)] else []) ++ (if n = q.low + 1 ∧ m = q.low then [(2, q.num)] else [])
  s.updBraid s.me.part s.me.braid (fun b =>
    { b with
      queues := b.queues.map (fun x => if x.num = q.num then { x with recs := recs } else x)
      crossed := b.crossed ++ ev })

def execSqpush (a b c : BitVec 5) (t : BitVec 2) (s : State) : Out :=
  runOrdered t (fun s => withStageQueue (s.reg c) (fun _ q =>
    if q.src ≠ s.me.stage then stageMisuse s 1 (s.reg c)
    else
      let s := s.performAll.release 3
      if q.cap ≤ q.recs.length then .wait s else .done (s.setRecs q (q.recs ++ [(s.reg a, s.reg b)]))) s) s

def execSqpop (d c : BitVec 5) (t : BitVec 2) (s : State) : Out :=
  runOrdered t (fun s => withStageQueue (s.reg c) (fun b q =>
    if q.dst ≠ s.me.stage then stageMisuse s 1 (s.reg c)
    else match q.recs with
      | [] =>
        if b.queueEnded q then
          let s := (s.setReg d (BitVec.allOnes 64)).setReg (d + 1) 0
          .done { s with me := { s.me with sqEnd := s.me.sqEnd ||| BitVec.ofNat 16 (2 ^ q.num) } }
        else .wait s
      | r :: rest =>
        let s := (s.setRecs q rest).settleBraid s.me.part s.me.braid
        .done ((((s.setReg d r.1).setReg (d + 1) r.2)).acquire 3)) s) s

def execSqstat (d c : BitVec 5) (t : BitVec 2) (s : State) : Out :=
  runOrdered t (fun s => withStageQueue (s.reg c) (fun b q =>
    .done (s.setReg d (BitVec.ofNat 64 (q.recs.length % 2 ^ 17 + (b.queueEnded q).toNat * 2 ^ 17
      + (q.src == s.me.stage).toNat * 2 ^ 18 + (q.dst == s.me.stage).toNat * 2 ^ 19)))) s) s

/-! ## Rebalancing (R369) -/

/-- Take a noted crossing, and act on its queue's braid; a crossing not noted is no event. REBAL of the stage named counts
actions applied (R377): none where the action applies to nothing. -/
def State.rebalance (s : State) (part slot ev q : Nat) (act : State → Braid → StageQueue → Option (Nat × State)) : State :=
  match s.braidOf? part slot with
  | none => s
  | some b =>
    if b.crossed.contains (ev, q) then
      match b.queues.find? (fun x => x.num == q) with
      | none => s
      | some x =>
        let s := s.updBraid part slot (fun b => { b with crossed := b.crossed.erase (ev, q) })
        match act s b x with
        | none => s
        | some r => r.2.updBraid part slot (fun b => { b with rebal := upd b.rebal r.1 0 (fun n => Nat.min (n + 1) 0xFFFFFFFF) })
    else s

/-- RISE: the TO stage gains a ply, if it may have one and a coil can take it. -/
def execRebalanceRise (part slot q : Nat) (s : State) : Out :=
  .next (s.rebalance part slot 0 q (fun s b x =>
    match b.stages[x.dst]? with
    | none => none
    | some d =>
      if (b.resident x.dst).length < d.maxPly ∧ (s.chooseCoil part b.fuse d.pairs).isSome = true ∧ b.ended.contains x.dst = false
          ∧ b.queueEnded x = false then
        some (x.dst, s.updBraid part slot (fun b => b.addPlies x.dst 1))
      else none))

/-- A ply stands parked with a coil that was taken from the partition (R398). -/
def State.plyAway (s : State) (part slot : Nat) (p : Ply) : Bool :=
  s.everyStrand.any (fun t => t.ofPly part slot p.stage p.id && (s.part part).parkedCoils.contains (coilOf t.core))

/-- The ply that FULL parks: the last resident and unparked one, while another stays; `away` names plies parked with their coil. -/
def Braid.parkable (b : Braid) (st : Nat) (away : Ply → Bool) : Option Ply :=
  let run := (b.resident st).filter (fun p => !p.parked && !away p)
  if run.length ≤ 1 then none else run.getLast?

/-- The policy of a function permits a kind of pre-emption (Table 1 of R402): 0 lane reclaim, 1 queue squash, 2 context swap,
3 eviction. -/
def State.permits (s : State) (vf kind : Nat) : Bool :=
  match s.vf? vf with
  | some v => v.policy.preempt.getLsbD kind
  | none => false

/-- FULL: the grants of the FROM stage's strands are halved, where the function's policy permits lane reclaim (R402); when every one is 1
already, a ply is parked. -/
def execRebalanceFull (part slot q : Nat) (s : State) : Out :=
  .next (s.rebalance part slot 1 q (fun s b x =>
    let mine (t : Strand) : Bool := t.part == part && t.braid == slot && t.stage == x.src
    if (s.everyStrand.filter mine).all (fun t => t.pend == 1) then
      (b.parkable x.src (s.plyAway part slot)).map (fun y =>
        (x.src, s.updBraid part slot (fun b => b.setParked (fun p => p.stage == x.src && p.id == y.id) true)))
    else if !s.permits b.vf 0 then none
    else
      some (x.src, (s.mapEvery mine (fun t => { t with pend := Nat.max 1 (t.pend / 2) })).updBraid part slot
        (fun b => { b with lowered := if b.lowered.contains x.src then b.lowered else b.lowered ++ [x.src] }))))

/-- DRAIN: the FROM stage's parked plies go on, and its grants return to 8 slices. -/
def execRebalanceDrain (part slot q : Nat) (s : State) : Out :=
  .next (s.rebalance part slot 2 q (fun s b x =>
    let mine (t : Strand) : Bool := t.part == part && t.braid == slot && t.stage == x.src
    if b.lowered.contains x.src ∨ b.plies.any (fun p => p.stage == x.src && p.parked) then
      let s := if b.lowered.contains x.src then s.mapEvery mine (fun t => { t with pend := 8 }) else s
      some (x.src, s.updBraid part slot (fun b =>
        { b.setParked (fun p => p.stage == x.src) false with lowered := b.lowered.erase x.src }))
    else none))

/-! ## EXIT (R350) -/

/-- Free a strand's context: it closes what it writes, leaves its ply, and barriers and stages settle without it. -/
def State.freeStrand (s : State) (u : Strand) : State :=
  let p := s.pair u.pairNo
  let s := s.setPair u.pairNo { p with qcfg := p.qcfg ||| u.closable }
  let gone (t : Strand) : Bool := t.core == u.core && t.ctx == u.ctx
  let s := { s with me := if gone s.me then { s.me with live := false, links := [] } else s.me
                    others := s.others.filter (fun t => !gone t) }
  let leave (p : Ply) : Ply := if p.stage = u.stage ∧ p.id = u.plyId then { p with strands := p.strands.erase u.strandId } else p
  let s := s.updBraid u.part u.braid (fun b => { b with plies := (b.plies.map leave).filter (fun p => !(p.placed && p.strands.isEmpty)) })
  let s := (List.range 16).foldl (fun s n => s.completeBar u.part u.braid u.stage u.plyId n) s
  s.settleBraid u.part u.braid

/-- EXIT waits for older work and for its engine commands; a FAULTED one traps ENGINE_FAULT. -/
def execExit (t : BitVec 2) (s : State) : Out :=
  runOrdered (t &&& 1) (fun s =>
    let n := s.tokens s.me s.me.sigF
    let inc := s.incomplete s.me
    if t.getLsbD 1 && s.fifoClosed s.me s.me.sigF then trapI s causeQueue (queueVal s.me.sigF 2 1 0)
    else match inc.find? (fun n => s.jState s.me n == 5 || s.jState s.me n == 7) with
      | some k => trapI s causeEngine (BitVec.ofNat 64 k)
      | none =>
        if !inc.isEmpty || (t.getLsbD 1 && decide (32 ≤ n)) then .wait { s with me := { s.me with engWait := inc } }
        else
          let s := (if t.getLsbD 1 then s.setTokens s.me.sigF (n + 1) else s).performAll
          .done (s.freeStrand s.me)) s

end Sys2Proof.Machine
end

