-- ==== Sys2Proof/Machine/Services.lean ====
section
/-!
DEFINITION. ANCALL and its services (R353): buffer-map entries (R223) and the opening, leaving and spare joining of
collective groups (R324, R327).
-/
namespace Sys2Proof.Machine

/-! ## The argument block -/

/-- Give a status and acquire at part scope. -/
def ancallReturn (d : BitVec 5) (status : Nat) (s : State) : Eff := .done (((s.acquire 3)).setReg d (BitVec.ofNat 64 status))

/-- Hold the front end at an access of the Anchor's, for a service (R353). -/
def State.holdForAnchor (s : State) (va iseg : Nat) : State :=
  let t := s.holdMe va iseg
  { t with me := { t.me with anchorHold := true } }

/-- Run a service on the bytes of its argument block; status 4 when the block cannot be read. `more` says how many bytes
follow the first `n`. -/
def ancall (d a : BitVec 5) (n : Nat) (more : Nat → Nat) (serve : Nat → State → Eff) (s : State) : Eff :=
  let addr := (s.reg a).toNat
  let s := s.performAll.release 3
  if addr % 64 ≠ 0 then ancallReturn d 4 s
  else
    match s.readBlock { s.walker with own := true } true addr n with
    | .fail t => ancallReturn d 4 t
    | .hold t va i => .wait (t.holdForAnchor va i)
    | .ok t v =>
      if more v = 0 then serve v t
      else match t.readBlock { t.walker with own := true } true addr (n + more v) with
        | .fail t => ancallReturn d 4 t
        | .hold t va i => .wait (t.holdForAnchor va i)
        | .ok t v => serve v t

/-! ## Buffer map -/

/-- BUFDEF. -/
def execAncallBufdef (d a : BitVec 5) (t : BitVec 2) (s : State) : Out :=
  runOrdered t (ancall d a 26 (fun _ => 0) (fun v s =>
    let h := rfld v 0 0 64
    let base := rfld v 8 0 64
    let alt := rfld v 16 0 64
    let segs := rfld v 24 0 16
    let other := match (s.part s.me.part).bufs.lookup h with
      | some b => b.vf != s.me.vf
      | none => false
    if 255 < h ∨ base % 2 ^ 18 ≠ 0 ∨ alt % 2 ^ 18 ≠ 0 ∨ segs = 0 ∨ other = true then ancallReturn d 3 s
    else
      ancallReturn d 0 (s.updPart s.me.part (fun p =>
        { p with bufs := put p.bufs h { base := base, alt := alt, segs := segs, front := false, vf := s.me.vf } })))) s

/-- BUFDROP. -/
def execAncallBufdrop (d a : BitVec 5) (t : BitVec 2) (s : State) : Out :=
  runOrdered t (ancall d a 8 (fun _ => 0) (fun v s =>
    let h := rfld v 0 0 64
    let other := match (s.part s.me.part).bufs.lookup h with
      | some b => b.vf != s.me.vf
      | none => false
    if 255 < h ∨ other = true then ancallReturn d 3 s
    else ancallReturn d 0 (s.updPart s.me.part (fun p => { p with bufs := del p.bufs h })))) s

/-- Any other service number. -/
def execAncallOther (d a : BitVec 5) (imm : BitVec 12) (t : BitVec 2) (s : State) : Out :=
  runOrdered t (fun s => let _ := (a, imm); ancallReturn d 1 (s.performAll.release 3)) s

/-! ## Collective groups -/

def State.group? (s : State) (part g : Nat) : Option Group := (s.part part).groups.lookup g

def State.updGroup (s : State) (part g : Nat) (f : Group → Group) : State :=
  match s.group? part g with
  | some x => s.updPart part (fun p => { p with groups := put p.groups g (f x) })
  | none => s

def State.send (s : State) (m : Sent) : State := { s with outbox := s.outbox ++ [m] }

/-- A member's GRPOPEN as another's entry takes it: agreeing members are counted, and the group is active when all have
opened it; a member that disagrees ends the joining (R353). -/
def Part.opened (p : Part) (g : Nat) (m : MemberMsg) : Part :=
  match m, p.groups.lookup g with
  | .opened rank order tmo members, some x =>
    if x.gstate ≠ 2 then p
    else if x.order = order ∧ x.tmo = tmo ∧ x.members = members ∧ rank < members.length then
      let by_ := if x.openedBy.contains rank then x.openedBy else rank :: x.openedBy
      let all := (List.range members.length).all (fun r => by_.contains r)
      let y := if all then { x with openedBy := by_, gstate := 1, gen := 1, seq := 0, liveSet := List.range members.length }
        else { x with openedBy := by_ }
      { p with groups := put p.groups g y }
    else { p with groups := del p.groups g }
  | .opened .., none => { p with joins := p.joins ++ [(g, m)] }
  | .spareJoined .., _ => p
  | .spareWanted .., _ => p
  | .failed .., _ => p

/-- The donor's log, which a spare of the group has still to write to its own (R327). -/
def Part.logToCopy (p : Part) (g : Nat) : Option (List (Nat × (Line × Tag))) :=
  p.joins.findSome? (fun j => match j.2 with
    | .spareJoined _ _ _ _ _ _ _ _ log => if j.1 = g then some log else none
    | _ => none)

/-- The first of the segments from an address on that misses in stage 2, with its intermediate segment, after translating them. -/
def segsMiss (va : Nat) : Nat → State → Option (Nat × Nat) × State
  | 0, s => (none, s)
  | n + 1, s => match s.locate s.walker (va % 2 ^ 64) .write with
    | .park t i => (some (va, i), t)
    | .ok t _ => segsMiss (va / 2 ^ 18 * 2 ^ 18 + 2 ^ 18) n t
    | .fail t _ => segsMiss (va / 2 ^ 18 * 2 ^ 18 + 2 ^ 18) n t

/-- Write lines at an address, each with its tag, where its translation permits (assumption 18). -/
def State.writeLog (s : State) (base : Nat) (ls : List (Nat × (Line × Tag))) : State :=
  ls.foldl (fun s x =>
    let a := (base + x.1) % 2 ^ 64
    match s.locate s.walker a .write with
    | .ok t l =>
      let w : Write := { data := x.2.1, mask := fullMask, tag := x.2.2, typed := true, width := 64 }
      let r := t.storeThrough t.me.core l w t.me.pm t.reader (BitVec.ofNat 64 a)
      r.1.getD r.2
    | _ => s) s

/-- Give the status of a joining that has ended, or wait for the other members. A spare first copies the donor's whole log into its
own, 1 MiB from LOGBASE on (R327), and waits for a segment of it that misses in stage 2 (R109, R116). -/
def joinStatus (d : BitVec 5) (g : Nat) (s : State) : Eff :=
  let ended (n : Nat) (s : State) : Eff := ancallReturn d n { s with me := { s.me with xseq := none } }
  match s.group? s.me.part g with
  | none => ended 3 s
  | some x =>
    if x.gstate ≠ 1 then .wait s
    else match (s.part s.me.part).logToCopy g with
      | none => ended 0 s
      | some log =>
        let base := x.logBase.toNat
        match segsMiss base 5 s with
        | (some (va, i), t) => .wait (t.holdForAnchor va i)
        | (none, t) =>
          let u := t.writeLog base ((List.range 8192).map (fun i => (128 * i, look log i (0, zeroTag))))
          ended 0 (u.updPart u.me.part (fun p => { p with joins := p.joins.filter (fun j => j.1 != g) }))

/-- A collective group's call, refused until start-up stage 2 has completed (R426). -/
def groupCall (d : BitVec 5) (s : State) (f : State → Eff) : Eff :=
  if s.anchor.stage < 4 then ancallReturn d 3 (s.performAll.release 3) else f s

/-- GRPOPEN: the entry is joining until every member has opened it alike. -/
def execGrpopen (d a : BitVec 5) (t : BitVec 2) (s : State) : Out :=
  runOrdered t (fun s =>
    match s.me.xseq with
    | some g => joinStatus d g s
    | none => groupCall d s (
      ancall d a 32 (fun v => 8 * (if rfld v 2 0 16 ≤ 144 then rfld v 2 0 16 else 0)) (fun v s =>
        let g := rfld v 0 0 8
        let order := rfld v 1 0 8
        let n := rfld v 2 0 16
        let tmo := rfld v 4 0 32
        let base := rfld v 8 0 64
        let rank := rfld v 16 0 16
        if 63 < g ∨ 1 < order ∨ n = 0 ∨ 144 < n ∨ tmo < 10 ∨ 1000000 < tmo ∨ 2 ^ 56 ≤ base ∨ n ≤ rank
            ∨ (s.group? s.me.part g).isSome = true then ancallReturn d 3 s
        else
          let members := (List.range n).map (fun i => BitVec.ofNat 64 (rfld v (32 + 8 * i) 0 64))
          let msg := MemberMsg.opened rank order tmo members
          let new : Group := { vf := s.me.vf, order := order, tmo := tmo, logBase := BitVec.ofNat 64 base, rank := rank, members := members,
                               gstate := 2, gen := 0, seq := 0, liveSet := [], openedBy := [] }
          let s := s.updPart s.me.part (fun p =>
            let early := p.joins.filter (fun j => j.1 == g)
            let p := { p with groups := put p.groups g new, joins := p.joins.filter (fun j => j.1 != g) }
            (early.foldl (fun p j => if (p.groups.lookup g).isSome then p.opened g j.2 else p) (p.opened g msg)))
          joinStatus d g { s.send (.member s.me.part g msg) with me := { s.me with xseq := some g } }))) s

/-- GRPLEAVE: a group with an XRED in flight is in use. -/
def execGrpleave (d a : BitVec 5) (t : BitVec 2) (s : State) : Out :=
  runOrdered t (ancall d a 1 (fun _ => 0) (fun v s =>
    let g := rfld v 0 0 8
    match s.group? s.me.part g with
    | none => ancallReturn d 3 s
    | some x =>
      if x.own.isSome then ancallReturn d 3 s
      else ancallReturn d 0 (s.updPart s.me.part (fun p => { p with groups := del p.groups g, joins := p.joins.filter (fun j => j.1 != g) })))) s

/-- GRPSPARE: the donor is asked, and the entry is joining until the Anchor has brought the donor's terms and log (R327). -/
def execGrpspare (d a : BitVec 5) (t : BitVec 2) (s : State) : Out :=
  runOrdered t (fun s =>
    match s.me.xseq with
    | some g => joinStatus d g s
    | none => groupCall d s (
      ancall d a 3 (fun _ => 0) (fun v s =>
        let g := rfld v 0 0 8
        let donor := rfld v 1 0 8
        let rank := rfld v 2 0 8
        let old := s.group? s.me.part g
        let bad := match old with
          | some x => x.gstate == 1 && (x.liveSet.contains x.rank || !x.liveSet.contains donor || x.liveSet.contains rank)
              || x.gstate == 2
          | none => false
        if 63 < g ∨ 143 < donor ∨ 143 < rank ∨ donor = rank ∨ bad = true then ancallReturn d 3 s
        else
          let base : Group := { vf := s.me.vf, order := 0, tmo := 0, logBase := 0, rank := rank, members := [], gstate := 2, gen := 0, seq := 0,
                                liveSet := [], openedBy := [donor] }
          let new := match old with
            | some x => { x with rank := rank, gstate := 2, openedBy := [donor] }
            | none => base
          let s := s.updPart s.me.part (fun p => { p with groups := put p.groups g new })
          joinStatus d g { s.send (.member s.me.part g (.spareWanted rank donor)) with me := { s.me with xseq := some g } }))) s

end Sys2Proof.Machine
end

