-- ==== Sys2Proof/Machine/Links.lean ====
section
/-!
DEFINITION. Scale-up ports and mirrors (R321–R323), and the host's links (R316): packed lines and references, retries,
retraining, CXL.mem accesses and the training of a host port.
-/
namespace Sys2Proof.Machine

/-! ## Mirrors (R323) -/

/-- Number of the mirror of a peer and a plane. -/
def mirrorNo (peer plane : Nat) : Nat := 18 * peer + plane

/-- A scale-up port carries traffic. -/
def State.portUp (s : State) (plane : Nat) : Bool := decide (plane < 18) && (look s.ports plane {}).up

/-- PKCAP.REF of a port's hop: mirrors are in use. -/
def State.refs (s : State) (plane : Nat) : Bool := (look s.anchor.pkcap plane 0).getLsbD 1

/-- The live planes, ascending (R321). -/
def State.livePlanes (s : State) : List Nat := (List.range 18).filter s.portUp

/-- Deliver the lines of a peer that have come and whose turn it is, at most `n`. -/
def State.drainEarly (s : State) (peer : Nat) : Nat → State
  | 0 => s
  | n + 1 =>
    let next := look s.recvNos peer 0
    match s.early.find? (fun x => x.1 == peer && x.2.1 == next) with
    | none => s
    | some x =>
      State.drainEarly { s with
        early := s.early.filter (fun y => !(y.1 == peer && y.2.1 == next))
        recvNos := put s.recvNos peer (next + 1)
        arrivals := s.arrivals ++ [(peer, x.2.2.1, x.2.2.2)] } peer n

/-- A link delivers a line: the receiver restores the order of the lines' numbers across planes, and takes each number once (R321).
That numbers run on from message to message of a peer is the model's reading (assumption 81). -/
def State.deliver (s : State) (peer plane seq : Nat) (l : PackedLine) : State :=
  let fresh := decide (look s.recvNos peer 0 ≤ seq) && !s.early.any (fun x => x.1 == peer && x.2.1 == seq)
  let s := { s with waiting := false, early := if fresh then s.early ++ [(peer, seq, plane, l)] else s.early }
  s.drainEarly peer s.early.length

/-- A line enters a mirror's ring at HEAD. -/
def Mirror.push (m : Mirror) (l : PackedLine) : Mirror := { ring := put m.ring (m.head % 4096) l, head := m.head + 1 }

/-- The slot of a mirror that holds a line, tag included. The full comparison decides; the hash only finds the slot. -/
def Mirror.slotOf (m : Mirror) (l : PackedLine) : Option Nat := (m.ring.find? (fun x => x.2 == l)).map (fun x => x.1)

/-- A line of a message leaves on a plane (R323): as a reference where the mirror holds it, else as itself, entering the ring. -/
def State.sendLine (s : State) (peer plane seq : Nat) (l : PackedLine) : State :=
  if s.refs plane then
    match (look s.sentMirrors (mirrorNo peer plane) {}).slotOf l with
    | some k => s.emit [.reference peer plane seq k]
    | none => { s with sentMirrors := upd s.sentMirrors (mirrorNo peer plane) {} (fun m => m.push l) }.emit [.line peer plane seq l]
  else s.emit [.line peer plane seq l]

/-- A message's lines leave for a peer, striped over the live planes (R321): line i on the (i mod L)-th. -/
def State.transmit (s : State) (peer : Nat) (ls : List PackedLine) : State :=
  let ps := s.livePlanes
  ls.zipIdx.foldl (fun s x => match ps[x.2 % ps.length]? with
    | some p =>
      let n := look s.sendNos peer 0
      { s with sendNos := put s.sendNos peer (n + 1) }.sendLine peer p n x.1
    | none => s) s

/-- The lines of rows, each with its row's tag; a row's line is no packed one (R90). -/
def rowLines (rows : List (RowBits × Tag)) : List PackedLine :=
  (rows.map (fun r => (List.range 8).map (fun i =>
    (⟨BitVec.ofNat 1024 (r.1.toNat / 2 ^ (1024 * i)), r.2, 1⟩ : PackedLine)))).flatten

/-- Domain port of a group's rank. -/
def Group.port (g : Group) (rank : Nat) : Nat := Config.domainPort (g.members.getD rank 0) % 144

/-- PACKED_LINE_RECEIVE. -/
def execPackedLineReceive (peer plane : Nat) (x : NumberedLine) (s : State) : Out :=
  .next (if peer < 144 ∧ s.portUp plane = true then
      let s := if s.refs plane then { s with mirrors := upd s.mirrors (mirrorNo peer plane) {} (fun m => m.push x.line) } else s
      s.deliver peer plane x.seq x.line
    else s)

/-- MIRROR_REFERENCE: the slot's content is delivered unchanged; a reference does not enter the ring. -/
def execMirrorReference (peer plane : Nat) (x : NumberedRef) (s : State) : Out :=
  .next (if peer < 144 ∧ s.portUp plane = true ∧ s.refs plane = true then
      match (look s.mirrors (mirrorNo peer plane) {}).ring.lookup (x.slot % 4096) with
      | some l => s.deliver peer plane x.seq l
      | none => s
    else s)

/-! ## Retries and retraining (R321, R410) -/

/-- Log an event of a link or plane to every partition, with no origin (R410). -/
def State.logAll (s : State) (event : Nat) (detail : Nat) : State :=
  s.parts.foldl (fun s p => s.logEvent p.1 event 0xFF 0 0 (BitVec.ofNat 64 detail)) s

/-- LINK_RETRY: a flit is sent again in order. How many retries an event gathers is left open: a free choice; DETAIL holds the
link in [31:0] and the retries above it (assumption 25). -/
def execLinkRetry (link : Nat) (s : State) : Out :=
  if 18 ≤ link then .next s
  else
    let n := (look s.ports link {}).retries + 1
    let x := s.pick 2
    let set (k : Nat) : State := { x.2 with ports := upd x.2.ports link {} (fun p => { p with retries := k }) }
    .next (if x.1 = 0 then (set 0).logAll 0x0B (link + n * 2 ^ 32) else set n)

/-- LINK_RETRAIN: the plane's mirrors are cleared at both ends and PKCAP is written with what the neighbour advertises (R322), a free
choice; a port that fails leaves the live set, which is logged and is no member failure. No scale-up link is trained before stage 2
begins (R425). -/
def execLinkRetrain (plane : Nat) (ok : Bool) (s : State) : Out :=
  .next (if 18 ≤ plane ∨ s.anchor.stage < 3 then s
    else
      let other (m : Nat × Mirror) : Bool := m.1 % 18 != plane
      let s := { s with
        mirrors := s.mirrors.filter other
        sentMirrors := s.sentMirrors.filter other
        ports := upd s.ports plane {} (fun p => { p with up := ok }) }
      if ok then
        let x := s.pick 8
        { x.2 with anchor := { x.2.anchor with pkcap := put x.2.anchor.pkcap plane (BitVec.ofNat 32 x.1) } }
      else s.logAll 0x0A plane)

/-! ## The host's links (R316) -/

/-- The line at host address `a` of a function's shared window: the device memory that a descriptor maps there, else host memory
(assumption 77). -/
def State.windowLine (s : State) (vf a : Nat) : LineLoc := .page (s.homeEntry vf (2 ^ 33 + a / 2 ^ 18)) (a % 2 ^ 18 / 128)

/-- A CXL.mem write of one byte: an untyped write at its home. -/
def State.cxlWrite (s : State) (vf a : Nat) (b : BitVec 8) : State :=
  let l := s.windowLine vf a
  if l.device then
    let x := s.homeWrite l (untyped b.toNat (a % 128) 1) none false {} 0
    x.1.getD x.2
  else { s with mem := memPut s.mem (hostByte a) b }.breakLinks l.key none

/-- A line read at its home as it leaves packed for a capable peer (R90): its codes at the segment's stored width, and its tag. -/
def LineLoc.pack (l : LineLoc) (d : Line) (t : Tag) : PackedLine :=
  match l with
  | .store _ _ => ⟨d, t, 1⟩
  | .page e _ => ⟨BitVec.ofNat 1024 (squeeze (1024 / e.lw) e.pw e.lw d.toNat), t, packing e.lw e.pw⟩

/-- A CXL.mem read of one byte, answered over the link: with the byte, or to a peer with Chroale capability with the packed line
(R319). -/
def State.cxlRead (s : State) (vf a : Nat) : State :=
  let l := s.windowLine vf a
  if l.device then
    let x := s.readHome l {}
    x.2.2.emit [if s.chroalePeer a then .memLine (a / 128 * 128) (l.pack x.1 x.2.1) else .memRead a (lineByte x.1 (a % 128))]
  else s.emit [.memRead a (memGet s.mem (hostByte a))]

/-- CXL_MEM_ACCESS: only within an Anchor-approved shared window, and to no function that is being reset (R406, R407); there is no
back-invalidation of copies in an L1. -/
def execCxlMemAccess (vf addr : Nat) (wr : Option (List (BitVec 8))) (s : State) : Out :=
  let n := match wr with
    | some bs => bs.length
    | none => 1
  let shared := match s.vf? vf with
    | none => false
    | some v => match v.window? addr with
      | some w => w.shared && v.st != .resetting && (s.part v.part).resetTag.isNone && decide (addr + n ≤ w.base.toNat + w.size.toNat)
      | none => false
  .next (if !shared then s.send (.abort vf)
    else match wr with
      | none => s.cxlRead vf addr
      | some bs => bs.zipIdx.foldl (fun s b => s.cxlWrite vf (addr + b.2) b.1) s)

/-- The features a host port enables of those it is asked for (Table 1 of R316). -/
def enabled (r : LinkFeatures) : LinkFeatures :=
  { r with flit68 := false, latencyOpt := false, atsPri := false, backInval := false }

/-- PKCAP of a host port's hop (R90, R319, R322): a CXL host path takes no packed lines, but for a peer with Chroale capability. -/
def hostPkcap (r : LinkFeatures) : BitVec 32 := if r.chroale then 5 else 0

/-- HOST_LINK_TRAINING; host ports are hops 19 and 20. -/
def execHostLinkTraining (port : Nat) (req : LinkFeatures) (s : State) : Out :=
  .next (if 2 ≤ port then s
    else { s with
      hostPorts := upd s.hostPorts port {} (fun p => { p with up := true, feats := some (enabled req) })
      anchor := { s.anchor with pkcap := put s.anchor.pkcap (19 + port) (hostPkcap req) } })

end Sys2Proof.Machine
end

