-- ==== Sys2Proof/Machine/VectorRow.lean ====
section
/-!
DEFINITION. Writing vector rows: element-wise execution with its traps and resumption (R266, R267), rows written whole
under one tag (R275, R283), and the class of a result (R77).
-/
namespace Sys2Proof.Machine

/-- The class of a written row (R77), from the tags of its operand rows and whether every element of it is zero. -/
def rowClass (ops : List Tag) (zero : Bool) : Nat :=
  if ops.any (fun t => classOf t == 2) then 2
  else if ops.all (fun t => classOf t == 1) && zero then 1
  else 0

/-- The elements of a row below VLMAX are all zero. -/
def Strand.zeroRow (t : Strand) (v : Nat) : Bool := (t.row v).bits.toNat % 2 ^ (t.sewBits * t.vlmax) == 0

/-- An element of row r stays as it was: masked off, below the start point or in the tail (R180, R182, R253). -/
def Strand.keeps (t : Strand) (k : BitVec 3) (r : Nat) : Bool :=
  decide (t.vl < t.vlmax) || (List.range t.vl).any (fun e => !t.act k (r * t.vl + e))

/-- The previous destination row r counts as an operand: an element of it is masked off or in the tail (R77). -/
def Strand.retains (t : Strand) (k : BitVec 3) (r : Nat) : Bool :=
  decide (t.vl < t.vlmax) || (List.range t.vl).any (fun e => !t.active k (r * t.vl + e))

/-- An element's result. -/
structure ElemRes where
  code : Nat
  flags : Nat := 0
  /-- the spec states no value: a free one is written -/
  open_ : Bool := false
  deriving DecidableEq, Repr

/-- An element-wise instruction (R266). -/
structure Elementwise where
  d : BitVec 5
  srcs : List (BitVec 5)
  k : BitVec 3
  m : BitVec 2
  /-- the destination's previous content is an operand -/
  selfOp : Bool := false
  /-- VCLASS: class VALID or ZERO, no PSN (R280) -/
  plain : Bool := false
  /-- result tag of row r from its operand tags, or a cause and its TRAPVAL -/
  rowTag : State → Nat → List Tag → Except (Nat × Word) Tag
  /-- an element's result from operand tags, result tag, codes and rounding -/
  op : State → List Tag → Tag → List Nat → Rounding → ElemRes

/-- Write a row's tag. -/
def State.setRowTag (s : State) (v : Nat) (t : Tag) : State :=
  { s with me := s.me.setRow v { s.me.row v with tag := t } }

/-- Write one element's code, a whole slot (R55). -/
def State.setCode (s : State) (v e code : Nat) : State :=
  let row := s.me.row v
  { s with me := s.me.setRow v { row with bits := setElem row.bits s.me.sewBits e code } }

/-- The elements e.. of row r, in ascending order; `rec` is the resume record a trap at e > 0 keeps (R382). -/
def elementLoop (x : Elementwise) (tags : List Tag) (t : Tag) (rec_ : List Tag) (r : Nat) : Nat → Nat → State → Eff
  | 0, _, s => .done s
  | n + 1, e, s =>
    if !s.me.act x.k (r * s.me.vl + e) then elementLoop x tags t rec_ r n (e + 1) s
    else
      let groups := if x.selfOp then x.srcs ++ [x.d] else x.srcs
      let codes := (groups.zip tags).map (fun g => rowCode (s.me.row (g.1.toNat + r)).bits g.2 s.me.sewBits e)
      let c := x.op s tags t codes (s.me.rounding x.m r e)
      let fl := trapFlags s.me.fcsr c.flags
      if fl ≠ 0 then
        .trap s { cause := causeFp, val := BitVec.ofNat 64 fl, row := r, elem := e, isElem := true,
                  record := if 0 < e then some (rec_, []) else none }
      else
        let f := s.free
        let w := (s.myCtx).cw (fmtOf t) s.me.sewBits
        let s := if c.open_ then f.2.setCode (x.d.toNat + r) e (f.1.toNat % 2 ^ w) else s.setCode (x.d.toNat + r) e c.code
        elementLoop x tags t rec_ r n (e + 1) (s.raise c.flags)

/-- Rows r.. of the group. -/
def rowLoop (x : Elementwise) : Nat → Nat → State → Eff
  | 0, _, s => .done s.clearStart
  | n + 1, r, s =>
    let e0 := if r = s.me.rstart then s.me.vstart else 0
    let v := x.d.toNat + r
    let groups := if x.selfOp then x.srcs ++ [x.d] else x.srcs
    let saved : Option (List Tag) :=
      if s.me.resumeUse ∧ r = s.me.rstart ∧ 0 < e0 then
        match s.me.resume with
        | some q => if q.tags.length = groups.length + 1 then some q.tags else none
        | none => none
      else none
    let tags := match saved with
      | some q => q.take groups.length
      | none => groups.map (fun g => s.me.tag (g.toNat + r))
    let prev := match saved with
      | some q => q.getLast?.getD 0
      | none => s.me.tag v
    let ops := if s.me.retains x.k r && !x.selfOp then tags ++ [prev] else tags
    let poison := !x.plain && ops.any (fun t => classOf t == 2)
    -- after the elements: class ZERO where R77 gives it; a resumed row keeps its tag otherwise (R267)
    let finish (s : State) : Eff :=
      let zero := s.me.zeroRow v
      let cls := if x.plain then (if zero then 1 else 0) else rowClass ops zero
      let cls := if saved.isSome && cls != 1 then classOf (s.me.tag v) else cls
      rowLoop x n (r + 1) (s.setRowTag v (withClass (s.me.tag v) cls))
    match saved with
    | some _ => (elementLoop x tags (s.me.tag v) (tags ++ [prev]) r (s.me.vl - e0) e0 s).bind finish
    | none =>
      match x.rowTag s r tags with
      | .error c => trapAt s c.1 c.2 r 0
      | .ok t =>
        consume s poison r (fun s =>
          let t := withClass t (if poison then 2 else 0)
          (elementLoop x tags t (tags ++ [prev]) r (s.me.vl - e0) e0 (s.setRowTag v t)).bind finish)

/-- Run an element-wise instruction: VTYPE_ILLEGAL for a group beyond v31 or a straddling destination (R263). -/
def elementwise (word : Word) (x : Elementwise) (s : State) : Eff :=
  vecOp word (x.d :: x.srcs) (fun t => x.srcs.any (fun v => t.straddle x.d v))
    (fun s => rowLoop x (s.me.rc - s.me.rstart) s.me.rstart s) s

/-- Rows whose elements are all computed beforehand (R275, R277, R283): group index to code, and one tag per row. -/
structure RowWrite where
  d : Nat
  tags : Nat → Tag
  /-- operand tags that decide a row's class, with its previous tag where `kept` says that it counts (R77) -/
  ops : Nat → List Tag
  kept : Nat → Bool
  vals : Nat → Option Nat
  /-- every row becomes POISON (VTAG, R277) -/
  forced : Bool := false

/-- Write the rows r..; each is poisoned, or traps at (r, 0), before it is written (R75). Rows below RSTART, which have no active element,
take their tag and class and consume POISON like the others (assumption 81). -/
def writeRows (x : RowWrite) : Nat → Nat → State → Eff
  | 0, _, s => .done s.clearStart
  | n + 1, r, s =>
    let v := x.d + r
    let vl := s.me.vl
    let o := if x.kept r then x.ops r ++ [s.me.tag v] else x.ops r
    consume s (o.any (fun t => classOf t == 2)) r (fun s =>
      let t := x.tags r
      let w := (s.myCtx).cw (fmtOf t) s.me.sewBits
      let bits := (List.range vl).foldl (fun b e => match x.vals (r * vl + e) with
        | some c => setElem b s.me.sewBits e (c % 2 ^ w)
        | none => b) (s.me.row v).bits
      let s := { s with me := s.me.setRow v ⟨bits, t⟩ }
      writeRows x n (r + 1) (s.setRowTag v (withClass t (if x.forced then 2 else rowClass o (s.me.zeroRow v)))))

/-- The FMT and BSC that the rows of a group share (R283), DEM their OR; class ZERO when every row is ZERO. Otherwise the
two formats that differ. -/
def groupTag (ts : List Tag) : Except (Nat × Nat) Tag :=
  let full := ts.filter (fun t => classOf t != 1)
  let g := full.headD (ts.headD zeroTag)
  match full.find? (fun t => fmtOf t != fmtOf g || bscOf t != bscOf g) with
  | some t => .error (fmtOf g, fmtOf t)
  | none => .ok (mkTag (fmtOf g) (bscOf g) (if full.isEmpty then 1 else 0) (ts.any demOf))

/-- A scalar result of a vector instruction (R274): sd written at completion. -/
def scalarResult (d : BitVec 5) (v : Word) (s : State) : Eff := .done ((s.setRegV d v).clearStart)

/-- Raise the flags of a whole instruction, or trap FP_EXCEPTION at (0, 0) (R289). -/
def raiseOrTrap (s : State) (fl : Nat) (f : State → Eff) : Eff :=
  let x := trapFlags s.me.fcsr fl
  if x ≠ 0 then trapAt s causeFp (BitVec.ofNat 64 x) 0 0 else f (s.raise fl)

/-- Write mask kd from its bits below VL·RC; those above become zero (R250). -/
def State.writeMask (s : State) (k : Nat) (bit : Nat → Bool) : State :=
  let bits := (List.range s.me.count).foldl (fun acc j => if bit j then acc + 2 ^ j else acc) 0
  { s with me := s.me.setMask k (BitVec.ofNat 32768 bits) }

end Sys2Proof.Machine
end

