-- ==== Sys2Proof/Machine/Queues.lean ====
section
/-!
DEFINITION. The pair's vector and scalar queues (R251–R257) and explicit token instructions (R258–R260).
-/
namespace Sys2Proof.Machine

/-- The strand writes vector queue q (R251): q0 and q1 run from ACC, q2 and q3 from EXE. -/
def Strand.writesQ (t : Strand) (q : Nat) : Bool := (t.role == 0) == decide (q < 2)

/-- The strand writes scalar queue q. -/
def Strand.writesSq (t : Strand) (q : Nat) : Bool := (t.role == 0) == (q == 0)

/-- Vector queue q of the strand's pair is closed (R252). -/
def State.qClosed (s : State) (q : Nat) : Bool := (s.pair s.me.pairNo).qcfg.getLsbD q

def State.sqClosed (s : State) (q : Nat) : Bool := (s.pair s.me.pairNo).qcfg.getLsbD (4 + q)

/-- Entries of a vector queue. -/
def State.vq (s : State) (q : Nat) : List QEntry := (s.pair s.me.pairNo).q.getD q []

/-- Entries of a vector queue that a VLDQ has reserved (R251). -/
def State.reservedOf (s : State) (q : Nat) : Nat := (s.pair s.me.pairNo).reserved.getD q 0

def State.setVq (s : State) (q : Nat) (l : List QEntry) : State :=
  let p := s.pair s.me.pairNo
  s.setPair s.me.pairNo { p with q := p.q.setIfInBounds q l }

def State.sqOf (s : State) (q : Nat) : List Word := (s.pair s.me.pairNo).sq.getD q []

def State.setSq (s : State) (q : Nat) (l : List Word) : State :=
  let p := s.pair s.me.pairNo
  s.setPair s.me.pairNo { p with sq := p.sq.setIfInBounds q l }

/-- QUEUE_MISUSE at the instruction (R257). -/
def misuse (s : State) (num reason kind : Nat) (offending : Word) : Eff := trapI s causeQueue (queueVal num reason kind offending)

/-- Push entries in row order into a queue with room (R253). -/
def State.pushVq (s : State) (q : Nat) (es : List QEntry) : State := s.setVq q (s.vq q ++ es)

/-- Row v + r as QPUSH sends it: inactive slots zero, ZERO when no element is active. -/
def Strand.queueEntry (t : Strand) (v r : Nat) (k : BitVec 3) : QEntry :=
  let row := t.row (v + r)
  let live := (List.range t.vl).filter (fun e => t.act k (r * t.vl + e))
  let bits := live.foldl (fun b e => setElem b t.sewBits e (rowCode row.bits row.tag t.sewBits e)) (0 : RowBits)
  ⟨⟨bits, if live.isEmpty then withClass row.tag 1 else row.tag⟩, t.sew, t.vl⟩

/-- QPUSH (R253). -/
def execQpush (q v : BitVec 5) (k : BitVec 3) (t : BitVec 2) (s : State) : Out :=
  runOrdered t (vecOp (wordV 0x53 0 q v 0 k 0 t) [v] (fun _ => false) (fun s =>
    let n := q.toNat
    if !s.me.writesQ n then misuse s n 1 0 0
    else if s.qClosed n then misuse s n 2 0 0
    else
      let tags := s.me.groupTags v.toNat
      match (List.range s.me.rc).find? (fun r => s.me.tePsn && classOf (tags.getD r 0) == 2) with
      | some r => trapAt s causeFp 0x20 r 0
      | none =>
        if 8 < (s.vq n).length + s.reservedOf n + s.me.rc then .wait s
        else
          let es := (List.range s.me.rc).map (fun r => s.me.queueEntry v.toNat r k)
          let s := if es.any (fun e => classOf e.row.tag == 2) then s.raise flagPSN else s
          .done (s.pushVq n es).clearStart)) s

/-- Row r of QPOP's group from entry x (R253); a row written POISON sets PSN (R75; assumption 66). -/
def State.popRow (s : State) (v r : Nat) (k : BitVec 3) (x : QEntry) : State :=
  let old := s.me.row (v + r)
  let live := (List.range s.me.vl).filter (fun e => s.me.act k (r * s.me.vl + e))
  let kept := s.me.keeps k r
  let w := s.me.sewBits
  let bits := live.foldl (fun b e => setElem b w e (if e < x.vl then rowCode x.row.bits x.row.tag w e else 0)) old.bits
  let cx := classOf x.row.tag
  let co := classOf old.tag
  let cls := if cx = 2 ∨ (co = 2 ∧ kept = true) then 2 else if cx = 1 ∧ (co = 1 ∨ kept = false) then 1 else 0
  let s := { s with me := s.me.setRow (v + r) ⟨bits, withClass x.row.tag cls⟩ }
  if cls = 2 then s.raise flagPSN else s

/-- QPOP (R253). -/
def execQpop (v q : BitVec 5) (k : BitVec 3) (t : BitVec 2) (s : State) : Out :=
  runOrdered t (vecOp (wordV 0x54 0 v q 0 k 0 t) [v] (fun _ => false) (fun s =>
    let n := q.toNat
    if s.me.writesQ n then misuse s n 1 0 0
    else
      let es := (s.vq n).take s.me.rc
      if es.length < s.me.rc then (if s.qClosed n then misuse s n 2 0 0 else .wait s)
      else match (List.range s.me.rc).find? (fun r => (es[r]?).any (fun x => x.sew != s.me.sew)) with
        | some r => trapAt s causeQueue (queueVal n 3 0 0) r 0
        | none => match (List.range s.me.rc).find? (fun r => s.me.tePsn && (es[r]?).any (fun x => classOf x.row.tag == 2)) with
          | some r => trapAt s causeFp 0x20 r 0
          | none =>
            let s := s.setVq n ((s.vq n).drop s.me.rc)
            .done ((es.zipIdx.foldl (fun s x => s.popRow v.toNat x.2 k x.1) s).clearStart))) s

/-- QPUSHS (R254). -/
def execQpushs (a c : BitVec 5) (t : BitVec 2) (s : State) : Out :=
  runOrdered t (fun s =>
    let n := c.toNat
    if !s.me.writesSq n then misuse s (4 + n) 1 0 0
    else if s.sqClosed n then misuse s (4 + n) 2 0 0
    else if 16 ≤ (s.sqOf n).length then .wait s
    else .done (s.setSq n (s.sqOf n ++ [s.reg a]))) s

/-- QPOPS (R254). -/
def execQpops (d c : BitVec 5) (t : BitVec 2) (s : State) : Out :=
  runOrdered t (fun s =>
    let n := c.toNat
    if s.me.writesSq n then misuse s (4 + n) 1 0 0
    else match s.sqOf n with
      | [] => if s.sqClosed n then misuse s (4 + n) 2 0 0 else .wait s
      | x :: xs => .done ((s.setSq n xs).setReg d x)) s

/-- QSTAT: visible and free entries, closed, writer (R254). -/
def execQstat (d c : BitVec 5) (t : BitVec 2) (s : State) : Out :=
  runOrdered t (fun s =>
    let n := c.toNat
    let x : Nat × Nat × Bool × Bool :=
      if n < 4 then ((s.vq n).length, 8 - (s.vq n).length - s.reservedOf n, s.qClosed n, s.me.writesQ n)
      else ((s.sqOf (n - 4)).length, 16 - (s.sqOf (n - 4)).length, s.sqClosed (n - 4), s.me.writesSq (n - 4))
    .done (s.setReg d (BitVec.ofNat 64 (x.1 + x.2.1 * 32 + x.2.2.1.toNat * 1024 + x.2.2.2.toNat * 2048)))) s

/-! ## Tokens (R260) -/

/-- TKWAIT. -/
def execTkwait (d a b : BitVec 5) (t : BitVec 2) (s : State) : Out :=
  runOrdered t (fun s =>
    let f := (s.reg a).toNat
    let n := (s.reg b).toNat
    if !recvCode f then misuse s f 4 1 (s.reg a)
    else if 32 < n then misuse s f 5 1 (s.reg b)
    else
      let x := s.tokens s.me f
      if x < n then (if s.fifoClosed s.me f then misuse s f 2 1 0 else .wait s)
      else .done ((s.setTokens f (x - n)).setReg d (BitVec.ofNat 64 (x - n)))) s

/-- TKSEND. -/
def execTksend (a b : BitVec 5) (t : BitVec 2) (s : State) : Out :=
  runOrdered t (fun s =>
    let f := (s.reg a).toNat
    let n := (s.reg b).toNat
    if !sendCode f then misuse s f 4 1 (s.reg a)
    else if 32 < n then misuse s f 5 1 (s.reg b)
    else if 0 < n ∧ s.fifoClosed s.me f = true then misuse s f 2 1 0
    else
      let x := s.tokens s.me f
      if 32 < x + n then .wait s else .done (s.setTokens f (x + n))) s

/-- TKCFG (R260): operation 0 reads an occupancy, operation 1 drains a receive FIFO. -/
def tokenConfig (d a b : BitVec 5) (s : State) : Eff :=
  let f := (s.reg a).toNat
  if !(recvCode f || sendCode f) then misuse s f 4 1 (s.reg a)
  else
    let n := s.tokens s.me f
    match (s.reg b).toNat with
    | 0 => .done (s.setReg d (BitVec.ofNat 64 n))
    | 1 => if recvCode f then .done ((s.setTokens f 0).setReg d (BitVec.ofNat 64 n)) else misuse s f 4 1 (s.reg a)
    | _ => misuse s f 5 1 (s.reg b)

def execTkcfgQuery (d a b : BitVec 5) (t : BitVec 2) (s : State) : Out := runOrdered t (tokenConfig d a b) s

def execTkcfgDrain (d a b : BitVec 5) (t : BitVec 2) (s : State) : Out := runOrdered t (fun s => tokenConfig d a b s) s

end Sys2Proof.Machine
end

