-- ==== Sys2Proof/Machine/VectorArith.lean ====
section
/-!
DEFINITION. Vector arithmetic (R268, R269): 0x90–0x9F, and VROUND (R282).
-/
namespace Sys2Proof.Machine

/-- The exact operations of Table 3 of R268. -/
inductive ArithOp where
  | add | sub | mul | fma | fms | fnma | div | sqrt | min | max | abs | neg | rsqrt | exp2 | log2 | mulh
  deriving DecidableEq, Repr

def ArithOp.unary : ArithOp → Bool
  | .sqrt => true
  | .abs => true
  | .neg => true
  | .rsqrt => true
  | .exp2 => true
  | .log2 => true
  | _ => false

def ArithOp.ternary : ArithOp → Bool
  | .fma => true
  | .fms => true
  | .fnma => true
  | _ => false

/-- Operations without a meaning on integers, and on floats (Table 3 of R268). -/
def ArithOp.floatOnly : ArithOp → Bool
  | .sqrt => true
  | .rsqrt => true
  | .exp2 => true
  | .log2 => true
  | _ => false

/-- |a|. -/
def Num.abs : Num → Num
  | .nan s => .nan s
  | .inf _ => .inf false
  | .dz _ => .dz false
  | .fin _ n d x => .fin false n d x

/-- The exact value of a floating operation and the flags of Table 9 of R72. -/
def ArithOp.exact (o : ArithOp) (rm : Nat) (a b c : Num) : Num × Nat :=
  match o with
  | .add => a.add rm b
  | .sub => a.sub rm b
  | .mul => a.mul b
  | .fma => a.fma rm b c
  | .fms => a.fma rm b c.neg
  | .fnma => a.neg.fma rm b c
  | .div => a.div b
  | .sqrt => a.sqrt
  | .min => Num.minmax false a b
  | .max => Num.minmax true a b
  | .abs => (a.abs, 0)
  | .neg => (a.neg, 0)
  | .rsqrt => a.rsqrt
  | .exp2 => a.exp2
  | .log2 => a.log2
  | .mulh => (a, 0)

/-- An integer operation in result format f (R73, R268, R269). -/
def ArithOp.int (o : ArithOp) (f : Fmt) (sat : Bool) (a b c : Int) : Nat × Nat :=
  match o with
  | .add => f.intResult sat (a + b)
  | .sub => f.intResult sat (a - b)
  | .mul => f.intResult sat (a * b)
  | .fma => f.intResult sat (a * b + c)
  | .fms => f.intResult sat (a * b - c)
  | .fnma => f.intResult sat (-(a * b) + c)
  | .div => if b = 0 then (2 ^ f.m - 1, flagIDZ) else f.intResult sat (Int.tdiv a b)
  | .min => f.intResult sat (if b < a then b else a)
  | .max => f.intResult sat (if a < b then b else a)
  | .abs => f.intResult sat (if a < 0 then -a else a)
  | .neg => f.intResult sat (-a)
  | .mulh => (f.intCode (a * b / (2 ^ f.m : Nat)), 0)
  | _ => (0, 0)

/-- The integer that a value is, if it is one. -/
def Num.int? : Num → Option Int
  | .fin neg n d false => if n % d = 0 then some (if neg then -((n / d : Nat) : Int) else ((n / d : Nat) : Int)) else none
  | _ => none

/-- Tag of the second operand of a row: vb's, or a splat's, which is VALID under va's FMT and BSC (R264). -/
def Src.tagOf (src : Src) (a : Tag) (tags : List Tag) : Tag :=
  match src with
  | .row _ => tags.getD 1 0
  | .splat _ _ => mkTag (fmtOf a) (bscOf a) 0 false

/-- resultTag of R66: joins the operands, checks the fit, and chooses the BSC. -/
def resultTag (s : State) (a b : Tag) (third : Option Tag) : Except (Nat × Word) Tag :=
  let c := s.myCtx
  let join : Except (Nat × Word) Tag := match joinRow c a b with
    | none => .error (causeFormatPair, pairVal (joinFmts a b).1 (joinFmts a b).2)
    | some t => match third with
      | none => .ok t
      | some x => match joinRow c t x with
        | none => .error (causeFormatPair, pairVal (joinFmts t x).1 (joinFmts t x).2)
        | some u => .ok u
  match join with
  | .error e => .error e
  | .ok t =>
    let f := fmtOf t
    if (c.fmt f).container s.me.sewBits > s.me.sewBits then .error (causeFormatFit, fitVal f s.me.sew)
    else .ok (mkTag f (resultBsc c f s.me.osc [a, b]) 0 false)

/-- The format is an integer or natural one. -/
def Fmt.isInt (f : Fmt) : Bool := f.kind == .int || f.kind == .nat

/-- The tag of a row of an arithmetic result, with the checks of Table 3 of R268. -/
def ArithOp.rowTag (o : ArithOp) (src : Src) (s : State) (_ : Nat) (tags : List Tag) : Except (Nat × Word) Tag :=
  let a := tags.headD 0
  let b := if o.unary then a else src.tagOf a tags
  match resultTag s a b (if o.ternary then tags.getLast? else none) with
  | .error e => .error e
  | .ok t =>
    let i := (s.myCtx.fmt (fmtOf t)).isInt
    if (i && o.floatOnly) || (!i && o == .mulh) then .error (causeFormatPair, pairVal (fmtOf a) (fmtOf b)) else .ok t

/-- An element of an arithmetic result. Integers in an integer format give R73's result; a value that is no integer, under a
lattice entry that gives an integer format, is one the spec states no result for. -/
def ArithOp.elem (o : ArithOp) (src : Src) (s : State) (tags : List Tag) (t : Tag) (codes : List Nat) (r : Rounding) : ElemRes :=
  let c := s.myCtx
  let ta := tags.headD 0
  let val (i : Nat) := rowValue c (tags.getD i 0) (codes.getD i 0)
  let a := val 0
  let b := match src with
    | .row _ => val 1
    | .splat x imm => splatValue (c.fmt (fmtOf ta)) x imm
  let d := if o.ternary then val (tags.length - 1) else Num.zero
  let f := c.fmt (fmtOf t)
  if f.isInt then
    match a.int?, b.int?, d.int? with
    | some i, some j, some k => let v := o.int f r.sat i j k; { code := v.1, flags := v.2 }
    | _, _, _ => { code := 0, open_ := true }
  else
    let v := o.exact r.rm a b d
    let x := roundTo f (bscOf t) r v.1
    { code := x.1, flags := v.2 ||| x.2 }

/-- An arithmetic instruction's elements. -/
def arithX (o : ArithOp) (x : Src) (d a : BitVec 5) (k : BitVec 3) (m : BitVec 2) : Elementwise :=
  { d := d, srcs := if o.unary then [a] else a :: x.groups, k := k, m := m, selfOp := o.ternary, rowTag := o.rowTag x, op := o.elem x }

/-- An arithmetic instruction. -/
def arithV (o : ArithOp) (form : Nat) (src : State → Src) (op : Nat) (d a b : BitVec 5) (k : BitVec 3) (m t : BitVec 2) (s : State) : Out :=
  runOrdered t (fun s => elementwise (wordV op form d a b k m t) (arithX o (src s) d a k m) s) s

def execVaddVv (d a b : BitVec 5) (k : BitVec 3) (m t : BitVec 2) (s : State) : Out :=
  arithV .add 0 (srcVV b) 0x90 d a b k m t s

def execVaddVs (d a sb : BitVec 5) (k : BitVec 3) (m t : BitVec 2) (s : State) : Out :=
  arithV .add 1 (srcVS sb) 0x90 d a sb k m t s

def execVaddVi (d a imm : BitVec 5) (k : BitVec 3) (m t : BitVec 2) (s : State) : Out :=
  arithV .add 2 (srcVI imm) 0x90 d a imm k m t s

def execVsubVv (d a b : BitVec 5) (k : BitVec 3) (m t : BitVec 2) (s : State) : Out :=
  arithV .sub 0 (srcVV b) 0x91 d a b k m t s

def execVsubVs (d a sb : BitVec 5) (k : BitVec 3) (m t : BitVec 2) (s : State) : Out :=
  arithV .sub 1 (srcVS sb) 0x91 d a sb k m t s

def execVsubVi (d a imm : BitVec 5) (k : BitVec 3) (m t : BitVec 2) (s : State) : Out :=
  arithV .sub 2 (srcVI imm) 0x91 d a imm k m t s

def execVmulVv (d a b : BitVec 5) (k : BitVec 3) (m t : BitVec 2) (s : State) : Out :=
  arithV .mul 0 (srcVV b) 0x92 d a b k m t s

def execVmulVs (d a sb : BitVec 5) (k : BitVec 3) (m t : BitVec 2) (s : State) : Out :=
  arithV .mul 1 (srcVS sb) 0x92 d a sb k m t s

def execVmulVi (d a imm : BitVec 5) (k : BitVec 3) (m t : BitVec 2) (s : State) : Out :=
  arithV .mul 2 (srcVI imm) 0x92 d a imm k m t s

def execVfmaVv (d a b : BitVec 5) (k : BitVec 3) (m t : BitVec 2) (s : State) : Out :=
  arithV .fma 0 (srcVV b) 0x93 d a b k m t s

def execVfmaVs (d a sb : BitVec 5) (k : BitVec 3) (m t : BitVec 2) (s : State) : Out :=
  arithV .fma 1 (srcVS sb) 0x93 d a sb k m t s

def execVfmaVi (d a imm : BitVec 5) (k : BitVec 3) (m t : BitVec 2) (s : State) : Out :=
  arithV .fma 2 (srcVI imm) 0x93 d a imm k m t s

def execVfmsVv (d a b : BitVec 5) (k : BitVec 3) (m t : BitVec 2) (s : State) : Out :=
  arithV .fms 0 (srcVV b) 0x94 d a b k m t s

def execVfmsVs (d a sb : BitVec 5) (k : BitVec 3) (m t : BitVec 2) (s : State) : Out :=
  arithV .fms 1 (srcVS sb) 0x94 d a sb k m t s

def execVfmsVi (d a imm : BitVec 5) (k : BitVec 3) (m t : BitVec 2) (s : State) : Out :=
  arithV .fms 2 (srcVI imm) 0x94 d a imm k m t s

def execVfnmaVv (d a b : BitVec 5) (k : BitVec 3) (m t : BitVec 2) (s : State) : Out :=
  arithV .fnma 0 (srcVV b) 0x95 d a b k m t s

def execVfnmaVs (d a sb : BitVec 5) (k : BitVec 3) (m t : BitVec 2) (s : State) : Out :=
  arithV .fnma 1 (srcVS sb) 0x95 d a sb k m t s

def execVfnmaVi (d a imm : BitVec 5) (k : BitVec 3) (m t : BitVec 2) (s : State) : Out :=
  arithV .fnma 2 (srcVI imm) 0x95 d a imm k m t s

def execVdivVv (d a b : BitVec 5) (k : BitVec 3) (m t : BitVec 2) (s : State) : Out :=
  arithV .div 0 (srcVV b) 0x96 d a b k m t s

def execVdivVs (d a sb : BitVec 5) (k : BitVec 3) (m t : BitVec 2) (s : State) : Out :=
  arithV .div 1 (srcVS sb) 0x96 d a sb k m t s

def execVdivVi (d a imm : BitVec 5) (k : BitVec 3) (m t : BitVec 2) (s : State) : Out :=
  arithV .div 2 (srcVI imm) 0x96 d a imm k m t s

def execVminVv (d a b : BitVec 5) (k : BitVec 3) (m t : BitVec 2) (s : State) : Out :=
  arithV .min 0 (srcVV b) 0x98 d a b k m t s

def execVminVs (d a sb : BitVec 5) (k : BitVec 3) (m t : BitVec 2) (s : State) : Out :=
  arithV .min 1 (srcVS sb) 0x98 d a sb k m t s

def execVminVi (d a imm : BitVec 5) (k : BitVec 3) (m t : BitVec 2) (s : State) : Out :=
  arithV .min 2 (srcVI imm) 0x98 d a imm k m t s

def execVmaxVv (d a b : BitVec 5) (k : BitVec 3) (m t : BitVec 2) (s : State) : Out :=
  arithV .max 0 (srcVV b) 0x99 d a b k m t s

def execVmaxVs (d a sb : BitVec 5) (k : BitVec 3) (m t : BitVec 2) (s : State) : Out :=
  arithV .max 1 (srcVS sb) 0x99 d a sb k m t s

def execVmaxVi (d a imm : BitVec 5) (k : BitVec 3) (m t : BitVec 2) (s : State) : Out :=
  arithV .max 2 (srcVI imm) 0x99 d a imm k m t s

def execVmulhVv (d a b : BitVec 5) (k : BitVec 3) (m t : BitVec 2) (s : State) : Out :=
  arithV .mulh 0 (srcVV b) 0x9f d a b k m t s

def execVmulhVs (d a sb : BitVec 5) (k : BitVec 3) (m t : BitVec 2) (s : State) : Out :=
  arithV .mulh 1 (srcVS sb) 0x9f d a sb k m t s

def execVmulhVi (d a imm : BitVec 5) (k : BitVec 3) (m t : BitVec 2) (s : State) : Out :=
  arithV .mulh 2 (srcVI imm) 0x9f d a imm k m t s

def execVsqrt (d a : BitVec 5) (k : BitVec 3) (m t : BitVec 2) (s : State) : Out :=
  arithV .sqrt 0 (srcVV 0) 0x97 d a 0 k m t s

def execVabs (d a : BitVec 5) (k : BitVec 3) (m t : BitVec 2) (s : State) : Out :=
  arithV .abs 0 (srcVV 0) 0x9a d a 0 k m t s

def execVneg (d a : BitVec 5) (k : BitVec 3) (m t : BitVec 2) (s : State) : Out :=
  arithV .neg 0 (srcVV 0) 0x9b d a 0 k m t s

def execVrsqrt (d a : BitVec 5) (k : BitVec 3) (m t : BitVec 2) (s : State) : Out :=
  arithV .rsqrt 0 (srcVV 0) 0x9c d a 0 k m t s

def execVexp2 (d a : BitVec 5) (k : BitVec 3) (m t : BitVec 2) (s : State) : Out :=
  arithV .exp2 0 (srcVV 0) 0x9d d a 0 k m t s

def execVlog2 (d a : BitVec 5) (k : BitVec 3) (m t : BitVec 2) (s : State) : Out :=
  arithV .log2 0 (srcVV 0) 0x9e d a 0 k m t s

/-- VROUND: floats and fixed-point values become integral, NX when the value changes; integer rows are copied (R282). -/
def roundX (d a : BitVec 5) (k : BitVec 3) (m : BitVec 2) : Elementwise :=
  { d := d, srcs := [a], k := k, m := m
    rowTag := fun s _ tags => resultTag s (tags.headD 0) (tags.headD 0) none
    op := fun s tags t codes r =>
      let c := s.myCtx
      let ta := tags.headD 0
      let f := c.fmt (fmtOf t)
      if (c.fmt (fmtOf ta)).isInt then { code := codes.headD 0 % 2 ^ c.cw (fmtOf t) s.me.sewBits }
      else
        let v := rowValue c ta (codes.headD 0)
        if f.isInt then { code := 0, open_ := true }
        else
          let y : Num × Nat := match v with
            | .fin g n e x =>
              let u := roundMag r g n e x 0
              (.fin g u.1 1 false, if u.2 then 0 else flagNX)
            | v => (v, 0)
          let z := roundTo f (bscOf t) r y.1
          { code := z.1, flags := y.2 ||| z.2 } }

def execVround (d a : BitVec 5) (k : BitVec 3) (m t : BitVec 2) (s : State) : Out :=
  runOrdered t (elementwise (wordV 0xBA 0 d a 0 k m t) (roundX d a k m)) s

end Sys2Proof.Machine
end

