-- ==== Sys2Proof/Machine/VectorMem.lean ====
section
/-!
DEFINITION. Vector loads and stores (R177–R188, R193–R198), and the finding of their elements, which the atomic and
near-memory instructions share.
-/
namespace Sys2Proof.Machine

/-! ## Elements and their addresses (R178–R180) -/

/-- How a(j) is formed (R178). -/
inductive AddrForm where
  | unit
  | strided
  | indexed
  /-- VLDTAG -/
  | tags
  deriving DecidableEq, Repr

/-- What a vector memory instruction accesses. -/
structure MemOp where
  word : Word
  form : AddrForm
  a : BitVec 5
  /-- sb, or the index group vb -/
  b : BitVec 5
  k : BitVec 3
  acc : Access
  near : Bool := false
  deriving DecidableEq, Repr

/-- a(j). -/
def State.addrOf (s : State) (x : MemOp) (j : Nat) : Nat :=
  let w := s.me.sewBits
  let sa := (s.capA x.a).toNat
  let sb := (s.capB x.b).toNat
  (match x.form with
    | .unit => sa + sb + j * w / 8
    | .strided => sa + j * sb
    | .indexed =>
      let row := s.me.row (x.b.toNat + j / s.me.vl)
      sa + rowCode row.bits row.tag w (j % s.me.vl)
    | .tags => (sa + sb) % 2 ^ 64 / 128 * 128 + 128 * j) % 2 ^ 64

/-- Group indices of the active elements, ascending (R180). -/
def Strand.actives (t : Strand) (k : BitVec 3) : List Nat := (List.range t.count).filter (fun j => t.act k j)

/-- The elements below the lowest one that faults before it is accessed: those with their place, and those that wait for stage 2. -/
structure Found where
  s : State
  elems : List Elem
  fault : Option ElemFault
  pending : List Pending

/-- The translation of one element, ranks 1 to 6 of Table 1 of R184; `at_` is where a shadowed buffer sends its address. -/
def State.place (s : State) (x : MemOp) (va at_ : Nat) : LRes :=
  let w := s.me.sewBits
  if x.form ≠ .tags ∧ 8 ≤ w ∧ va % (w / 8) ≠ 0 then .fail s causeMisaligned
  else
    match s.locate { s.walker with near := x.near, vlsu := true } at_ x.acc with
    | .ok t (.store c l) => if x.near then .fail t causeAccess else .ok t (.store c l)
    | .ok t (.page e l) => if x.form ≠ .tags ∧ e.host = false ∧ e.lw ≠ w then .fail t causeFormatFit else .ok t (.page e l)
    | .fail t c => .fail t c
    | .park t i => .park t i

/-- Translate elements in ascending order up to the first that faults (R184), or with `inOrder` the first that waits; those placed
before keep their places. -/
def findElems (x : MemOp) (pr : Progress) (inOrder : Bool) : List Nat → State → Found
  | [], s => ⟨s, [], pr.fault, []⟩
  | j :: js, s =>
    match pr.placed.find? (fun e => e.j == j) with
    | some e => let r := findElems x pr inOrder js s; { r with elems := e :: r.elems }
    | none =>
      let va := s.addrOf x j
      let at_ := s.resolveBy (fun b => pr.fronts.contains b.1) s.me.vf va
      match s.place x va at_ with
      | .ok t l => let r := findElems x pr inOrder js t; { r with elems := ⟨j, va, l⟩ :: r.elems }
      | .fail t c => ⟨t, [], some (j, c, if c = causeFormatFit then fitVal 0 s.me.sew else BitVec.ofNat 64 va), []⟩
      | .park t i =>
        if inOrder then ⟨t, [], none, [⟨j, va, at_, i⟩]⟩
        else let r := findElems x pr inOrder js t; { r with pending := ⟨j, va, at_, i⟩ :: r.pending }

/-- The element has been performed. -/
def Progress.did (pr : Progress) (j : Nat) : Bool := pr.taken.any (fun t => t.elem.j == j) || pr.stored.contains j

/-- Hold the instruction in the VLSU until its pending elements resolve (R116), with what it has done. -/
def parkInstr (s : State) (pending : List Pending) (pr : Progress) : Eff :=
  let s := { s with me := { s.me with done_ := some pr } }
  match s.me.underWay with
  | some e => .held { s with me := { s.me.putAside with parked := insertParked ⟨e, pending, none⟩ s.me.parked } }
  | none => .wait s

/-- VTYPE_ILLEGAL of R177. -/
def Strand.memIll (t : Strand) (x : MemOp) (groups : List (BitVec 5)) : Bool :=
  t.vtypeIll (if x.form = .indexed then x.b :: groups else groups)
    || (x.form != .unit && x.form != .tags && decide (t.sewBits < 8)) || (x.form == .tags && decide (t.sewBits < 32))

/-- Some element may be accessed (R180). -/
def Strand.anyElem (t : Strand) : Bool := decide (t.start < t.count)

/-- The index rows are POISON (R178). -/
def State.indexPoison (s : State) (x : MemOp) : Bool :=
  x.form == .indexed && s.me.anyElem && (s.me.groupTags x.b.toNat).any (fun t => classOf t == 2)

/-- A watermark of a partition (R167). -/
def Part.watermark (p : Part) (m : Nat) : Word := look p.wm m 0

/-- The largest bound among the active elements (R188). -/
def State.gateBound (s : State) (x : MemOp) : Nat :=
  let b := s.me.wmBind.toNat
  let g := Nat.min 40 (Nat.max 7 (b / 2 ^ 8 % 64))
  let origin := b / 2 ^ 32 * 2 ^ 24
  ((s.me.actives x.k).map (fun j =>
    let a := s.addrOf x j
    if a < 2 ^ 56 ∧ origin ≤ a then (a - origin) / 2 ^ g + 1 else 0)).foldl Nat.max 0

/-- A gated load waits for its watermark, then acquires at part scope (R188). -/
def gate (x : MemOp) (f : State → Eff) (s : State) : Eff :=
  if s.me.wmBind.getLsbD 14 then
    if ((s.part s.me.part).watermark (s.me.wmBind.toNat % 256)).toNat < s.gateBound x then .wait s else f (s.acquire 3)
  else f s

/-- What a vector memory instruction has done before this turn: nothing when it starts, with its mask and the fronts of then. -/
def State.progress (s : State) (k : BitVec 3) : Progress :=
  s.me.done_.getD { mask := some (s.me.mask k.toNat), fronts := s.fronts s.me.part }

/-- Group indices of the elements still to be performed: active, not done, and below a fault met (R116, R119). -/
def State.todo (s : State) (x : MemOp) (pr : Progress) : List Nat :=
  (s.me.actives x.k).filter (fun j => !pr.did j && (pr.fault.all (fun y => decide (j < y.1))))

/-- Check the instruction, and go on with what it has done before (R177, R178). -/
def withStart (x : MemOp) (groups : List (BitVec 5)) (gated : Bool) (f : Progress → State → Eff) (s : State) : Eff :=
  if s.me.memIll x groups then trap00 s causeVtype x.word
  else
    consume s (s.indexPoison x) 0 (fun s =>
      let go (s : State) : Eff := f (s.progress x.k) s
      if gated then gate x go s else go s)

/-- Check the instruction and find its elements that have still to be performed (R116, R119, R177, R178). -/
def withElems (x : MemOp) (groups : List (BitVec 5)) (gated : Bool) (f : Progress → Found → Eff) (s : State) : Eff :=
  withStart x groups gated (fun pr s => f pr (findElems x pr false (s.todo x pr) s)) s

/-- As `withElems`, for an instruction that performs nothing while an element is pending (R116). -/
def withAll (x : MemOp) (groups : List (BitVec 5)) (f : Found → Eff) (s : State) : Eff :=
  withElems x groups false (fun pr r =>
    if r.pending.isEmpty then f r else parkInstr r.s r.pending { pr with placed := r.elems, fault := r.fault }) s

/-- The scope in effect, counted once for the instruction (R169). -/
def State.clampOnce (s : State) (scope : Nat) : Nat × State :=
  let c := s.clampScope scope
  if s.me.done_.isSome then (c.1, s) else c

/-- Trap at an element's fault, with the resume record of a VSTQ. -/
def trapElemAt (s : State) (f : ElemFault) (rec_ : Option (List Tag × List QEntry)) : Eff :=
  .trap s { cause := f.2.1, val := f.2.2, row := f.1 / s.me.vl, elem := f.1 % s.me.vl, isElem := true, record := rec_ }

/-- Complete, or trap at the fault. -/
def finishMem (s : State) (f : Option ElemFault) : Eff :=
  match f with
  | some x => trapElemAt s x none
  | none => .done s.clearStart

/-! ## Loads -/

/-- Reads of a line. -/
abbrev LineRead := State → LineLoc → Line × Tag × State

/-- Code of element j in the line its address points into. -/
def elemCode (d : Line) (w va j : Nat) : Nat :=
  d.toNat / 2 ^ (8 * (va % 128) + (if w < 8 then j * w % 8 else 0)) % 2 ^ w

/-- R182's computation over a row's lines, while it runs. -/
structure Settle where
  bits : RowBits
  ref : Option Tag
  first : Option Tag := none
  zero : Bool := true
  poison : Bool := false
  dem : Bool := false
  fault : Option ElemFault := none

/-- Read elements in order. -/
def takeElems (read : LineRead) : List Elem → State → List Taken × State
  | [], s => ([], s)
  | e :: es, s =>
    let h := read s e.loc
    let q := takeElems read es h.2.2
    (⟨e, h.1, h.2.1⟩ :: q.1, q.2)

/-- Put one read element among others, ascending. -/
def insertTaken (t : Taken) : List Taken → List Taken
  | [] => [t]
  | u :: us => if t.elem.j < u.elem.j then t :: u :: us else u :: insertTaken t us

/-- Elements read before and now, ascending. -/
def mergeTaken (a b : List Taken) : List Taken := a.foldl (fun acc t => insertTaken t acc) b

/-- One element of loadRowTag (R182); of several causes the one that R184 ranks first. -/
def settleElem (s : State) (x : Settle) (e : Taken) : Settle :=
  if x.fault.isSome then x
  else
    let l := e.tag
    let j := e.elem.j
    let va := BitVec.ofNat 64 e.elem.va
    let w := s.me.sewBits
    let strict := e.elem.loc.strict
    let c0 := if 5 ≤ classOf l then 2 else classOf l
    let stop (c : Nat) (v : Word) : Settle := { x with fault := some (j, c, v) }
    if c0 = 4 ∧ strict = true then stop causeUninit va
    else
      let c := if c0 = 4 then 1 else c0
      let wide := decide ((s.myCtx.fmt (fmtOf l)).container w > w)
      if c = 1 then { x with bits := setElem x.bits w (j % s.me.vl) 0, first := some (x.first.getD l), dem := x.dem || demOf l }
      else if x.ref.any (fun t => fmtOf t != fmtOf l || bscOf t != bscOf l) then stop causeTagMixed va
      else if c = 3 then stop causeConflict va
      else if c = 2 ∧ strict = true then stop causePoison va
      else if wide then stop causeFormatFit (fitVal (fmtOf l) s.me.sew)
      else
        { x with
          bits := setElem x.bits w (j % s.me.vl) (elemCode e.data w e.elem.va j)
          ref := some (x.ref.getD l), first := some (x.first.getD l), zero := false, poison := x.poison || c == 2,
          dem := x.dem || demOf l }

/-- What a load has read: rows by number, and the fault that ends it. -/
structure Loaded where
  s : State
  rows : List (Nat × Row) := []
  fault : Option ElemFault := none

/-- Rows r.. of a load from the elements read: `dest` is the row before it. -/
def loadRows (dest : State → Nat → Row) (k : BitVec 3) (es : List Taken) (f : Option ElemFault) :
    Nat → Nat → State → Loaded
  | 0, _, s => ⟨s, [], none⟩
  | n + 1, r, s =>
    let vl := s.me.vl
    let old := dest s r
    let inRow (j : Nat) : Bool := j / vl == r
    let ref := if r * vl < s.me.start ∧ classOf old.tag ≠ 1 then some old.tag else none
    let x := (es.filter (fun e => inRow e.elem.j)).foldl (settleElem s) { bits := old.bits, ref := ref }
    let flt := match x.fault with
      | some y => some y
      | none => match f with
        | some y => if inRow y.1 then some y else none
        | none => none
    match x.first with
    | none =>
      match flt with
      | some y => ⟨s, [], some y⟩
      | none => loadRows dest k es f n (r + 1) s
    | some first =>
      let kept := s.me.keeps k r || flt.isSome
      let poison := x.poison || (classOf old.tag == 2 && kept)
      let cls := if poison then 2 else if x.zero && (classOf old.tag == 1 || !kept) then 1 else 0
      let t := x.ref.getD first
      if poison && s.me.tePsn then ⟨s, [], some (r * vl, causeFp, 0x20)⟩
      else
        let s := if poison then s.raise flagPSN else s
        let row : Row := ⟨x.bits, mkTag (fmtOf t) (bscOf t) cls x.dem⟩
        match flt with
        | some y => ⟨s, [(r, row)], some y⟩
        | none => let q := loadRows dest k es f n (r + 1) s; { q with rows := (r, row) :: q.rows }

/-- A fault that FF or TF turns into a shorter VL (R183): its element. -/
def trims (s : State) (ff tf : Bool) (f : ElemFault) : Bool :=
  s.me.rc == 1 && decide (0 < f.1) &&
    ((ff && f.2.1 != causeFp && f.2.1 != causeLongStall) || (tf && (f.2.1 == causeTagMixed || f.2.1 == causeConflict)))

/-- Set VL to a trimmed element number. -/
def State.trim (s : State) (f : Option ElemFault) : State :=
  match f with
  | some x => { s with me := { s.me with vl := x.1 } }
  | none => s

/-- The rows of a load written into the group at v. -/
def State.putRows (s : State) (v : Nat) (rows : List (Nat × Row)) : State :=
  rows.foldl (fun s r => { s with me := s.me.setRow (v + r.1) r.2 }) s

/-- The elements of a list that a turn of a load finds and reads: what it met, and the elements read, before and now. -/
def readElems (x : MemOp) (pr : Progress) (inOrder : Bool) (read : LineRead) (js : List Nat) (s : State) : Found × List Taken × State :=
  let r := findElems x pr inOrder js s
  let q := takeElems read r.elems r.s
  (r, mergeTaken pr.taken q.1, q.2)

/-- A load: read every element that is not pending; end when all are read, or when an element below every pending one faults
(R183); else wait with what was read (R116). `dest` is the group before it and `fin` ends it. A load that FF or TF may trim
accesses no element above a pending one, and where it is trimmed none at or above the fault, so that those have no effect
(R183). -/
def loadElems (x : MemOp) (groups : List (BitVec 5)) (gated ff tf : Bool) (read : LineRead) (dest : State → Nat → Row)
    (fin : Loaded → Eff) (s : State) : Eff :=
  withStart x groups gated (fun pr s =>
    let inOrder := (ff || tf) && s.me.rc == 1
    let js := s.todo x pr
    let q := readElems x pr inOrder read js s
    let rows (ts : List Taken) (f : Option ElemFault) (u : State) : Loaded :=
      loadRows dest x.k (ts.filter (fun t => f.all (fun y => decide (t.elem.j < y.1)))) f u.me.rc 0 u
    let end_ (y : Loaded) : Eff :=
      match y.fault with
      | some z => if trims s ff tf z then
          let q := readElems x pr inOrder read (js.filter (fun j => decide (j < z.1))) s
          fin (rows q.2.1 (some z) q.2.2)
        else fin y
      | none => fin y
    match q.1.pending with
    | [] => end_ (rows q.2.1 q.1.fault q.2.2)
    | p :: _ =>
      let y := loadRows dest x.k (q.2.1.filter (fun t => decide (t.elem.j < p.j))) none q.2.2.me.rc 0 q.2.2
      if y.fault.isSome then end_ y else parkInstr q.2.2 q.1.pending { pr with taken := q.2.1, fault := q.1.fault }) s

/-- The end of a load into rows: it completes, trims, or traps with what was loaded. `after` acts when every element has been read,
or at a trap or a trim once one has. -/
def endLoad (v : BitVec 5) (ff tf : Bool) (after : State → State) (q : Loaded) : Eff :=
  let s := q.s.putRows v.toNat q.rows
  match q.fault with
  | none => .done (after s).clearStart
  | some f =>
    let s := if q.rows.isEmpty then s else after s
    if trims s ff tf f then .done (s.trim (some f)).clearStart else trapElemAt s f none

/-- The group at v before a load. -/
def rowsAt (v : BitVec 5) (s : State) (i : Nat) : Row := s.me.row (v.toNat + i)

/-- A plain read at the issuing core (R158, R164). -/
def readPlain (hint : Nat) : LineRead := fun s l => s.loadLine s.me.core l hint s.reader

/-- Clear the valid bits of a line's clean bytes. -/
def Core.clearValid (c : Core) (key : Nat) : Core :=
  let clear (l : L1Line) : L1Line := if l.key = key then { l with valid := 0 } else l
  { c with l1 := (c.l1.map clear).filter (fun l => l.valid != 0 || l.dirty != 0) }

/-- A read at the level of a scope at or above the home: clean copies in the L1 do not serve it (R133, R194). -/
def readLevel (scope : Nat) : LineRead := fun s l =>
  let fused := (s.coil (coilOf s.me.core)).fused
  if scope = 0 ∨ (scope = 1 ∧ fused = true) then s.loadLine s.me.core l 0 s.reader
  else
    match l with
    | .store _ _ => s.loadLine s.me.core l 0 s.reader
    | .page e j =>
      let c := s.l1Core s.me.core e j
      let s := s.updCore c (fun x => x.clearValid l.key)
      s.loadLine s.me.core l 0 s.reader

/-- A read from the home after the line is written back and dropped (R135). -/
def readAtHome : LineRead := fun s l => (s.writeBackAndDrop s.me.core l).readHome l s.reader

/-- VLD, VLDS, VLDX (R194). -/
def loadV (x : MemOp) (v : BitVec 5) (ff tf : BitVec 1) (hint : BitVec 2) (t : BitVec 2) (s : State) : Out :=
  runOrdered t (loadElems x [v] true (ff == 1) (tf == 1) (readPlain hint.toNat) (rowsAt v) (endLoad v (ff == 1) (tf == 1) id)) s

/-- MODM of a load. -/
def loadModm (f g : BitVec 1) (h : BitVec 2) : Nat := f.toNat * 8 + g.toNat * 4 + h.toNat

def execVld (v a b : BitVec 5) (k : BitVec 3) (f g : BitVec 1) (h t : BitVec 2) (s : State) : Out :=
  loadV ⟨wordVM 0xC0 v a b k (loadModm f g h) t, .unit, a, b, k, .read, false⟩ v f g h t s

def execVlds (v a b : BitVec 5) (k : BitVec 3) (f g : BitVec 1) (h t : BitVec 2) (s : State) : Out :=
  loadV ⟨wordVM 0xC1 v a b k (loadModm f g h) t, .strided, a, b, k, .read, false⟩ v f g h t s

def execVldx (v a b : BitVec 5) (k : BitVec 3) (f g : BitVec 1) (h t : BitVec 2) (s : State) : Out :=
  loadV ⟨wordVM 0xC2 v a b k (loadModm f g h) t, .indexed, a, b, k, .read, false⟩ v f g h t s

/-- Entries of queue n that a VLDQ has reserved (R251). -/
def State.setReserved (s : State) (q n : Nat) : State :=
  let p := s.pair s.me.pairNo
  s.setPair s.me.pairNo { p with reserved := p.reserved.setIfInBounds q n }

/-- The end of a VLDQ: its rows become visible, or its reservation is discarded (R196). -/
def endVldq (n : Nat) (ff tf : Bool) (y : Loaded) : Eff :=
  let s := y.s.setReserved n 0
  let push (s : State) : State := s.pushVq n ((List.range s.me.rc).map (fun i => ⟨look y.rows i {}, s.me.sew, s.me.vl⟩))
  match y.fault with
  | none => .done (push s).clearStart
  | some z => if trims s ff tf z then .done (push (s.trim (some z))).clearStart else trapElemAt s z none

/-- A VLDQ that is parked keeps its entries reserved (R196, R251). -/
def Eff.reserving (e : Eff) (q n : Nat) : Eff :=
  match e with
  | .held s => .held (s.setReserved q n)
  | e => e

/-- VLDQ (R196): rows delivered to queue q; nothing is pushed by a trap. -/
def execVldq (q a b : BitVec 5) (k : BitVec 3) (f g : BitVec 1) (h t : BitVec 2) (s : State) : Out :=
  runOrdered t (fun s =>
    let n := q.toNat
    let x : MemOp := ⟨wordVM 0xC3 q a b k (loadModm f g h) t, .unit, a, b, k, .read, false⟩
    if s.me.memIll x [] then trap00 s causeVtype x.word
    else if !s.me.writesQ n then misuse s n 1 0 0
    else if s.qClosed n then misuse s n 2 0 0
    else if 8 < (s.vq n).length + s.me.rc then .wait s
    else (loadElems x [] true (f == 1) (g == 1) (readPlain h.toNat) (fun _ _ => {}) (endVldq n (f == 1) (g == 1)) s).reserving n s.me.rc) s

/-- VLDA (R194). -/
def execVlda (v a b : BitVec 5) (k : BitVec 3) (f : BitVec 1) (scope : BitVec 3) (t : BitVec 2) (s : State) : Out :=
  let x : MemOp := ⟨wordVM 0xC8 v a b k (f.toNat * 8 + scope.toNat) t, .unit, a, b, k, .read, false⟩
  runOrdered t (fun s =>
    let n := (s.clampScope scope.toNat).1
    loadElems x [v] true (f == 1) false (readLevel n) (rowsAt v) (fun q =>
      endLoad v (f == 1) false (fun s => s.acquire n) { q with s := (q.s.clampScope scope.toNat).2 }) s) s

/-- VLDTAG (R197). -/
def execVldtag (v a b : BitVec 5) (k : BitVec 3) (f g : BitVec 1) (h t : BitVec 2) (s : State) : Out :=
  let x : MemOp := ⟨wordVM 0xCC v a b k (loadModm f g h) t, .tags, a, b, k, .read, false⟩
  runOrdered t (withStart x [v] false (fun pr s =>
    let inOrder := (f == 1 || g == 1) && s.me.rc == 1
    let js := s.todo x pr
    let q := readElems x pr inOrder (readPlain h.toNat) js s
    if !q.1.pending.isEmpty then parkInstr q.2.2 q.1.pending { pr with taken := q.2.1, fault := q.1.fault }
    else
      let put (ts : List Taken) (u : State) : State :=
        let tag := mkTag (if u.me.sewBits = 32 then 18 else 17) 127 0 false
        (ts.filter (fun t => q.1.fault.all (fun y => decide (t.elem.j < y.1)))).foldl (fun s e =>
          let n := v.toNat + e.elem.j / s.me.vl
          (s.setCode n (e.elem.j % s.me.vl) e.tag.toNat).setRowTag n tag) u
      match q.1.fault with
      | none => .done (put q.2.1 q.2.2).clearStart
      | some z =>
        if trims s (f == 1) (g == 1) z then
          let q := readElems x pr inOrder (readPlain h.toNat) (js.filter (fun j => decide (j < z.1))) s
          .done ((put q.2.1 q.2.2).trim (some z)).clearStart
        else trapElemAt (put q.2.1 q.2.2) z none)) s

/-! ## Stores (R181, R185, R186) -/

/-- Where a store puts its bytes: the state after it, or none when growth is refused. -/
abbrev LineWrite := State → LineLoc → Write → Word → Option State × State

/-- The demotion format of a line's page (R186). -/
def LineLoc.demote? : LineLoc → Option Nat
  | .store _ _ => none
  | .page e _ => if e.dem = 1 ∧ e.host = false then some e.dfmt else none

/-- The format is a floating or fixed-point one. -/
def Fmt.isReal (f : Fmt) : Bool := f.kind == .float || f.kind == .fixedPt

/-- An element as a store writes it: tag, code, flags of its demotion, whether its code changed. -/
structure OutElem where
  tag : Tag
  code : Nat
  flags : Nat := 0
  changed : Bool := false
  /-- it was rounded into the page's format -/
  demoted : Bool := false
  deriving DecidableEq, Repr

/-- Demotion of element e of a row stored to a line (R186). -/
def State.outElem (s : State) (row : Row) (loc : LineLoc) (e : Nat) : OutElem :=
  let c := s.myCtx
  let t := row.tag
  let code := rowCode row.bits t s.me.sewBits e
  let plain : OutElem := { tag := withDem t false, code := code }
  match loc.demote? with
  | none => plain
  | some g =>
    let f := c.fmt (fmtOf t)
    let tgt := c.fmt g
    if classOf t = 0 ∧ f.isReal = true ∧ tgt.isReal = true then
      let bsc := if tgt.scaled then (if f.scaled then bscOf t else s.me.osc.toNat % 256) else 127
      if fmtOf t = g ∧ bscOf t = bsc then plain
      else
        let v := roundTo tgt bsc ⟨0, 0, true⟩ (rowValue c t code)
        { tag := mkTag g bsc 0 false, code := v.1, flags := v.2, changed := v.1 != code, demoted := true }
    else plain

/-- The bytes element j writes: their number, value and what they come from. A narrow element's byte is written whole from the rows
(R181), so a changed code of any element in it counts for DEM, and the flags of those that are not active with the element's own:
an active one raises its own (R186). `rows` numbers the group's rows. -/
def State.outBytes (s : State) (k : BitVec 3) (rows : Nat → Row) (loc : LineLoc) (j : Nat) : Nat × Nat × OutElem :=
  let w := s.me.sewBits
  let vl := s.me.vl
  let at_ (i : Nat) : OutElem := let r := Nat.min (i / vl) (s.me.rc - 1); s.outElem (rows r) loc (i - r * vl)
  let own := at_ j
  if 8 ≤ w then (w / 8, own.code, own)
  else
    let per := 8 / w
    let byte := (List.range per).map (fun i => (i, j / per * per + i, at_ (j / per * per + i)))
    (1, byte.foldl (fun acc x => acc + x.2.2.code % 2 ^ w * 2 ^ (w * x.1)) 0,
     { own with
       changed := byte.any (fun x => x.2.2.changed)
       flags := byte.foldl (fun fl x => if x.2.1 < s.me.count && s.me.act k x.2.1 then fl else fl ||| x.2.2.flags) own.flags })

/-- Bytes gathered for one line under one tag. -/
structure Run where
  loc : LineLoc
  data : Line
  mask : ByteMask
  tag : Tag
  dem : Bool
  demoted : Bool
  j : Nat
  va : Nat
  flags : Nat

/-- The write that a run makes. -/
def Run.write (x : Run) (s : State) : Write :=
  { data := x.data, mask := x.mask, tag := withDem x.tag x.dem, typed := true, width := (s.myCtx.fmt (fmtOf x.tag)).container s.me.sewBits
    keepDem := x.demoted }

/-- Write a run; CHUNK_DENIED at its first element when growth is refused (R94). -/
def flushRun (put : LineWrite) (s : State) (r : Option Run) : State × Option ElemFault :=
  match r with
  | none => (s, none)
  | some x =>
    let va := BitVec.ofNat 64 x.va
    match put s x.loc (x.write s) va with
    | (some t, _) => (t.raise x.flags, none)
    | (none, t) => (t, some (x.j, causeChunk, va))

/-- Add an element's bytes to the run it continues. -/
def Run.extend (x : Run) (off n v : Nat) (e : OutElem) : Run :=
  { x with
    data := mergeLine x.data (lineOfNat v off n) (byteRun off n), mask := x.mask ||| byteRun off n,
    dem := x.dem || e.changed, demoted := x.demoted || e.demoted, flags := x.flags ||| e.flags }

/-- What stops an element before it is written, ranks 11 to 13 of Table 1 of R184: a format too wide, a refused growth, and then the
flags of its demotion. `w` is the write it would make. -/
def storeCause (put : LineWrite) (s : State) (row : Row) (e : Elem) (own : OutElem) (w : Write) : Option (ElemFault × State) :=
  let sew := s.me.sewBits
  let tr := trapFlags s.me.fcsr own.flags
  if e.loc.device && classOf row.tag != 1 && decide ((s.myCtx.fmt (fmtOf row.tag)).container sew > sew) then
    some ((e.j, causeFormatFit, fitVal (fmtOf row.tag) s.me.sew), s)
  else if tr = 0 then none
  else match put s e.loc w (BitVec.ofNat 64 e.va) with
    | (some _, _) => some ((e.j, causeFp, BitVec.ofNat 64 tr), s)
    | (none, u) => some ((e.j, causeChunk, BitVec.ofNat 64 e.va), u)

/-- Store elements in ascending order: the state, and the lowest fault met. With `gather` the elements of a line that follow each
other under one tag make one write, line-atomic where they cover it (R157, R185); without it each makes its own. -/
def storeElems (k : BitVec 3) (gather : Bool) (put : LineWrite) (rows : Nat → Row) : List Elem → Option Run → State → State × Option ElemFault
  | [], run, s => flushRun put s run
  | e :: es, run, s =>
    let row := rows (e.j / s.me.vl)
    let b := s.outBytes k rows e.loc e.j
    let own := b.2.2
    let off := e.va % 128
    let new : Run := Run.extend ⟨e.loc, 0, 0, own.tag, false, false, e.j, e.va, 0⟩ off b.1 b.2.1 b.2.2
    let joins := match run with
      | some x => gather && x.loc == e.loc && x.tag == own.tag
      | none => false
    let stop := (storeCause put s row e own (new.write s)).isSome
    if joins && !stop then storeElems k gather put rows es (run.map (fun x => x.extend off b.1 b.2.1 b.2.2)) s
    else
      let y := flushRun put s run
      match y.2 with
      | some z => (y.1, some z)
      | none => match storeCause put y.1 row e own (new.write y.1) with
        | some z => (z.2, some z.1)
        | none => storeElems k gather put rows es (some new) y.1

/-- A plain write (R131), with a placement hint. -/
def writePlain (hint : Nat) : LineWrite := fun s l w va => s.storeLine s.me.core l w hint s.me.pm s.reader va

/-- A write at the level of a scope (R195): through to the home above the L1's own level. -/
def writeLevel (scope : Nat) : LineWrite := fun s l w va =>
  let fused := (s.coil (coilOf s.me.core)).fused
  if scope = 0 ∨ (scope = 1 ∧ fused = true) then s.storeLine s.me.core l w 0 s.me.pm s.reader va
  else s.storeThrough s.me.core l w s.me.pm s.reader va

/-- The lower of a fault met while acting on the elements and the one that cut them off. -/
def firstFault (a b : Option ElemFault) : Option ElemFault :=
  match a with
  | some x => some x
  | none => b

/-- Of some elements, ascending, those that may be performed before the pending ones: not one that may write a byte of a lower element
that is still to be performed, whatever pages name it (R143, R146, R195). -/
def clearOf (core n : Nat) : List (Nat × Nat) → List Elem → List Elem
  | _, [] => []
  | held, e :: es =>
    let at_ (a : Nat) : Nat := placeOf core a
    if held.any (fun p => decide (p.1 < e.j) && mayMeet (at_ e.va) n (at_ p.2) (at_ p.2 + n)) then clearOf core n ((e.j, e.va) :: held) es
    else e :: clearOf core n held es

/-- A store: perform the elements that are not pending, or for an `ordered` one those below every pending one; end when all have
been performed, or when one below every pending one faults; else wait (R116). -/
def storeAll (x : MemOp) (groups : List (BitVec 5)) (ordered gather : Bool) (put : LineWrite) (rows : Nat → Row)
    (fin : State → Option ElemFault → Eff) (s : State) : Eff :=
  withElems x groups false (fun pr r =>
    match r.pending with
    | [] => let q := storeElems x.k gather put rows r.elems none r.s; fin q.1 (firstFault q.2 r.fault)
    | p :: _ =>
      let go := if ordered then r.elems.filter (fun e => decide (e.j < p.j))
        else clearOf r.s.me.core ((r.s.me.sewBits + 7) / 8) (r.pending.map (fun p => (p.j, p.va))) r.elems
      let q := storeElems x.k gather put rows go none r.s
      match q.2 with
      | none => parkInstr q.1 r.pending { pr with
          stored := pr.stored ++ go.map (fun e => e.j)
          placed := r.elems.filter (fun e => !go.contains e)
          fault := r.fault }
      | some f =>
        if f.1 < p.j then fin q.1 (some f)
        else parkInstr q.1 (r.pending.filter (fun p => decide (p.j < f.1))) { pr with
          stored := pr.stored ++ (go.map (fun e => e.j)).filter (fun j => decide (j < f.1))
          placed := []
          fault := some f }) s

/-- VST, VSTS, VSTX (R195): a unit-stride store performs no element above a pending one (R116). -/
def storeV (x : MemOp) (v : BitVec 5) (hint t : BitVec 2) (s : State) : Out :=
  runOrdered t (fun s =>
    storeAll x [v] (x.form == .unit) (x.form == .unit) (writePlain hint.toNat) (fun i => s.me.row (v.toNat + i)) finishMem s) s

def execVst (v a b : BitVec 5) (k : BitVec 3) (h t : BitVec 2) (s : State) : Out :=
  storeV ⟨wordVM 0xC4 v a b k h.toNat t, .unit, a, b, k, .write, false⟩ v h t s

def execVsts (v a b : BitVec 5) (k : BitVec 3) (h t : BitVec 2) (s : State) : Out :=
  storeV ⟨wordVM 0xC5 v a b k h.toNat t, .strided, a, b, k, .write, false⟩ v h t s

def execVstx (v a b : BitVec 5) (k : BitVec 3) (h t : BitVec 2) (s : State) : Out :=
  storeV ⟨wordVM 0xC6 v a b k h.toNat t, .indexed, a, b, k, .write, false⟩ v h t s

/-- Entries that a VSTQ has already popped: by itself before it was parked, or before the trap that RETT came back from (R196). -/
def Strand.poppedBefore (t : Strand) : Option (List QEntry) :=
  match t.done_.bind (fun p => p.popped) with
  | some es => some es
  | none =>
    if t.resumeUse then
      match t.resume with
      | some r => if r.entries.length = t.rc then some r.entries else none
      | none => none
    else none

/-- VSTQ (R196): the entries are popped at issue; a trap keeps them, and a resumed or replayed VSTQ stores from them. -/
def execVstq (q a b : BitVec 5) (k : BitVec 3) (h t : BitVec 2) (s : State) : Out :=
  runOrdered t (fun s =>
    let n := q.toNat
    let x : MemOp := ⟨wordVM 0xC7 q a b k h.toNat t, .unit, a, b, k, .write, false⟩
    let store (es : List QEntry) (s : State) : Eff :=
      let s := { s with me := { s.me with done_ := some { s.progress k with popped := some es } } }
      storeAll x [] true true (writePlain h.toNat) (fun i => (es[i]?.map (fun e => e.row)).getD {}) (fun s f =>
        match f with
        | some f => trapElemAt s f (some ([], es))
        | none => .done s.clearStart) s
    if s.me.memIll x [] then trap00 s causeVtype x.word
    else match s.me.poppedBefore with
      | some es => store es s
      | none =>
        if s.me.writesQ n then misuse s n 1 0 0
        else if (s.vq n).length < s.me.rc then (if s.qClosed n then misuse s n 2 0 0 else .wait s)
        else store ((s.vq n).take s.me.rc) (s.setVq n ((s.vq n).drop s.me.rc))) s

/-- VSTR (R195): a release at its scope, then a write-through store. -/
def execVstr (v a b : BitVec 5) (k : BitVec 3) (scope : BitVec 3) (t : BitVec 2) (s : State) : Out :=
  let x : MemOp := ⟨wordVM 0xC9 v a b k scope.toNat t, .unit, a, b, k, .write, false⟩
  runOrdered t (fun s =>
    if s.me.memIll x [v] then trap00 s causeVtype x.word
    else
      let c := s.clampOnce scope.toNat
      let s := if s.me.done_.isSome then c.2 else c.2.release c.1
      storeAll x [v] true true (writeLevel c.1) (fun i => s.me.row (v.toNat + i)) finishMem s) s

/-! ## Line actions (R198) -/

/-- One element for each line, the lowest. -/
def distinctLines : List Elem → List Elem
  | [] => []
  | e :: es => e :: (distinctLines es).filter (fun x => x.loc.key != e.loc.key)

/-- Clear a line; CHUNK_DENIED, at the element that names it, when growth is refused. -/
def zeroLine (hint : Nat) (y : State × Option ElemFault) (e : Elem) : State × Option ElemFault :=
  match y.2 with
  | some _ => y
  | none =>
    let va := BitVec.ofNat 64 e.va
    match writePlain hint y.1 e.loc ⟨0, fullMask, zeroTag, true, 0, false⟩ va with
    | (some t, _) => (t, none)
    | (none, t) => (t, some (e.j, causeChunk, va))

/-- VZERO. -/
def execVzero (a b : BitVec 5) (k : BitVec 3) (h t : BitVec 2) (s : State) : Out :=
  let x : MemOp := ⟨wordVM 0xCB 0 a b k h.toNat t, .unit, a, b, k, .write, false⟩
  runOrdered t (withElems x [] false (fun pr r =>
    let go := match r.pending with
      | [] => r.elems
      | p :: _ => r.elems.filter (fun e => decide (e.j < p.j))
    let q := (distinctLines go).foldl (zeroLine h.toNat) (r.s, none)
    if r.pending.isEmpty || q.2.isSome then finishMem q.1 (firstFault q.2 r.fault)
    else parkInstr q.1 r.pending { pr with
      stored := pr.stored ++ go.map (fun e => e.j)
      placed := r.elems.filter (fun e => !go.contains e)
      fault := r.fault })) s

/-- Act once on each covered line that translates (R116, R198). The spec names no permission for VPF, VFLUSH and VINVL: the model's
translation is a read's (assumption 81). -/
def State.coverLines (s : State) (x : MemOp) (f : State → LineLoc → State) : State :=
  ((s.me.actives x.k).foldl (fun (y : State × List Nat) j =>
    let q := y.1.quietly { y.1.walker with vlsu := true } (fun b => b.2.front) (y.1.addrOf x j) .read
    match q.1 with
    | none => (q.2, y.2)
    | some l => if y.2.contains l.key then (q.2, y.2) else (f q.2 l, l.key :: y.2)) (s, [])).1

/-- VPF: fills the covered lines into the L1. -/
def execVpf (a b : BitVec 5) (k : BitVec 3) (h t : BitVec 2) (s : State) : Out :=
  let x : MemOp := ⟨wordVM 0xCA 0 a b k h.toNat t, .unit, a, b, k, .read, false⟩
  runOrdered t (vecOp x.word [] (fun _ => false) (fun s =>
    .done (s.coverLines x (fun s l => (s.loadLine s.me.core l h.toNat s.reader).2.2)).clearStart)) s

/-- VFLUSH and VINVL: below the level of the scope. -/
def lineAction (op : Nat) (a b : BitVec 5) (k : BitVec 3) (scope : BitVec 3) (t : BitVec 2)
    (f : State → Nat → Nat → State) (s : State) : Out :=
  let x : MemOp := ⟨wordVM op 0 a b k scope.toNat t, .unit, a, b, k, .read, false⟩
  runOrdered t (vecOp x.word [] (fun _ => false) (fun s =>
    let c := s.clampScope scope.toNat
    let below := !(c.1 == 0 || (c.1 == 1 && (s.coil (coilOf s.me.core)).fused))
    .done (c.2.coverLines x (fun s l =>
      match l with
      | .store _ _ => s
      | .page e j => if below then f s (s.l1Core s.me.core e j) l.key else s)).clearStart)) s

/-- VFLUSH: writes back the issuing core's dirty bytes. -/
def execVflush (a b : BitVec 5) (k : BitVec 3) (scope : BitVec 3) (t : BitVec 2) (s : State) : Out :=
  lineAction 0xCD a b k scope t (fun s core key => s.writeBackLine core key) s

/-- VINVL: clears the valid bits of clean bytes. -/
def execVinvl (a b : BitVec 5) (k : BitVec 3) (scope : BitVec 3) (t : BitVec 2) (s : State) : Out :=
  lineAction 0xCE a b k scope t (fun s core key => s.updCore core (fun c => c.clearValid key)) s

end Sys2Proof.Machine
end

