-- ==== Sys2Proof/Machine/VectorMove.lean ====
section
/-!
DEFINITION. Moves, tags, conversions and classes (R275–R281) and permuting instructions (R283–R288).
-/
namespace Sys2Proof.Machine

/-! ## Moves and tags -/

/-- Values of the active elements, from a list in group order. -/
def Strand.activeVals (t : Strand) (k : BitVec 3) (vals : List Nat) (j : Nat) : Option Nat :=
  if t.act k j then vals[j]? else none

/-- VMV: from a row group under its tags, or a splat code under the row's own FMT, BSC and DEM (R275). Where the groups overlap without
coinciding, every source row is read before the first row is written, in VTAG too (assumption 81). -/
def moveV (form : Nat) (src : State → Src) (d b : BitVec 5) (k : BitVec 3) (t : BitVec 2) (s : State) : Out :=
  runOrdered t (fun s =>
    let x := src s
    vecOp (wordV 0x81 form d 0 b k 0 t) (d :: x.groups) (fun _ => false) (fun s =>
      match x with
      | .row v =>
        let tags := s.me.groupTags v.toNat
        let tag (r : Nat) := tags.getD r 0
        writeRows ⟨d.toNat, tag, fun r => [tag r], s.me.retains k, s.me.activeVals k (s.me.groupCodes v.toNat), false⟩ s.me.rc 0 s
      | .splat y _ =>
        let tags := s.me.groupTags d.toNat
        let c := y.toNat % 2 ^ s.me.sewBits
        writeRows ⟨d.toNat, fun r => tags.getD r 0, fun _ => [], s.me.retains k, s.me.activeVals k (List.replicate s.me.count c), false⟩
          s.me.rc 0 s) s) s

def execVmvVv (d b : BitVec 5) (k : BitVec 3) (t : BitVec 2) (s : State) : Out := moveV 0 (srcVV b) d b k t s

def execVmvVs (d sb : BitVec 5) (k : BitVec 3) (t : BitVec 2) (s : State) : Out := moveV 1 (srcVS sb) d sb k t s

def execVmvVi (d imm : BitVec 5) (k : BitVec 3) (t : BitVec 2) (s : State) : Out := moveV 2 (srcVI imm) d imm k t s

/-- One element, or the tag of row va, into sd (R276); the start point stays (assumption 67). -/
def execVmvx (d a b : BitVec 5) (t : BitVec 2) (s : State) : Out :=
  runOrdered t (vecOp (wordV 0x82 0 d a b 0 0 t) [a] (fun _ => false) (fun s =>
    let j := (s.capB b).toNat
    if j = 2 ^ 64 - 1 then .done (s.setRegV d ((s.me.tag a.toNat).setWidth 64))
    else if j < s.me.count then
      let row := s.me.row (a.toNat + j / s.me.vl)
      let v := rowCode row.bits row.tag s.me.sewBits (j % s.me.vl)
      consume s (classOf row.tag == 2) 0 (fun s => .done (s.setRegV d (BitVec.ofNat 64 v)))
    else .done (s.setRegV d 0))) s

/-- One element from sa (R276). -/
def execVmvs (d a b : BitVec 5) (t : BitVec 2) (s : State) : Out :=
  runOrdered t (vecOp (wordV 0x83 0 d a b 0 0 t) [d] (fun _ => false) (fun s =>
    let j := (s.capB b).toNat
    if j < s.me.count then
      let r := j / s.me.vl
      let v := d.toNat + r
      let tag := s.me.tag v
      let x := (s.capA a).toNat % 2 ^ (s.myCtx).cw (fmtOf tag) s.me.sewBits
      consume s (classOf tag == 2) r (fun s =>
        let s := s.setCode v (j % s.me.vl) x
        .done (s.setRowTag v (withClass tag (rowClass [tag] (s.me.zeroRow v)))))
    else .done s)) s

/-- Codes under a tag from s[sb] (R277). -/
def execVtag (d a b : BitVec 5) (k : BitVec 3) (t : BitVec 2) (s : State) : Out :=
  runOrdered t (vecOp (wordV 0x84 0 d a b k 0 t) [d, a] (fun _ => false) (fun s =>
    let x := (s.capB b).toNat
    let f := x % 64
    if (s.myCtx.fmt f).container s.me.sewBits > s.me.sewBits then trapAt s causeFormatFit (fitVal f s.me.sew) 0 0
    else
      let tag := mkTag f (x / 64 % 256) 0 (x / 2 ^ 17 % 2 == 1)
      let ops := s.me.groupTags a.toNat
      writeRows ⟨d.toNat, fun _ => tag, fun r => [ops.getD r 0], s.me.retains k, s.me.activeVals k (s.me.groupCodes a.toNat),
        x / 2 ^ 14 % 8 == 2⟩ s.me.rc 0 s)) s

/-- The group index of each active element, as NATSEW (R281). -/
def execVid (d : BitVec 5) (k : BitVec 3) (t : BitVec 2) (s : State) : Out :=
  runOrdered t (vecOp (wordV 0x86 0 d 0 0 k 0 t) [d] (fun _ => false) (fun s =>
    writeRows ⟨d.toNat, fun _ => mkTag (22 - s.me.sew) 127 0 false, fun _ => [], s.me.retains k,
      s.me.activeVals k (List.range s.me.count), false⟩ s.me.rc 0 s)) s

/-! ## Conversions -/

/-- A value converted to format f (R278): integers wrap or clamp, other values convert to integers with saturation. -/
def convertTo (f : Fmt) (bsc : Nat) (r : Rounding) (fromInt : Bool) (v : Num) : Nat × Nat :=
  if f.isInt then
    match fromInt, v.int? with
    | true, some i => f.intResult r.sat i
    | _, _ => toIntSat f r v
  else roundTo f bsc r v

/-- VCVT to format `g` (R278). -/
def cvtX (g : Nat) (d a : BitVec 5) (k : BitVec 3) (m : BitVec 2) : Elementwise :=
  { d := d, srcs := [a], k := k, m := m
    rowTag := fun s _ tags =>
      let c := s.myCtx
      let ta := tags.headD 0
      let f := c.fmt g
      if f.kind = .none ∨ f.kind = .e8m0 ∨ (classOf ta ≠ 1 ∧ (c.fmt (fmtOf ta)).kind = .none) then
        .error (causeFormatPair, pairVal (fmtOf ta) g)
      else if f.container s.me.sewBits > s.me.sewBits then .error (causeFormatFit, fitVal g s.me.sew)
      else .ok (mkTag g (resultBsc c g s.me.osc [ta]) 0 false)
    op := fun s tags t codes r =>
      let c := s.myCtx
      let ta := tags.headD 0
      let fromInt := classOf ta == 1 || (c.fmt (fmtOf ta)).isInt
      let v := convertTo (c.fmt (fmtOf t)) (bscOf t) r fromInt (rowValue c ta (codes.headD 0))
      { code := v.1, flags := v.2 } }

def execVcvt (d a b : BitVec 5) (k : BitVec 3) (m t : BitVec 2) (s : State) : Out :=
  runOrdered t (fun s => elementwise (wordV 0x85 0 d a b k m t) (cvtX ((s.capB b).toNat % 64) d a k m) s) s

/-- m ≤ n for magnitudes. -/
def magLe (a b : Num) : Bool :=
  match a, b with
  | .fin _ n d _, .fin _ m e _ => decide (n * e ≤ m * d)
  | _, _ => false

/-- The automatic block scale of values in a SCALED format (R236, R279). -/
def autoBsc (f : Fmt) (vals : List Num) : Nat :=
  if vals.any Num.isNan then 255
  else if vals.any Num.isInf then 254
  else if vals.all Num.isZero then 127
  else
    let top := f.decode (f.maxSigned false)
    ((List.range 255).find? (fun (sc : Nat) => vals.all (fun v => magLe v (top.mul2 ((sc : Int) - 127))))).getD 254

/-- VSCALE to the block scale that `x` names (R279). -/
def scaleX (x : Nat) (d a : BitVec 5) (k : BitVec 3) (m : BitVec 2) : Elementwise :=
  { d := d, srcs := [a], k := k, m := m
    rowTag := fun s r tags =>
      let c := s.myCtx
      let ta := tags.headD 0
      let f := c.fmt (fmtOf ta)
      if !f.scaled then .error (causeFormatPair, pairVal (fmtOf ta) 0)
      else
        let row := s.me.row (a.toNat + r)
        let es := (List.range s.me.vl).filter (fun e => s.me.act k (r * s.me.vl + e))
        let bsc := if x / 256 % 2 = 1 then
            autoBsc f (es.map (fun e => rowValue c ta (rowCode row.bits ta s.me.sewBits e)))
          else x % 256
        .ok (mkTag (fmtOf ta) bsc 0 false)
    op := fun s tags t codes r =>
      let c := s.myCtx
      let v := roundTo (c.fmt (fmtOf t)) (bscOf t) r (rowValue c (tags.headD 0) (codes.headD 0))
      { code := v.1, flags := v.2 } }

def execVscale (d a b : BitVec 5) (k : BitVec 3) (m t : BitVec 2) (s : State) : Out :=
  runOrdered t (fun s => elementwise (wordV 0x87 0 d a b k m t) (scaleX (s.capB b).toNat d a k m) s) s

/-- Bits 0–9 of Table 5 of R280. -/
def vclassBits (f : Fmt) (bsc code : Nat) : Nat :=
  match f.kind with
  | .none => if code = 0 then 16 else 64
  | .e8m0 => if code % 256 = 255 then 512 else 64
  | .int => let i := signedOf f.m code; if i < 0 then 2 else if i = 0 then 16 else 64
  | .nat => if code % 2 ^ f.m = 0 then 16 else 64
  | _ => if f.scaled && bsc == 255 then 512 else classBits f (f.decode code) code

/-- VCLASS (R280). -/
def classX (d a : BitVec 5) (k : BitVec 3) : Elementwise :=
  { d := d, srcs := [a], k := k, m := 0, plain := true
    rowTag := fun s _ _ => if s.me.sewBits < 16 then .error (causeFormatFit, fitVal 19 s.me.sew) else .ok (mkTag 19 127 0 false)
    op := fun s tags _ codes _ =>
      let ta := tags.headD 0
      { code := vclassBits (s.myCtx.fmt (fmtOf ta)) (bscOf ta) (codes.headD 0)
          + (if classOf ta = 2 then 1024 else 0) + (if classOf ta = 1 then 2048 else 0) } }

def execVclass (d a : BitVec 5) (k : BitVec 3) (t : BitVec 2) (s : State) : Out :=
  runOrdered t (vecOp (wordV 0x88 0 d a 0 k 0 t) [d, a] (fun q => q.straddle d a) (fun s =>
    if s.me.sewBits < 16 then trapAt s causeFormatFit (fitVal 19 s.me.sew) 0 0
    else elementwise (wordV 0x88 0 d a 0 k 0 t) (classX d a k) s)) s

/-! ## Permuting instructions (R283) -/

/-- Read the sources, make every check at (0, 0), and write each destination row under the group tag. `also` are further
operand rows (VRGATH's index); `below` are elements that stay only because they lie below the start point: they do not make
their row's previous tag an operand (R77). -/
def permute (word : Word) (d : BitVec 5) (srcs also : List (BitVec 5)) (below : State → Nat → Bool)
    (vals : State → Tag → Nat → Option Nat) (s : State) : Eff :=
  vecOp word (d :: srcs ++ also) (fun _ => false) (fun s =>
    let tags := (srcs.map (fun v => s.me.groupTags v.toNat)).flatten
    match groupTag tags with
    | .error f =>
      -- a group that does not agree in itself is named before two groups that differ
      let f := match (srcs.map (fun v => groupTag (s.me.groupTags v.toNat))).find? (fun g => !g.isOk) with
        | some (.error q) => q
        | _ => f
      trapAt s causeFormatPair (pairVal f.1 f.2) 0 0
    | .ok g =>
      let ops := tags ++ (also.map (fun v => s.me.groupTags v.toNat)).flatten
      let out := vals s g
      let kept (r : Nat) : Bool := decide (s.me.vl < s.me.vlmax) ||
        (List.range s.me.vl).any (fun e => (out (r * s.me.vl + e)).isNone && !below s (r * s.me.vl + e))
      let prev := (List.range s.me.rc).filter kept
      let poison := (ops ++ prev.map (fun r => s.me.tag (d.toNat + r))).any (fun t => classOf t == 2)
      consume s poison 0 (fun s => writeRows ⟨d.toNat, fun _ => withClass g 0, fun _ => ops, kept, out, false⟩ s.me.rc 0 s)) s

/-- Group element j is active but for the start point (R180). -/
def Strand.belowStart (t : Strand) (k : BitVec 3) (j : Nat) : Bool := decide (j < t.start) && t.active k j

/-- VMERGE (R284). -/
def mergeV (form : Nat) (src : State → Src) (d a b : BitVec 5) (k : BitVec 3) (t : BitVec 2) (s : State) : Out :=
  runOrdered t (fun s =>
    let x := src s
    permute (wordV 0x89 form d a b k 0 t) d (a :: x.groups) [] (fun _ _ => false) (fun s _ =>
      let ca := s.me.groupCodes a.toNat
      let cb := match x with
        | .row v => s.me.groupCodes v.toNat
        | .splat y _ => List.replicate s.me.count (y.toNat % 2 ^ s.me.sewBits)
      let out := (List.range s.me.count).map (fun j => if s.me.active k j then cb.getD j 0 else ca.getD j 0)
      fun j => out[j]?) s) s

def execVmergeVv (d a b : BitVec 5) (k : BitVec 3) (t : BitVec 2) (s : State) : Out := mergeV 0 (srcVV b) d a b k t s

def execVmergeVs (d a sb : BitVec 5) (k : BitVec 3) (t : BitVec 2) (s : State) : Out := mergeV 1 (srcVS sb) d a sb k t s

def execVmergeVi (d a imm : BitVec 5) (k : BitVec 3) (t : BitVec 2) (s : State) : Out := mergeV 2 (srcVI imm) d a imm k t s

/-- The selected group indices, ascending (R285). -/
def Strand.selected (t : Strand) (k : BitVec 3) : List Nat := (List.range t.count).filter (fun j => t.active k j)

/-- VCOMPRESS: the i-th selected element to element i (R285). -/
def execVcompress (d a : BitVec 5) (k : BitVec 3) (t : BitVec 2) (s : State) : Out :=
  runOrdered t (permute (wordV 0x8A 0 d a 0 k 0 t) d [a] [] (fun _ _ => false) (fun s _ =>
    let ca := s.me.groupCodes a.toNat
    let out := (s.me.selected k).map (fun j => ca.getD j 0)
    fun i => out[i]?)) s

/-- VEXPAND: element i to the i-th selected element (R285). -/
def execVexpand (d a : BitVec 5) (k : BitVec 3) (t : BitVec 2) (s : State) : Out :=
  runOrdered t (permute (wordV 0x8B 0 d a 0 k 0 t) d [a] [] (fun _ _ => false) (fun s _ =>
    let ca := s.me.groupCodes a.toNat
    let sel := s.me.selected k
    fun j => match sel.idxOf? j with
      | some i => ca[i]?
      | none => none)) s

/-- Fill code of a slide in a group's format (Table 6 of R286); none keeps the element. -/
def fillCode (f : Fmt) (mode : Nat) : Option Nat :=
  match mode with
  | 0 => none
  | 1 => some 0
  | x =>
    let neg := x == 3
    match f.kind with
    | .none => some 0
    | .e8m0 => some 0
    | .int => some (f.intCode (if neg then f.intMin else f.intMax))
    | .nat => some (if neg then 0 else 2 ^ f.m - 1)
    | _ =>
      if neg && f.s == 0 then some 0
      else if f.kind = .float ∧ f.special = 0 then some (f.signed neg ((2 ^ f.e - 1) * 2 ^ f.m))
      else some (f.maxSigned neg)

/-- VSLUP and VSLDN (R286). -/
def slide (up : Bool) (op form : Nat) (src : State → Word) (d a b : BitVec 5) (k : BitVec 3) (t : BitVec 2) (s : State) : Out :=
  runOrdered t (fun s =>
    let x := (src s).toNat
    permute (wordV op form d a b k 0 t) d [a] [] (fun s => s.me.belowStart k) (fun s g =>
      let n := x % 2 ^ 16
      let fill := fillCode (s.myCtx.fmt (fmtOf g)) (x / 2 ^ 16 % 4)
      let ca := s.me.groupCodes a.toNat
      fun j =>
        if !s.me.act k j then none
        else if up then (if n ≤ j then ca[j - n]? else fill)
        else if j + n < s.me.count then ca[j + n]? else fill) s) s

def execVslupVs (d a sb : BitVec 5) (k : BitVec 3) (t : BitVec 2) (s : State) : Out :=
  slide true 0x8C 1 (fun s => s.capB sb) d a sb k t s

def execVslupVi (d a imm : BitVec 5) (k : BitVec 3) (t : BitVec 2) (s : State) : Out :=
  slide true 0x8C 2 (fun s => s.immVI imm) d a imm k t s

def execVsldnVs (d a sb : BitVec 5) (k : BitVec 3) (t : BitVec 2) (s : State) : Out :=
  slide false 0x8D 1 (fun s => s.capB sb) d a sb k t s

def execVsldnVi (d a imm : BitVec 5) (k : BitVec 3) (t : BitVec 2) (s : State) : Out :=
  slide false 0x8D 2 (fun s => s.immVI imm) d a imm k t s

/-- VRGATH: vd[j] := va[code of vb's element j] (R287). -/
def execVrgath (d a b : BitVec 5) (k : BitVec 3) (t : BitVec 2) (s : State) : Out :=
  runOrdered t (permute (wordV 0x8E 0 d a b k 0 t) d [a] [b] (fun s => s.me.belowStart k) (fun s _ =>
    let ca := s.me.groupCodes a.toNat
    let cb := s.me.groupCodes b.toNat
    fun j => if s.me.act k j && decide (j < s.me.count) then some (ca.getD (cb.getD j 0) 0) else none)) s

/-- VTRN: blocks of RC elements transposed across the RC rows (R288). -/
def execVtrn (d a : BitVec 5) (t : BitVec 2) (s : State) : Out :=
  runOrdered t (permute (wordV 0x8F 0 d a 0 0 0 t) d [a] [] (fun _ _ => false) (fun s _ =>
    let ca := s.me.groupCodes a.toNat
    let rc := s.me.rc
    let vl := s.me.vl
    fun j =>
      let r := j / vl
      let e := j % vl
      if vl = 0 then none
      else if e < rc * (vl / rc) then ca[e % rc * vl + e / rc * rc + r]?
      else ca[j]?)) s

end Sys2Proof.Machine
end

