-- ==== Sys2Proof/Machine/VectorReduce.lean ====
section
/-!
DEFINITION. Reductions and scans (R289–R292).
-/
namespace Sys2Proof.Machine

/-- The accumulation format of a group format (R289): none for NONE, E8M0 and unassigned formats. -/
def accFormat (c : FmtCtx) (f : Nat) : Option Nat :=
  match (c.fmt f).kind with
  | .none => none
  | .e8m0 => none
  | .int => some 11
  | .nat => some 17
  | _ => some (if f = 1 then 1 else 2)

/-- Group index and value of the active elements of a group; reductions ignore the start point (R289). -/
def State.activeNums (s : State) (v : Nat) (k : BitVec 3) : List (Nat × Num) :=
  let c := s.myCtx
  let vl := s.me.vl
  ((List.range s.me.count).filter (fun j => s.me.active k j)).map (fun j =>
    let row := s.me.row (v + j / vl)
    (j, rowValue c row.tag (getElem_ row.bits s.me.sewBits (j % vl))))

/-- A reduction's result in the accumulation format: code and flags; none is a value that the spec does not state (a value
that is no integer, in an integer accumulation format). -/
abbrev RedRes := Option (Nat × Nat)

/-- Sum of integers (R290): modulo 2^64, or clamped with SAT. -/
def intSum (f : Fmt) (sat : Bool) (vals : List Num) : RedRes :=
  let is := vals.map Num.int?
  if is.all Option.isSome then some (f.intResult sat ((is.filterMap id).foldl (· + ·) 0)) else none

/-- Insert-free removal of element i of a list. -/
def dropAt {α : Type} (l : List α) (i : Nat) : List α := l.take i ++ l.drop (i + 1)

/-- Additions in a tree of free shape (R290, REPRO = 0): any two partial sums are added, until one is left. -/
def treeSum (f : Fmt) : Nat → List Num → Nat → State → (Num × Nat) × State
  | 0, l, fl, s => ((l.headD Num.zero, fl), s)
  | n + 1, l, fl, s =>
    match l with
    | [] => ((Num.zero, fl), s)
    | [x] => ((x, fl), s)
    | l =>
      let i := s.pick l.length
      let x := l.getD i.1 Num.zero
      let l := dropAt l i.1
      let j := i.2.pick l.length
      let y := l.getD j.1 Num.zero
      let z := x.add 0 y
      let c := accRound f z.1 (fl ||| z.2)
      treeSum f n (c.1 :: dropAt l j.1) c.2 j.2

/-- Sum of terms in a floating accumulation format (R290), with the flags of their own computation. -/
def floatSum (f : Fmt) (r : Rounding) (all : List Num) (terms : List Num) (fl : Nat) (s : State) : (Nat × Nat) × State :=
  let t : (Num × Nat) × State :=
    if s.me.repro then (reproSum f all, s)
    else
      let e := accRoundAll f terms 0
      treeSum f e.1.length e.1 e.2 s
  let c := roundTo f 127 r t.1.1
  ((c.1, fl ||| t.1.2 ||| c.2), t.2)

/-- Checks common to reductions over group tags: FORMAT_PAIR at (0, 0), then PSN (R289). -/
def withGroups (s : State) (groups : List (BitVec 5)) (f : State → List Tag → Eff) : Eff :=
  let tags := groups.map (fun v => groupTag (s.me.groupTags v.toNat))
  match tags.find? (fun t => !t.isOk) with
  | some (.error e) => trapAt s causeFormatPair (pairVal e.1 e.2) 0 0
  | _ => f s (tags.filterMap Except.toOption)

/-- A POISON row of the groups is consumed at (0, 0). -/
def consumeGroups (s : State) (groups : List (BitVec 5)) (f : State → Eff) : Eff :=
  consume s (groups.any (fun v => (s.me.groupTags v.toNat).any (fun t => classOf t == 2))) 0 f

/-- Deliver a reduction's result. -/
def reduced (d : BitVec 5) (x : RedRes) (s : State) : Eff :=
  match x with
  | some c => raiseOrTrap s c.2 (scalarResult d (BitVec.ofNat 64 c.1))
  | none => let f := s.free; scalarResult d f.1 f.2

/-- VREDSUM (R290). -/
def execVredsum (d a : BitVec 5) (k : BitVec 3) (m t : BitVec 2) (s : State) : Out :=
  runOrdered t (vecOp (wordV 0xB0 0 d a 0 k m t) [a] (fun _ => false) (fun s => withGroups s [a] (fun s tags =>
    let g := tags.headD 0
    match accFormat s.myCtx (fmtOf g) with
    | none => trapAt s causeFormatPair (pairVal (fmtOf g) 0) 0 0
    | some n => consumeGroups s [a] (fun s =>
      let f := fixedFmt n
      let r := s.me.rounding m 0 0
      let xs := s.activeNums a.toNat k
      if f.isInt then reduced d (intSum f r.sat (xs.map Prod.snd)) s
      else
        let all := (List.range s.me.count).map (fun j => (xs.lookup j).getD Num.zero)
        let x := floatSum f r all (xs.map Prod.snd) 0 s
        reduced d (some x.1) x.2)))) s

/-- VDOT: the sum of the exact products (R290); acc from PLT[fa][fb] of the group tags (R289). -/
def execVdot (d a b : BitVec 5) (k : BitVec 3) (m t : BitVec 2) (s : State) : Out :=
  runOrdered t (vecOp (wordV 0xB7 0 d a b k m t) [a, b] (fun _ => false) (fun s => withGroups s [a, b] (fun s tags =>
    let c := s.myCtx
    let fa := fmtOf (tags.headD 0)
    let fb := fmtOf (tags.getD 1 0)
    let acc := if c.isUnassigned fa ∨ c.isUnassigned fb then none else (c.joinFmt fa fb).bind (accFormat c)
    match acc with
    | none => trapAt s causeFormatPair (pairVal fa fb) 0 0
    | some n => consumeGroups s [a, b] (fun s =>
      let f := fixedFmt n
      let r := s.me.rounding m 0 0
      let ps := ((s.activeNums a.toNat k).zip (s.activeNums b.toNat k)).map (fun p => (p.1.1, p.1.2.mul p.2.2))
      if f.isInt then reduced d (intSum f r.sat (ps.map (fun p => p.2.1))) s
      else
        let fl := ps.foldl (fun x p => x ||| p.2.2) 0
        let vs := ps.map (fun p => (p.1, p.2.1))
        let all := (List.range s.me.count).map (fun j => (vs.lookup j).getD Num.zero)
        let x := floatSum f r all (vs.map Prod.snd) fl s
        reduced d (some x.1) x.2)))) s

/-- The identity of minimum or maximum in an accumulation format (Table 6 of R286). -/
def accIdentity (f : Fmt) (max : Bool) : Nat := (fillCode f (if max then 3 else 2)).getD 0

/-- a precedes b in the order of R291: −0 below +0. -/
def below (a b : Num) : Bool := Num.lt a b || (a.isZero && b.isZero && a.isNeg && !b.isNeg)

/-- VREDMIN and VREDMAX (R291). -/
def reduceExtreme (max : Bool) (op : Nat) (d a : BitVec 5) (k : BitVec 3) (m t : BitVec 2) (s : State) : Out :=
  runOrdered t (vecOp (wordV op 0 d a 0 k m t) [a] (fun _ => false) (fun s => withGroups s [a] (fun s tags =>
    let g := tags.headD 0
    match accFormat s.myCtx (fmtOf g) with
    | none => trapAt s causeFormatPair (pairVal (fmtOf g) 0) 0 0
    | some n => consumeGroups s [a] (fun s =>
      let f := fixedFmt n
      let r := s.me.rounding m 0 0
      match (s.activeNums a.toNat k).map Prod.snd with
      | [] => scalarResult d (BitVec.ofNat 64 (accIdentity f max)) s
      | x :: xs =>
        let y := xs.foldl (fun p q => if (if max then below p q else below q p) then q else p) x
        if f.isInt then reduced d (y.int?.map (fun i => (f.intCode i, 0))) s
        else if (x :: xs).any Num.isNan then
          reduced d (some (f.nanCode, if (x :: xs).any (fun v => v == .nan true) then flagNV else 0)) s
        else reduced d (some (roundTo f 127 r y)) s)))) s

def execVredmin (d a : BitVec 5) (k : BitVec 3) (m t : BitVec 2) (s : State) : Out := reduceExtreme false 0xB1 d a k m t s

def execVredmax (d a : BitVec 5) (k : BitVec 3) (m t : BitVec 2) (s : State) : Out := reduceExtreme true 0xB2 d a k m t s

/-- XOR of the codes of the active elements (R291). -/
def execVredxor (d a : BitVec 5) (k : BitVec 3) (t : BitVec 2) (s : State) : Out :=
  runOrdered t (vecOp (wordV 0xB3 0 d a 0 k 0 t) [a] (fun _ => false) (fun s => consumeGroups s [a] (fun s =>
    let cs := s.me.groupCodes a.toNat
    let x := ((List.range s.me.count).filter (fun j => s.me.active k j)).foldl (fun acc j => acc ^^^ cs.getD j 0) 0
    scalarResult d (BitVec.ofNat 64 x) s))) s

/-- Group index of the largest value, the lowest among equals; NaNs are skipped (R291). -/
def execVredarg (d a : BitVec 5) (k : BitVec 3) (t : BitVec 2) (s : State) : Out :=
  runOrdered t (vecOp (wordV 0xB4 0 d a 0 k 0 t) [a] (fun _ => false) (fun s => withGroups s [a] (fun s tags =>
    let g := tags.headD 0
    match accFormat s.myCtx (fmtOf g) with
    | none => trapAt s causeFormatPair (pairVal (fmtOf g) 0) 0 0
    | some _ => consumeGroups s [a] (fun s =>
      match (s.activeNums a.toNat k).filter (fun x => !x.2.isNan) with
      | [] => scalarResult d (BitVec.allOnes 64) s
      | x :: xs => scalarResult d (BitVec.ofNat 64 (xs.foldl (fun p q => if Num.lt p.2 q.2 then q else p) x).1) s)))) s

/-! ## Scans (R292) -/

/-- T + x in the accumulation format: rounded RNE, or as integers wrapped, or clamped with SAT under saturate. -/
def scanAdd (f : Fmt) (sat : Bool) (t x : Num) : Num × Nat :=
  if f.isInt then
    match t.int?, x.int? with
    | some i, some j => let c := f.intResult sat (i + j); (f.decode c.1, c.2)
    | _, _ => (t, 0)
  else
    let z := t.add 0 x
    accRound f z.1 z.2

/-- The elements of row r of a scan from element e: `go` carries the running total on. -/
def scanElems (incl : Bool) (f : Fmt) (d a : Nat) (k : BitVec 3) (m : BitVec 2) (r : Nat) (write : Bool) (next : Num → State → Eff) :
    Nat → Nat → Num → State → Eff
  | 0, _, tot, s => next tot s
  | n + 1, e, tot, s =>
    let j := r * s.me.vl + e
    if !s.me.active k j then scanElems incl f d a k m r write next n (e + 1) tot s
    else
      let c := s.myCtx
      let row := s.me.row (a + r)
      let rnd := s.me.rounding m r e
      let x := rowValue c row.tag (getElem_ row.bits s.me.sewBits e)
      let u := scanAdd f rnd.sat tot x
      if !write || decide (j < s.me.start) then scanElems incl f d a k m r write next n (e + 1) u.1 s
      else
        let out := if incl then u.1 else tot
        let t := s.me.tag (d + r)
        let g := c.fmt (fmtOf t)
        let y := if g.isInt then convertTo g (bscOf t) rnd true out else roundTo g (bscOf t) rnd out
        let fl := u.2 ||| y.2
        let q := trapFlags s.me.fcsr fl
        if q ≠ 0 then trapAt s causeFp (BitVec.ofNat 64 q) r e
        else scanElems incl f d a k m r write next n (e + 1) u.1 ((s.setCode (d + r) e y.1).raise fl)

/-- The rows of a scan: those below RSTART only add to the running total. -/
def scanRows (incl : Bool) (f : Fmt) (g : Tag) (d a : Nat) (k : BitVec 3) (m : BitVec 2) : Nat → Nat → Num → State → Eff
  | 0, _, _, s => .done s.clearStart
  | n + 1, r, tot, s =>
    if r < s.me.rstart then
      scanElems incl f d a k m r false (fun tot s => scanRows incl f g d a k m n (r + 1) tot s) s.me.vl 0 tot s
    else
      match resultTag s g g none with
      | .error c => trapAt s c.1 c.2 r 0
      | .ok t =>
        let ops := (s.me.groupTags a).take (r + 1) ++ (if s.me.retains k r then [s.me.tag (d + r)] else [])
        let poison := ops.any (fun x => classOf x == 2)
        consume s poison r (fun s =>
          scanElems incl f d a k m r true (fun tot s =>
              scanRows incl f g d a k m n (r + 1) tot (s.setRowTag (d + r) (withClass (s.me.tag (d + r)) (rowClass ops (s.me.zeroRow (d + r))))))
            s.me.vl 0 tot (s.setRowTag (d + r) (withClass t (if poison then 2 else 0))))

/-- VSCAN and VSCANX (R292). -/
def scanV (incl : Bool) (op : Nat) (d a : BitVec 5) (k : BitVec 3) (m t : BitVec 2) (s : State) : Out :=
  runOrdered t (vecOp (wordV op 0 d a 0 k m t) [d, a] (fun q => q.overlap d a) (fun s => withGroups s [a] (fun s tags =>
    let g := tags.headD 0
    match accFormat s.myCtx (fmtOf g) with
    | none => trapAt s causeFormatPair (pairVal (fmtOf g) 0) 0 0
    | some n => scanRows incl (fixedFmt n) g d.toNat a.toNat k m s.me.rc 0 Num.zero s))) s

def execVscan (d a : BitVec 5) (k : BitVec 3) (m t : BitVec 2) (s : State) : Out := scanV true 0xB5 d a k m t s

def execVscanx (d a : BitVec 5) (k : BitVec 3) (m t : BitVec 2) (s : State) : Out := scanV false 0xB6 d a k m t s

end Sys2Proof.Machine
end

