-- ==== Sys2Proof/Machine/Collective.lean ====
section
/-!
DEFINITION. Collectives (R324–R333): XRED, XSEND, XRECV and XMEMB, and what arrives for a group: contributions, messages,
failures and membership.
-/
namespace Sys2Proof.Machine

/-- QUEUE_MISUSE of a collective (R329, R332): NUM 6 for a peer, 7 for a group, KIND 3. -/
def collMisuse (s : State) (num reason : Nat) (x : Word) : Eff := trap00 s causeQueue (queueVal num reason 3 x)

/-! ## XRED -/

/-- The front-end strand's own contribution (R329). -/
def State.contribution (s : State) (g : Group) (v op : Nat) : Contribution :=
  { rank := g.rank, seq := g.seq, gen := g.gen, vl := s.me.vl, rc := s.me.rc, sew := s.me.sew, op := op
    rows := (List.range s.me.rc).map (fun r => ((s.me.row (v + r)).bits, s.me.tag (v + r)))
    osc := s.me.osc, dice := s.me.diceSeed, vtype := BitVec.ofNat 64 s.me.vtype }

/-- The headers agree on VL, RC, SEW and operation. -/
def sameShape (a b : Contribution) : Bool := a.vl == b.vl && a.rc == b.rc && a.sew == b.sew && a.op == b.op

/-- Insert in ascending rank. -/
def insertRank (c : Contribution) : List Contribution → List Contribution
  | [] => [c]
  | d :: t => if c.rank ≤ d.rank then c :: d :: t else d :: insertRank c t

/-- The contributions of sequence number `q` from the ranks named, ascending; none while one is missing. -/
def Group.gather (g : Group) (own : Contribution) (q : Nat) (ranks : List Nat) : Option (List Contribution) :=
  let find (r : Nat) : Option Contribution :=
    if r = own.rank then some own else g.contrib.find? (fun c => c.rank == r && c.seq == q)
  let all := ranks.map find
  if all.all Option.isSome then some ((all.filterMap id).foldl (fun l c => insertRank c l) []) else none

/-- Fold of joinRow over the members' tags of a row (R329): the pair of formats it traps on, or the joined tag. -/
def foldTags (c : FmtCtx) : Tag → List Tag → Except (Nat × Nat) Tag
  | t, [] => .ok t
  | t, u :: us =>
    match joinRow c t u with
    | none => .error (joinFmts t u)
    | some x => foldTags c (withClass x (if classOf t = 1 ∧ classOf u = 1 then 1 else 0)) us

/-- The result tag of row r, or its trap at (r, 0). -/
def rowJoin (s : State) (osc : Word) (tags : List Tag) : Except (Nat × Word) Tag :=
  let c := s.myCtx
  match tags with
  | [] => .error (causeFormatPair, 0)
  | t :: us => match foldTags c t us with
    | .error f => .error (causeFormatPair, pairVal f.1 f.2)
    | .ok x =>
      let f := fmtOf x
      if (accFormat c f).isNone then .error (causeFormatPair, pairVal f 0)
      else if s.me.sewBits < (c.fmt f).container s.me.sewBits then .error (causeFormatFit, fitVal f s.me.sew)
      else .ok (mkTag f (resultBsc c f osc tags) 0 false)

/-- Contributions as they enter an integer accumulation format: the spec states no rounding of a value that is no integer into one, and a
free value enters for it (R330; assumption 52). -/
def enterInts (f : Fmt) : List Num → State → List Num × State
  | [], s => ([], s)
  | x :: xs, s =>
    let y := if f.isInt && x.int?.isNone then (f.decode (s.free.1.toNat % 2 ^ 64), s.free.2) else (x, s)
    let q := enterInts f xs y.2
    (y.1 :: q.1, q.2)

/-- Combine the members' values of one element in the accumulation format (R330, R291). -/
def combineVals (s : State) (f : Fmt) (op : Nat) (sat : Bool) (all : List Num) : (Num × Nat) × State :=
  let q := enterInts f all s
  let s := q.2
  match q.1 with
  | [] => ((Num.zero, 0), s)
  | x :: xs =>
    if op = 0 then
      if f.isInt then
        (xs.foldl (fun (a : Num × Nat) y => let z := scanAdd f sat a.1 y; (z.1, a.2 ||| z.2)) (x, 0), s)
      else
        let e := accRoundAll f (x :: xs) 0
        if s.me.repro then
          let step (a : Num × Nat) (y : Num) : Num × Nat := let z := a.1.add 0 y; accRound f z.1 (a.2 ||| z.2)
          ((e.1.drop 1).foldl step (e.1.headD Num.zero, e.2), s)
        else treeSum f e.1.length e.1 e.2 s
    else
      -- each contribution enters the accumulation format before the selection
      let e : List Num × Nat := if f.isInt then (x :: xs, 0) else accRoundAll f (x :: xs) 0
      let mx := op == 2
      if !f.isInt && e.1.any Num.isNan then
        ((.nan false, e.2 ||| if e.1.any (fun v => v == .nan true) then flagNV else 0), s)
      else (((e.1.drop 1).foldl (fun p q => if (if mx then below p q else below q p) then q else p) (e.1.headD Num.zero), e.2), s)

/-- One element of the result: its code and flags. -/
def xredElem (s : State) (m : BitVec 2) (op : Nat) (dice : Word) (t : Tag) (cs : List Contribution) (r e : Nat) : (Nat × Nat) × State :=
  let c := s.myCtx
  let f := fixedFmt ((accFormat c (fmtOf t)).getD 1)
  let rnd := { s.me with diceSeed := dice }.rounding m r e
  let vals := cs.map (fun x =>
    let row := x.rows.getD r (0, zeroTag)
    rowValue c row.2 (getElem_ row.1 s.me.sewBits e))
  let y := combineVals s f op rnd.sat vals
  let g := c.fmt (fmtOf t)
  let z := convertTo g (bscOf t) rnd g.isInt y.1.1
  ((z.1, y.1.2 ||| z.2), y.2)

/-- Rows of the result: `full` are the contributions to the elements below `whole`, `rest` those to the others. -/
def xredRows (m : BitVec 2) (op v whole : Nat) (dice : Word) (tags : List Tag) (full rest : List Contribution) :
    Nat → Nat → State → State
  | 0, _, s => s
  | n + 1, r, s =>
    let t := tags.getD r 0
    let vl := s.me.vl
    let x := (List.range vl).foldl (fun (a : RowBits × Nat × State) e =>
      let cs := if r * vl + e < whole then full else rest
      let y := xredElem a.2.2 m op dice t cs r e
      (setElem a.1 s.me.sewBits e y.1.1, a.2.1 ||| y.1.2, y.2)) ((s.me.row (v + r)).bits, 0, s)
    let s' := x.2.2
    let s' := { s' with me := s'.me.setRow (v + r) ⟨x.1, t⟩ }
    let ops := rest.map (fun c => (c.rows.getD r (0, zeroTag)).2)
    let ops := if whole = 0 then ops else ops ++ full.map (fun c => (c.rows.getD r (0, zeroTag)).2)
    let cls := rowClass ops (s'.me.zeroRow (v + r))
    let s' := (s'.setRowTag (v + r) (withClass t cls)).raise (x.2.1 ||| (if cls = 2 then flagPSN else 0))
    xredRows m op v whole dice tags full rest n (r + 1) s'

/-- Lines of a replay-log entry (Table 3 of R326): offset and contents. -/
def logLines (s : State) (own : Contribution) (v : Nat) (lost : MaskBits) : List (Nat × Line) :=
  let tags := (List.range s.me.rc).foldl (fun acc r => acc + (s.me.tag (v + r)).toNat * 2 ^ (8 * (0x20 + 4 * r))) 0
  let head := own.seq % 2 ^ 64 + own.gen % 2 ^ 32 * 2 ^ 64 + own.vl % 2 ^ 16 * 2 ^ 96 + own.rc % 256 * 2 ^ 112
    + own.sew % 256 * 2 ^ 120 + own.op % 256 * 2 ^ 128 + tags
  (0, BitVec.ofNat 1024 head) :: (List.range 32).map (fun i => (0x1000 + 128 * i, BitVec.ofNat 1024 (lost.toNat / 2 ^ (1024 * i))))
    ++ ((List.range s.me.rc).map (fun r => (List.range 8).map (fun i =>
        (0x2000 + 1024 * r + 128 * i, BitVec.ofNat 1024 ((s.me.row (v + r)).bits.toNat / 2 ^ (1024 * i)))))).flatten

/-- A group's replay log as the Anchor reads it at LOGBASE, every line with its tag, and what the reads leave; a line that is zero with
the scrubbed tag, or that is not mapped, is not listed. -/
def State.readLog (s : State) (part : Nat) (g : Group) : List (Nat × (Line × Tag)) × State :=
  let w : Walker := { core := 8 * ((s.part part).coils.headD 0), vf := g.vf, pm := true, ctx := ⟨[], []⟩, reader := {}, quiet := true }
  let x := (List.range 8192).foldl (fun (x : List (Nat × (Line × Tag)) × State) i =>
    match x.2.locate w (g.logBase.toNat + 128 * i) .read with
    | .ok t l => let h := t.readHome l {}; (if h.1 = 0 ∧ h.2.1 = zeroTag then x.1 else (i, (h.1, h.2.1)) :: x.1, h.2.2)
    | .fail t _ => (x.1, t)
    | .park t _ => (x.1, t)) ([], s)
  (x.1.reverse, x.2)

/-- A donor lets a spare join once none of its XREDs is in flight (R327): the spare receives the terms, SEQ and log, and this member
moves to the next generation with it. -/
def State.donate (s : State) (part gi rank : Nat) : State :=
  match s.group? part gi with
  | none => s
  | some g =>
    if g.gstate ≠ 1 ∨ g.liveSet.contains rank = true then s
    else
      let live := rank :: g.liveSet
      let log := s.readLog part g
      (log.2.updGroup part gi (fun x => { x with gen := x.gen + 1, liveSet := live })).send
        (.member part gi (.spareJoined rank g.seq (g.gen + 1) g.order g.tmo g.logBase.toNat g.members live log.1))

/-- The spares that asked while an XRED was in flight join. -/
def State.joinWanted (s : State) (part gi : Nat) : State :=
  match s.group? part gi with
  | none => s
  | some g => g.wanted.foldl (fun s r => s.donate part gi r) (s.updGroup part gi (fun x => { x with wanted := [] }))

/-- The result of an XRED whose contributions are here. Its log entry is complete when it retires (R326): while a segment of it misses in
stage 2, the XRED is held in its unit (R109, R116). -/
def xredFinish (v op : BitVec 5) (k : BitVec 3) (m : BitVec 2) (gi : Nat) (g : Group) (own : Contribution) (live : List Contribution)
    (s : State) : Eff :=
  let q := own.seq
  let clear (s : State) : State :=
    { s.updGroup s.me.part gi (fun g => { g with own := none, contrib := g.contrib.filter (fun c => c.seq > q) }) with
      me := { s.me with xseq := none } }.joinWanted s.me.part gi
  if live.any (fun c => !sameShape c own) then collMisuse (clear s) 7 5 (BitVec.ofNat 64 gi)
  else
    let failed := g.startSet.filter (fun r => !g.liveSet.contains r)
    let all := if failed.isEmpty then none else (g.gather own q g.startSet).filter (fun l => l.all (fun c => sameShape c own))
    -- elements that were complete when a member failed: any prefix, if every contribution had come (R331)
    let w : Nat × State := match all with
      | some _ => s.pick (s.me.count + 1)
      | none => (0, s)
    let full := all.getD live
    let used := if w.1 = 0 then live else full
    -- the lowest rank whose header came (R329): what is complete keeps its OSC and DICESEED
    let low := used.headD own
    let tags := (List.range s.me.rc).map (fun r => rowJoin w.2 low.osc (used.map (fun c => (c.rows.getD r (0, zeroTag)).2)))
    match (List.range s.me.rc).find? (fun r => !(tags.getD r (.ok 0)).isOk), tags.find? (fun t => !t.isOk) with
    | some r, some (.error e) => trapAt (clear w.2) e.1 e.2 r 0
    | _, _ =>
    let base := g.logBase.toNat + 2 ^ 14 * (q % 64)
    match segsMiss base (if base / 2 ^ 18 = (base + 2 ^ 14 - 1) / 2 ^ 18 then 1 else 2) w.2 with
    | (some (va, i), t) => parkInstr t [⟨0, va, va, i⟩] (t.progress 0)
    | (none, t) =>
      let s := xredRows m op.toNat v.toNat w.1 low.dice (tags.filterMap Except.toOption) full live s.me.rc 0 t
      let lost (j : Nat) : Bool := !failed.isEmpty && decide (w.1 ≤ j)
      let mask := BitVec.ofNat 32768 ((List.range s.me.count).foldl (fun acc j => if lost j then acc + 2 ^ j else acc) 0)
      let s := s.writeMask k.toNat lost
      let s := s.writeLog base ((logLines s own v.toNat mask).map (fun l => (l.1, (l.2, journalTag))))
      .done ((clear s).acquire 4).clearStart

/-- XRED (R328, R329). -/
def execXred (v o b : BitVec 5) (k : BitVec 3) (m t : BitVec 2) (s : State) : Out :=
  runOrdered t (vecOp (wordV 0x6C 0 v o b k m t) [v] (fun _ => false) (fun s =>
    let x := s.capB b
    let gi := x.toNat
    match (if gi < 64 then s.group? s.me.part gi else none) with
    | none => collMisuse s 7 4 x
    | some g =>
      match s.me.xseq with
      | none =>
        -- send the header; another strand's XRED on the group, or its joining with the copy of its log, is waited for
        if g.gstate ≠ 1 ∨ g.own.isSome = true ∨ ((s.part s.me.part).logToCopy gi).isSome = true then .wait s
        else
          let s := s.performAll.release 4
          let own := s.contribution g v.toNat o.toNat
          let s := (s.updGroup s.me.part gi (fun g =>
            { g with seq := g.seq + 1, own := some own, startSet := g.liveSet })).send (.xred s.me.part gi own)
          let s := (g.liveSet.filter (fun r => r != g.rank)).foldl (fun s r => s.transmit (g.port r) (rowLines own.rows)) s
          let s := { s with me := { s.me with xseq := some own.seq } }
          let g' := { g with seq := g.seq + 1, own := some own, startSet := g.liveSet }
          match g'.gather own own.seq g'.liveSet with
          | some live => xredFinish v o k m gi g' own live s
          | none => .wait s
      | some q =>
        match g.own with
        | none => .wait s
        | some own =>
          match g.gather own q (g.startSet.filter (fun r => g.liveSet.contains r)) with
          | some live => xredFinish v o k m gi g own live s
          | none => .wait s)) s

/-! ## XSEND and XRECV (R332) -/

/-- Group, rank and message tag of s[sb]; none for a bad value. -/
def State.peerOf (s : State) (x : Word) : Option (Nat × Group × Nat × Nat) :=
  let gi := x.toNat % 64
  let rank := x.toNat / 2 ^ 8 % 256
  if x.toNat / 2 ^ 24 ≠ 0 ∨ x.toNat / 2 ^ 6 % 4 ≠ 0 then none
  else match s.group? s.me.part gi with
    | some g => if rank < g.members.length then some (gi, g, rank, x.toNat / 2 ^ 16 % 256) else none
    | none => none

/-- XSEND: a release at tenant scope, then the rows leave as QPUSH copies them. -/
def execXsend (v b : BitVec 5) (k : BitVec 3) (t : BitVec 2) (s : State) : Out :=
  runOrdered t (vecOp (wordV 0x6D 0 0 v b k 0 t) [v] (fun _ => false) (fun s =>
    let x := s.capB b
    match s.peerOf x with
    | none => collMisuse s 6 5 x
    | some (gi, g, rank, mtag) =>
      if !g.liveSet.contains rank then collMisuse s 6 2 0
      else
        let tags := s.me.groupTags v.toNat
        match (List.range s.me.rc).find? (fun r => s.me.tePsn && classOf (tags.getD r 0) == 2) with
        | some r => trapAt s causeFp 0x20 r 0
        | none =>
          let s := s.performAll.release 4
          if look g.credits rank 8 < s.me.rc then .wait s
          else
            let es := (List.range s.me.rc).map (fun r => s.me.queueEntry v.toNat r k)
            let s := if es.any (fun e => classOf e.row.tag == 2) then s.raise flagPSN else s
            let s := s.updGroup s.me.part gi (fun g =>
              { g with
                credits := upd g.credits rank 8 (fun n => n - s.me.rc)
                inbox := if rank = g.rank then g.inbox ++ [⟨rank, mtag, es⟩] else g.inbox })
            let rows := es.map (fun e => (e.row.bits, e.row.tag))
            let msg := PeerMsg.rows g.rank g.gen mtag s.me.sew s.me.vl rows
            .done (if rank = g.rank then s else (s.send (.xsend s.me.part gi msg rank)).transmit (g.port rank) (rowLines rows)).clearStart)) s

/-- The oldest message from a rank with a tag, and the others. -/
def takeMsg (rank mtag : Nat) : List XMsg → Option (XMsg × List XMsg)
  | [] => none
  | m :: t => if m.rank = rank ∧ m.mtag = mtag then some (m, t) else (takeMsg rank mtag t).map (fun r => (r.1, m :: r.2))

/-- XRECV: takes a message as QPOP does, and acquires at tenant scope. -/
def execXrecv (v b : BitVec 5) (k : BitVec 3) (t : BitVec 2) (s : State) : Out :=
  runOrdered t (vecOp (wordV 0x6E 0 v 0 b k 0 t) [v] (fun _ => false) (fun s =>
    let x := s.capB b
    match s.peerOf x with
    | none => collMisuse s 6 5 x
    | some (gi, g, rank, mtag) =>
      match takeMsg rank mtag g.inbox with
      | none => if g.liveSet.contains rank then .wait s else collMisuse s 6 2 0
      | some (m, rest) =>
        if m.rows.length ≠ s.me.rc ∨ m.rows.any (fun e => e.sew != s.me.sew) = true then collMisuse s 6 3 0
        else match (List.range s.me.rc).find? (fun r => s.me.tePsn && (m.rows[r]?).any (fun e => classOf e.row.tag == 2)) with
          | some r => trapAt s causeFp 0x20 r 0
          | none =>
            let s := s.updGroup s.me.part gi (fun g =>
              { g with
                inbox := rest
                credits := if rank = g.rank then upd g.credits rank 8 (fun n => n + s.me.rc) else g.credits })
            let s := if rank = g.rank then s else s.send (.xsend s.me.part gi (.credit g.rank s.me.rc) rank)
            let s := if m.rows.any (fun e => classOf e.row.tag == 2) then s.raise flagPSN else s
            .done ((m.rows.zipIdx.foldl (fun s e => s.popRow v.toNat e.2 k e.1) s).acquire 4).clearStart)) s

/-! ## XMEMB (R333) -/

/-- Ranks [lo, lo + 64) of a live set as bits. -/
def liveBits (l : List Nat) (lo : Nat) : Nat :=
  (List.range 64).foldl (fun acc i => if l.contains (lo + i) then acc + 2 ^ i else acc) 0

def execXmemb (d a b : BitVec 5) (t : BitVec 2) (s : State) : Out :=
  runOrdered t (fun s =>
    let x := s.reg a
    let sel := (s.reg b).toNat
    if 63 < x.toNat then collMisuse s 7 4 x
    else
      let g := s.group? s.me.part x.toNat
      let f (h : Group → Nat) : Eff := .done (s.setReg d (BitVec.ofNat 64 (match g with
        | some y => h y
        | none => 0)))
      match sel with
      | 0 => f (fun g => g.gen)
      | 1 => f (fun g => g.rank)
      | 2 => f (fun g => g.liveSet.length)
      | 3 => f (fun g => g.seq)
      | 4 => f (fun g => g.gstate)
      | 5 => f (fun g => g.order)
      | 8 => f (fun g => liveBits g.liveSet 0)
      | 9 => f (fun g => liveBits g.liveSet 64)
      | 10 => f (fun g => liveBits g.liveSet 128)
      | _ => collMisuse s 7 5 (s.reg b)) s

/-! ## What arrives -/

/-- XRED_CONTRIBUTION_RECEIVE: messages of an earlier generation are discarded (R325), but for those of the XRED in
flight, whose start they belong to. -/
def State.takeContribution (s : State) (part g : Nat) (c : Contribution) : State :=
  s.updGroup part g (fun x =>
    let inFlight := match x.own with
      | some o => o.seq == c.seq && o.gen == c.gen
      | none => false
    if x.gstate = 1 ∧ c.rank ≠ x.rank ∧ x.liveSet.contains c.rank = true ∧ (x.gen ≤ c.gen ∨ inFlight = true)
        ∧ x.contrib.any (fun y => y.rank == c.rank && y.seq == c.seq) = false then
      { x with contrib := x.contrib ++ [c] }
    else x)

def execXredContributionReceive (part grp : Nat) (c : Contribution) (s : State) : Out := .next (s.takeContribution part grp c)

/-- XMESSAGE_RECEIVE (R332): rows are queued in order, those of an earlier generation are discarded (R325), credits come back. -/
def State.takeMessage (s : State) (part g : Nat) (m : PeerMsg) : State :=
  s.updGroup part g (fun x =>
    match m with
    | .rows rank gen mtag sew vl rows =>
      if rank ≠ x.rank ∧ x.gen ≤ gen ∧ x.liveSet.contains rank = true ∧ rows.length ≤ 8 then
        { x with inbox := x.inbox ++ [⟨rank, mtag, rows.map (fun r => ⟨⟨r.1, r.2⟩, sew, vl⟩)⟩] }
      else x
    | .credit rank n => { x with credits := upd x.credits rank 8 (fun k => Nat.min 8 (k + n)) })

def execXmessageReceive (part grp : Nat) (msg : PeerMsg) (s : State) : Out := .next (s.takeMessage part grp msg)

/-- A live member fails: the survivors move to the next generation (R325). -/
def Group.fail (g : Group) (rank : Nat) : Group :=
  if g.gstate = 1 ∧ rank ≠ g.rank ∧ g.liveSet.contains rank = true then
    { g with gen := g.gen + 1, liveSet := g.liveSet.erase rank }
  else g

def execMemberFail (part grp rank : Nat) (s : State) : Out := .next (s.updGroup part grp (fun g => g.fail rank))

/-- The rank is awaited: by the XRED in flight while the other live members' contributions are here, or by an XRECV with
nothing queued from it. -/
def State.awaited (s : State) (part gi : Nat) (g : Group) (rank : Nat) : Bool :=
  (match g.own with
    | some o =>
      (g.gather o o.seq [rank]).isNone && (g.gather o o.seq ((g.startSet.filter (fun r => g.liveSet.contains r)).erase rank)).isSome
    | none => false) ||
  s.strands.any (fun t => t.part == part && (match t.issued.or t.dq.head? with
    | some e => (match e.instr with
      | .xrecv .. =>
        let x := e.cap.regB.toNat
        x % 64 == gi && x / 2 ^ 8 % 256 == rank && (takeMsg rank (x / 2 ^ 16 % 256) g.inbox).isNone
      | _ => false)
    | none => false))

/-- COLLECTIVE_TIMEOUT: a member is awaited for longer than TMO (R325). -/
def execCollectiveTimeout (part grp rank : Nat) (s : State) : Out :=
  .next (match s.group? part grp with
    | some g => if s.awaited part grp g rank then s.updGroup part grp (fun g => g.fail rank) else s
    | none => s)

/-- GROUP_MEMBERSHIP_MESSAGE: another member's GRPOPEN (R353), a failure that its Anchor reports (R325), a spare's request to this
member (R327), or a spare that has joined (R327): the live members move to
the next generation, and the spare takes the donor's terms and sequence number; its GRPSPARE copies the log. -/
def State.memberMsg (s : State) (part g : Nat) (m : MemberMsg) : State :=
  match m with
  | .opened .. => if g < 64 then s.updPart part (fun p => p.opened g m) else s
  | .failed rank => s.updGroup part g (fun x => x.fail rank)
  | .spareWanted rank donor =>
    match s.group? part g with
    | none => s
    | some x =>
      if x.rank ≠ donor then s
      else if x.own.isSome then s.updGroup part g (fun x => { x with wanted := x.wanted ++ [rank] })
      else s.donate part g rank
  | .spareJoined rank seq gen order tmo logBase members live _ =>
    match s.group? part g with
    | none => s
    | some x =>
      if x.gstate = 1 ∧ x.liveSet.contains rank = false then
        s.updGroup part g (fun x => { x with gen := x.gen + 1, liveSet := rank :: x.liveSet })
      else if x.gstate = 2 ∧ x.rank = rank then
        let base := if x.members.isEmpty then BitVec.ofNat 64 logBase else x.logBase
        let s := s.updGroup part g (fun x =>
          { x with order := order, tmo := tmo, logBase := base, members := members, gstate := 1, gen := gen, seq := seq, liveSet := live,
                   contrib := [], own := none })
        s.updPart part (fun p => { p with joins := p.joins.filter (fun j => j.1 != g) ++ [(g, m)] })
      else s

def execGroupMembershipMessage (part grp : Nat) (msg : MemberMsg) (s : State) : Out := .next (s.memberMsg part grp msg)

end Sys2Proof.Machine
end

