-- ==== Sys2Proof/Machine/Engines.lean ====
section
/-!
DEFINITION. Engines: the command journal (R205–R209, R213, R214), completion, cancelling and faults (R209, R217, R218),
line accesses of engines (R164, R221), and the E-format instructions (R211–R217, R227–R229), with PUBLISH (R225).
-/
namespace Sys2Proof.Machine

/-! ## Engines of a core -/

def State.engine (s : State) (core e : Nat) : Engine := (s.core core).engines.getD e {}

def State.updEngine (s : State) (core e : Nat) (f : Engine → Engine) : State :=
  s.updCore core (fun c => { c with engines := c.engines.setIfInBounds e (f (c.engines.getD e {})) })

/-- Change the running command of an engine. -/
def State.updRun (s : State) (core e : Nat) (f : RunCmd → RunCmd) : State :=
  s.updEngine core e (fun x => { x with running := x.running.map f })

/-- The translation context of an engine's accesses (R220, R432). -/
def RunCmd.walker (c : RunCmd) (core : Nat) : Walker :=
  { core := core, vf := c.vf, pm := c.priv, ctx := ⟨c.fmts, c.plt⟩, reader := { vf := c.vf, coord := 8 * core + c.ctx }
    engine := true, denied := c.denied }

def RunCmd.fmtCtx (c : RunCmd) : FmtCtx := ⟨c.fmts, c.plt⟩

/-- Configuration register i of a command's snapshot. -/
def RunCmd.reg (c : RunCmd) (i : Nat) : Word := c.regs.getD i 0

/-- Bits [lo + w − 1 : lo] of register i. -/
def RunCmd.bits (c : RunCmd) (i lo w : Nat) : Nat := (c.reg i).toNat / 2 ^ lo % 2 ^ w

/-- Multicast fields of an MXE command (R298): MCEN, MCGRP and MCMASK. -/
def RunCmd.mcen (c : RunCmd) : Bool := c.bits 0 11 1 == 1
def RunCmd.mcgrp (c : RunCmd) : Nat := c.bits 0 12 3
def RunCmd.mcmask (c : RunCmd) : Nat := c.bits 0x1A 0 8

/-- The command of a core is a member's of a formed group: number, members and instance (R307). -/
def RunCmd.memberOf (c : RunCmd) (core : Nat) (g : Nat × Nat × Word) : Bool :=
  c.mcen && c.formed && g.1 == c.mcgrp && g.2.2 == c.reg 0x1B && g.2.1.testBit (core % 8)

/-- Journal fields of an entry (R207). -/
def State.jArg (s : State) (t : Strand) (n : Nat) : Word := BitVec.ofNat 64 (memNat s.mem (t.journalAt n + 16) 8)
def State.jProg (s : State) (t : Strand) (n : Nat) : Word := BitVec.ofNat 64 (memNat s.mem (t.journalAt n + 24) 8)
def State.jReg (s : State) (t : Strand) (n i : Nat) : Word := BitVec.ofNat 64 (memNat s.mem (t.journalAt n + 32 + 8 * i) 8)
def State.jRegs (s : State) (t : Strand) (n : Nat) : List Word := (List.range 28).map (fun i => s.jReg t n i)

/-- CTOK of a snapshot (R209, R219, R298). -/
def ctokOf (e : Nat) (reg0 : Word) : Bool :=
  match e with
  | 0 => reg0.getLsbD 0
  | 1 => reg0.getLsbD 2
  | 2 => reg0.getLsbD 2
  | _ => false

/-- Completion tokens of an engine waiting at a strand (R258). -/
def Strand.complTokens (t : Strand) (e : Nat) : Nat :=
  match e with
  | 0 => t.tokMxe
  | 1 => t.tokCpe0
  | _ => t.tokCpe1

def Strand.addCompl (t : Strand) (e : Nat) : Strand :=
  match e with
  | 0 => { t with tokMxe := t.tokMxe + 1 }
  | 1 => { t with tokCpe0 := t.tokCpe0 + 1 }
  | _ => { t with tokCpe1 := t.tokCpe1 + 1 }

/-- OR an engine's flags into FCSR (R238, R304); a rollback keeps them. -/
def Strand.orEngine (t : Strand) (fl : Word) : Strand :=
  { t with
    fcsr := t.fcsr ||| (fl &&& 0xFF)
    ckpt := t.ckpt.map (fun r => if r.what = 32 then { r with old := r.old ||| (fl &&& 0xFF) } else r) }

/-- Advance JRNLDONE over DONE and CANCELLED commands (R206). -/
def doneFrom (s : State) (t : Strand) : Nat → Nat → Nat
  | 0, n => n
  | k + 1, n =>
    let m := n + 1
    if m ≤ t.jrnlHead.toNat ∧ s.jNum t m = m ∧ (s.jState t m = 3 ∨ s.jState t m = 4) then doneFrom s t k m else n

def State.settleDone (s : State) (core ctx : Nat) : State :=
  match s.strand? core ctx with
  | none => s
  | some t => s.mapStrand core ctx (fun u => { u with jrnlDone := BitVec.ofNat 64 (doneFrom s t 64 t.jrnlDone.toNat) })

/-- Formed groups that `p` names are no longer formed: what they shared is read no more. -/
def State.endGroups (s : State) (coil : Nat) (p : Nat × Nat × Word → Bool) : State :=
  if (s.coil coil).groups.any p then
    { s with coils := upd s.coils coil {} (fun k =>
        { k with
          groups := k.groups.filter (fun g => !p g)
          shared := k.shared.filter (fun l => !k.groups.any (fun g => p g && g.1 == l.grp && g.2.1 == l.mask)) }) }
  else s

/-- The MXE command of a core faults, is cancelled or is swapped out: it leaves its group, and the others go on alone (R307). -/
def State.leaveGroup (s : State) (core e : Nat) : State :=
  match (s.engine core e).running with
  | some c => if e = 0 then s.endGroups (coilOf core) (c.memberOf core) else s
  | none => s

/-- Groups of a coil end once the commands of all their members have completed (R307). -/
def State.settleGroups (s : State) (coil : Nat) : State :=
  s.endGroups coil (fun g => !(List.range 8).any (fun k => ((s.engine (8 * coil + k) 0).running).any (fun c => c.memberOf (8 * coil + k) g)))

/-- COMMAND_COMPLETE (R209): a finished command becomes DONE, or CANCELLED, and pushes its token; while the FIFO is full it
stays STARTED. -/
def State.completeCmd (s : State) (core e : Nat) : State :=
  match (s.engine core e).running with
  | none => s
  | some c =>
    match s.strand? core c.ctx with
    | none => s
    | some t =>
      let tok := ctokOf e (c.reg 0)
      if !c.finished || (tok && decide (32 ≤ t.complTokens e)) then s
      else
        let s := s.jSetState t c.num (if c.cancel then 4 else 3) 0
        let s := s.mapStrand core c.ctx (fun u => (if tok then u.addCompl e else u).orEngine c.flags)
        let s := (s.updEngine core e (fun x => { x with running := none })).settleGroups (coilOf core)
        let s := if e = 3 then s.updCore core (fun q => { q with tsq := { q.tsq with st := 0 } }) else s
        (s.settleDone core c.ctx)

/-- A command's progress is written into its entry's PROG (R207, R220, R299, assumption 71). -/
def State.recordProg (s : State) (core : Nat) (c : RunCmd) (prog : Nat) : State :=
  match s.strand? core c.ctx with
  | none => s
  | some t => s.jWrite (t.journalAt c.num + 24) prog 8

/-- Insert a number into an ascending list that may hold it already: one trap for each fault (R218). -/
def insertAsc (n : Nat) : List Nat → List Nat
  | [] => [n]
  | m :: t => if n < m then n :: m :: t else m :: insertAsc n t

/-- The running command faults (R218): FCODE and PROG are recorded, the strand's status registers and event are written, and
the strand has an asynchronous ENGINE_FAULT to take, unless an instruction of it already waits for the command. -/
def State.faultCmd (s : State) (core e fcode : Nat) (addr prog : Word) : State :=
  match (s.engine core e).running with
  | none => s
  | some c =>
    let s := match s.strand? core c.ctx with
      | none => s
      | some t =>
        let s := (s.jSetState t c.num 5 fcode).jWrite (t.journalAt c.num + 24) prog.toNat 8
        s.mapStrand core c.ctx (fun u =>
          let u := u.orEngine c.flags
          { u with
            engFaults := u.engFaults.setIfInBounds e ⟨fcode, BitVec.ofNat 64 c.num, addr⟩
            asyncFaults := if u.engWait.contains c.num || u.dq.any (fun e => e.waits.contains c.num) then u.asyncFaults else insertAsc c.num u.asyncFaults })
    let s := (s.leaveGroup core e).updEngine core e (fun x => { x with running := none })
    let s := if e = 3 then s.updCore core (fun q => { q with tsq := { q.tsq with st := 0 } }) else s
    s.logEvent c.part 0x08 c.vf (8 * core + c.ctx) (BitVec.ofNat 64 c.num) (BitVec.ofNat 64 fcode)

/-! ## Line accesses of engines (R164, R221) -/

/-- FCODE of an access's cause (Table 6 of R218). -/
def fcodeOf (cause : Nat) : Nat :=
  if cause = causeMisaligned then 1 else if cause = causeAccess then 2 else if cause = causeUnmapped then 3
  else if cause = causeDenied then 4 else if cause = causeLongStall then 5 else if cause = causeFormatFit then 6
  else if cause = causeConflict then 8 else if cause = causeUninit then 9 else 10

/-- Rank of a cause in Table 1 of R184. -/
def causeRank (c : Nat) : Nat :=
  if c = causeMisaligned then 1 else if c = causeUnmapped then 3 else if c = causeAccess then 4 else if c = causeDenied then 5
  else if c = causeLongStall then 5 else if c = causeFormatFit then 6 else if c = causeConflict then 8
  else if c = causeUninit then 10 else 12

/-- What an engine's access gives. -/
inductive EngRes where
  | ok (s : State)
  | fault (s : State) (fcode : Nat) (addr : Nat)
  /-- held for stage 2 (R116) -/
  | park (s : State) (va iseg : Nat)

/-- The tag of a line as an engine takes it: UNINIT is ZERO, or CLASS_UNINIT on a STRICT page; DEM is dropped by the
line-atomic write that follows (R49). -/
def engTag (t : Tag) (strict : Bool) : Except Nat Tag :=
  if classOf t = 4 then (if strict then .error causeUninit else .ok (withDem (withClass t 1) false))
  else if 5 ≤ classOf t then .ok (withDem (withClass t 2) false)
  else .ok (withDem t false)

/-- Layout width of a device page line; none in local store and host memory. -/
def LineLoc.lw? : LineLoc → Option Nat
  | .store _ _ => none
  | .page e _ => if e.host then none else some e.lw

/-- The line is too narrow for a format (R221). -/
def tooWide (c : FmtCtx) (t : Tag) (l : LineLoc) : Bool :=
  match l.lw? with
  | none => false
  | some lw => classOf t != 1 && decide ((c.fmt (fmtOf t)).container lw > lw)

/-- Write bytes of a line at its home under a tag (R164, R221). -/
def State.engWrite (s : State) (core : Nat) (c : RunCmd) (l : LineLoc) (va : Nat) (d : Line) (mask : ByteMask) (t : Tag) : EngRes :=
  let w : Write := { data := d, mask := mask, tag := t, typed := true, width := (c.fmtCtx.fmt (fmtOf t)).container ((l.lw?).getD 64) }
  match s.storeThrough core l w c.priv (c.walker core).reader (BitVec.ofNat 64 va) with
  | (some u, _) => .ok u
  | (none, u) => .fault u (fcodeOf causeChunk) va

/-! ## Journaling a command (R208, R213) -/

/-- The strand's command slot in local store is disabled: JOURNAL_OVERFLOW at (0, 0). -/
def needSlot (f : State → Eff) (s : State) : Eff :=
  if s.me.jrnlBase.getLsbD 0 then f s else trap00 s causeJournal 0

/-- Local-store offset and byte of shadow register i of an engine (R205). -/
def Strand.shadowOff (t : Strand) (e i : Nat) : Nat := t.jrnlBase.toNat / 2 ^ 15 % 32 * 32768 + 0x4000 + 256 * e + 32 + 8 * i
def Strand.shadowAt (t : Strand) (e i : Nat) : Nat := lsByte t.core (t.shadowOff e i)

/-- Shadow register i as the front end finds it in program order (R208): queued scalar stores have the effect of ECFG (R205). -/
def State.shadowReg (s : State) (e i : Nat) : Nat :=
  let o := s.me.shadowOff e i
  s.me.forward (.store s.me.core (o / 128)) (o % 128) 8 (memNat s.mem (s.me.shadowAt e i) 8)

/-- Write an entry and queue its command. -/
def State.journal (s : State) (e n : Nat) (arg : Word) : State :=
  let t := s.me
  let a := t.journalAt n
  let s := s.jWrite a n 8
  let s := s.jWrite (a + 8) (e + 8 + t.pm.toNat * 2 ^ 16) 8
  let s := s.jWrite (a + 16) arg.toNat 8
  let s := s.jWrite (a + 24) 0 8
  let s := (List.range 28).foldl (fun s i => s.jWrite (a + 32 + 8 * i) (s.shadowReg e i) 8) s
  let c := s.myCtx
  s.updEngine t.core e (fun x => { x with pending := x.pending ++ [⟨t.ctx, n, c.fmts, c.plt, t.diceSeed, none⟩] })

/-- An uncompleted vector instruction may access bytes of the strand's own local store from an offset, and, with `writes`, may write
them (R387). -/
def Strand.slotHeld (t : Strand) (off n : Nat) (writes : Bool) : Bool :=
  t.uncompleted.any (fun e => (!writes || storesVector e.instr) && (match t.extent e with
    | some x =>
      let lo := placeOf t.core x.1
      mayMeet (2 ^ 64 + t.core * 2 ^ 20 + off) n lo (lo + (x.2 - x.1))
    | none => false))

/-- EGO for command `n` waits for older work of its strand, since its test of the entry and its journaling are scalar accesses (R145,
R387, R420): for queued scalar stores, for what acquires or releases, and for vector accesses to the entry's bytes or writes of the
shadow set. -/
def Strand.egoWaits (t : Strand) (e n : Nat) : Bool :=
  t.older && (!t.ssq.isEmpty || t.uncompleted.any (fun x => t.acquires x || releases x.instr)
    || t.slotHeld (t.jrnlBase.toNat / 2 ^ 15 % 32 * 32768 + n % 64 * 256) 256 false || t.slotHeld (t.shadowOff e 0) 224 true)

/-- EGO and TSQGO (R208): `d` receives the command's number. -/
def issueCommand (e : Nat) (arg : Word) (d : BitVec 5) (s : State) : Eff :=
  needSlot (fun s =>
    let n := s.me.jrnlHead.toNat + 1
    let st := s.jState s.me n
    if s.me.egoWaits e n then .wait s
    else if s.jNum s.me n = n ∧ st ≠ 0 then .done (s.setReg d (BitVec.ofNat 64 n))
    else if st ≠ 0 ∧ st ≠ 3 ∧ st ≠ 4 then
      let inc := s.incomplete s.me
      if inc.any (fun m => s.jState s.me m == 5 || s.jState s.me m == 7) then
        trap00 s causeJournal (BitVec.ofNat 64 (inc.headD 0))
      else .wait s
    else if 16 ≤ (s.engine s.me.core e).pending.length then .wait s
    else
      let s := s.journal e n arg
      let s := { s with me := { s.me.record 33 s.me.jrnlHead with jrnlHead := BitVec.ofNat 64 n } }
      .done (s.setReg d (BitVec.ofNat 64 n))) s

def execEgo (e : BitVec 3) (a : BitVec 5) (t : BitVec 2) (s : State) : Out := runAhead t (issueCommand e.toNat 0 a) s

/-- TSQGO (R228): ARG is word 8·w. -/
def execTsqgo (r : BitVec 9) (a : BitVec 5) (t : BitVec 2) (s : State) : Out :=
  runAhead t (issueCommand 3 (BitVec.ofNat 64 (8 * r.toNat)) a) s

/-- ECFG (R205): a scalar store to a shadow register, performed behind those of the queue. -/
def execEcfg (e : BitVec 3) (r : BitVec 9) (a : BitVec 5) (t : BitVec 2) (s : State) : Out :=
  runOrdered t (needSlot (fun s =>
    let s := s.performAll
    .done (s.jWrite (s.me.shadowAt e.toNat r.toNat) (s.reg a).toNat 8))) s

/-- ECFGR (R205): a scalar load of a shadow register. -/
def execEcfgr (e : BitVec 3) (r : BitVec 9) (a : BitVec 5) (t : BitVec 2) (s : State) : Out :=
  runOrdered t (needSlot (fun s =>
    let s := s.performAll
    let o := s.me.shadowOff e.toNat r.toNat
    let x := s.readHome (.store s.me.core (o / 128)) s.reader
    let v := if classOf x.2.1 = 4 then 0 else lineNat x.1 (o % 128) 8
    scalarPsn x.2.2 (classOf x.2.1 == 2) (fun s => .done (s.setReg a (BitVec.ofNat 64 v))))) s

/-! ## Waiting, status, cancelling, replaying -/

/-- The engine named a bad command (R212): EFCODE is set to 0x1F. -/
def badCommand (e : Nat) (x : Word) (s : State) : Eff :=
  let old := s.me.engFaults.getD e {}
  trapI { s with me := { s.me with engFaults := s.me.engFaults.setIfInBounds e { old with code := 0x1F } } } causeEngine x

/-- EWAIT (R212). -/
def execEwait (e : BitVec 3) (a : BitVec 5) (t : BitVec 2) (s : State) : Out :=
  runOrdered t (fun s =>
    let x := (s.reg a).toNat
    let k := e.toNat
    let resolve (ns : List Nat) : Eff :=
      match ns.find? (fun n => s.jState s.me n == 5 || s.jState s.me n == 7) with
      | some n => trapI s causeEngine (BitVec.ofNat 64 n)
      | none => if ns.isEmpty then .done s else .wait { s with me := { s.me with engWait := ns } }
    let inc := (s.incomplete s.me).filter (fun n => s.jEngine s.me n == k)
    if x = 0 then resolve inc
    else if s.me.jrnlHead.toNat < x then badCommand k (s.reg a) s
    else if s.jNum s.me x = x then
      if s.jEngine s.me x ≠ k then badCommand k (s.reg a) s else resolve (inc.filter (fun n => n == x))
    else .done s) s

/-- A status register of Table 5 of R216. -/
def State.engStatus (s : State) (e r : Nat) : Nat :=
  let t := s.me
  let x := s.engine t.core e
  let inc := (s.incomplete t).filter (fun n => s.jEngine t n == e)
  let f := t.engFaults.getD e {}
  let mine (c : RunCmd) : Bool := c.ctx == t.ctx
  match r with
  | 0x100 =>
    let q := Nat.min x.pending.length 16 * 2
    let flt := inc.any (fun n => s.jState t n == 5 || s.jState t n == 7)
    (match x.running with
     | some c => 1 + c.ctx * 64 + (mine c).toNat * 512
     | none => 0) + q + flt.toNat * 1024
  | 0x101 => match inc with
    | n :: _ => n - 1
    | [] => t.jrnlHead.toNat
  | 0x102 => match x.running with
    | some c => if mine c then c.num else 0
    | none => 0
  | 0x103 => f.code
  | 0x104 => f.num.toNat
  | 0x105 => f.addr.toNat
  | _ => 0

def execEstat (e : BitVec 3) (r : BitVec 9) (a : BitVec 5) (t : BitVec 2) (s : State) : Out :=
  runOrdered t (fun s => .done (s.setReg a (BitVec.ofNat 64 (s.engStatus e.toNat r.toNat)))) s

/-- Cancel command n of a strand (R217): a STARTED one stops at its unit boundary, and others never start again; an MXE
command releases every row it had not released. With `tokens` a completion token is pushed as CTOK asks. -/
def State.cancelCmd (s : State) (t : Strand) (n : Nat) (tokens : Bool) : State :=
  let e := s.jEngine t n
  match s.jState t n with
  | 2 =>
    let s := (s.leaveGroup t.core e).updRun t.core e (fun c =>
      if c.ctx = t.ctx ∧ c.num = n then
        { c with cancel := true, finished := true, unreleased := [], outRow := none, held := none
                 regs := if tokens then c.regs else [] }
      else c)
    s.completeCmd t.core e
  | _ =>
    let tok := tokens && ctokOf e (s.jReg t n 0)
    let s := s.jSetState t n 4 0
    let s := s.updEngine t.core e (fun x => { x with pending := x.pending.filter (fun p => !(p.ctx == t.ctx && p.num == n)) })
    let s := if tok then s.mapStrand t.core t.ctx (fun u => u.addCompl e) else s
    s.settleDone t.core t.ctx

/-- ECANCEL (R217): retires once every named command is CANCELLED or DONE. -/
def execEcancel (e : BitVec 3) (a : BitVec 5) (t : BitVec 2) (s : State) : Out :=
  runOrdered t (fun s =>
    let x := (s.reg a).toNat
    let named (s : State) := (s.incomplete s.me).filter (fun n => s.jEngine s.me n == e.toNat && (x == 0 || n == x))
    let room (s : State) (n : Nat) : Bool :=
      s.jState s.me n == 2 || !ctokOf e.toNat (s.jReg s.me n 0) || decide (s.me.complTokens e.toNat < 32)
    let s := (named s).foldl (fun s n => if room s n then s.cancelCmd s.me n true else s) s
    if (named s).isEmpty then .done s else .wait s) s

/-- Requeue FAULTED, REPLAY and reserved-state commands of a strand on an engine, in number order (R214, R215), also beyond the sixteen
pending commands that EST.QDEPTH counts (assumption 81). -/
def State.replay (s : State) (t : Strand) (e last : Nat) : State :=
  let c := s.ctxOf t.part t.braid
  ((s.incomplete t).filter (fun n => decide (n ≤ last) && s.jEngine t n == e
      && (s.jState t n == 5 || s.jState t n == 6 || s.jState t n == 7))).foldl
    (fun s n =>
      (s.jSetState t n 1 0).updEngine t.core e (fun x =>
        { x with pending := x.pending ++ [⟨t.ctx, n, c.fmts, c.plt, t.diceSeed, none⟩] })) s

/-- EJRNL (R214). -/
def execEjrnl (e : BitVec 3) (a : BitVec 5) (t : BitVec 2) (s : State) : Out :=
  runOrdered t (fun s =>
    let x := (s.reg a).toNat
    let last := if x = 0 then s.me.jrnlHead.toNat else x
    .done (s.performAll.replay s.me e.toNat last)) s

/-! ## Shadowed buffers (R223–R225) -/

/-- PUBLISH (R225): a release, then the entry's front bit is flipped. -/
def execPublish (a : BitVec 5) (scope : BitVec 3) (t : BitVec 2) (s : State) : Out :=
  runOrdered t (fun s =>
    let h := (s.reg a).toNat
    match (s.part s.me.part).bufs.lookup h with
    | some b =>
      if b.vf ≠ s.me.vf ∨ 255 < h then trap00 s causeAccess (s.reg a)
      else
        let c := s.clampScope scope.toNat
        let s := c.2.performAll.release c.1
        .done (s.updPart s.me.part (fun p => { p with bufs := put p.bufs h { b with front := !b.front } }))
    | none => trap00 s causeAccess (s.reg a)) s

/-! ## Loading the transform sequencer (R227, R229) -/

/-- Write slots k.. of a code line to consecutive instruction words; none past word 4,095. -/
def loadSlots (d : Line) (base : Nat) : Nat → Nat → Nat → List (Nat × BitVec 32) → Nat × List (Nat × BitVec 32) × Bool
  | 0, _, w, m => (w, m, true)
  | n + 1, k, w, m =>
    if 4095 < w then (w, m, false)
    else loadSlots d base n (k + 1) (w + 1) (put m w (lineWord d base k))

/-- Change the sequencer of a core. -/
def State.updTsq (s : State) (core : Nat) (f : Tsq → Tsq) : State := s.updCore core (fun c => { c with tsq := f c.tsq })

/-- Load the chain of lines from a code address: at most `fuel` lines, words from `w` on. A stage-2 miss holds the strand, which
goes on from the line that missed. -/
def tsqChain : Nat → Word → Nat → State → Eff
  | 0, _, _, s => trapI s causeEngine 4096
  | fuel + 1, pc, w, s =>
    let a := pc.toNat
    if a % 4 ≠ 0 ∨ a / 4 % 16 = 0 then trapI s causeMisaligned pc
    else if 2 ^ 56 ≤ a then trapI s causeAccess pc
    else
      let base := a / 64 * 64
      let at_ := s.resolveMe base
      match s.translate s.walker at_ .fetch with
      | .fail t c => trapI t c pc
      | .park t i => .wait (({ t with me := { t.me with tsqLoad := some (pc, w) } }.fixAddr base).holdMe at_ i)
      | .ok t e =>
        let x := t.readHome (.page e (at_ % 2 ^ 18 / 128)) t.reader
        let link := lineWord x.1 base 0
        let s := x.2.2
        if link.toNat / 2 ^ 29 ≠ 2 then trapI s causeForeign (BitVec.ofNat 64 base)
        else if linkLast link = 0 then trapI s causeCodeEnd (BitVec.ofNat 64 base)
        else
          let core := s.me.core
          let r := loadSlots x.1 base (linkLast link) 1 w (s.core core).tsq.imem
          let s := s.updTsq core (fun q => { q with imem := r.2.1 })
          if !r.2.2 then trapI s causeEngine 4096
          else if linkEnd link then .done s
          else tsqChain fuel (s.me.image + BitVec.ofNat 64 (64 * (link.toNat % 2 ^ 24) + 4)) r.1 s

/-- A TSQLD of a strand of the core is under way: no command of the sequencer starts (R227). -/
def State.loading (s : State) (core : Nat) : Bool := s.strands.any (fun t => t.core == core && t.tsqLoad.isSome)

/-- TSQLD (R227): it goes on where a stage-2 miss held it, or waits until the sequencer holds no command. No command starts until it
retires, which a full signal FIFO may hold (R34). -/
def execTsqld (r : BitVec 9) (a : BitVec 5) (t : BitVec 2) (s : State) : Out :=
  runOrdered t (fun s =>
    let x := s.engine s.me.core 3
    match s.me.tsqLoad with
    | some l => tsqChain 4097 l.1 l.2 s
    | none =>
      if x.running.isSome || !x.pending.isEmpty then .wait s
      else
        let s := s.performAll
        tsqChain 4097 (s.reg a) (8 * r.toNat) { s with me := { s.me with tsqLoad := some (s.reg a, 8 * r.toNat) } }) s

/-- TSQSTAT (R229). -/
def execTsqstat (r : BitVec 9) (a : BitVec 5) (t : BitVec 2) (s : State) : Out :=
  runOrdered t (fun s =>
    let q := (s.core s.me.core).tsq
    let v := match r.toNat with
      | 0 => q.pc % 4096 + q.st % 8 * 4096
      | 5 => q.scale % 256
      | n => q.loopC.getD (n - 1) 0 % 2 ^ 24 + q.loopN.getD (n - 1) 0 % 2 ^ 24 * 2 ^ 24
    .done (s.setReg a (BitVec.ofNat 64 v))) s

end Sys2Proof.Machine
end

