-- ==== Sys2Proof/Machine/Cpe.lean ====
section
/-!
DEFINITION. The copy engines (R219–R222, R224): the checks at a command's start, and one line of its run.
-/
namespace Sys2Proof.Machine

/-! ## Lines as engines find them -/

/-- The line at an engine's address, which must be 128-byte aligned (R220, R232); a shadowed buffer redirects strands only (R223). -/
def State.engLine (s : State) (core : Nat) (c : RunCmd) (a : Nat) (acc : Access) : LRes :=
  if a % 128 ≠ 0 then .fail s causeMisaligned else s.locate (c.walker core) a acc

/-- Rank in Table 1 of R184 of a fault of an access, its cause and address: ACCESS comes second for an address that is not canonical. -/
def faultRank (core : Nat) (f : Nat × Nat) : Nat :=
  if f.1 = causeAccess ∧ (match classify core f.2 with
    | .nonCanonical => true
    | _ => false) = true then 2 else causeRank f.1

/-- The fault of lowest rank among an access's sides: cause and address. -/
def worstFault (core : Nat) (fs : List (Nat × Nat)) : Option (Nat × Nat) :=
  fs.foldl (fun b f => match b with
    | none => some f
    | some g => if faultRank core f < faultRank core g then some f else some g) none

/-- Hold an engine at a stage-2 miss (R116). -/
def State.parkCmd (s : State) (core e va iseg : Nat) : State :=
  s.updRun core e (fun c => { c with held := some (va, iseg) })

/-- The command's work is done: complete it, or wait with its token (R209). -/
def State.finishCmd (s : State) (core e : Nat) : State :=
  (s.updRun core e (fun c => { c with finished := true, held := none })).completeCmd core e

/-! ## Configuration registers (Table 7 of R219) -/

def RunCmd.cpeOp (c : RunCmd) : Nat := (c.reg 0).toNat % 4
def RunCmd.cpeShd (c : RunCmd) : Bool := (c.reg 0).getLsbD 3
def RunCmd.cpeMc (c : RunCmd) : Bool := (c.reg 0).getLsbD 4
def RunCmd.cpeHint (c : RunCmd) : Nat := (c.reg 0).toNat / 2 ^ 5 % 4
def RunCmd.cpeX (c : RunCmd) : Nat := (c.reg 3).toNat
def RunCmd.cpeY (c : RunCmd) : Nat := (c.reg 4).toNat
def RunCmd.cpeZ (c : RunCmd) : Nat := (c.reg 5).toNat
def RunCmd.cpeUnits (c : RunCmd) : Nat := c.cpeX * c.cpeY * c.cpeZ

/-- An LS-window address with bit 23 = 0. -/
def lsWindow (a : Nat) : Bool := decide (a / 2 ^ 24 = 0xFFFE000000 ∧ a / 2 ^ 23 % 2 = 0)

/-- BADCFG at the start (R220). -/
def RunCmd.cpeBad (c : RunCmd) : Bool :=
  decide ((c.reg 0).toNat / 2 ^ 7 ≠ 0) || decide (2 ≤ c.cpeOp) || decide (2 ^ 20 ≤ c.cpeX) || decide (2 ^ 20 ≤ c.cpeY)
    || decide (2 ^ 20 ≤ c.cpeZ) || decide (2 ^ 8 ≤ (c.reg 10).toNat) || decide (2 ^ 8 ≤ (c.reg 11).toNat)
    || (c.cpeShd && c.cpeMc) || (c.cpeMc && ((c.reg 10) == 0 || !lsWindow (c.reg 2).toNat))

/-- The first register of those that must be line-aligned and is not, as EFADDR gives it: 0 for a stride. -/
def RunCmd.cpeMisaligned (c : RunCmd) : Option Nat :=
  ([1, 2, 6, 7, 8, 9].find? (fun i => (c.reg i).toNat % 128 ≠ 0)).map (fun i => if i ≤ 2 then (c.reg i).toNat else 0)

/-- backOf of R224: the back backing of an entry, with its size in bytes; none faults BUFH. -/
def State.backOf (s : State) (c : RunCmd) : Option (Nat × Nat) :=
  match (s.part c.part).bufs.lookup (c.reg 11).toNat with
  | some b => if b.vf = c.vf then some (if b.front then b.base else b.alt, 2 ^ 18 * b.segs) else none
  | none => none

/-- Signed byte offset of unit i on a side with strides `ys` and `zs` (R220). -/
def RunCmd.cpeOff (c : RunCmd) (ys zs : Word) (i : Nat) : Int :=
  let x := i % c.cpeX
  let y := i / c.cpeX % c.cpeY
  let z := i / (c.cpeX * c.cpeY)
  (z : Int) * zs.toInt + (y : Int) * ys.toInt + (128 * x : Nat)

/-- The interval of the lines of row `k` (of all planes) of a side from `b`: addresses are sums modulo 2^64. -/
def RunCmd.cpeRow (c : RunCmd) (b : Nat) (ys zs : Word) (k : Nat) : Nat × Nat :=
  let a := (((b : Int) + c.cpeOff ys zs (c.cpeX * k)) % (2 ^ 64 : Int)).toNat
  if a + 128 * c.cpeX ≤ 2 ^ 64 then (a, a + 128 * c.cpeX) else (0, 2 ^ 64)

/-- Smallest address interval that holds every line of a side from `b` (R220): between two of its corners where no sum passes
2^64 or 0, else over its rows. -/
def RunCmd.cpeExtent (c : RunCmd) (b : Nat) (ys zs : Word) : Nat × Nat :=
  let n := c.cpeX * (c.cpeY - 1)
  let m := c.cpeX * c.cpeY * (c.cpeZ - 1)
  let at_ (i : Nat) : Int := (b : Int) + c.cpeOff ys zs i
  let corners := [at_ n, at_ m, at_ (m + n)]
  let lo := corners.foldl min (at_ 0)
  let hi := corners.foldl max (at_ 0) + (128 * c.cpeX : Nat)
  let d := (2 ^ 64 : Int)
  if lo / d = (hi - 1) / d then ((lo % d).toNat, (lo % d).toNat + (hi - lo).toNat)
  else
    let rows := (List.range (c.cpeY * c.cpeZ)).map (c.cpeRow b ys zs)
    (rows.foldl (fun x r => Nat.min x r.1) (2 ^ 64), rows.foldl (fun x r => Nat.max x r.2) 0)

/-- Destination bases: `d0`, or with MC each core's window (R222). -/
def RunCmd.cpeDests (c : RunCmd) (d0 : Nat) : List Nat :=
  if c.cpeMc then
    ((List.range 8).filter (fun k => (c.reg 10).getLsbD k)).map (fun k => 0xFFFE000000000000 + k * 2 ^ 20 + d0 % 2 ^ 20)
  else [d0]

/-- The extents of a COPY intersect: that of the destination holds the lines of every core it goes to (R220, R222). -/
def RunCmd.cpeOverlaps (c : RunCmd) (d0 : Nat) : Bool :=
  let a := c.cpeExtent (c.reg 1).toNat (c.reg 6) (c.reg 8)
  let bs := (c.cpeDests d0).map (fun d => c.cpeExtent d (c.reg 7) (c.reg 9))
  c.cpeOp == 0 && c.cpeUnits != 0 && decide (a.1 < bs.foldl (fun x b => Nat.max x b.2) 0 ∧ bs.foldl (fun x b => Nat.min x b.1) (2 ^ 64) < a.2)

/-- The checks at a command's start, in R220's order, and the destination's base: a fault is its code and EFADDR. -/
def State.cpeCheck (s : State) (c : RunCmd) : Except (Nat × Nat) Nat :=
  if c.cpeBad then .error (0x0C, 0)
  else match c.cpeMisaligned with
    | some a => .error (0x01, a)
    | none =>
      let d0 : Except (Nat × Nat) Nat :=
        if c.cpeShd then
          match s.backOf c with
          | none => .error (0x11, 0)
          | some b => if b.2 ≤ (c.reg 2).toNat then .error (0x11, 0) else .ok ((b.1 + (c.reg 2).toNat) % 2 ^ 64)
        else .ok (c.reg 2).toNat
      match d0 with
      | .error f => .error f
      | .ok d => if c.cpeOverlaps d then .error (0x0B, 0) else .ok d

/-! ## One unit (R220–R222) -/

/-- Places of a unit's lines, with what stops them. -/
structure Sides where
  s : State
  locs : List (Nat × LineLoc) := []
  faults : List (Nat × Nat) := []
  parks : List (Nat × Nat) := []

/-- Find one more line. -/
def Sides.add (x : Sides) (core : Nat) (c : RunCmd) (a : Nat) (acc : Access) : Sides :=
  match x.s.engLine core c a acc with
  | .ok t l => { x with s := t, locs := x.locs ++ [(a, l)] }
  | .fail t f => { x with s := t, faults := x.faults ++ [(f, a)] }
  | .park t i => { x with s := t, parks := x.parks ++ [(a, i)] }

/-- Find a destination of the unit at signed offset `off`; a multicast one stays within its core's local store (R222). -/
def Sides.addDest (x : Sides) (core : Nat) (c : RunCmd) (d : Nat) (off : Int) : Sides :=
  let a := ((d : Int) + off) % (2 ^ 64 : Int)
  let o := ((d % 2 ^ 20 : Nat) : Int) + off
  if c.cpeMc && (decide (o < 0) || decide (0xFFF80 < o)) then { x with faults := x.faults ++ [(causeAccess, a.toNat)] }
  else x.add core c a.toNat .write

/-- Write a line to each destination in ascending order. -/
def writeAll (core : Nat) (c : RunCmd) (d : Line) (t : Tag) : List (Nat × LineLoc) → State → EngRes
  | [], s => .ok s
  | x :: xs, s =>
    match s.engWrite core c x.2 x.1 d fullMask t with
    | .ok u => writeAll core c d t xs u
    | r => r

/-- FORMAT_FIT of a destination (R221): unequal layout widths of a device-to-device copy, or a container that is too wide. -/
def misfit (c : RunCmd) (src : Option LineLoc) (t : Tag) (dst : LineLoc) : Bool :=
  (match src.bind LineLoc.lw?, dst.lw? with
    | some a, some b => a != b
    | _, _ => false) || (classOf t != 4 && tooWide c.fmtCtx t dst)

/-- Write a unit's line, found with tag `t`, and step on. -/
def State.cpeWrite (s : State) (core e : Nat) (c : RunCmd) (src : Option (Nat × LineLoc)) (d : Line) (t : Tag)
    (dsts : List (Nat × LineLoc)) : State :=
  let stop (s : State) (fcode a : Nat) : State := s.faultCmd core e fcode (BitVec.ofNat 64 a) c.prog
  match dsts.find? (fun x => misfit c (src.map (fun y => y.2)) t x.2) with
  | some x => stop s 0x06 x.1
  | none =>
    match engTag t (src.any (fun y => y.2.strict)) with
    | .error _ => stop s 0x09 ((src.map (fun y => y.1)).getD 0)
    | .ok u =>
      match writeAll core c (if classOf t = 4 then 0 else d) u dsts s with
      | .ok s =>
        let s := (s.updRun core e (fun c => { c with prog := c.prog + 1, held := none })).recordProg core c (c.prog.toNat + 1)
        if c.prog.toNat + 1 < c.cpeUnits then s else s.finishCmd core e
      | .fault s f a => stop s f a
      | .park s va i => s.parkCmd core e va i

/-- One unit of a running command. -/
def State.cpeLine (s : State) (core e : Nat) (c : RunCmd) : State :=
  let i := c.prog.toNat
  let s0 : Sides := { s := s }
  let sa := (((c.reg 1).toNat : Int) + c.cpeOff (c.reg 6) (c.reg 8) i) % (2 ^ 64 : Int)
  let x := if c.cpeOp = 0 then s0.add core c sa.toNat .read else s0
  let n := x.locs.length
  let y := (c.cpeDests c.dest.toNat).foldl (fun x d => x.addDest core c d (c.cpeOff (c.reg 7) (c.reg 9) i)) x
  match worstFault core y.faults, y.parks with
  | some f, _ => y.s.faultCmd core e (fcodeOf f.1) (BitVec.ofNat 64 f.2) c.prog
  | none, p :: _ => y.s.parkCmd core e p.1 p.2
  | none, [] =>
    match (y.locs.take n).head? with
    | none => y.s.cpeWrite core e c none 0 zeroTag y.locs
    | some src =>
      let h := y.s.loadLine core src.2 c.cpeHint (c.walker core).reader
      h.2.2.cpeWrite core e c (some src) h.1 h.2.1 (y.locs.drop n)

/-- CPE_UNIT: one line of the copy engine's command; a count of 0, or a PROG past the last line, completes it. -/
def State.cpeUnit (s : State) (core e : Nat) : State :=
  match (s.engine core e).running with
  | none => s
  | some c =>
    if c.finished then s.completeCmd core e
    else if c.prog.toNat < c.cpeUnits then s.cpeLine core e c
    else s.finishCmd core e

def execCpeUnit (core eng : Nat) (s : State) : Out := .next (if eng = 1 ∨ eng = 2 then s.cpeUnit core eng else s)

end Sys2Proof.Machine
end

