-- ==== Sys2Proof/Machine/Mxe.lean ====
section
/-!
DEFINITION. The matrix engine (R295–R310): tiles, the checks at a command's start, a step, multicast groups, the release of
rows and the output stage; and MXZERO, VACCRD and VACCWR (R311–R315).
-/
namespace Sys2Proof.Machine

/-! ## Tiles (R295) -/

def State.tile (s : State) (core t : Nat) : Tile := (s.core core).tiles.getD t {}

def State.setTile (s : State) (core t : Nat) (v : Tile) : State :=
  s.updCore core (fun c => { c with tiles := c.tiles.setIfInBounds t v })

/-- The codes of elements i, i + 1, …, `n` of them, from the listed nonzero ones. -/
def denseCodes : Nat → Nat → List (Nat × Nat) → List Nat
  | 0, _, _ => []
  | n + 1, i, [] => 0 :: denseCodes n (i + 1) []
  | n + 1, i, (j, v) :: t => if j = i then v :: denseCodes n (i + 1) t else 0 :: denseCodes n (i + 1) ((j, v) :: t)

/-- The nonzero codes of a list with their element numbers. -/
def sparseCodes (l : List Nat) : List (Nat × Nat) := (l.zipIdx.filter (fun x => x.1 != 0)).map (fun x => (x.2, x.1))

/-- A tile of a format with element codes `l`. -/
def Tile.ofCodes (accf : Nat) (l : List Nat) (poison : BitVec 128) : Tile := ⟨accf, sparseCodes l, poison⟩

/-- Width of a tile's elements, and n_B: FP64 tiles have 32 columns (R295, R299). -/
def accWidth (accf : Nat) : Nat := if accf = 1 then 64 else 32
def accCols (accf : Nat) : Nat := if accf = 1 then 32 else 64

/-! ## Configuration registers (Table 2 of R298) -/

def RunCmd.zacc (c : RunCmd) : Bool := c.bits 0 1 1 == 1
def RunCmd.out (c : RunCmd) : Bool := c.bits 0 2 1 == 1
def RunCmd.isat (c : RunCmd) : Bool := c.bits 0 3 1 == 1
def RunCmd.osat (c : RunCmd) : Bool := c.bits 0 4 1 == 1
def RunCmd.orm (c : RunCmd) : Nat := c.bits 0 5 3
def RunCmd.outl (c : RunCmd) : Nat := c.bits 0 8 3
def RunCmd.mcop (c : RunCmd) : Nat := c.bits 0 15 2
def RunCmd.aw (c : RunCmd) : Nat := widthOf (c.bits 4 0 3)
def RunCmd.bw (c : RunCmd) : Nat := widthOf (c.bits 4 3 3)
def RunCmd.ow (c : RunCmd) : Nat := widthOf (c.bits 4 6 3)
def RunCmd.ofmt (c : RunCmd) : Nat := c.bits 4 9 6
def RunCmd.f64 (c : RunCmd) : Bool := c.bits 4 15 1 == 1
def RunCmd.nB (c : RunCmd) : Nat := if c.f64 then 32 else 64
/-- LOOPl.N, TSTR and CSTR. -/
def RunCmd.loopN (c : RunCmd) (l : Nat) : Nat := c.bits (8 + l) 0 24
def RunCmd.tstr (c : RunCmd) (l : Nat) : Nat := c.bits (8 + l) 24 2
def RunCmd.cstr (c : RunCmd) (l : Nat) : Int := signedOf 32 (c.bits (8 + l) 32 32)
def RunCmd.astr (c : RunCmd) (l : Nat) : Word := c.reg (0x0E + l)
def RunCmd.bstr (c : RunCmd) (l : Nat) : Word := c.reg (0x14 + l)

/-- Product of the counts of levels l, …, l + n − 1. -/
def RunCmd.sweep (c : RunCmd) (l n : Nat) : Nat := (List.range n).foldl (fun acc i => acc * c.loopN (l + i)) 1

/-- N and P of R299. -/
def RunCmd.steps (c : RunCmd) : Nat := c.sweep 0 6
def RunCmd.passLen (c : RunCmd) : Nat := c.sweep 0 c.outl

/-- Counter of level l at a step. -/
def RunCmd.digit (c : RunCmd) (step l : Nat) : Nat := step / c.sweep 0 l % c.loopN l

/-- A base plus the counters' strides, modulo 2^64. -/
def RunCmd.operandAddr (c : RunCmd) (base : Word) (str : Nat → Word) (step : Nat) : Nat :=
  (base + (List.range 6).foldl (fun acc l => acc + BitVec.ofNat 64 (c.digit step l) * str l) 0).toNat

/-- Tile of a step (R300). -/
def RunCmd.stepTile (c : RunCmd) (step : Nat) : Nat :=
  (c.bits 7 0 2 + (List.range 6).foldl (fun acc l => acc + c.digit step l * c.tstr l) 0) % 4

/-! ## Start checks (R298, R299) -/

/-- BADCFG of an MXE command of core `core`. -/
def RunCmd.mxeBad (c : RunCmd) (core : Nat) : Bool :=
  let f := c.fmtCtx.fmt c.ofmt
  (c.reg 0).toNat / 2 ^ 17 != 0 || decide (6 ≤ c.orm) || c.outl == 7 || (c.mcen && c.mcop == 0)
    || decide (6 ≤ c.bits 4 0 3) || decide (6 ≤ c.bits 4 3 3) || (c.reg 4).toNat / 2 ^ 16 != 0
    || (c.out && (decide (6 ≤ c.bits 4 6 3) || f.kind == .none || f.kind == .e8m0 || decide (c.ow < f.container c.ow)))
    || (c.reg 5).toNat / 2 ^ 9 != 0 || (c.reg 7).toNat / 4 != 0
    || (List.range 6).any (fun l => c.loopN l == 0 || c.bits (8 + l) 26 6 != 0 || (decide (l < c.outl) && c.tstr l != 0))
    || (c.reg 0x1A).toNat / 2 ^ 8 != 0 || decide (2 ^ 48 ≤ c.steps)
    || (c.mcen && !c.mcmask.testBit (core % 8))

/-- MISALIGNED: the first register that is not a multiple, as EFADDR gives it (0 for a stride). -/
def RunCmd.mxeMisaligned (c : RunCmd) : Option Nat :=
  let ga := Nat.min (16 * c.aw) 128
  let gb := Nat.min (c.nB * c.bw / 8) 128
  let go := Nat.min (c.nB * c.ow / 8) 128
  let off (g : Nat) (v : Word) : Bool := v.toNat % g != 0
  if off ga (c.reg 1) then some (c.reg 1).toNat
  else if (List.range 6).any (fun l => off ga (c.astr l)) then some 0
  else if off gb (c.reg 2) then some (c.reg 2).toNat
  else if (List.range 6).any (fun l => off gb (c.bstr l)) then some 0
  else if c.out then
    if off go (c.reg 3) then some (c.reg 3).toNat
    else if off go (c.reg 6) || (List.range 6).any (fun l => decide (c.outl ≤ l) && c.cstr l % (go : Int) != 0) then some 0
    else none
  else none

def RunCmd.mxeCheck (c : RunCmd) (core : Nat) : Option (Nat × Nat) :=
  if c.mxeBad core then some (0x0C, 0) else (c.mxeMisaligned).map (fun a => (0x01, a))

/-! ## Operands (R301, R302) -/

/-- A settled operand: its tag without class, none when it is ZERO, whether it is POISON, and its elements' values. -/
structure MxOperand where
  tag : Option Tag
  poison : Bool
  vals : List Num

/-- One line of an operand: its tag and bytes. -/
abbrev OperandLine := Tag × Line

/-- Value of element i of an operand at byte offset `off` of its first line. -/
def operandVal (x : FmtCtx) (ls : List OperandLine) (off w i : Nat) : Num :=
  let bit := 8 * off + w * i
  let l := ls.getD (bit / 1024) (zeroTag, 0)
  rowValue x l.1 (if classOf l.1 = 1 ∨ classOf l.1 = 4 then 0 else l.2.toNat / 2 ^ (bit % 1024) % 2 ^ w)

/-- Values of the elements: +0 on ZERO and UNINIT lines. -/
def operandVals (x : FmtCtx) (ls : List OperandLine) (off w n : Nat) : List Num :=
  let ls := ls.map (fun l => if classOf l.1 = 4 then (withClass l.1 1, l.2) else l)
  (List.range n).map (operandVal x ls off w)

/-- The command's multicast group is formed. -/
def State.inGroup (s : State) (core : Nat) (c : RunCmd) : Bool := (s.coil (coilOf core)).groups.any (c.memberOf core)

/-- Step number of a running MXE command. -/
def RunCmd.step (c : RunCmd) : Nat := c.prog.toNat % 2 ^ 48

/-- A line of an operand. One that a formed group shares is read once at a step, and every member takes that read (R307). -/
def State.operandLine (s : State) (core : Nat) (c : RunCmd) (shares : Bool) (k i : Nat) : OperandLine × State :=
  let mine (l : SharedLine) : Bool := l.grp == c.mcgrp && l.mask == c.mcmask && l.step == c.step
  let group := shares && s.inGroup core c
  match if group then (s.coil (coilOf core)).shared.find? (fun l => mine l && l.line == 8192 * k + i) else none with
  | some l => ((l.tag, l.data), s)
  | none =>
    let h := s.readHome (.store k i) (c.walker core).reader
    let x : OperandLine := (h.2.1, h.1)
    if group then
      (x, { h.2.2 with coils := upd h.2.2.coils (coilOf core) {} (fun q =>
        { q with shared := ⟨c.mcgrp, c.mcmask, c.step, 8192 * k + i, x.2, x.1⟩
                  :: q.shared.filter (fun l => !(l.grp == c.mcgrp && l.mask == c.mcmask) || mine l) }) })
    else (x, h.2.2)

/-- readOperand of `n` elements at slot width `w`: the operand, or a fault code. -/
def State.readOperand (s : State) (core : Nat) (c : RunCmd) (shares : Bool) (a n w : Nat) : Except Nat MxOperand × State :=
  match classify core a with
  | .window k o =>
    let len := n * w / 8
    if 2 ^ 20 < o + len then (.error 0x02, s)
    else
      let first := o / 128
      let cnt := (o % 128 + len + 127) / 128
      let r := (List.range cnt).foldl (fun (x : List OperandLine × State) i =>
        let h := x.2.operandLine core c shares k (first + i)
        (x.1 ++ [h.1], h.2)) (([] : List OperandLine), s)
      let tags := r.1.map (fun l => l.1)
      let live := tags.filter (fun t => classOf t != 1 && classOf t != 4)
      if tags.any (fun t => classOf t == 3) then (.error 0x08, r.2)
      else match live with
        | [] => (.ok ⟨none, false, List.replicate n Num.zero⟩, r.2)
        | t :: _ =>
          if live.any (fun u => fmtOf u != fmtOf t || bscOf u != bscOf t) then (.error 0x07, r.2)
          else if w < (c.fmtCtx.fmt (fmtOf t)).container w then (.error 0x06, r.2)
          else (.ok ⟨some (mkTag (fmtOf t) (bscOf t) 0 false), live.any (fun u => classOf u != 0),
                 operandVals c.fmtCtx r.1 (o % 128) w n⟩, r.2)
  | _ => (.error 0x02, s)

/-! ## A step (R303, R304) -/

/-- What a step accumulates in. -/
inductive StepFmt where
  /-- both operands are ZERO: the tile stays -/
  | none
  | acc (f : Nat)
  | fault

/-- stepFormat of R303. -/
def stepFormat (c : RunCmd) (a b : MxOperand) (tile : Tile) : StepFmt :=
  match a.tag, b.tag with
  | none, none => .none
  | x, y =>
    let ta := (x.or y).getD zeroTag
    let tb := (y.or x).getD zeroTag
    match joinRow c.fmtCtx ta tb with
    | none => .fault
    | some r =>
      let f := c.fmtCtx.fmt (fmtOf r)
      let acc := if f.isInt then (if f.m ≤ 16 then some 12 else none) else if fmtOf r = 1 then some 1 else some 2
      match acc with
      | none => .fault
      | some n => if (n == 1) = c.f64 ∧ (tile.accf = 0 ∨ tile.accf = n) then .acc n else .fault

/-- One element's accumulation: code and flags. A product that is no integer, under an integer format that a lattice entry gives,
has no stated sum: its code is the free value (assumption 52). -/
def accumulateOne (c : RunCmd) (acc : Nat) (zero : Bool) (free code : Nat) (ab : Num × Num) : Nat × Nat :=
  let f := fixedFmt acc
  if acc = 12 then
    let v := if zero then (Num.zero, 0) else ab.1.mul ab.2
    match v.1.int? with
    | some i =>
      let y := f.intResult c.isat (signedOf 32 code + i)
      (y.1, v.2 ||| y.2)
    | none => (free % 2 ^ 32, v.2)
  else
    let x := f.decode code
    let r := if zero then x.add 0 Num.zero else Num.fma 0 ab.1 ab.2 x
    let y := roundTo f 127 ⟨0, 0, false⟩ r.1
    (y.1, r.2 ||| y.2)

/-- accumulate of R304: the tile and the flags; `free` gives the free code of each element that needs one. -/
def accumulate (c : RunCmd) (acc : Nat) (free : Nat → Nat) (a b : MxOperand) (tile : Tile) : Tile × Nat :=
  let zero := a.tag.isNone || b.tag.isNone
  let pairs := (a.vals.map (fun x => b.vals.map (fun y => (x, y)))).flatten
  let new := (pairs.zip (denseCodes pairs.length 0 tile.vals)).zipIdx.map (fun p => accumulateOne c acc zero (free p.2) p.1.2 p.1.1)
  let poison := a.poison || b.poison
  (Tile.ofCodes acc (new.map (fun p => p.1)) (if poison then BitVec.allOnes 128 else tile.poison),
   new.foldl (fun fl p => fl ||| p.2) (if poison then flagPSN else 0))

/-- Free values that a step takes: one for each element where some product is no integer under INT32. -/
def freeTaken (acc : Nat) (a b : MxOperand) : Nat :=
  if acc = 12 ∧ a.tag.isSome = true ∧ b.tag.isSome = true
      ∧ a.vals.any (fun x => b.vals.any (fun y => (x.mul y).1.int?.isNone)) = true then a.vals.length * b.vals.length
  else 0

/-- Complete the command once every row is released and every output row written (R310). -/
def State.mxeSettle (s : State) (core : Nat) : State :=
  match (s.engine core 0).running with
  | some c => if c.steps ≤ c.step ∧ c.unreleased = [] ∧ c.outRow.isNone then s.finishCmd core 0 else s
  | none => s

/-- Every other member of the core's group has reached the step, or completed. -/
def State.membersReach (s : State) (core : Nat) (c : RunCmd) : Bool :=
  !s.inGroup core c || (List.range 8).all (fun k =>
    !c.mcmask.testBit k ||
      (match (s.engine (coilOf core * 8 + k) 0).running with
        | some d => !(d.formed && d.mcgrp == c.mcgrp && d.reg 0x1B == c.reg 0x1B) || decide (c.step ≤ d.step)
        | none => true))

/-- The command may perform its next step now: rows released, output written, group formed and in step. -/
def State.mxeReady (s : State) (core : Nat) (c : RunCmd) : Bool :=
  c.unreleased.isEmpty && c.outRow.isNone && (!c.mcen || c.formed || c.step != 0) && s.membersReach core c

/-- A fault at a step: PROG.step = s (R305). -/
def State.mxeFault (s : State) (core : Nat) (c : RunCmd) (fcode a : Nat) : State :=
  s.faultCmd core 0 fcode (BitVec.ofNat 64 a) (BitVec.ofNat 64 c.step)

/-- Perform a step (R300). -/
def State.mxePerform (s : State) (core : Nat) (c : RunCmd) : State :=
  let n := c.step
  let t := c.stepTile n
  let tile := if n % c.passLen = 0 ∧ c.zacc = true then ({} : Tile) else s.tile core t
  let aa := c.operandAddr (c.reg 1) c.astr n
  let ba := c.operandAddr (c.reg 2) c.bstr n
  let a := s.readOperand core c (c.mcop.testBit 0) aa 128 c.aw
  match a.1 with
  | .error f => a.2.mxeFault core c f aa
  | .ok a' =>
    let b := a.2.readOperand core c (c.mcop.testBit 1) ba c.nB c.bw
    match b.1 with
    | .error f => b.2.mxeFault core c f ba
    | .ok b' =>
      match stepFormat c a' b' tile with
      | .fault => b.2.mxeFault core c 0x0E ba
      | x =>
        let free (i : Nat) : Nat := (Config.freeWord (s.freeCtr + i)).toNat
        let r : (Tile × Nat) × Nat := match x with
          | .acc f => (accumulate c f free a' b' tile, freeTaken f a' b')
          | _ => ((tile, if a'.poison || b'.poison then flagPSN else 0), 0)
        let ends := (n + 1) % c.passLen == 0
        let s := ({ b.2 with freeCtr := b.2.freeCtr + r.2 }.setTile core t r.1.1).updRun core 0 (fun c =>
          { c with
            prog := BitVec.ofNat 64 (n + 1)
            flags := c.flags ||| BitVec.ofNat 64 r.1.2
            tile := if ends then t else c.tile
            unreleased := if ends then List.range 8 else []
            outRow := if ends && c.out then some 0 else none
            outBsc := none })
        (s.recordProg core c (n + 1 + (if ends && c.out then 2 ^ 63 else 0))).mxeSettle core

/-- MXE_STEP. -/
def State.mxeStep (s : State) (core : Nat) : State :=
  match (s.engine core 0).running with
  | none => s
  | some c =>
    if c.finished then s.completeCmd core 0
    else if !s.mxeReady core c then s
    else if c.step < c.steps then s.mxePerform core c
    else s.mxeSettle core

def execMxeStep (core : Nat) (s : State) : Out := .next (s.mxeStep core)

/-! ## Multicast groups (R307) -/

/-- The member's command waits for its group: at step 0, not formed, with this group number. -/
def RunCmd.forming (c : RunCmd) (grp : Nat) : Bool :=
  c.mcen && c.mcgrp == grp && !c.formed && !c.finished && c.step == 0 && c.outRow.isNone

/-- Address stream of a shared operand: base, strides and counts. -/
def RunCmd.stream (c : RunCmd) : List Word :=
  (if c.mcop.testBit 0 then c.reg 1 :: (List.range 6).map c.astr else [])
    ++ (if c.mcop.testBit 1 then c.reg 2 :: (List.range 6).map c.bstr else [])
    ++ (List.range 6).map (fun l => BitVec.ofNat 64 (c.loopN l))

/-- The command of a member that matches another's. -/
def State.matching (s : State) (core grp : Nat) (c : RunCmd) : Option RunCmd :=
  match (s.engine core 0).running with
  | some d => if d.forming grp && d.mcmask == c.mcmask && d.reg 0x1B == c.reg 0x1B && d.mcop == c.mcop then some d else none
  | none => none

/-- A core of the mask is in a formed group of this number, whose commands a second one waits for. -/
def State.groupStands (s : State) (coil grp mask : Nat) : Bool := (s.coil coil).groups.any (fun g => g.1 == grp && g.2.1 &&& mask != 0)

/-- MULTICAST_FORM: the first member core, by number, whose group is complete forms it. -/
def State.formGroup (s : State) (coil grp : Nat) : State :=
  let cmdOf (k : Nat) : Option RunCmd := (s.engine (8 * coil + k) 0).running
  let members (c : RunCmd) : List Nat := (List.range 8).filter (fun k => c.mcmask.testBit k)
  let ready (k : Nat) : Bool := match cmdOf k with
    | some c => c.forming grp && !s.groupStands coil grp c.mcmask && (members c).all (fun m => (s.matching (8 * coil + m) grp c).isSome)
    | none => false
  match ((List.range 8).find? ready).bind cmdOf with
  | none => s
  | some c =>
    if (members c).all (fun m => (s.matching (8 * coil + m) grp c).all (fun d => d.stream == c.stream)) then
      let s := (members c).foldl (fun s m => s.updRun (8 * coil + m) 0 (fun d => { d with formed := true })) s
      { s with coils := upd s.coils coil {} (fun k => { k with groups := k.groups ++ [(grp, c.mcmask, c.reg 0x1B)] }) }
    else (members c).foldl (fun s m => s.faultCmd (8 * coil + m) 0 0x0C 0 0) s

def execMulticastForm (coil grp : Nat) (s : State) : Out := .next (s.formGroup coil grp)

/-! ## Row release and the output stage (R308, R309) -/

/-- ROW_RELEASE: rows 16g to 16g + 15, in ascending g. -/
def State.releaseRows (s : State) (core g : Nat) : State :=
  match (s.engine core 0).running with
  | some c =>
    if c.unreleased.head? = some g then
      (s.updRun core 0 (fun c => { c with unreleased := c.unreleased.drop 1 })).mxeSettle core
    else s
  | none => s

def execRowRelease (core g : Nat) (s : State) : Out := .next (s.releaseRows core g)

/-- Address of output row i of the pass that ended at step `last`. -/
def RunCmd.outAddr (c : RunCmd) (last i : Nat) : Nat :=
  (((c.reg 3).toNat : Int) + (List.range 6).foldl (fun acc l => if c.outl ≤ l then acc + (c.digit last l : Int) * c.cstr l else acc) 0
    + (i : Int) * (c.reg 6).toInt % (2 ^ 64 : Int)) % (2 ^ 64 : Int) |>.toNat

/-- The values of a tile's codes. -/
def Tile.value (t : Tile) (code : Nat) : Num := if t.accf = 0 then Num.zero else (fixedFmt t.accf).decode code

/-- BSC of an output stage. -/
def RunCmd.bscFor (c : RunCmd) (t : Tile) : Nat :=
  let f := c.fmtCtx.fmt c.ofmt
  if !f.scaled then 127
  else if c.bits 5 8 1 = 1 then autoBsc f ((denseCodes (128 * c.nB) 0 t.vals).map t.value)
  else c.bits 5 0 8

/-- Pieces of an output row, one for each line: address, byte mask and data. -/
def rowPieces (a len v : Nat) : List (Nat × ByteMask × Line) :=
  (List.range ((len + 127) / 128)).map (fun k =>
    let n := Nat.min len 128
    let off := a % 128
    (a + 128 * k, byteRun off n, BitVec.ofNat 1024 (v / 2 ^ (1024 * k) % 2 ^ (8 * n) * 2 ^ (8 * off))))

/-- Write the pieces of a row. -/
def writePieces (core : Nat) (c : RunCmd) (t : Tag) : List ((Nat × ByteMask × Line) × LineLoc) → State → EngRes
  | [], s => .ok s
  | x :: xs, s =>
    match s.engWrite core c x.2 x.1.1 x.1.2.2 x.1.2.1 t with
    | .ok u => writePieces core c t xs u
    | r => r

/-- A fault in the output stage: PROG holds the step, the row and OUTPEND (R305). -/
def State.outFault (s : State) (core : Nat) (c : RunCmd) (row fcode a : Nat) : State :=
  s.faultCmd core 0 fcode (BitVec.ofNat 64 a) (BitVec.ofNat 64 (c.step + row * 2 ^ 56 + 2 ^ 63))

/-- One output row. -/
def State.outputRow (s : State) (core : Nat) (c : RunCmd) (row : Nat) : State :=
  let tile := s.tile core c.tile
  let bsc := (c.outBsc).getD (c.bscFor tile)
  let f := c.fmtCtx.fmt c.ofmt
  let codes := ((denseCodes (128 * c.nB) 0 tile.vals).drop (row * c.nB)).take c.nB
  let conv := codes.zipIdx.map (fun x =>
    convertTo f bsc ⟨c.orm, if c.orm = 5 then diceBits c.dice.toNat row x.2 else 0, c.osat⟩ (tile.accf == 12) (tile.value x.1))
  let cls := if tile.poison.getLsbD row then 2 else if tile.accf = 0 then 1 else 0
  let tag := mkTag c.ofmt bsc cls false
  let v := (conv.foldr (fun x acc => x.1 % 2 ^ c.ow + 2 ^ c.ow * acc) 0)
  let ps := rowPieces (c.outAddr (c.step - 1) row) (c.nB * c.ow / 8) v
  let x := ps.foldl (fun (x : Sides) p => x.add core c (p.1 / 128 * 128) .write) { s := s : Sides }
  match worstFault core x.faults, x.parks with
  | some y, _ => x.s.outFault core c row (fcodeOf y.1) y.2
  | none, p :: _ => x.s.parkCmd core 0 p.1 p.2
  | none, [] =>
    match x.locs.find? (fun l => (l.2.lw?).any (fun lw => lw != c.ow)) with
    | some l => x.s.outFault core c row 0x06 l.1
    | none =>
      match writePieces core c tag (ps.zip (x.locs.map (fun l => l.2))) x.s with
      | .fault s fc a => s.outFault core c row fc a
      | .park s va i => s.parkCmd core 0 va i
      | .ok s =>
        let fl := conv.foldl (fun fl x => fl ||| x.2) 0
        ((s.updRun core 0 (fun c =>
          { c with
            held := none
            flags := c.flags ||| BitVec.ofNat 64 fl
            outBsc := some bsc
            outRow := if row = 127 then none else some (row + 1) })).recordProg core c
              (c.step + (if row = 127 then 0 else (row + 1) * 2 ^ 56 + 2 ^ 63))).mxeSettle core

/-- MXE_OUTPUT_ROW: the next row, once it is released. -/
def State.mxeOutput (s : State) (core : Nat) : State :=
  match (s.engine core 0).running with
  | some c =>
    match c.outRow with
    | some row => if c.unreleased.contains (row / 16) then s else s.outputRow core c row
    | none => s
  | none => s

def execMxeOutputRow (core : Nat) (s : State) : Out := .next (s.mxeOutput core)

/-! ## Order within a strand (R312) -/

/-- The number of the last pass of a command that uses a tile: levels from the slowest, each with its count, its tile
increment and the number of passes in one sweep of the faster ones; `want` is the increment still to be made, modulo 4. -/
def lastPass : List (Nat × Nat × Nat) → Nat → Option Nat
  | [], want => if want % 4 = 0 then some 0 else none
  | (n, k, below) :: rest, want =>
    ((List.range (Nat.min n 4)).map (fun i => n - 1 - i)).findSome? (fun d =>
      (lastPass rest (want + 3 * (d * k % 4))).map (fun p => d * below + p))

/-- A journal entry's command, as far as its registers go. -/
def State.jCmd (s : State) (t : Strand) (n : Nat) : RunCmd :=
  { ctx := t.ctx, num := n, vf := t.vf, part := t.part, braid := t.braid, image := 0, priv := false, arg := 0,
    prog := s.jProg t n, regs := s.jRegs t n, dice := 0 }

/-- Last pass of a command that targets tile t. -/
def RunCmd.lastOn (c : RunCmd) (t : Nat) : Option Nat :=
  lastPass ((List.range (6 - c.outl)).reverse.map (fun i =>
      (c.loopN (c.outl + i), c.tstr (c.outl + i), c.sweep c.outl i))) (t + 4 - c.bits 7 0 2)

/-- MXE commands of the strand journaled at a head value that target a tile, newest first. -/
def State.targeting (s : State) (t : Strand) (head tile : Nat) : List Nat :=
  if t.jrnlBase.getLsbD 0 then
    (((List.range 64).map (fun i => head - i)).filter (fun n =>
      decide (1 ≤ n) && s.jNum t n == n && s.jState t n != 0 && s.jEngine t n == 0 && ((s.jCmd t n).lastOn tile).isSome)).eraseDups
  else []

/-- The journal head that an instruction saw (R312). -/
def State.capHead (s : State) : Nat :=
  match s.me.issued with
  | some e => e.cap.head.toNat
  | none => s.me.jrnlHead.toNat

/-- MXZERO and VACCWR wait for earlier PENDING or STARTED commands on their tile. -/
def State.tileHeld (s : State) (tile : Nat) : Bool :=
  (s.targeting s.me s.capHead tile).any (fun n => s.jState s.me n == 1 || s.jState s.me n == 2)

/-- What R312 says of reading row group g of a tile: readable, or wait, or trap for a command. -/
inductive RowWait where
  | ready
  | wait (n : Nat)
  | fault (n : Nat)

def State.rowWait (s : State) (tile g : Nat) : RowWait :=
  match s.targeting s.me s.capHead tile with
  | [] => .ready
  | n :: _ =>
    let st := s.jState s.me n
    let need (c : RunCmd) : Nat := (((c.lastOn tile).getD 0) + 1) * c.passLen
    if st = 3 ∨ st = 4 then .ready
    else
      match (s.engine s.me.core 0).running with
      | some c =>
        if st = 2 ∧ c.ctx = s.me.ctx ∧ c.num = n then
          (if need c < c.step ∨ (need c = c.step ∧ c.unreleased.contains g = false) then .ready else .wait n)
        else if need (s.jCmd s.me n) ≤ (s.jCmd s.me n).step then .ready
        else if st = 5 ∨ st = 7 then .fault n else .wait n
      | none =>
        if need (s.jCmd s.me n) ≤ (s.jCmd s.me n).step then .ready
        else if st = 5 ∨ st = 7 then .fault n else .wait n

/-- Wait until every row of the list is readable. -/
def waitRows (tile : Nat) (f : State → Eff) : List Nat → State → Eff
  | [], s => f s
  | g :: gs, s =>
    match s.rowWait tile g with
    | .ready => waitRows tile f gs s
    | .wait n => .wait { s with me := { s.me with engWait := [n] } }
    | .fault n => trap00 s causeEngine (BitVec.ofNat 64 n)

/-! ## MXZERO, VACCRD, VACCWR -/

def execMxzero (x : BitVec 5) (t : BitVec 2) (s : State) : Out :=
  runOrdered t (vecOp (wordV 0x77 0 x 0 0 0 0 t) [] (fun _ => false) (fun s =>
    if s.tileHeld x.toNat then .wait s else .done (s.setTile s.me.core x.toNat {}))) s

/-- Rows r.. of a VACCRD. -/
def accReadRows (v : Nat) (k : BitVec 3) (tile : Tile) (w fmt q0 : Nat) : Nat → Nat → State → Eff
  | 0, _, s => .done s.clearStart
  | n + 1, r, s =>
    let vl := s.me.vl
    let size := 8192 * 32 / w
    let cols := size / 128
    let old := s.me.row (v + r)
    let act := (List.range vl).filter (fun e => s.me.act k (r * vl + e))
    let kept := s.me.keeps k r
    let poison := act.any (fun e => let q := q0 + r * vl + e; decide (q < size) && tile.poison.getLsbD (q / cols))
      || (classOf old.tag == 2 && kept)
    consume s poison r (fun s =>
      let bits := act.foldl (fun b e =>
        let q := q0 + r * vl + e
        setElem b w e (if q < size then look tile.vals q 0 else 0)) (if classOf old.tag = 1 then 0 else old.bits)
      let cls := if poison then 2 else if tile.accf = 0 ∧ (classOf old.tag = 1 ∨ kept = false) then 1 else 0
      accReadRows v k tile w fmt q0 n (r + 1) { s with me := s.me.setRow (v + r) ⟨bits, mkTag fmt 127 cls false⟩ })

def execVaccrd (v x b : BitVec 5) (k : BitVec 3) (t : BitVec 2) (s : State) : Out :=
  runOrdered t (vecOp (wordV 0x78 0 v x b k 0 t) [v] (fun _ => false) (fun s =>
    let tile := s.tile s.me.core x.toNat
    let sew := s.me.sewBits
    let w := if tile.accf = 0 then (if sew = 32 ∨ sew = 64 then sew else 0) else accWidth tile.accf
    if sew ≠ w then trapAt s causeFormatFit (fitVal tile.accf s.me.sew) 0 0
    else
      let q0 := (s.capB b).toNat
      let size := 8192 * 32 / w
      let rows := ((List.range s.me.count).filter (fun j => s.me.act k j && decide (q0 + j < size))).map
        (fun j => (q0 + j) / (size / 128) / 16)
      let fmt := if tile.accf = 0 then (if w = 64 then 1 else 2) else tile.accf
      waitRows x.toNat (fun s => accReadRows v.toNat k (s.tile s.me.core x.toNat) w fmt q0 s.me.rc 0 s) rows.eraseDups s)) s

/-- Elements that a VACCWR writes: element number, code, and whether its row is POISON. -/
def Strand.accElems (t : Strand) (a : Nat) (k : BitVec 3) (q0 size : Nat) : List (Nat × Nat × Bool) :=
  (List.range t.count).filterMap (fun j =>
    let row := t.row (a + j / t.vl)
    if t.act k j && decide (q0 + j < size) then
      some (q0 + j, rowCode row.bits row.tag t.sewBits (j % t.vl), classOf row.tag == 2)
    else none)

/-- The tile after elements are written (R315). -/
def Tile.write (tile : Tile) (accf cols : Nat) (es : List (Nat × Nat × Bool)) : Tile :=
  let codes := denseCodes (128 * cols) 0 tile.vals
  let new := codes.zipIdx.map (fun x => match es.find? (fun e => e.1 == x.2) with
    | some e => e.2.1
    | none => x.1)
  let flag (i : Nat) : Bool :=
    let here := es.filter (fun e => e.1 / cols == i)
    if here.any (fun e => e.2.2) then true else if here.length = cols then false else tile.poison.getLsbD i
  Tile.ofCodes accf new (BitVec.ofNat 128 ((List.range 128).foldl (fun acc i => if flag i then acc + 2 ^ i else acc) 0))

def execVaccwr (x v b : BitVec 5) (k : BitVec 3) (t : BitVec 2) (s : State) : Out :=
  runOrdered t (vecOp (wordV 0x79 0 x v b k 0 t) [v] (fun _ => false) (fun s =>
    if s.tileHeld x.toNat then .wait s
    else
      let tile := s.tile s.me.core x.toNat
      let sew := s.me.sewBits
      let bad (f : Nat) : Eff := trapAt s causeFormatPair (pairVal f tile.accf) 0 0
      let write (accf wide : Nat) : Eff :=
        let cols := if wide = 64 then 32 else 64
        let es := s.me.accElems v.toNat k (s.capB b).toNat (128 * cols)
        .done (s.setTile s.me.core x.toNat (tile.write accf cols es)).clearStart
      match groupTag (s.me.groupTags v.toNat) with
      | .error f => trapAt s causeFormatPair (pairVal f.1 f.2) 0 0
      | .ok g =>
        let f := fmtOf g
        if classOf g = 1 then
          if (sew ≠ 32 ∧ sew ≠ 64) ∨ (tile.accf ≠ 0 ∧ sew ≠ accWidth tile.accf) then bad 0 else write tile.accf sew
        else if ((f = 2 ∨ f = 12) ∧ sew = 32) ∨ (f = 1 ∧ sew = 64) then
          if tile.accf = 0 ∨ tile.accf = f then write f sew else bad f
        else bad f)) s

end Sys2Proof.Machine
end

