-- ==== Sys2Proof/Machine/Tsq.lean ====
section
/-!
DEFINITION. The transform sequencer (R226, R230–R238): its instructions, which act on the sequencer of the front-end
strand's core for the command it runs, and the issue of the instruction at its program counter.
-/
namespace Sys2Proof.Machine

/-- The sequencer of a core. -/
def State.tsq (s : State) (core : Nat) : Tsq := (s.core core).tsq

/-- What a sequencer instruction does for the command that runs on a core. -/
abbrev TsqOp := Nat → RunCmd → State → State

/-- The front-end strand's core runs a sequencer instruction for its command; without a command there is none to run. -/
def onTsq (f : TsqOp) (s : State) : Out :=
  .next (match (s.engine s.me.core 3).running with
    | some c => f s.me.core c s
    | none => s)

/-- A program counter: it falls or jumps off the memory above word 4,095 (R230). A target below word 0 wraps to a word above it, so that
the command faults there too (assumption 81). -/
def State.tsqGoto (s : State) (core : Nat) (pc : Int) : State := s.updTsq core (fun q => { q with pc := (pc % 65536).toNat, st := 1 })

/-- Go on at the next word. -/
def State.tsqNext (s : State) (core : Nat) : State := s.tsqGoto core ((s.tsq core).pc + 1 : Nat)

/-- The command faults; PROG records the instruction's word (assumption 15). -/
def State.tsqFault (s : State) (core fcode addr : Nat) : State :=
  s.faultCmd core 3 fcode (BitVec.ofNat 64 addr) (BitVec.ofNat 64 (s.tsq core).pc)

/-- Parameter k (R226). -/
def RunCmd.param (c : RunCmd) (k : BitVec 4) : Word := c.reg k.toNat

/-! ## Transform buffers -/

/-- Buffer t: codes and tag. -/
def Tsq.buf (q : Tsq) (t : Nat) : Line × Tag := q.tb.getD t (0, zeroTag)

def State.setBuf (s : State) (core t : Nat) (d : Line) (tag : Tag) : State :=
  s.updTsq core (fun q => { q with tb := q.tb.setIfInBounds t (d, tag) })

/-- Code of slot i at width w; a ZERO buffer's codes are zero (R52). -/
def bufCode (b : Line × Tag) (w i : Nat) : Nat := if classOf b.2 = 1 then 0 else b.1.toNat / 2 ^ (w * i) % 2 ^ w

/-- A line from the codes of its slots. -/
def lineOfCodes (w : Nat) (codes : List Nat) : Line :=
  BitVec.ofNat 1024 (codes.foldr (fun c acc => c % 2 ^ w + 2 ^ w * acc) 0)

/-- OR flags into the command's (R238). -/
def State.tsqRaise (s : State) (core fl : Nat) : State :=
  s.updRun core 3 (fun c => { c with flags := c.flags ||| BitVec.ofNat 64 fl })

/-! ## Control (R231) -/

/-- THALT: every TWR has been acknowledged. -/
def tsqHalt : TsqOp := fun core _ s => s.finishCmd core 3

/-- TLOOP with a count. -/
def tsqLoop (l n : Nat) : TsqOp := fun core _ s =>
  if n = 0 ∨ 2 ^ 24 ≤ n then s.tsqFault core 0x0F 0
  else (s.updTsq core (fun q => { q with loopC := q.loopC.setIfInBounds l 0, loopN := q.loopN.setIfInBounds l n })).tsqNext core

def tsqJump (o : BitVec 12) : TsqOp := fun core _ s => s.tsqGoto core (((s.tsq core).pc : Int) + o.toInt)

def tsqLoopEnd (l : Nat) (o : BitVec 12) : TsqOp := fun core c s =>
  let n := (s.tsq core).loopC.getD l 0 + 1
  let again := decide (n < (s.tsq core).loopN.getD l 0)
  let s := s.updTsq core (fun q => { q with loopC := q.loopC.setIfInBounds l (n % 2 ^ 24) })
  if again then tsqJump o core c s else s.tsqNext core

/-- TAGSET of field `sel` of generator g. -/
def tsqTagset (g sel : Nat) (v : Word) : TsqOp := fun core _ s =>
  if 5 < sel then s.tsqFault core 0x0D 0
  else
    let set (a : AddrGen) : AddrGen :=
      if sel = 0 then { a with base := v } else if sel = 5 then { a with rowStride := v }
      else { a with strides := a.strides.setIfInBounds (sel - 1) v }
    (s.updTsq core (fun q => { q with ag := q.ag.setIfInBounds g (set (q.ag.getD g {})) })).tsqNext core

/-! ## Memory (R232) -/

/-- addr(g, t) of R226. -/
def Tsq.addr (q : Tsq) (g t : Nat) : Nat :=
  let a := q.ag.getD g {}
  (a.base + a.rowStride * BitVec.ofNat 64 t
    + (List.range 4).foldl (fun acc l => acc + BitVec.ofNat 64 (q.loopC.getD l 0) * a.strides.getD l 0) 0).toNat

/-- Find the line of an address, or fault or park. -/
def State.tsqLine (s : State) (core : Nat) (c : RunCmd) (a : Nat) (acc : Access) (f : State → LineLoc → State) : State :=
  match s.engLine core c a acc with
  | .ok t l => f t l
  | .fail t x => t.tsqFault core (fcodeOf x) a
  | .park t i => (t.parkCmd core 3 a i).updTsq core (fun q => { q with st := 3 })

/-- Forget a hold once its access has been made. -/
def State.unpark (s : State) (core : Nat) : State := s.updRun core 3 (fun c => { c with held := none })

def tsqRead (t g : Nat) : TsqOp := fun core c s =>
  let a := (s.tsq core).addr g t
  s.tsqLine core c a .read (fun s l =>
    let h := s.loadLine core l 0 (c.walker core).reader
    let s := h.2.2
    let cls := classOf h.2.1
    if cls = 3 then s.tsqFault core 0x08 a
    else if cls = 4 ∧ l.strict = true then s.tsqFault core 0x09 a
    else
      let tag := withClass h.2.1 (if cls = 4 then 1 else if 5 ≤ cls then 2 else cls)
      ((s.setBuf core t (if classOf tag = 1 then 0 else h.1) tag).unpark core).tsqNext core)

def tsqWrite (t g : Nat) : TsqOp := fun core c s =>
  let a := (s.tsq core).addr g t
  s.tsqLine core c a .write (fun s l =>
    let b := (s.tsq core).buf t
    let tag := withDem b.2 false
    if tooWide c.fmtCtx tag l then s.tsqFault core 0x06 a
    else match s.engWrite core c l a b.1 fullMask tag with
      | .ok s => (s.unpark core).tsqNext core
      | .fault s f x => s.tsqFault core f x
      | .park s va i => (s.parkCmd core 3 va i).updTsq core (fun q => { q with st := 3 }))

/-! ## Conversion and packing (R233, R234) -/

/-- A format that TCVT takes. -/
def Fmt.tsqOk (f : Fmt) : Bool := f.kind != .none && f.kind != .e8m0

/-- Write a buffer from its slots, with PSN for a POISON operand. -/
def State.putBuf (s : State) (core t w : Nat) (codes : List Nat) (tag : Tag) (fl : Nat) : State :=
  ((s.setBuf core t (if classOf tag = 1 then 0 else lineOfCodes w codes) tag).tsqRaise core fl).tsqNext core

def tsqConvert (d src f rm : Nat) (sat : Bool) (part : Nat) : TsqOp := fun core c s =>
  let x := c.fmtCtx
  let b := (s.tsq core).buf src
  let old := (s.tsq core).buf d
  let from_ := x.fmt (fmtOf b.2)
  let tgt := x.fmt f
  if 5 < rm then s.tsqFault core 0x0D 0
  else if !from_.tsqOk || !tgt.tsqOk then s.tsqFault core 0x0E 0
  else
    let ws := from_.container 64
    let wd := tgt.container 64
    let k := Nat.max ws wd / Nat.min ws wd
    if k ≤ part then s.tsqFault core 0x0D 0
    else
      let bsc := if tgt.scaled then (s.tsq core).scale else 127
      let conv (i slot : Nat) : Nat × Nat :=
        convertTo tgt bsc ⟨rm, if rm = 5 then diceBits c.dice.toNat d slot else 0, sat⟩ from_.isInt (rowValue x b.2 (bufCode b ws i))
      let n := 1024 / wd
      let lo := part * (1024 / ws)
      let keeps := decide (wd < ws)
      let out := (List.range n).map (fun i =>
        if !keeps then conv (part * n + i) i
        else if lo ≤ i ∧ i < lo + 1024 / ws then conv (i - lo) i
        else (bufCode old wd i, 0))
      let ops := if keeps then [b.2, old.2] else [b.2]
      let codes := out.map (fun v => v.1)
      let fl := out.foldl (fun acc v => acc ||| v.2) 0
      let cls := rowClass ops (codes.all (fun v => v == 0))
      s.putBuf core d wd codes (mkTag f bsc cls false) (fl ||| (if cls = 2 then flagPSN else 0))

/-- TPACK and TUNPK. -/
def tsqRepack (pack : Bool) (d src w v part : Nat) : TsqOp := fun core _ s =>
  let b := (s.tsq core).buf src
  let old := (s.tsq core).buf d
  let ws := widthOf w
  let wd := widthOf v
  let wide := Nat.max ws wd
  let narrow := Nat.min ws wd
  if 5 < w ∨ 5 < v ∨ ws = wd ∨ pack = decide (ws < wd) ∨ wide / narrow ≤ part then s.tsqFault core 0x0D 0
  else
    let lo := part * (1024 / wide)
    let poison := classOf b.2 == 2 || classOf old.2 == 2
    let codes := (List.range (1024 / wd)).map (fun i =>
      if pack then (if lo ≤ i ∧ i < lo + 1024 / ws then bufCode b ws (i - lo) % 2 ^ wd else bufCode old wd i)
      else bufCode b ws (lo + i))
    s.putBuf core d wd codes (if poison then withClass b.2 2 else b.2) (if poison then flagPSN else 0)

/-! ## Transposition and scales (R235, R236) -/

def tsqTranspose (wc : Nat) : TsqOp := fun core _ s =>
  let q := s.tsq core
  let bufs := (List.range 8).map (fun t => q.buf t)
  if 5 < wc then s.tsqFault core 0x0D 0
  else
    let some_ := bufs.filter (fun b => classOf b.2 != 1)
    let agreed := ((some_.head?).getD (q.buf 0)).2
    if some_.any (fun b => fmtOf b.2 != fmtOf agreed || bscOf b.2 != bscOf agreed) then s.tsqFault core 0x07 0
    else
      let w := widthOf wc
      let poison := bufs.any (fun b => classOf b.2 == 2)
      let cls := if poison then 2 else if some_.isEmpty then 1 else 0
      let put (s : State) (i : Nat) : State :=
        let codes := (List.range (1024 / w)).map (fun x => bufCode (bufs.getD (x % 8) (0, zeroTag)) w (x / 8 * 8 + i))
        s.setBuf core i (lineOfCodes w codes) (mkTag (fmtOf agreed) (bscOf agreed) cls false)
      (((List.range 8).foldl put s).tsqRaise core (if poison then flagPSN else 0)).tsqNext core

/-- TSCL: the smallest scale under which the largest magnitude is in range. -/
def tsqScale (t f : Nat) : TsqOp := fun core c s =>
  let x := c.fmtCtx
  let tgt := x.fmt f
  if !tgt.scaled then s.tsqFault core 0x0E 0
  else
    let b := (s.tsq core).buf t
    let w := (x.fmt (fmtOf b.2)).container 64
    let vals := (List.range (1024 / w)).map (fun i => rowValue x b.2 (bufCode b w i))
    ((s.updTsq core (fun q => { q with scale := autoBsc tgt vals })).tsqRaise core
      (if classOf b.2 = 2 then flagPSN else 0)).tsqNext core

/-- TBSC (R236); a POISON buffer sets no PSN, as none of TWR does (assumption 33). -/
def tsqSetBsc (t : Nat) : TsqOp := fun core c s =>
  let b := (s.tsq core).buf t
  if !(c.fmtCtx.fmt (fmtOf b.2)).scaled then s.tsqFault core 0x0E 0
  else (s.setBuf core t b.1 (mkTag (fmtOf b.2) (s.tsq core).scale (classOf b.2) (demOf b.2))).tsqNext core

/-! ## Tokens (R237) -/

/-- The named strand of the issuing strand's pair. -/
def RunCmd.mate (c : RunCmd) (role : BitVec 1) : Nat := c.ctx / 2 * 2 + role.toNat

def tsqSignal (role : BitVec 1) : TsqOp := fun core c s =>
  let full := match s.strand? core (c.mate role) with
    | some t => decide (32 ≤ t.tokTsq)
    | none => false
  if full then s.updTsq core (fun q => { q with st := 2 })
  else (s.mapStrand core (c.mate role) (fun t => { t with tokTsq := t.tokTsq + 1 })).tsqNext core

def tsqWait (role : BitVec 1) : TsqOp := fun core c s =>
  let n := match s.strand? core (c.mate role) with
    | some t => t.tokToTsq
    | none => 0
  if n = 0 then s.updTsq core (fun q => { q with st := 2 })
  else (s.mapStrand core (c.mate role) (fun t => { t with tokToTsq := t.tokToTsq - 1 })).tsqNext core

/-! ## The instructions -/

def execThalt (s : State) : Out := onTsq tsqHalt s

def execTloopImm (l : BitVec 2) (n : BitVec 23) (s : State) : Out := onTsq (tsqLoop l.toNat n.toNat) s

def execTloopParam (l : BitVec 2) (k : BitVec 4) (s : State) : Out :=
  onTsq (fun core c => tsqLoop l.toNat (c.param k).toNat core c) s

def execTnext (l : BitVec 2) (o : BitVec 12) (s : State) : Out := onTsq (tsqLoopEnd l.toNat o) s

def execTjmp (o : BitVec 12) (s : State) : Out := onTsq (tsqJump o) s

def execTagsetImm (g : BitVec 2) (fsel : BitVec 3) (imm : BitVec 20) (s : State) : Out :=
  onTsq (tsqTagset g.toNat fsel.toNat (imm.signExtend 64)) s

def execTagsetParam (g : BitVec 2) (fsel : BitVec 3) (k : BitVec 4) (s : State) : Out :=
  onTsq (fun core c => tsqTagset g.toNat fsel.toNat (c.param k) core c) s

def execTrd (b : BitVec 3) (g : BitVec 2) (s : State) : Out := onTsq (tsqRead b.toNat g.toNat) s

def execTwr (b : BitVec 3) (g : BitVec 2) (s : State) : Out := onTsq (tsqWrite b.toNat g.toNat) s

def execTcvt (d src : BitVec 3) (f : BitVec 6) (r : BitVec 3) (x : BitVec 1) (p : BitVec 5) (s : State) : Out :=
  onTsq (tsqConvert d.toNat src.toNat f.toNat r.toNat (x == 1) p.toNat) s

def execTpack (d src w v : BitVec 3) (p : BitVec 5) (s : State) : Out :=
  onTsq (tsqRepack true d.toNat src.toNat w.toNat v.toNat p.toNat) s

def execTunpk (d src w v : BitVec 3) (p : BitVec 5) (s : State) : Out :=
  onTsq (tsqRepack false d.toNat src.toNat w.toNat v.toNat p.toNat) s

def execTtrn (w : BitVec 3) (s : State) : Out := onTsq (tsqTranspose w.toNat) s

def execTscl (b : BitVec 3) (f : BitVec 6) (s : State) : Out := onTsq (tsqScale b.toNat f.toNat) s

def execTbsc (b : BitVec 3) (s : State) : Out := onTsq (tsqSetBsc b.toNat) s

def execTsig (r : BitVec 1) (s : State) : Out := onTsq (tsqSignal r) s

def execTwt (r : BitVec 1) (s : State) : Out := onTsq (tsqWait r) s

/-! ## Issue (R226, R230) -/

/-- The effect of a sequencer instruction; none for any other instruction. -/
def tsqMeaning (i : Instr) : Option TsqOp :=
  match i with
  | .thalt => some tsqHalt
  | .tloopImm l n => some (tsqLoop l.toNat n.toNat)
  | .tloopParam l k => some (fun core c => tsqLoop l.toNat (c.param k).toNat core c)
  | .tnext l o => some (tsqLoopEnd l.toNat o)
  | .tjmp o => some (tsqJump o)
  | .tagsetImm g f imm => some (tsqTagset g.toNat f.toNat (imm.signExtend 64))
  | .tagsetParam g f k => some (fun core c => tsqTagset g.toNat f.toNat (c.param k) core c)
  | .trd b g => some (tsqRead b.toNat g.toNat)
  | .twr b g => some (tsqWrite b.toNat g.toNat)
  | .tcvt d src f r x p => some (tsqConvert d.toNat src.toNat f.toNat r.toNat (x == 1) p.toNat)
  | .tpack d src w v p => some (tsqRepack true d.toNat src.toNat w.toNat v.toNat p.toNat)
  | .tunpk d src w v p => some (tsqRepack false d.toNat src.toNat w.toNat v.toNat p.toNat)
  | .ttrn w => some (tsqTranspose w.toNat)
  | .tscl b f => some (tsqScale b.toNat f.toNat)
  | .tbsc b => some (tsqSetBsc b.toNat)
  | .tsig r => some (tsqSignal r)
  | .twt r => some (tsqWait r)
  | _ => none

/-- The sequencer's word at its program counter is issued: PC past word 4,095, BADOP for no instruction. -/
def State.tsqIssue (s : State) (core : Nat) : State :=
  match (s.engine core 3).running with
  | none => s
  | some c =>
    if c.finished then s.completeCmd core 3
    else
      let q := s.tsq core
      if 4095 < q.pc then s.tsqFault core 0x10 0
      else match decodeTsq (look q.imem q.pc 0) with
        | .error _ => s.tsqFault core 0x0D 0
        | .ok i => match tsqMeaning i with
          | some f => f core c s
          | none => s.tsqFault core 0x0D 0

def execTsqInstructionIssue (core : Nat) (s : State) : Out := .next (s.tsqIssue core)

end Sys2Proof.Machine
end

