-- ==== Sys2Proof/Machine/EngineStart.lean ====
section
/-!
DEFINITION. Starting and completing commands (R208, R209, R214): COMMAND_START and COMMAND_COMPLETE.
-/
namespace Sys2Proof.Machine

/-- A vector instruction that accesses memory, or with `tiles` the tile that MXZERO, VACCRD and VACCWR use (R208, R312). -/
def holdsCommand (tiles : Bool) (i : Instr) : Bool :=
  let o := opOf (encode i)
  decide (0xC0 ≤ o ∧ o ≤ 0xDC) || (tiles && decide (0x77 ≤ o ∧ o ≤ 0x79))

/-- A pending command may start: the memory accesses before it are performed (R208), its reads and writes come after what acquires
before it (R145), the tile instructions before an MXE command
have completed (R312), its strand's earlier commands on the engine are DONE or CANCELLED (R209), and for the sequencer no TSQLD is
under way (R227). What JRNLHEAD was when an access entered the DQ or the store queue says which commands it precedes. -/
def State.startable (s : State) (core e : Nat) (p : PendCmd) : Bool :=
  match s.strand? core p.ctx with
  | none => false
  | some t =>
    !t.uncompleted.any (fun x => decide (x.cap.head.toNat < p.num) && (holdsCommand (e == 0) x.instr || t.acquires x))
      && t.ssq.all (fun x => decide (p.num ≤ x.head.toNat))
      && !(s.incomplete t).any (fun n => decide (n < p.num) && s.jEngine t n == e)
      && !(e == 3 && s.loading core)

/-- An engine's pending commands with those marked that have become startable: they share the next place in the order (R209). -/
def State.marked (s : State) (core e : Nat) (x : Engine) : Engine :=
  let next := x.pending.foldl (fun n p => Nat.max n ((p.ready.getD 0) + 1)) 0
  { x with pending := x.pending.map (fun p => if p.ready.isNone && s.startable core e p then { p with ready := some next } else p) }

/-- What every step does last: commands that have become startable take their places in the order. -/
def State.markReady (s : State) : State :=
  { s with cores := s.cores.map (fun c =>
      if c.2.engines.any (fun x => x.pending.any (fun p => p.ready.isNone)) then
        (c.1, { c.2 with engines := (List.range 4).foldl (fun v e =>
          v.setIfInBounds e (s.marked c.1 e (v.getD e {}))) c.2.engines })
      else c) }

/-- `p` is taken before `q`: it became startable first, or at once with it and its context is lower (R209). -/
def PendCmd.before (p q : PendCmd) : Bool :=
  match p.ready, q.ready with
  | some m, some n => decide (m < n ∨ (m = n ∧ p.ctx < q.ctx))
  | some _, none => true
  | none, some _ => false
  | none, none => decide (p.ctx < q.ctx)

/-- The command that an idle engine takes next. -/
def State.nextCmd (s : State) (core e : Nat) : Option PendCmd :=
  ((s.engine core e).pending.filter (s.startable core e)).foldl (fun b p => match b with
    | none => some p
    | some q => if p.before q then some p else some q) none

/-- The active set of a command that starts. -/
def State.loadCmd (s : State) (t : Strand) (p : PendCmd) : RunCmd :=
  { ctx := t.ctx, num := p.num, vf := t.vf, part := t.part, braid := t.braid, image := t.image
    priv := s.jHead t p.num / 2 ^ 16 % 2 == 1, arg := s.jArg t p.num, prog := s.jProg t p.num, regs := s.jRegs t p.num
    dice := p.dice, fmts := p.fmts, plt := p.plt, checked := true }

/-- The sequencer at a command's start (R226). -/
def Tsq.start (q : Tsq) (arg : Word) : Tsq := { imem := q.imem, pc := Nat.min arg.toNat 65535, st := 1 }

/-- Engine-specific part of a start: the checks of R220 and R299, and where the MXE resumes (R306). -/
def State.beginCmd (s : State) (core e : Nat) (c : RunCmd) : State :=
  if e = 0 then
    match c.mxeCheck core with
    | some f => s.faultCmd core 0 f.1 (BitVec.ofNat 64 f.2) c.prog
    | none =>
      let row := if c.prog.getLsbD 63 then some (c.prog.toNat / 2 ^ 56 % 128) else none
      s.updRun core 0 (fun c =>
        { c with prog := BitVec.ofNat 64 c.step, outRow := row, tile := c.stepTile (c.step - 1) })
  else if e = 3 then s.updTsq core (fun q => q.start c.arg)
  else
    match s.cpeCheck c with
    | .error f => s.faultCmd core e f.1 (BitVec.ofNat 64 f.2) c.prog
    | .ok d => s.updRun core e (fun c => { c with dest := BitVec.ofNat 64 d })

/-- COMMAND_START: an idle engine starts, of its pending commands that may start, the one that became startable first (R209). -/
def State.startCmd (s : State) (core e : Nat) : State :=
  let x := s.engine core e
  match x.running, s.nextCmd core e with
  | none, some p =>
    match s.strand? core p.ctx with
    | none => s
    | some t =>
      let c := s.loadCmd t p
      let s := (s.jSetState t p.num 2 0).updEngine core e (fun x =>
        { pending := x.pending.filter (fun y => !(y.ctx == p.ctx && y.num == p.num)), running := some c })
      s.beginCmd core e c
  | _, _ => s

def execCommandStart (core eng : Nat) (s : State) : Out := .next (if eng < 4 then s.startCmd core eng else s)

def execCommandComplete (core eng : Nat) (s : State) : Out := .next (if eng < 4 then s.completeCmd core eng else s)

end Sys2Proof.Machine
end

