-- ==== Sys2Proof/Machine/Preempt.lean ====
section
/-!
DEFINITION. Pre-emption and context (R388–R398): lane grants, queue squash and halt, STRANDCTL, TRAPSET, saving and
restoring a core, the Anchor's partition swap, and the re-placing of plies.
-/
namespace Sys2Proof.Machine

/-! ## Queue squash (R390) -/

/-- Vector instructions that a squash discards, oldest first: all but a dispatched one. An issued instruction that still
waits for its operands has had no effect. -/
def Strand.discards (t : Strand) : List DqEntry :=
  (match t.underWay with
    | some e => if t.dispatched then [] else [e]
    | none => []) ++ t.dq

/-- The front end's instruction has had its effect, and only its signal is outstanding (R34). -/
def Strand.signalling (t : Strand) : Bool := t.issued.isNone && t.sigPend.isSome

/-- What every squash clears: links, and the marks of an instruction that was waiting. BAR arrival and the wake bit stay, and a TSQLD
that has still to signal has not retired (R227). -/
def Strand.abandon (t : Strand) : Strand :=
  { t with links := [], engWait := [], denied := [], resolved := [], held := none, anchorHold := false, inPark := false, ctl := none, limm := none
           tsqLoad := if t.signalling then t.tsqLoad else none }

/-- The queue squash of the front-end strand: back to the oldest instruction discarded, whose satisfied token wait and
record stay with it. One that has still to signal goes on from where it was (R15, R34). -/
def State.squashMe (s : State) : State :=
  let t := s.me
  match t.discards with
  | e :: _ =>
    let u := if t.dispatched then t else t.putAside
    let s := { s with me := { u with dq := [] } }.rollback (e.seq - 1)
    let v := s.me.abandon
    { s with
      waiting := false
      me := if t.dispatched then { v with pc := e.pc, fellOff := false, atVec := false }
        else { v with pc := e.pc, fellOff := false, atVec := false, tkSat := e.tkSat,
                      resume := if e.use.isSome then e.use else v.resume, resumeUse := e.use.isSome } }
  | [] =>
    let u := t.abandon
    { s with waiting := false, me := match t.limm with
      | some l => if t.signalling then u else { u with pc := l.2, fellOff := false, atVec := false }
      | none => u }

/-- Do something as the strand of a context, and go back to the strand that was stepping. -/
def State.onStrand (s : State) (core ctx : Nat) (f : State → State) : State :=
  let home := (s.me.core, s.me.ctx)
  match s.strand? core ctx with
  | none => s
  | some _ => (f (s.switchTo core ctx)).switchTo home.1 home.2

/-- The queue squash of a running strand. -/
def State.squash (s : State) (core ctx : Nat) : State :=
  s.onStrand core ctx (fun s => if s.me.run = .running then s.squashMe else s)

/-- A strand's function permits it, and has a slice if the squash is at a slice's end. -/
def State.mayQueueSquash (s : State) (core ctx : Nat) (slice : Bool) : Bool :=
  match s.strand? core ctx with
  | none => false
  | some t => s.permits t.vf 1 && (!slice || (match s.vf? t.vf with
    | some v => v.slice != 0
    | none => false))

/-- QUEUE_SQUASH. -/
def execQueueSquash (core ctx : Nat) (s : State) : Out :=
  .next (if s.mayQueueSquash core ctx false then s.squash core ctx else s)

/-- SLICE_END: YIELD runs only when nothing older is outstanding (R337), so none lies within the checkpoint log, and the
squash acts at the current boundary (assumption 19). -/
def execSliceEnd (core ctx : Nat) (s : State) : Out :=
  .next (if s.mayQueueSquash core ctx true then s.squash core ctx else s)

/-! ## Strand operands and statuses (R394) -/

/-- The strand's ply is parked (R369, R398). -/
def State.plyParked (s : State) (t : Strand) : Bool :=
  (s.part t.part).parkedCoils.contains (coilOf t.core) ||
  (match s.braidOf? t.part t.braid with
   | some b => b.plies.any (fun p => p.stage == t.stage && p.id == t.plyId && p.parked)
   | none => false)

/-- Halted: squashed, nothing dispatched is left, and the front end issues nothing (R391). -/
def Strand.isHalted (t : Strand) : Bool := (t.run == .halted || t.run == .paused) && t.issued.isNone

/-- The strand that a CORECOORD operand names: resident, or saved. -/
inductive Target where
  | bad
  | absent
  | resident (t : Strand)
  | saved (t : Strand)
  deriving DecidableEq, Repr

/-- A target must be of the issuing strand's function (R394). -/
def State.target (s : State) (x : Word) : Target :=
  let v := x.toNat
  let mine (t : Strand) : Bool := t.core == v / 8 && t.ctx == v % 8
  if 2 ^ 13 ≤ v then .bad
  else match s.strands.find? mine with
    | some t => if t.vf = s.me.vf then .resident t else .absent
    | none => match (s.core (v / 8)).savedStrands.find? mine with
      | some t => if t.vf = s.me.vf then .saved t else .absent
      | none => .absent

/-- Write a status of Table 4. -/
def status (d : BitVec 5) (n : Nat) (s : State) : Eff := .done (s.setReg d (BitVec.ofNat 64 n))

/-! ## GRANT (R388, R389) -/

/-- Slice units a strand holds. -/
def Strand.units (t : Strand) : Nat := Nat.max t.slices t.pend

/-- Units held in a core. -/
def State.heldUnits (s : State) (core : Nat) : Nat :=
  ((s.strands.filter (fun t => t.core == core)).map Strand.units).foldl (· + ·) 0

def execGrant (d a b : BitVec 5) (t : BitVec 2) (s : State) : Out :=
  runOrdered t (privileged (wordSR 0xE9 d a b 0 0 t) (fun s =>
    let n := (s.reg b).toNat
    if n = 0 ∨ 8 < n then status d 1 s
    else match s.target (s.reg a) with
      | .bad => status d 1 s
      | .absent => status d 2 s
      | .saved _ => status d 3 s
      | .resident u =>
        if 64 < s.heldUnits u.core - u.units + Nat.max u.slices n then status d 4 s
        else status d 0 (s.mapStrand u.core u.ctx (fun u => { u with pend := n })))) s

/-! ## TRAPSET (R397) -/

/-- A valid code address (R13). -/
def codeAddr (a : Word) : Bool := a.toNat % 4 == 0 && a.toNat / 4 % 16 != 0

/-- The strands that a reach takes in, seen from strand `t`. -/
def Strand.reach (t u : Strand) (n : Nat) : Bool :=
  match n with
  | 0 => u.core == t.core && u.ctx == t.ctx && u.part == t.part
  | 1 => u.ofPly t.part t.braid t.stage t.plyId
  | 2 => u.part == t.part && u.braid == t.braid && u.stage == t.stage
  | _ => u.part == t.part && u.braid == t.braid

def execTrapset (d a b : BitVec 5) (t : BitVec 2) (s : State) : Out :=
  runOrdered t (privileged (wordSR 0xE0 d a b 0 0 t) (fun s =>
    let v := s.reg a
    let n := (s.reg b).toNat
    if 4 < n ∨ codeAddr v = false then status d 1 s
    else if n = 4 then status d 0 (s.updVf s.me.vf (fun x => { x with trapVec := v }))
    else
      let me := s.me
      let s := if n = 0 then { s with me := { s.me with trapVec := v } }
        else s.mapEvery (fun u => me.reach u n) (fun u => { u with trapVec := v })
      let s := if n = 3 then s.updBraid me.part me.braid (fun q => { q with trapVec := some v }) else s
      status d 0 s)) s

/-! ## STRANDCTL (R395) -/

/-- State code of a resident target. -/
def State.strandState (s : State) (t : Strand) : Nat :=
  if t.run = .double then 2 else if t.isHalted then 1 else if s.plyParked t then 5 else if t.inPark then 3 else 0

/-- Perform the store queue of a strand as far as R335 lets it be performed. -/
def State.performOf (s : State) (core ctx : Nat) : State := s.onStrand core ctx State.performAll

/-- KILL of a halted strand: its commands are cancelled and its context is freed. -/
def State.kill (s : State) (core ctx : Nat) : State :=
  match s.strand? core ctx with
  | none => s
  | some t =>
    let s := (s.incomplete t).foldl (fun s n => s.cancelCmd t n false) (s.performOf core ctx)
    s.freeStrand t

/-- The operation that s[sb] selects. -/
def strandControl (d a b : BitVec 5) (s : State) : Eff :=
  let op := (s.reg b).toNat
  let done (s : State) : Eff := status d 0 { s with me := { s.me with ctl := none } }
  let halting (s : State) (c : Nat) : Eff :=
    match s.strand? (c / 8) (c % 8) with
    | some u => if u.run = .halted ∧ u.issued.isSome = true then .wait { s with me := { s.me with ctl := some c } } else done s
    | none => done s
  match s.me.ctl with
  | some c => halting s c
  | none =>
    if 3 < op then status d 1 s
    else match s.target (s.reg a) with
      | .bad => status d 1 s
      | .absent => status d 2 s
      | .saved _ => if op = 0 then status d (4 * 256) s else status d 3 s
      | .resident u =>
        if u.core = s.me.core ∧ u.ctx = s.me.ctx then status d 3 s
        else match op with
          | 0 => status d (s.strandState u * 256) s
          | 1 =>
            if u.run = .halted ∧ u.issued.isSome = true then .wait s
            else if u.run ≠ .running ∨ s.plyParked u = true then status d 3 s
            else
              let s := (s.squash u.core u.ctx).mapStrand u.core u.ctx (fun u => { u with run := .halted })
              halting s u.coord
          | 2 =>
            if u.run = .double then
              status d 0 (s.mapStrand u.core u.ctx (fun u =>
                { u with run := .running, pc := u.trapVec, pm := true, atVec := true, fellOff := false }))
            else if u.isHalted then status d 0 (s.mapStrand u.core u.ctx (fun u => { u with run := .running }))
            else status d 3 s
          | _ => if u.run = .double ∨ u.isHalted = true then status d 0 (s.kill u.core u.ctx) else status d 3 s

def execStrandctlStatus (d a b : BitVec 5) (t : BitVec 2) (s : State) : Out :=
  runOrdered t (privileged (wordSR 0xEA d a b 0 0 t) (strandControl d a b)) s
def execStrandctlHalt (d a b : BitVec 5) (t : BitVec 2) (s : State) : Out :=
  runOrdered t (privileged (wordSR 0xEA d a b 0 0 t) (strandControl d a b)) s
def execStrandctlResume (d a b : BitVec 5) (t : BitVec 2) (s : State) : Out :=
  runOrdered t (privileged (wordSR 0xEA d a b 0 0 t) (strandControl d a b)) s
def execStrandctlKill (d a b : BitVec 5) (t : BitVec 2) (s : State) : Out :=
  runOrdered t (privileged (wordSR 0xEA d a b 0 0 t) (strandControl d a b)) s

/-! ## Local-store images (R392, R393) -/

/-- Bytes of a core's local store by offset. -/
def State.storeBytes (s : State) (core : Nat) : List (Nat × BitVec 8) :=
  (s.mem.filter (fun c => decide (lsByte core 0 ≤ c.1 ∧ c.1 < lsByte core 0 + 2 ^ 20))).map (fun c => (c.1 - lsByte core 0, c.2))

/-- First line number of a core's local store among the tags. -/
def storeLine0 (core : Nat) : Nat := 2 ^ 36 + 8192 * core

/-- Its tags by line. -/
def State.storeTags (s : State) (core : Nat) : List (Nat × Tag) :=
  (s.tags.filter (fun t => decide (storeLine0 core ≤ t.1 ∧ t.1 < storeLine0 core + 8192))).map (fun t => (t.1 - storeLine0 core, t.2))

/-- Zero a local store, every line of class ZERO (R138). -/
def State.zeroStore (s : State) (core : Nat) : State :=
  { s with
    mem := s.mem.filter (fun c => !decide (lsByte core 0 ≤ c.1 ∧ c.1 < lsByte core 0 + 2 ^ 20))
    tags := s.tags.filter (fun t => !decide (storeLine0 core ≤ t.1 ∧ t.1 < storeLine0 core + 8192)) }

/-- Replace a local store by an image. -/
def State.putStore (s : State) (core : Nat) (bytes : List (Nat × BitVec 8)) (tags : List (Nat × Tag)) : State :=
  let s := s.zeroStore core
  let s := { s with mem := bytes.foldl (fun m c => memPut m (lsByte core 0 + c.1) c.2) s.mem }
  tags.foldl (fun s t => s.setTag (storeLine0 core + t.1) t.2) s

/-! ## Saving and restoring a core (R392, R393, R396) -/

/-- PENDING commands of the strands named become REPLAY (R215). -/
def State.pendingToReplay (s : State) (core : Nat) (ts : List Strand) : State :=
  ((s.core core).engines.toList.map (fun e => e.pending)).flatten.foldl (fun s p =>
    match ts.find? (fun t => t.ctx == p.ctx) with
    | some t => s.jSetState t p.num 6 0
    | none => s) s

/-- An engine without the commands of some contexts. -/
def Engine.without (e : Engine) (ctxs : List Nat) : Engine :=
  { pending := e.pending.filter (fun p => !ctxs.contains p.ctx), running := e.running.filter (fun c => !ctxs.contains c.ctx) }

/-- An engine's running command of some contexts. -/
def Engine.only (e : Engine) (ctxs : List Nat) : Engine := { running := e.running.filter (fun c => ctxs.contains c.ctx) }

/-- Save the strands of a core that `p` names, which are halted, into its shadow slots, and free their contexts. With
`copy` the Anchor copies local store into device-reserved rows. `tenant` is the tenant of the partition. -/
def State.saveCore (s : State) (core : Nat) (p : Strand → Bool) (owner tenant : Option Nat) (copy : Bool) : State :=
  let here := s.strands.filter (fun t => t.core == core)
  let mine := (here.filter p).map (fun t => { t with links := [] })
  let ctxs := mine.map (fun t => t.ctx)
  let whole := here.all p
  let s := s.pendingToReplay core mine
  let s := if ((s.engine core 0).only ctxs).running.isSome then s.leaveGroup core 0 else s
  let s := (s.levelCores core).foldl State.flushL1 s
  let pairs := s.pairs.filter (fun q => mine.any (fun t => t.pairNo == q.1))
  let c := s.core core
  let ours := (c.engines.getD 3 {}).only ctxs
  let v : Saved :=
    { owner := owner, tenant := tenant, whole := whole, strands := mine, pairs := pairs, tiles := if whole then c.tiles else Vector.replicate 4 {}
      engines := c.engines.map (fun e => e.only ctxs), tsq := c.tsq
      store := if copy && whole then some (s.storeBytes core, s.storeTags core) else none }
  let s := s.updCore core (fun c =>
    { c with
      saved := some v
      engines := c.engines.map (fun e => e.without ctxs)
      tiles := if whole then Vector.replicate 4 {} else c.tiles
      tsq := if whole || ours.running.isSome then {} else c.tsq })
  let gone (t : Strand) : Bool := t.core == core && p t
  { s with
    me := if s.me.live && gone s.me then {} else s.me
    others := s.others.filter (fun t => !(t.live && gone t))
    pairs := s.pairs.filter (fun q => !mine.any (fun t => t.pairNo == q.1)) }

/-- A running command that goes on at a restore, with the format context and DICESEED of then (R214, R215). -/
def State.refreshCmd (s : State) (ts : List Strand) (c : RunCmd) : RunCmd :=
  match ts.find? (fun t => t.ctx == c.ctx) with
  | some t => let x := s.ctxOf t.part t.braid; { c with fmts := x.fmts, plt := x.plt, dice := t.diceSeed }
  | none => c

/-- Whether the plies of a saved context asked for fusion; none where it holds no strand. -/
def State.savedFuse (s : State) (v : Saved) : Option Bool :=
  v.strands.head?.bind (fun t => (s.braidOf? t.part t.braid).map (fun b => b.fuse))

/-- Strands of a saved context may be resident on a core's coil: it is fused as their plies asked, or empty (R128, R129). -/
def State.fusionAllows (s : State) (core : Nat) (v : Saved) : Bool :=
  !s.coilBusy (coilOf core) || (s.savedFuse v).all (fun f => (s.coil (coilOf core)).fused == f)

/-- The saved context of a core can come back: its pairs and engines are free, its coil may hold it, and a whole core is
empty. -/
def State.restorable (s : State) (core : Nat) (v : Saved) : Bool :=
  let here := s.strands.filter (fun t => t.core == core)
  s.fusionAllows core v && !(v.whole && !here.isEmpty) && v.strands.all (fun t => s.pairFree core (t.ctx / 2))
    && (List.range 4).all (fun e => ((v.engines.getD e {}).running).isNone || ((s.engine core e).running).isNone)

/-- Bring a core's saved context back, its strands in the state they were saved in, and replay its commands (R215). An empty
coil becomes fused or unfused as its plies asked. -/
def State.restoreCore (s : State) (core : Nat) : State :=
  match (s.core core).saved with
  | none => s
  | some v =>
    let s := match s.savedFuse v with
      | some f => s.setFusion (coilOf core) f
      | none => s
    let s := match v.store with
      | some x => s.putStore core x.1 x.2
      | none => s
    let keepTsq := !v.whole && ((v.engines.getD 3 {}).running).isNone
    let s := v.pairs.foldl (fun s q => s.setPair q.1 q.2) { s with others := s.others ++ v.strands }
    let s := s.updCore core (fun c =>
      { c with
        saved := none
        tiles := if v.whole then v.tiles else c.tiles
        tsq := if keepTsq then c.tsq else v.tsq
        engines := c.engines.mapIdx (fun e x => match (v.engines.getD e {}).running with
          | some r => { x with running := some (s.refreshCmd v.strands r) }
          | none => x) })
    v.strands.foldl (fun s t => (List.range 4).foldl (fun s e => s.replay t e t.jrnlHead.toNat) s) s

/-! ### Save areas in device memory -/

/-- What checking a save area finds. -/
inductive AreaRes where
  | ok (s : State)
  | bad (s : State)
  | hold (s : State) (va iseg : Nat)

/-- Translate the four segments of a save area. -/
def checkArea (va : Nat) (acc : Access) : Nat → State → AreaRes
  | 0, s => .ok s
  | n + 1, s =>
    let a := va + 2 ^ 18 * n
    match s.locate s.walker a acc with
    | .ok t _ => checkArea va acc n t
    | .fail t _ => .bad t
    | .park t i => .hold t a i

/-- A save area: 0, or a device virtual address aligned to 1 MiB with the permission. -/
def saveArea (x : Word) (acc : Access) (s : State) : AreaRes :=
  if x = 0 then .ok s
  else if x.toNat % 2 ^ 20 ≠ 0 ∨ 2 ^ 56 ≤ x.toNat then .bad s
  else checkArea x.toNat acc 4 s

/-- A tag as a copy engine writes it (R221). -/
def copyTag (t : Tag) : Tag :=
  match engTag t false with
  | .ok x => x
  | .error _ => t

/-- Copy a core's local store to a save area. -/
def State.storeOut (s : State) (core va : Nat) : State :=
  if va = 0 then s
  else (List.range 8192).foldl (fun s i =>
    let h := s.readHome (.store core i) s.reader
    match h.2.2.locate s.walker (va + 128 * i) .write with
    | .ok u l =>
      let t := copyTag h.2.1
      let w : Write := { data := h.1, mask := fullMask, tag := t, typed := true, width := (s.myCtx.fmt (fmtOf t)).container ((l.lw?).getD 64) }
      let r := u.storeThrough u.me.core l w u.me.pm u.reader (BitVec.ofNat 64 (va + 128 * i))
      r.1.getD r.2
    | _ => h.2.2) s

/-- Copy a save area back to a core's local store. -/
def State.storeIn (s : State) (core va : Nat) : State :=
  if va = 0 then s
  else (List.range 8192).foldl (fun s i =>
    match s.locate s.walker (va + 128 * i) .read with
    | .ok u l =>
      let h := u.readHome l u.reader
      h.2.2.putHome (.store core i) h.1 (copyTag h.2.1) fullMask
    | _ => s) s

/-- The core that an operand names, CTX bits zero: a bad operand, or a core outside the partition, gives its status. -/
def State.coreOperand (s : State) (x : Word) : Except Nat Nat :=
  if 2 ^ 13 ≤ x.toNat ∨ x.toNat % 8 ≠ 0 then .error 1
  else if (s.part s.me.part).coils.contains (coilOf (x.toNat / 8)) then .ok (x.toNat / 8)
  else .error 2

/-- CTXSAVE. -/
def execCtxsave (d a b : BitVec 5) (t : BitVec 2) (s : State) : Out :=
  runOrdered t (privileged (wordSR 0xE3 d a b 0 0 t) (fun s =>
    match s.coreOperand (s.reg a) with
    | .error n => status d n s
    | .ok core =>
      let here := s.strands.filter (fun u => u.core == core)
      if s.me.core = core ∨ here.any (fun u => u.vf != s.me.vf || !(u.isHalted || u.run == .double)) = true then status d 3 s
      else if (s.core core).saved.isSome then status d 4 s
      else match saveArea (s.reg b) .write s with
        | .bad s => status d 5 s
        | .hold s va i => .wait (s.holdMe va i)
        | .ok s => status d 0 ((s.saveCore core (fun _ => true) (some s.me.vf) (s.part s.me.part).tenant false).storeOut core (s.reg b).toNat))) s

/-- CTXLOAD. -/
def execCtxload (d a b : BitVec 5) (t : BitVec 2) (s : State) : Out :=
  runOrdered t (privileged (wordSR 0xE4 d a b 0 0 t) (fun s =>
    match s.coreOperand (s.reg a) with
    | .error n => status d n s
    | .ok core =>
      match (s.core core).saved with
      | none => status d 3 s
      | some v =>
        if v.owner ≠ some s.me.vf then status d 3 s
        else if s.strands.any (fun u => u.core == core) = true ∨ s.fusionAllows core v = false then status d 4 s
        else match saveArea (s.reg b) .read s with
          | .bad s => status d 5 s
          | .hold s va i => .wait (s.holdMe va i)
          | .ok s => status d 0 ((s.storeIn core (s.reg b).toNat).restoreCore core))) s

/-! ## The Anchor's swap (R392, R393) -/

/-- Squash and halt every strand that `p` names for a swap; those halted or DOUBLE already stay so. -/
def State.haltFor (s : State) (p : Strand → Bool) : State :=
  let s := (s.strands.filter p).foldl (fun s t => s.squash t.core t.ctx) s
  s.mapStrands p (fun t => { t with run := if t.run = .running then .paused else t.run })

/-- A core holds tiles, sequencer state or local store that no saved context of it holds. -/
def State.holdsState (s : State) (core : Nat) : Bool :=
  let c := s.core core
  let store := (s.storeBytes core, s.storeTags core)
  let idle := c.tiles == Vector.replicate 4 {} && c.tsq == {}
  !(idle && (store == ([], []) || (match c.saved with
    | some v => v.store == some store
    | none => false)))

/-- A swap saves a core: one that holds a strand named, and where a whole partition is swapped any that holds state (R392). -/
def State.savesCore (s : State) (p : Strand → Bool) (whole : Bool) (core : Nat) : Bool :=
  s.strands.any (fun t => t.core == core && p t) || (whole && s.holdsState core)

/-- Swap out the strands that `p` names from the cores of a partition, or the whole partition. -/
def State.swapOut (s : State) (part : Nat) (p : Strand → Bool) (whole : Bool) : State :=
  let s := s.haltFor p
  (s.part part).cores.foldl (fun s c =>
    if s.savesCore p whole c then s.saveCore c p none (s.part part).tenant true else if whole then s.flushL1 c else s) s

/-- The swap is refused: a core that would be saved holds a saved context already (R141). -/
def State.swapBlocked (s : State) (part : Nat) (p : Strand → Bool) (whole : Bool) : Bool :=
  (s.part part).cores.any (fun c => s.savesCore p whole c && (s.core c).saved.isSome)

/-- The strand has sent the header of an XRED that is not complete. -/
def Strand.inXred (t : Strand) : Bool := (t.issued.isSome || !t.parked.isEmpty) && t.xseq.isSome

/-- A swap of the strands that `p` names waits: an XRED of theirs completes before its core's state is saved (R329). -/
def State.swapWaits (s : State) (p : Strand → Bool) : Bool := s.strands.any (fun t => p t && t.inXred)

/-- PARTITION_CONTEXT_SWAP: every function with strands there permits context swap. -/
def execPartitionContextSwap (part : Nat) (s : State) : Out :=
  let p (t : Strand) : Bool := t.part == part
  .next (if (s.strands.filter p).all (fun t => s.permits t.vf 2) && !s.swapBlocked part p true && !s.swapWaits p then
      { s.swapOut part p true with waiting := false }
    else s)

/-- Bring back what the Anchor saved on the cores given, where it can come back. -/
def State.swapIn (s : State) (cores : List Nat) (p : Saved → Bool) : State :=
  cores.foldl (fun s c => match (s.core c).saved with
    | some v => if v.owner.isNone && p v && s.restorable c v then s.restoreCore c else s
    | none => s) s

/-- A saved context belongs to the partition's tenant, and its strands to resident functions. -/
def State.savedCurrent (s : State) (part : Nat) (v : Saved) : Bool :=
  v.tenant == (s.part part).tenant && v.strands.all (fun t => match s.vf? t.vf with
    | some x => x.st == .resident
    | none => false)

/-- PARTITION_CONTEXT_RESTORE. -/
def execPartitionContextRestore (part : Nat) (s : State) : Out :=
  .next { (s.swapIn (s.part part).cores (s.savedCurrent part)) with waiting := false }

/-! ## Re-placing plies (R398) -/

/-- The cores of a coil. -/
def coilCores (c : Nat) : List Nat := (List.range 8).map (fun i => 8 * c + i)

/-- A line of a coil's local store, once the coil's stores have moved. -/
def LineLoc.moveTo (l : LineLoc) (src dst : Nat) : LineLoc :=
  match l with
  | .store c i => if coilOf c = src then .store (8 * dst + c % 8) i else l
  | .page _ _ => l

def Elem.moveTo (e : Elem) (src dst : Nat) : Elem := { e with loc := e.loc.moveTo src dst }

def Progress.moveTo (p : Progress) (src dst : Nat) : Progress :=
  { p with
    placed := p.placed.map (fun e => e.moveTo src dst)
    taken := p.taken.map (fun x => { x with elem := x.elem.moveTo src dst }) }

def DqEntry.moveTo (e : DqEntry) (src dst : Nat) : DqEntry := { e with done_ := e.done_.map (fun p => p.moveTo src dst) }

/-- A strand moved to the core of the same index of another coil, on whose units it has not issued (R370): local-store lines that its
vector memory instruction has met move with it. -/
def Strand.moveTo (t : Strand) (dst : Nat) : Strand :=
  let src := coilOf t.core
  { t with
    core := 8 * dst + t.core % 8
    links := []
    lastVec := 0
    lastVlsu := 0
    dq := t.dq.map (fun e => e.moveTo src dst)
    parked := t.parked.map (fun p => { p with entry := p.entry.moveTo src dst })
    done_ := t.done_.map (fun p => p.moveTo src dst) }

/-- A saved context moved with its core. -/
def Saved.moveTo (v : Saved) (src dst : Nat) : Saved :=
  { v with
    strands := v.strands.map (fun t => t.moveTo dst)
    pairs := v.pairs.map (fun q => (q.1 - 32 * src + 32 * dst, q.2)) }

/-- Move what a core holds to another: engines without their pending commands, tiles, sequencer, saved context and local
store; translations stay. -/
def State.moveCore (s : State) (src dst i : Nat) : State :=
  let a := 8 * src + i
  let b := 8 * dst + i
  let c := s.core a
  let s := ((s.putStore b (s.storeBytes a) (s.storeTags a)).zeroStore a).updCore b (fun x =>
    { x with l1 := [], engines := c.engines.map (fun e => { e with pending := [] }), tiles := c.tiles, tsq := c.tsq, saved := c.saved.map (fun v => v.moveTo src dst) })
  s.updCore a (fun x => { x with l1 := [], engines := Vector.replicate 4 {}, tiles := Vector.replicate 4 {}, tsq := {}, saved := none })

/-- After the move each strand's commands are replayed on every engine, and one that runs goes on under the context of now
(R214, R215, R393). -/
def State.replayMoved (s : State) (dst : Nat) : State :=
  let ts := s.strands.filter (fun t => coilOf t.core == dst)
  let s := (List.range 8).foldl (fun s i => s.updCore (8 * dst + i) (fun c =>
    { c with engines := c.engines.map (fun e => { e with
        running := e.running.map (s.refreshCmd (ts.filter (fun t => t.core == 8 * dst + i))) }) })) s
  ts.foldl (fun s t => (List.range 4).foldl (fun s e => s.replay t e t.jrnlHead.toNat) s) s

/-- Nothing stands on a coil: no resident strand, and no saved context. -/
def State.coilEmpty (s : State) (coil : Nat) : Bool :=
  !s.coilBusy coil && !(coilCores coil).any (fun c => (s.core c).saved.isSome)

/-- The empty coil of a partition that takes the plies of one taken from it, as R363 chooses. -/
def State.chooseEmpty (s : State) (part : Nat) : Option Nat := s.coolest ((s.part part).coils.filter s.coilEmpty)

/-- PLY_REPLACE: all plies of a coil taken from the partition move together to an empty coil, the one that R363 chooses, once no XRED of
theirs is in flight (R329). -/
def State.replacePlies (s : State) (part src dst : Nat) : State :=
  let p := s.part part
  let there (t : Strand) : Bool := coilOf t.core == src
  if p.parkedCoils.contains src = true ∧ s.chooseEmpty part = some dst ∧ s.swapWaits there = false then
    let s := (s.strands.filter there).foldl (fun s t => s.squash t.core t.ctx) s
    let s := (List.range 8).foldl (fun s i => s.pendingToReplay (8 * src + i) (s.strands.filter (fun t => t.core == 8 * src + i))) s
    let s := (List.range 8).foldl (fun s i => s.leaveGroup (8 * src + i) 0) s
    let s := (coilCores src ++ coilCores dst).foldl State.flushL1 s
    let s := s.setFusion dst (s.coil src).fused
    let s := (List.range 8).foldl (fun s i => s.moveCore src dst i) s
    let moved (q : Nat × Pair) : Bool := q.1 / 32 == src
    let stay : List (Nat × Pair) := s.pairs.filter (fun q => !moved q)
    let s : State := { s with
      pairs := (s.pairs.filter moved).foldl (fun (l : List (Nat × Pair)) q => put l (q.1 - 32 * src + 32 * dst) q.2) stay }
    let s := s.mapStrands there (fun t => t.moveTo dst)
    let s := (s.strands.filter (fun t => coilOf t.core == dst)).foldl (fun s t => s.refreshTlb t.core t.vf) s
    { (s.replayMoved dst).updPart part (fun p => { p with parkedCoils := p.parkedCoils.erase src }) with waiting := false }
  else s

def execPlyReplace (part src dst : Nat) (s : State) : Out := .next (s.replacePlies part src dst)

end Sys2Proof.Machine
end

