-- ==== Sys2Proof/Machine/Privileged.lean ====
section
/-!
DEFINITION. Invalidations and segments (R114, R413, R414), page requests and their answers (R117–R120, R415), the error log's
instructions (R416): TLBINV, TLBINVA, MAPSET, PGQRD, PGQACK, ERRRD and ERRACK.
-/
namespace Sys2Proof.Machine

/-! ## Invalidation (R114) -/

/-- Append an invalidation record; the ring keeps the last 64. -/
def Vf.invalidate (v : Vf) (inter : Bool) (seg count : Nat) : Vf :=
  let r : InvRec := ⟨v.gen + 1, inter, seg, count⟩
  { v with gen := v.gen + 1, ring := (v.ring ++ [r]).drop ((v.ring.length + 1) - 64) }

/-- Append a record for a function, and apply it to the issuing core's TLB and its hank's, which are then up to date if they
were before. -/
def State.invalidate (s : State) (vf : Nat) (inter : Bool) (seg count : Nat) : State :=
  let s := s.updVf vf (fun v => v.invalidate inter seg count)
  match s.vf? vf with
  | none => s
  | some v =>
    let g := v.gen
    let r : InvRec := ⟨g, inter, seg, count⟩
    let bump (l : List (Nat × Nat)) : List (Nat × Nat) := if look l vf 0 + 1 = g then put l vf g else l
    let s := s.updCore s.me.core (fun c => { c.applyRecs vf [r] with gen := bump c.gen })
    s.updHank (hankOf s.me.core) (fun h => { h.applyRecs vf [r] with gen := bump h.gen })

/-- TLBINV (R114): ACCESS outside the device virtual range. -/
def execTlbinv (a b : BitVec 5) (t : BitVec 2) (s : State) : Out :=
  runOrdered t (fun s =>
    let va := (s.reg a).toNat
    if 2 ^ 56 ≤ va then trap00 s causeAccess (s.reg a)
    else .done ((s.performAll.release 3).invalidate s.me.vf false (va / 2 ^ 18) (s.reg b).toNat)) s

/-- Functions of the issuing strand's tenant in its partition. -/
def State.tenantVfs (s : State) : List Nat :=
  match s.vf? s.me.vf with
  | none => []
  | some v => (s.vfs.filter (fun x => x.2.tenant == v.tenant && x.2.part == s.me.part)).map (fun x => x.1)

/-- TLBINVA (R414). -/
def execTlbinva (a b : BitVec 5) (t : BitVec 2) (s : State) : Out :=
  runOrdered t (privileged (wordSR 0xE2 0 a b 0 0 t) (fun s =>
    let ia := (s.reg a).toNat
    if 2 ^ 52 ≤ ia then .done s
    else
      let n := (s.reg b).toNat
      .done (s.tenantVfs.foldl (fun s v => s.invalidate v true (ia / 2 ^ 18) n) (s.performAll.release 3)))) s

/-! ## Mapping a segment (R89, R118, R413) -/

/-- A status of Table 7. -/
def privStatus (d : BitVec 5) (n : Nat) (s : State) : Eff := .done (s.setReg d (BitVec.ofNat 64 n))

/-- Chunks of a segment of these widths (R86). -/
def chunksOf (lw pw : Nat) : Nat := 16 * pw / lw

/-- The allocation writes of a segment break every link on its lines (R89, R163). -/
def State.breakSegLinks (s : State) (vf iseg : Nat) : State :=
  s.mapStrands (fun _ => true) (fun t => { t with links := t.links.filter (fun k => !(keyVf k == vf && keySeg k == iseg)) })

/-- Map a segment on chunks, under the policy's ceiling, and retire its request; its waiting elements are woken. -/
def State.mapSegment (s : State) (vf iseg lw pw : Nat) (chunks : List Nat) : State :=
  match s.vf? vf with
  | none => s
  | some v =>
    let c := v.policy.ceil
    let g : Seg := { rd := c.getLsbD 0, wr := c.getLsbD 1, ex := c.getLsbD 2, lw := lw, pw := pw, chunks := chunks, map := v.maps + 1 }
    let s := s.updPart v.part (fun p => { p with used := p.used ++ chunks })
    let s := ((s.dropSegL1 vf iseg).initChunks v.part chunks (packing lw pw)).breakSegLinks vf iseg
    { s.updVf vf (fun v => { v with segs := put v.segs iseg g, maps := v.maps + 1, unmapped := del v.unmapped iseg }.retireSeg iseg) with
      waiting := false }

/-- Take chunks above the reserve (R413, R415). -/
def State.aboveReserve (s : State) (part n : Nat) : Option (List Nat) :=
  let p := s.part part
  if p.reserveNow + n ≤ p.freeCount then some (p.chooseChunks n) else none

/-- LW and PW codes of an ALLOC; none for any other value. -/
def allocWidths (x : Nat) : Option (Nat × Nat) :=
  let l := x % 8
  let p := x / 8 % 8
  if 2 ^ 6 ≤ x ∨ 5 < l ∨ 5 < p ∨ widthOf l < widthOf p ∨ 8 * widthOf p < widthOf l then none else some (widthOf l, widthOf p)

/-- Descriptor bits [9:0] (Table 3 of R108). -/
def Seg.word (g : Seg) : Nat :=
  let code (w : Nat) : Nat := Nat.log2 w - 1
  1 + g.rd.toNat * 2 + g.wr.toNat * 4 + g.ex.toNat * 8 + code g.lw * 16 + code g.pw * 128

/-- Unmap a segment (R413): V becomes 0 and bits [9:1] of its descriptor stay; the report will still name it if it was written
(R405); its chunks wait until the partition's cores have applied the invalidation. -/
def State.unmapSegment (s : State) (vf iseg : Nat) : State :=
  match s.vf? vf with
  | none => s
  | some v =>
    match v.segs.lookup iseg with
    | none => s
    | some g =>
      let s := (s.updVf vf (fun v => { v with
        segs := del v.segs iseg
        unmapped := put v.unmapped iseg (g.word - 1)
        dirtied := if g.dirty && !v.dirtied.contains iseg then v.dirtied ++ [iseg] else v.dirtied })).invalidate vf true iseg 1
      s.updPart v.part (fun p =>
        { p with used := p.used.filter (fun c => !g.chunks.contains c), returning := p.returning ++ [(vf, v.gen + 1, g.chunks)] })

/-- The segment lock is held (R93): a recoding pass works on the segment. -/
def State.segLocked (s : State) (vf iseg : Nat) : Bool :=
  s.hanks.any (fun h => h.2.rce.any (fun q => q.vf == vf && q.iseg == some iseg && !q.ended))

/-- MAPSET (R413): s[sb] selects the operation. One that meets the segment lock waits for it. -/
def mapset (d a b c : BitVec 5) (s : State) : Eff :=
  let ia := (s.reg a).toNat
  let iseg := ia / 2 ^ 18
  let op := (s.reg b).toNat
  let x := (s.reg c).toNat
  if 2 ^ 52 ≤ ia ∨ 3 < op then privStatus d 1 s
  else if s.segLocked s.me.vf iseg then .wait s
  else match s.vf? s.me.vf with
    | none => privStatus d 3 s
    | some v =>
      match op, v.segs.lookup iseg with
      | 0, some _ => privStatus d 0 (s.unmapSegment s.me.vf iseg)
      | 0, none => privStatus d 3 s
      | 1, m =>
        if 8 ≤ x then privStatus d 1 s
        else if x &&& v.policy.ceil.toNat ≠ x then privStatus d 2 s
        else match m with
          | none => privStatus d 3 s
          | some _ => privStatus d 0 (s.updSeg s.me.vf iseg (fun g =>
              { g with rd := x % 2 == 1, wr := x / 2 % 2 == 1, ex := x / 4 % 2 == 1 }))
      | 2, m =>
        match allocWidths x with
        | none => privStatus d 1 s
        | some (lw, pw) =>
          if m.isSome then privStatus d 3 s
          else match s.aboveReserve s.me.part (chunksOf lw pw) with
            | none => privStatus d 4 s
            | some cs => privStatus d 0 (s.mapSegment s.me.vf iseg lw pw cs)
      | _, some g => .done (s.setReg d (BitVec.ofNat 64 g.word))
      | _, none => .done (s.setReg d (BitVec.ofNat 64 (look v.unmapped iseg 0)))

def execMapsetUnmap (d a b c : BitVec 5) (t : BitVec 2) (s : State) : Out :=
  runOrdered t (privileged (wordSR 0xE1 d a b c 0 t) (fun s => mapset d a b c s.performAll)) s
def execMapsetPerm (d a b c : BitVec 5) (t : BitVec 2) (s : State) : Out :=
  runOrdered t (privileged (wordSR 0xE1 d a b c 0 t) (fun s => mapset d a b c s.performAll)) s
def execMapsetAlloc (d a b c : BitVec 5) (t : BitVec 2) (s : State) : Out :=
  runOrdered t (privileged (wordSR 0xE1 d a b c 0 t) (fun s => mapset d a b c s.performAll)) s
def execMapsetQuery (d a b c : BitVec 5) (t : BitVec 2) (s : State) : Out :=
  runOrdered t (privileged (wordSR 0xE1 d a b c 0 t) (fun s => mapset d a b c s.performAll)) s

/-! ## Records written to memory (R412) -/

/-- Where a record of `n` bytes goes. -/
inductive RecordAt where
  | ok (s : State)
  | bad (s : State)
  | hold (s : State) (iseg : Nat)

/-- Write a record of `n` bytes, aligned to its size, as untyped scalar stores. -/
def State.writeRecord (s : State) (a : Word) (n v : Nat) : RecordAt :=
  match s.locate s.walker (s.resolveMe a.toNat) .write with
  | .fail t _ => .bad t
  | .park t i => .hold t i
  | .ok t l =>
    match t.storeLine t.me.core l (untyped v (a.toNat % 128) n) 0 t.me.pm t.reader a with
    | (some u, _) => .ok u
    | (none, u) => .bad u

/-! ## Page requests (R117, R120, R415) -/

/-- NCHUNK of a request. -/
def PageReq.nchunk (q : PageReq) : Nat := chunksOf q.lw q.pw

/-- The record of a request (Table 4 of R117). -/
def PageReq.record (q : PageReq) (vf : Nat) : Nat :=
  q.id % 2 ^ 16 + vf % 256 * 2 ^ 16 + q.kind % 8 * 2 ^ 24 + (Config.segHandle vf q.iseg).toNat * 2 ^ 32 + q.nchunk % 32 * 2 ^ 64

/-- PGQRD. -/
def execPgqrd (d a : BitVec 5) (t : BitVec 2) (s : State) : Out :=
  runOrdered t (privileged (wordSR 0xE5 d a 0 0 0 t) (fun s =>
    let s := s.performAll
    let q : Option PageReq := match s.vf? s.me.vf with
      | some v => v.pgq.find? (fun (r : PageReq) => !r.read)
      | none => none
    if (s.reg a).toNat % 16 ≠ 0 then privStatus d 1 s
    else match q with
      | none => privStatus d 3 s
      | some q =>
        match s.writeRecord (s.reg a) 16 (q.record s.me.vf) with
        | .bad s => privStatus d 5 s
        | .hold s i => holdAt s (s.reg a) i
        | .ok s => privStatus d 0 (s.updVf s.me.vf (fun v =>
            { v with pgq := v.pgq.map (fun (r : PageReq) => if r.id = q.id then { r with read := true } else r) })))) s

/-- An access of the front end, or an element of a parked instruction, that waits for an intermediate segment fails. -/
def Strand.deny (t : Strand) (iseg cause : Nat) : Strand :=
  let t := match t.held with
    | some (va, i) => if i = iseg then { t with denied := (va / 2 ^ 18, cause) :: t.denied } else t
    | none => t
  { t with parked := t.parked.map (fun p =>
      let new := (p.pending.filter (fun e => e.iseg == iseg)).map (fun e => (e.target / 2 ^ 18, cause))
      { p with entry := { p.entry with denied := new ++ p.entry.denied } }) }

/-- An engine's operation that waits for an intermediate segment fails. -/
def Engine.deny (e : Engine) (vf iseg cause : Nat) : Engine :=
  let f (c : RunCmd) : RunCmd := match c.held with
    | some (va, i) => if c.vf = vf ∧ i = iseg then { c with denied := (va / 2 ^ 18, cause) :: c.denied } else c
    | none => c
  { e with running := e.running.map f }

/-- Every access of a function that waits for a segment fails with a cause (R120). -/
def State.denyAll (s : State) (vf iseg cause : Nat) : State :=
  let s := s.mapEvery (fun t => t.vf == vf) (fun t => t.deny iseg cause)
  let f (es : Vector Engine 4) : Vector Engine 4 := es.map (fun e => e.deny vf iseg cause)
  { s with
    waiting := false
    cores := s.cores.map (fun c => (c.1, { c.2 with
      engines := f c.2.engines
      saved := c.2.saved.map (fun v => { v with engines := f v.engines }) })) }

/-- REFUSE (R120): the request is retired and its elements fail. -/
def State.refuse (s : State) (vf : Nat) (q : PageReq) : State :=
  (s.updVf vf (fun v => v.retire (fun r => r.id == q.id))).denyAll vf q.iseg causeDenied

/-- PGQACK (R415). -/
def pgqack (d a b : BitVec 5) (s : State) : Eff :=
  let s := s.performAll
  let op := (s.reg b).toNat
  let q : Option PageReq := match s.vf? s.me.vf with
    | some v => v.pgq.find? (fun (r : PageReq) => r.id == (s.reg a).toNat)
    | none => none
  if 1 < op ∨ 2 ^ 16 ≤ (s.reg a).toNat then privStatus d 1 s
  else match q with
    | none => privStatus d 3 s
    | some q =>
      if op = 1 then privStatus d 0 (s.refuse s.me.vf q)
      else match s.aboveReserve s.me.part q.nchunk with
        | none => privStatus d 4 s
        | some cs => privStatus d 0 (s.mapSegment s.me.vf q.iseg q.lw q.pw cs)

def execPgqackGrant (d a b : BitVec 5) (t : BitVec 2) (s : State) : Out :=
  runOrdered t (privileged (wordSR 0xE6 d a b 0 0 t) (pgqack d a b)) s
def execPgqackRefuse (d a b : BitVec 5) (t : BitVec 2) (s : State) : Out :=
  runOrdered t (privileged (wordSR 0xE6 d a b 0 0 t) (pgqack d a b)) s

/-! ## The error log (R410, R416) -/

/-- A log entry (Table 4 of R410). -/
def LogEntry.record (e : LogEntry) : Nat :=
  e.seq % 2 ^ 64 + e.event % 256 * 2 ^ 64 + e.vf % 256 * 2 ^ 72 + e.coord % 2 ^ 13 * 2 ^ 80 + e.addr.toNat * 2 ^ 128
    + e.detail.toNat * 2 ^ 192

/-- ERRRD. -/
def execErrrd (d a : BitVec 5) (t : BitVec 2) (s : State) : Out :=
  runOrdered t (privileged (wordSR 0xE7 d a 0 0 0 t) (fun s =>
    let s := s.performAll
    if (s.reg a).toNat % 32 ≠ 0 then privStatus d 1 s
    else match (s.part s.me.part).errLog with
      | [] => privStatus d 3 s
      | e :: _ =>
        match s.writeRecord (s.reg a) 32 e.record with
        | .bad s => privStatus d 5 s
        | .hold s i => holdAt s (s.reg a) i
        | .ok s => privStatus d 0 s)) s

/-- ERRACK. -/
def execErrack (d a : BitVec 5) (t : BitVec 2) (s : State) : Out :=
  runOrdered t (privileged (wordSR 0xE8 d a 0 0 0 t) (fun s =>
    let l := (s.part s.me.part).errLog
    let left := l.filter (fun e => !decide (e.seq ≤ (s.reg a).toNat))
    .done ((s.updPart s.me.part (fun p => { p with errLog := left })).setReg d (BitVec.ofNat 64 (l.length - left.length))))) s

end Sys2Proof.Machine
end

