-- ==== Sys2Proof/Machine/MemEvents.lean ====
section
/-!
DEFINITION. What memory and its caches do between instructions: fit-checked writes and growth (R91, R92), write-backs,
evictions, sweeps and snoops (R132, R175, R317), line reads with their errors (R83, R85), row activations (R98), walks
and page requests (R110, R117, R119, R121).
-/
namespace Sys2Proof.Machine

/-! ## Homes (R91, R92, R132) -/

/-- FIT_CHECKED_WRITE: the home applies the write, growing the segment first if it does not fit; a refused growth discards it
(R94), and the store that made it traps. -/
def execFitCheckedWrite (w : HomeWrite) (s : State) : Out :=
  let e := s.homeEntry w.vf w.seg
  let x := s.fitWrite e w.line { data := w.data, mask := w.mask, tag := w.tag, typed := w.typed, width := w.width } none w.priv { vf := w.vf, coord := 8 * w.core + w.ctx } (BitVec.ofNat 64 w.va)
  .next (x.1.getD x.2)

/-- SEGMENT_SWITCH: a grown segment goes over to its new chunks. -/
def execSegmentSwitch (vf seg : Nat) (s : State) : Out :=
  .next (match s.seg? vf seg with
    | some g =>
      let p := s.part (s.vfPart vf)
      if g.pw < g.lw ∧ 16 ≤ p.freeCount then s.growSeg vf seg (p.chooseChunks 16) else s
    | none => s)

/-- WRITEBACK_MERGE: an L1 line's dirty bytes reach their home. -/
def execWritebackMerge (core line : Nat) (s : State) : Out := .next (s.writeBackLine core line)

/-- L1_EVICTION: a dirty line is written back, a clean one goes silently. -/
def execL1Eviction (core line : Nat) (s : State) : Out :=
  .next ((s.writeBackLine core line).updCore core (fun c => c.dropLine line))

/-- DIRTY_AGE_SWEEP (R175). -/
def execDirtyAgeSweep (core : Nat) (s : State) : Out := .next (s.writeBackCore core)

/-- A core holds host line `line` in its L1. -/
def Core.holdsHost (c : Core) (line : Nat) : Bool := c.l1.any (fun l => l.key == hostKey (128 * line))

/-- HOST_SNOOP (R317): the line's dirty bytes are written back and every L1 drops it; then the snoop response goes to the host. -/
def execHostSnoop (line : Nat) (s : State) : Out :=
  let dirty := s.cores.any (fun c => c.2.l1.any (fun l => l.key == hostKey (128 * line) && l.dirty != 0))
  let s := s.cores.foldl (fun s c => (s.writeBackLine c.1 (hostKey (128 * line))).updCore c.1 (fun x => x.dropLine (hostKey (128 * line)))) s
  .next { s with outbox := s.outbox ++ [.snoop line dirty] }

/-! ## Banks (R98–R101) -/

/-- ACTIVATION_ALERT (R98), of a channel in use (R427). -/
def execActivationAlert (chan bank row : Nat) (s : State) : Out :=
  .next (if chan < 1024 ∧ bank < 64 ∧ row < 65536 ∧ (s.chan chan).trained = true then s.updChan chan (fun c => c.alert bank row) else s)

/-- BACKOFF_END: the bank's waiting reads go on, in arrival order (R99). -/
def execBackoffEnd (chan bank : Nat) (s : State) : Out :=
  .next { (s.updChan chan (fun c => { c with backoff := c.backoff.erase bank })).retryReads chan with waiting := false }

/-! ## Reads of stored lines (R83, R85) -/

/-- LINE_READ_COMPLETE: a read made for an access, or for the device itself (R83, R410). -/
def execLineReadComplete (p : Nat) (r : StoredRead) (s : State) : Out :=
  let by_ : Reader := match r.issuer with
    | some x => { vf := x.1, coord := x.2 }
    | none => {}
  .next (if p < 2 ^ 35 then s.lineRead p r.err false r.near by_ else s)

/-- PATROL_READ (R85). -/
def execPatrolRead (p : Nat) (o : ReadError) (s : State) : Out :=
  .next (if p < 2 ^ 35 ∧ p % 2 ^ 25 < userLines then s.lineRead p o true false {} else s)

/-! ## Walks and page requests -/

/-- A strand's accesses as a walker. -/
def State.walkerOf (s : State) (t : Strand) : Walker :=
  { core := t.core, vf := t.vf, pm := t.pm, ctx := s.ctxOf t.part t.braid, reader := { vf := t.vf, coord := t.coord }, denied := t.denied }

/-- The strand waits for a segment's translation. -/
def Strand.waitsFor (t : Strand) (va : Nat) : Bool :=
  (match t.held with
    | some h => h.1 / 2 ^ 18 == va / 2 ^ 18
    | none => false) || t.parked.any (fun p => p.pending.any (fun e => e.target / 2 ^ 18 == va / 2 ^ 18))

/-- WALK_COMPLETE (R110): a walk, whatever the TLBs hold of the segment, whose combined entry is cached; a miss in stage 2 leaves the
access that waits for it parked, and an access that fails does so when it is made. -/
def execWalkComplete (core ctx va : Nat) (acc : Access) (s : State) : Out :=
  .next (match s.strand? core ctx with
    | none => s
    | some t =>
      if 2 ^ 56 ≤ va then s
      else match s.walk (s.walkerOf t) va acc with
        | .ok u _ => u
        | .fail _ _ => s
        | .park u _ => if t.waitsFor va then u else s)

/-- PAGE_REQUEST_DELIVER (R117): the oldest request whose record the host has not been given. -/
def execPageRequestDeliver (vf : Nat) (s : State) : Out :=
  .next (s.updVf vf (fun v =>
    match v.pgq.find? (fun r => !r.delivered) with
    | none => v
    | some q =>
      { v with
        pgq := v.pgq.map (fun r => if r.id = q.id then { r with delivered := true } else r)
        mailbox := v.mailbox ++ [BitVec.ofNat 128 (q.record vf)] }))

/-- An instruction held in its unit can go on: a pending element's segment is mapped, it failed, or it is asked for no more (R117); or
the instruction traps and none older is left (R338). -/
def State.woken (s : State) (t : Strand) (p : Parked) : Bool :=
  (p.trap.isSome && !t.olderThan p.entry.seq)
    || p.pending.any (fun e => (s.seg? t.vf e.iseg).isSome || (p.entry.denied.lookup (e.target / 2 ^ 18)).isSome
      || (match s.vf? t.vf with
        | some v => !v.pgq.any (fun q => q.iseg == e.iseg) && !v.late.any (fun q => q.1 == e.iseg)
        | none => false))

/-- The oldest instruction held in its unit that can go on. -/
def State.wokenOf (s : State) (t : Strand) : Option Parked := t.parked.find? (s.woken t)

/-- The strand with a held instruction under way again. -/
def Strand.resumeParked (t : Strand) (p : Parked) : Strand :=
  { t.takeUp p.entry with parked := t.parked.filter (fun q => q.entry.seq != p.entry.seq) }

/-- ELEMENT_REPLAY (R119): the oldest held instruction that was woken goes on in its strand's next turn; one that had to wait with its
trap takes it. -/
def State.replayParked (s : State) (core ctx : Nat) : State :=
  match s.strand? core ctx with
  | none => s
  | some t =>
    match s.wokenOf t with
    | none => s
    | some p =>
      if !t.dispatched && t.run == .running then
        let s := { s.mapStrand core ctx (fun t => t.unissue.resumeParked p) with waiting := false }
        match p.trap with
        | none => s
        | some r => s.onStrand core ctx (fun s => s.trapped r)
      else s

def execElementReplay (core ctx : Nat) (s : State) : Out := .next (s.replayParked core ctx)

/-- A strand's longest wait fails: its held access, or the lowest pending element of its oldest instruction in the VLSU. -/
def Strand.stall (t : Strand) : Strand :=
  match t.held with
  | some h => if t.anchorHold then t else { t with denied := (h.1 / 2 ^ 18, causeLongStall) :: t.denied }
  | none =>
    let fail (p : Parked) : Parked := match p.pending with
      | e :: _ => { p with entry := { p.entry with denied := (e.target / 2 ^ 18, causeLongStall) :: p.entry.denied } }
      | [] => p
    match t.parked.find? (fun p => !p.pending.isEmpty) with
    | some q => { t with parked := t.parked.map (fun p => if p.entry.seq = q.entry.seq then fail p else p) }
    | none => t

/-- An engine's held operation fails, of a context. -/
def Engine.stall (e : Engine) (ctx : Nat) : Engine :=
  let f (c : RunCmd) : RunCmd := match c.held with
    | some h => if c.ctx = ctx then { c with denied := (h.1 / 2 ^ 18, causeLongStall) :: c.denied } else c
    | none => c
  { e with running := e.running.map f }

/-- LONG_STALL_TIMEOUT (R121): where the policy sets a bound. -/
def execLongStallTimeout (core ctx : Nat) (s : State) : Out :=
  .next (match s.strand? core ctx with
    | none => s
    | some t =>
      let bounded := match s.vf? t.vf with
        | some v => v.policy.pgTmo != 0
        | none => false
      if !bounded then s
      else if t.held.isSome || !t.parked.isEmpty then { s.mapStrand core ctx Strand.stall with waiting := false }
      else { s.updCore core (fun c => { c with engines := c.engines.map (fun e => e.stall ctx) }) with waiting := false })

end Sys2Proof.Machine
end

