-- ==== Sys2Proof/Machine/Host.lean ====
section
/-!
DEFINITION. Host commands through the capsule mailboxes (R403–R407) with page replies and queries (R118–R120), tenant switches
(R400), policies and SPDM (R401, R402), the return of unmapped chunks (R413) and the scrubbing of banks (R100, R101).
-/
namespace Sys2Proof.Machine

/-! ## Capsules and completions (R403) -/

/-- Completion in the physical function's mailbox. -/
def State.answerPf (s : State) (tag st : Nat) (result : Word) : State :=
  { s.send (.completion tag st result) with waiting := false }

/-- Completion in a virtual function's mailbox; where no function is bound, the capsule's sender is answered alike. -/
def State.answerVf (s : State) (vf tag st : Nat) (result : Word) : State :=
  match s.vf? vf with
  | some _ => { s.updVf vf (fun v =>
      { v with mailbox := v.mailbox ++ [BitVec.ofNat 128 (tag % 2 ^ 16 + st % 256 * 2 ^ 16 + result.toNat * 2 ^ 64)] }) with waiting := false }
  | none => s.answerPf tag st result

/-- What a command's own checks and effect give: a status, a result, and the state. -/
abbrev Served := Nat × Word × State

/-- A function's policy permits host command `code`. -/
def Vf.hostOp (v : Vf) (code : Nat) : Bool := v.policy.hostOps.getLsbD code

/-- The partition is being reset (R406). -/
def State.partResetting (s : State) (part : Nat) : Bool := (s.part part).resetTag.isSome

/-- A mailbox still executes a capsule: a RESET or RESET_VF in that of the physical function. -/
def State.boxBusy (s : State) (box : Option Nat) : Bool :=
  box.isNone && (s.parts.any (fun p => p.2.resetTag.isSome) || s.vfs.any (fun v => v.2.resetTag.isSome))

/-- Capsules that wait in a mailbox, oldest first. -/
def State.boxQueue (s : State) (box : Option Nat) : List Capsule := (s.anchor.capsules.filter (fun c => c.1 == box)).map (fun c => c.2)

/-- A capsule leaves its mailbox's queue, or joins it. -/
def State.takeCapsule (s : State) (box : Option Nat) (i : Capsule) : State :=
  { s with anchor := { s.anchor with capsules := s.anchor.capsules.erase (box, i) } }

def State.holdCapsule (s : State) (box : Option Nat) (i : Capsule) : State :=
  { s with anchor := { s.anchor with capsules := s.anchor.capsules ++ [(box, i)] } }

/-- A capsule in a mailbox, which executes its capsules in order, one at a time (R403): it is executed when those before it have been,
and `serve` need not wait (none). Before power-good there is no mailbox. -/
def inTurn (box : Option Nat) (i : Capsule) (serve : State → Option State) (s : State) : Out :=
  if s.anchor.stage = 0 then .next s
  else match s.boxQueue box with
    | [] => match (if s.boxBusy box then none else serve s) with
      | some t => .next t
      | none => .next (s.holdCapsule box i)
    | j :: rest =>
      if j = i then match (if s.boxBusy box then none else serve (s.takeCapsule box i)) with
        | some t => .next t
        | none => .next s
      else if rest.contains i then .next s
      else .next (s.holdCapsule box i)

/-- A command for a function: the number of its capsule, and what stands before its own checks: whether it is well formed, a refusal of
the start-up stage (R426), and the states of the function that it accepts; and whether it waits. -/
structure VfCommand where
  tag : Nat
  code : Nat
  good : Bool := true
  early : Option Nat := none
  accept : Vf → Bool := fun _ => true
  waits : Vf → State → Bool := fun _ _ => false

/-- A capsule for a function: R403's checks in order, then its own. A failing capsule changes nothing. -/
def vfCommand (i : Capsule) (vf : Nat) (c : VfCommand) (own : Vf → State → Served) : State → Out :=
  inTurn (some vf) i (fun s =>
    let answer (st : Nat) : Option State := some (s.answerVf vf c.tag st 0)
    if s.anchor.stage = 1 then answer 0x13
    else if 2 ^ 16 ≤ c.tag ∨ c.good = false then answer 0x10
    else match c.early with
      | some e => answer e
      | none => match s.vf? vf with
        | none => answer 0x12
        | some v =>
          if s.partResetting v.part = true ∨ v.mailboxOpen = false ∨ c.accept v = false then answer 0x13
          else if v.hostOp c.code = false then answer 0x11
          else if c.waits v s then none
          else
            let r := own v s
            some (if r.1 = 0 ∨ 0x20 ≤ r.1 then r.2.2.answerVf vf c.tag r.1 r.2.1 else s.answerVf vf c.tag r.1 0))

/-- The same for a command of the physical function: whether it is refused before the end of stage 1 (R426), what check 2 finds, and the
functions whose policies it must satisfy. -/
structure PfCommand where
  tag : Nat
  code : Nat
  early : Bool := false
  missing : Option Nat := none
  vfs : List Vf := []

/-- A command of the physical function that passes R403's checks 1 to 3, or the status of the first that fails. -/
def PfCommand.check (c : PfCommand) (s : State) : Option Nat :=
  if s.anchor.stage = 1 ∨ (c.early = true ∧ s.anchor.stage < 3) then some 0x13
  else if 2 ^ 16 ≤ c.tag then some 0x10
  else match c.missing with
    | some e => some e
    | none => if c.vfs.any (fun v => !v.hostOp c.code) then some 0x11 else none

/-- A capsule for the physical function, answered when its effect is complete. -/
def pfCommand (i : Capsule) (c : State → PfCommand) (own : State → Served) : State → Out :=
  inTurn none i (fun s =>
    let cmd := c s
    some (match cmd.check s with
      | some e => s.answerPf cmd.tag e 0
      | none =>
        let r := own s
        if r.1 = 0 then r.2.2.answerPf cmd.tag 0 r.2.1 else s.answerPf cmd.tag r.1 0))

/-- The same for one that goes on when it has been accepted, and is answered when it ends. -/
def pfBegin (i : Capsule) (c : State → PfCommand) (own : State → State) : State → Out :=
  inTurn none i (fun s =>
    let cmd := c s
    some (match cmd.check s with
      | some e => s.answerPf cmd.tag e 0
      | none => { own s with waiting := false }))

/-- Functions bound to a partition. -/
def State.vfsOf (s : State) (part : Nat) : List (Nat × Vf) := s.vfs.filter (fun v => v.2.part == part)

/-- The functions bound to a partition, whose policies a command for it must satisfy. -/
def State.policies (s : State) (part : Nat) : List Vf := (s.vfsOf part).map (fun v => v.2)

/-! ## Keys and tenants (R125, R126, R400, R401) -/

/-- Hanks in which a partition holds a coil or a channel. -/
def Part.hanks (p : Part) : List Nat :=
  (List.range 8).filter (fun h => p.coils.any (fun c => c / 16 == h) || p.chans.any (fun c => c / 128 == h))

/-- Discard the key slots of tenants in hanks that `p` names: every L2 entry that carries the slot is dropped, its dirty bytes
with it (R126). -/
def State.dropSlots (s : State) (p : Nat → Nat → Bool) : State :=
  let gone (h slot : Nat) : Bool := ((s.hank h).keys.lookup slot).any (p h)
  { s with
    chans := s.chans.map (fun (c : Nat × Channel) => (c.1, { c.2 with l2 := c.2.l2.filter (fun l => !gone (c.1 / 128) l.key) }))
    hanks := s.hanks.map (fun (h : Nat × Hank) => (h.1, { h.2 with keys := h.2.keys.filter (fun k => !p h.1 k.2) })) }

/-- Another partition of the tenant holds a coil or a channel in the hank. -/
def State.keyNeeded (s : State) (part hank tenant : Nat) : Bool :=
  s.parts.any (fun p => p.1 != part && p.2.tenant == some tenant && p.2.hanks.contains hank)

/-- Discard the slots of a partition's tenants in the hanks named, where no other partition of theirs uses them. -/
def State.dropKeys (s : State) (part : Nat) (hanks : List Nat) : State :=
  let mine (t : Nat) : Bool := (s.part part).tenant == some t || (s.vfsOf part).any (fun v => v.2.tenant == t)
  s.dropSlots (fun h t => hanks.contains h && mine t && !s.keyNeeded part h t)

/-- A hank's slots are all loaded: those of tenants that no partition there serves now are written back and freed (R126). -/
def State.makeSlot (s : State) (hank : Nat) : State :=
  let idle (t : Nat) : Bool := !s.keyNeeded 16 hank t
  if (s.hank hank).keys.length < 32 then s
  else
    let flush (s : State) (c : Nat × Channel) : State :=
      if c.1 / 128 = hank then c.2.l2.foldl (fun s l => s.flushLine (c.1 * 2 ^ 25 + l.off)) s else s
    (s.chans.foldl flush s).dropSlots (fun h t => h == hank && idle t)

/-- Load a tenant's key into a slot of a hank, the lowest free one, where none holds it (R125). -/
def State.loadKey (s : State) (tenant hank : Nat) : State :=
  if (s.hank hank).keys.any (fun k => k.2 == tenant) then s
  else
    let s := s.makeSlot hank
    let held := (s.hank hank).keys
    match (List.range 32).find? (fun i => !held.any (fun k => k.1 == i)) with
    | some slot => s.updHank hank (fun x => { x with keys := put x.keys slot tenant })
    | none => s

/-- Load a tenant's key in each hank of a partition. -/
def State.loadKeys (s : State) (part tenant : Nat) : State := (s.part part).hanks.foldl (fun s h => s.loadKey tenant h) s

/-- A tenant's record changed. -/
def State.updTenant (s : State) (n : Nat) (f : Tenant → Tenant) : State :=
  { s with anchor := { s.anchor with tenants := s.anchor.tenants.map (fun t => if t.num = n then f t else t) } }

/-- A tenant that holds no function loses its keys, and with them its evicted images and what it left in shadow slots. -/
def State.settleTenant (s : State) (n : Nat) : State :=
  if s.vfs.any (fun v => v.2.tenant == n) then s
  else
    let s := s.updTenant n (fun t => { t with keyLoaded := false })
    let s := s.dropSlots (fun _ t => t == n)
    let left (v : Saved) : Bool := v.strands.isEmpty && v.tenant == some n
    { s with
      anchor := { s.anchor with evicted := s.anchor.evicted.filter (fun e => e.tenant != n) }
      cores := s.cores.map (fun (c : Nat × Core) => (c.1, { c.2 with saved := c.2.saved.filter (fun v => !left v) })) }

/-! ## Stopping and bringing back (R391, R392, R400, R405) -/

/-- The strands of a function. -/
def ofVf (vf : Nat) (t : Strand) : Bool := t.vf == vf

/-- Write back the L1s of a partition's cores. -/
def State.writeBackPart (s : State) (part : Nat) : State := (s.part part).cores.foldl (fun s c => s.writeBackCore c) s

/-- Stop functions: their strands are halted, what they stored is performed, and their contexts are saved, or where the whole
partition is swapped the state of every core. -/
def State.stopVfs (s : State) (part : Nat) (p : Strand → Bool) (whole : Bool) : State :=
  let s := s.haltFor p
  let s := (s.strands.filter p).foldl (fun s t => s.performOf t.core t.ctx) s
  (s.swapOut part p whole).writeBackPart part

/-- A saved context holds a strand that `p` names. -/
def Saved.holds (v : Saved) (p : Strand → Bool) : Bool := v.strands.any p

/-- Saved contexts of the Anchor's that hold such a strand can all come back. -/
def State.canReturn (s : State) (part : Nat) (p : Strand → Bool) : Bool :=
  (s.part part).cores.all (fun c => match (s.core c).saved with
    | some v => v.owner.isSome || !v.holds p || s.restorable c v
    | none => true)

/-- They come back, and the strands that the Anchor halted go on. -/
def State.bringBack (s : State) (part : Nat) (p : Strand → Bool) : State :=
  (s.swapIn (s.part part).cores (fun v => v.holds p)).mapStrands (fun t => p t && t.run == .paused) (fun t => { t with run := .running })

/-- Resident functions of other tenants. -/
def State.foreigners (s : State) (part tenant : Nat) : List Nat :=
  ((s.vfsOf part).filter (fun v => v.2.tenant != tenant && v.2.st == .resident)).map (fun v => v.1)

/-- Making a function resident needs a tenant switch: its partition is another tenant's. -/
def State.foreign (s : State) (v : Vf) : Bool :=
  (s.part v.part).tenant != some v.tenant || !(s.foreigners v.part v.tenant).isEmpty

/-- The tenant switch of R400: the whole partition is swapped, and what the incoming tenant left in cores without strands comes
back to them. -/
def State.switchTenant (s : State) (part tenant : Nat) : State :=
  let out := s.foreigners part tenant
  let s := s.stopVfs part (fun t => out.contains t.vf) true
  let s := out.foldl (fun s v => s.updVf v (fun v => { v with st := .bound })) s
  let s := (s.part part).cores.foldl (fun s c => s.zeroStore c) s
  let s := (s.updPart part (fun p => { p with tenant := some tenant })).loadKeys part tenant
  s.swapIn (s.part part).cores (fun v => v.strands.isEmpty && v.tenant == some tenant)

/-- A walker for the Anchor's reads of a launch record. -/
def State.anchorWalker (s : State) (part vf : Nat) : Walker :=
  { core := 8 * ((s.part part).coils.headD 0), vf := vf, pm := false, ctx := ⟨[], []⟩, reader := { vf := vf } }

/-- Launch the record at an address for a function (R360, R403): status 1 where it cannot be read, with a page request when a
segment is missing (assumption 22). -/
def State.hostLaunch (s : State) (part vf a : Nat) : Served :=
  match s.readRecord (s.anchorWalker part vf) a with
  | .fail t => (0x21, 0, t)
  | .hold t _ _ => (0x21, 0, t)
  | .ok t r descs =>
    let x := t.launch part vf r descs
    if x.1.getLsbD 63 then (0x20 + x.1.toNat % 8, 0, x.2) else (0x20, x.1, x.2)

/-- SCHEDULE; a swap that it makes waits for the XREDs in flight (R329). -/
def execSchedule (tag vf slice rec_ : Nat) (s : State) : Out :=
  vfCommand (.schedule tag vf slice rec_) vf
    { tag := tag, code := 0x03, good := decide (rec_ < 2 ^ 64 ∧ slice < 2 ^ 32)
      early := if rec_ ≠ 0 ∧ s.anchor.stage < 3 then some 0x24 else none
      accept := fun v => v.st == .bound || v.st == .resident
      waits := fun v s => s.swapWaits (fun t => (s.foreigners v.part v.tenant).contains t.vf) }
    (fun v s =>
      let out := s.foreigners v.part v.tenant
      let p (t : Strand) : Bool := out.contains t.vf
      if (s.strands.filter p).any (fun t => !s.permits t.vf 2) then (0x11, 0, s)
      else if s.foreign v ∧ s.swapBlocked v.part p true = true then (0x13, 0, s)
      else
        let s1 := if s.foreign v then s.switchTenant v.part v.tenant else s
        if !s1.canReturn v.part (ofVf vf) then (0x13, 0, s)
        else
          let s2 := (s1.bringBack v.part (ofVf vf)).updVf vf (fun v => { v with st := .resident, slice := slice })
          if rec_ = 0 then (0, 0, s2) else s2.hostLaunch v.part vf rec_) s

/-- Segments with a write applied since the last report: those mapped, ascending, then those unmapped since. -/
def Vf.dirtySegs (v : Vf) : List Nat :=
  ((v.segs.filter (fun g => g.2.dirty)).map (fun g => g.1) ++ v.dirtied).eraseDups

/-- The dirty-page report in a buffer of `size` bytes (R405). -/
def State.report (s : State) (vf buf size : Nat) : State :=
  match s.vf? vf with
  | none => s
  | some v =>
    let segs := v.dirtySegs
    let fit := segs.take ((size - 8) / 4)
    let bytes := segs.length + (fit.zipIdx.foldl (fun acc x => acc + (Config.segHandle vf x.1).toNat * 2 ^ (64 + 32 * x.2)) 0)
    let s := { s with mem := memPutNat s.mem (hostByte buf) bytes (Nat.min size (8 + 4 * fit.length)) }
    (fit.foldl (fun s g => s.updSeg vf g (fun g => { g with dirty := false })) s).updVf vf (fun v =>
      { v with dirtied := v.dirtied.filter (fun g => !fit.contains g) })

/-- The members of the collective groups of functions hear from the Anchor that this one has failed (R325, R406, R407). -/
def State.failGroups (s : State) (part : Nat) (p : Nat → Bool) : State :=
  let mine := (s.part part).groups.filter (fun g => p g.2.vf)
  s.emit (mine.map (fun g => Sent.member part g.1 (.failed g.2.rank)))

/-- A stopped function's memberships have failed: this member is live in no group that has others (assumption 45). -/
def State.stopGroups (s : State) (part vf : Nat) : State :=
  let stops (g : Group) : Bool := g.vf == vf && g.liveSet.any (fun r => r != g.rank)
  let mine := (s.part part).groups.filter (fun g => stops g.2)
  (s.emit (mine.map (fun g => Sent.member part g.1 (.failed g.2.rank)))).updPart part (fun p =>
    { p with groups := p.groups.map (fun g => (g.1, if stops g.2 then { g.2 with liveSet := g.2.liveSet.erase g.2.rank } else g.2)) })

/-- The steps that stop a function (R405): its strands are halted and swapped, its writes are performed, and the report is written. -/
def State.stopVf (s : State) (vf : Nat) (v : Vf) (buf size : Nat) : State :=
  (((s.stopVfs v.part (ofVf vf) false).stopGroups v.part vf).report vf buf size).updVf vf (fun v => { v with st := .paused })

/-- PAUSE (R405). -/
def execPause (tag vf buf size : Nat) (s : State) : Out :=
  vfCommand (.pause tag vf buf size) vf
    { tag := tag, code := 0x04, good := decide (buf + size ≤ 2 ^ 64)
      accept := fun v => v.st == .resident || v.st == .bound
      waits := fun _ s => s.swapWaits (ofVf vf) }
    (fun v s =>
      if (s.strands.filter (ofVf vf)).isEmpty = false ∧ s.permits vf 2 = false then (0x11, 0, s)
      else if s.swapBlocked v.part (ofVf vf) false then (0x13, 0, s)
      else (0, 0, s.stopVf vf v buf size)) s

/-- RESUME: a function displaced by another tenant's stays bound until it is scheduled. -/
def execResume (tag vf : Nat) (s : State) : Out :=
  vfCommand (.resume tag vf) vf { tag := tag, code := 0x05, accept := fun v => v.st == .paused }
    (fun v s =>
      if s.foreign v then
        (0, 0, s.updVf vf (fun v => { v with st := .bound }))
      else if !s.canReturn v.part (ofVf vf) then (0x13, 0, s)
      else (0, 0, (s.bringBack v.part (ofVf vf)).updVf vf (fun v => { v with st := .resident }))) s

/-! ## Eviction (R404) -/

/-- Part of a saved context: the strands that `p` names, with their engine commands. -/
def Saved.part (v : Saved) (p : Strand → Bool) : Saved :=
  let ts := v.strands.filter p
  let ctxs := ts.map (fun t => t.ctx)
  { v with strands := ts, pairs := v.pairs.filter (fun q => ts.any (fun t => t.pairNo == q.1)), engines := v.engines.map (fun e => e.only ctxs) }

/-- A context without strands: what a tenant left in a core (R392). -/
def Saved.left (v : Saved) (tenant : Nat) : Bool := v.strands.isEmpty && v.tenant == some tenant

/-- What an eviction takes of a saved context: the strands that `p` names, or all that the tenant left. -/
def Saved.evicted (v : Saved) (p : Strand → Bool) (tenant : Nat) : Option Saved :=
  if v.left tenant then some v else if v.holds p then some (v.part p) else none

/-- Take the strands that `p` names out of a core's saved context. -/
def Core.takeSaved (c : Core) (p : Strand → Bool) : Core :=
  match c.saved with
  | none => c
  | some v =>
    let rest := v.part (fun t => !p t)
    { c with saved := if v.holds p then (if rest.strands.isEmpty then none else some rest) else some v }

/-- Take out what an eviction has taken. -/
def Core.evictSaved (c : Core) (p : Strand → Bool) (tenant : Nat) : Core :=
  match c.saved with
  | some v => if v.left tenant then { c with saved := none } else c.takeSaved p
  | none => c

/-- What an eviction takes out of a partition's cores, by core. -/
def State.savedOf (s : State) (part : Nat) (p : Strand → Bool) (tenant : Nat) : List (Nat × Saved) :=
  (s.part part).cores.filterMap (fun c => ((s.core c).saved.bind (fun v => v.evicted p tenant)).map (fun v => (c, v)))

/-- Record an eviction under the tenant's next counter value; ciphertext and tag go to the host. -/
def State.evict (s : State) (v : Vf) (vf handle : Nat) (contexts : List (Nat × Saved)) (seg : Option (Nat × Seg × List (Line × Tag))) :
    State :=
  let n := ((s.anchor.tenants.find? (fun t => t.num == v.tenant)).map (fun t => t.evictCtr)).getD 0 + 1
  let cipher := Config.evictCipher v.tenant n
  let mac := Config.evictTag v.tenant handle n cipher
  let s := s.updTenant v.tenant (fun t => { t with evictCtr := n })
  let e : Evicted := { handle := handle, tenant := v.tenant, vf := vf, ctr := n, cipher := cipher, mac := mac, contexts := contexts, seg := seg }
  { s with anchor := { s.anchor with
    evicted := e :: s.anchor.evicted.filter (fun x => !(x.handle == handle && x.tenant == v.tenant)) } }.send (.image handle cipher mac)

/-- EVICT of a context: the function is stopped (R405), and its saved contexts leave the shadow slots, with what its tenant left in cores
without strands (R141). -/
def execEvictContext (tag vf : Nat) (dest : EvictTo) (s : State) : Out :=
  vfCommand (.evictContext tag vf dest) vf
    { tag := tag, code := 0x06, good := decide (dest.handle < 2 ^ 64 ∧ dest.buf + dest.size ≤ 2 ^ 64)
      accept := fun v => v.st == .resident || v.st == .bound || v.st == .paused
      waits := fun _ s => s.swapWaits (ofVf vf) }
    (fun v s =>
      let p := ofVf vf
      if s.permits vf 3 = false then (0x11, 0, s)
      else if s.swapBlocked v.part p false then (0x13, 0, s)
      else
        let s := s.stopVf vf v dest.buf dest.size
        let s1 := s.evict v vf dest.handle (s.savedOf v.part p v.tenant) none
        (0, 0, (s.part v.part).cores.foldl (fun s c => s.updCore c (fun x => x.evictSaved p v.tenant)) s1)) s

/-- Machine lines of a list of chunks. -/
def Part.chunkLines (p : Part) (chunks : List Nat) : List Nat := (List.range (128 * chunks.length)).map (p.chunkLine chunks)

/-- Write back lines wherever they are dirty, L1s and slices, so that their banks hold them. -/
def State.settleLines (s : State) (lines : List Nat) : State := lines.foldl State.flushLine s

/-- Write back a segment's lines in every L1. -/
def State.writeBackSeg (s : State) (vf iseg : Nat) : State :=
  s.cores.foldl (fun s c =>
    (c.2.l1.filter (fun l => l.page.vf == vf && l.page.iseg == iseg)).foldl (fun s l => s.writeBackLine c.1 l.key) s) s

/-- The segment that a 32-bit handle names (R404). -/
def Vf.segOfHandle (v : Vf) (vf handle : Nat) : Option (Nat × Seg) := v.segs.find? (fun g => (Config.segHandle vf g.1).toNat == handle)

/-- EVICT of a segment: its chunks are freed as an UNMAP frees them, once the segment lock is free (R413). -/
def execEvictSegment (tag vf seg handle : Nat) (s : State) : Out :=
  vfCommand (.evictSegment tag vf seg handle) vf
    { tag := tag, code := 0x06, good := decide (seg < 2 ^ 32 ∧ handle < 2 ^ 64)
      accept := fun v => v.st != .resetting
      waits := fun v s => match v.segOfHandle vf seg with
        | some g => s.segLocked vf g.1
        | none => false }
    (fun v s =>
      if s.permits vf 3 = false then (0x11, 0, s)
      else match v.segOfHandle vf seg with
        | none => (0x12, 0, s)
        | some (iseg, g) =>
          let lines := (s.part v.part).chunkLines g.chunks
          let s := (s.writeBackSeg vf iseg).settleLines lines
          (0, 0, (s.evict v vf handle [] (some (iseg, g, lines.map s.bankLine))).unmapSegment vf iseg)) s

/-- Write machine lines into their banks. -/
def State.putLines (s : State) (lines : List Nat) (ls : List (Line × Tag)) : State :=
  (lines.zip ls).foldl (fun s x => s.putBank x.1 x.2.1 x.2.2) s

/-- The most recent eviction of a function to a handle, of a segment by its handle or of its context. -/
def State.evictedTo (s : State) (v : Vf) (vf handle : Nat) (seg : Option Nat) : Option Evicted :=
  s.anchor.evicted.find? (fun e => e.handle == handle && e.tenant == v.tenant && e.vf == vf
    && (e.seg.map (fun x => (Config.segHandle vf x.1).toNat)) == seg)

/-- RESTORE of the ciphertext and tag that the host holds: only those of the most recent eviction to the handle are accepted. -/
def execRestore (tag vf : Nat) (from_ : RestoreFrom) (image : SealedImage) (s : State) : Out :=
  vfCommand (.restore tag vf from_ image) vf
    { tag := tag, code := 0x07, good := decide (from_.handle < 2 ^ 64) && from_.seg.all (fun x => decide (x < 2 ^ 32))
      early := if s.anchor.stage < 3 then some 0x13 else none
      accept := fun v => v.st != .resetting }
    (fun v s =>
      match s.evictedTo v vf from_.handle from_.seg with
      | none => (0x12, 0, s)
      | some e =>
        if e.cipher ≠ image.cipher ∨ e.mac ≠ image.mac then (0x14, 0, s)
        else match e.seg with
          | some (iseg, g, ls) =>
            let n := g.chunks.length
            if (v.segs.lookup iseg).isSome ∨ (s.part v.part).freeCount < n then (0x13, 0, s)
            else
              let cs := (s.part v.part).chooseChunks n
              let s := s.mapSegment vf iseg g.lw g.pw cs
              (0, 0, (s.updSeg vf iseg (fun x => { g with chunks := cs, map := x.map })).putLines ((s.part v.part).chunkLines cs) ls)
          | none =>
            if v.st = .resident ∨ e.contexts.any (fun c => (s.core c.1).saved.isSome) = true then (0x13, 0, s)
            else (0, 0, e.contexts.foldl (fun s c => s.updCore c.1 (fun x => { x with saved := some c.2 })) s)) s

/-! ## Functions and policies (R402, R407, R408) -/

/-- Bandwidth weight of a partition: the largest of its functions' policies. -/
def State.weight (s : State) (part : Nat) : Nat := ((s.vfsOf part).map (fun v => v.2.policy.bwWeight)).foldl Nat.max 0

/-- Die-to-die links between two hanks of the 2 × 4 arrangement (R1), along the first one's row and then the column: hank h lies in row
h / 4 and column h mod 4 (assumption 23). -/
def hankRoute (a b : Nat) : List (Nat × Nat) :=
  let lo := Nat.min (a % 4) (b % 4)
  let hi := Nat.max (a % 4) (b % 4)
  ((List.range 3).filter (fun c => decide (lo ≤ c ∧ c < hi))).map (fun c => (a / 4 * 4 + c, a / 4 * 4 + c + 1))
    ++ (if a / 4 = b / 4 then [] else [(b % 4, 4 + b % 4)])

/-- A partition's traffic takes a die-to-die link. -/
def Part.usesLink (p : Part) (l : Nat × Nat) : Bool := p.hanks.any (fun a => p.hanks.any (fun b => (hankRoute a b).contains l))

/-- Weights of the partitions that share a link. -/
def State.linkWeight (s : State) (l : Nat × Nat) : Nat :=
  ((s.parts.filter (fun p => p.2.usesLink l)).map (fun p => s.weight p.1)).foldl (· + ·) 0

/-- The weights on a link that the partition uses exceed 64 (R408). -/
def State.overloads (s : State) (part : Nat) : Bool :=
  let p := s.part part
  ((p.hanks.map (fun a => (p.hanks.map (hankRoute a)).flatten)).flatten).any (fun l => decide (64 < s.linkWeight l))

/-- CREATE_VF (R402). The partition's reserve (R94) is the one of the last policy, whose RESERVE 0 selects the default: where policies
differ the spec does not say (assumption 75). -/
def execCreateVf (tag vf part tenant : Nat) (pol : Policy) (sigOk : Bool) (s : State) : Out :=
  pfCommand (.createVf tag vf part tenant pol sigOk)
    (fun s => { tag := tag, code := 0x01, early := true
                missing := if 192 ≤ vf ∨ 16 ≤ part then some 0x12 else match s.vf? vf with
                  | some v => if v.wasReset then none else some 0x13
                  | none => none
                vfs := (s.policies part).filter (fun v => v.tenant == tenant && !v.wasReset) })
    (fun s =>
      let known := s.anchor.tenants.any (fun t => t.num == tenant)
      if !sigOk || !known then (0x14, 0, s)
      else if pol.version ≠ 1 ∨ pol.reservedSet = true then (0x12, 0, s)
      else
        let s1 := { s with vfs := put s.vfs vf { st := .bound, part := part, tenant := tenant, policy := pol, trapVec := pol.trapVec } }
        let s2 := (s1.updPart part (fun p =>
          { p with
            tenant := some (p.tenant.getD tenant)
            reserve := if pol.reserve = 0 then none else some pol.reserve })).updTenant tenant (fun t => { t with keyLoaded := true })
        if s2.overloads part then (0x11, 0, s)
        else (0, 0, if (s2.part part).tenant = some tenant then s2.loadKeys part tenant else s2)) s

/-- Every core of a partition and every hank applies a function's invalidations (R413). -/
def State.refreshAll (s : State) (part vf : Nat) : State :=
  let s := (s.part part).cores.foldl (fun s c => s.refreshTlb c vf) s
  match s.vf? vf with
  | none => s
  | some v =>
    { s with hanks := s.hanks.map (fun (h : Nat × Hank) =>
        (h.1, { h.2.applyRecs vf (v.since (look h.2.gen vf 0)) with gen := put h.2.gen vf v.gen })) }

/-- A core without translations of functions. -/
def Core.forgetVfs (c : Core) (p : Nat → Bool) : Core :=
  { c.filterTlb (fun e => !p e.vf) with gen := c.gen.filter (fun g => !p g.1) }

/-- A hank without translations of functions. -/
def Hank.forgetVfs (h : Hank) (p : Nat → Bool) : Hank :=
  { h with
    tlb := h.tlb.filter (fun e => !p e.vf)
    walk := h.walk.filter (fun e => !p e.vf)
    s2 := h.s2.filter (fun e => !p e.vf)
    descs := h.descs.filter (fun e => !p e.vf)
    gen := h.gen.filter (fun g => !p g.1) }

/-- Forget every translation of functions. -/
def State.forgetVfs (s : State) (p : Nat → Bool) : State :=
  { s with
    cores := s.cores.map (fun (c : Nat × Core) => (c.1, c.2.forgetVfs p))
    hanks := s.hanks.map (fun (h : Nat × Hank) => (h.1, h.2.forgetVfs p)) }

/-- Forget a function that has been unbound: no translation of it is left anywhere. -/
def State.unbind (s : State) (vf : Nat) : State :=
  match s.vf? vf with
  | none => s
  | some v => ({ s with vfs := del s.vfs vf }.forgetVfs (fun n => n == vf)).settleTenant v.tenant

/-- Lines that L1s hold of chunks that are about to return go home and leave, so that none reaches a chunk that is mapped anew. -/
def State.dropChunkL1 (s : State) (vf : Nat) (chunks : List Nat) : State :=
  s.cores.foldl (fun s c =>
    (c.2.l1.filter (fun l => l.page.vf == vf && !l.page.host && l.page.chunks.any (fun k => chunks.contains k))).foldl (fun s l =>
      (s.writeBackLine c.1 l.key).updCore c.1 (fun x => x.dropLine l.key)) s) s

/-- UNMAP_CHUNK_RETURN (R413): every core of the partition applies the functions' invalidations, and the chunks return; a RESET_VF
that waited for this ends. -/
def State.returnChunks (s : State) (part : Nat) : State :=
  let vfs := ((s.part part).returning.map (fun r => r.1)).eraseDups
  let s := vfs.foldl (fun s v => s.refreshAll part v) s
  let s := (s.part part).returning.foldl (fun s r => s.dropChunkL1 r.1 r.2.2) s
  let s := s.updPart part (fun p => { p with returning := [] })
  vfs.foldl (fun s v => match (s.vf? v).bind (fun x => x.resetTag) with
    | some tag => (s.unbind v).answerPf tag 0 0
    | none => s) s

def execUnmapChunkReturn (part : Nat) (s : State) : Out := .next (s.returnChunks part)

/-- Steps 1 to 5 of R407. -/
def State.resetFunction (s : State) (vf : Nat) (v : Vf) (tag : Nat) : State :=
  let p := ofVf vf
  let s := s.failGroups v.part (fun n => n == vf)
  let s := s.updVf vf (fun v => { v with st := .resetting, mailboxOpen := false, resetTag := some tag })
  let s := s.updPart v.part (fun q => { q with
    braids := q.braids.filter (fun b => b.2.vf != vf)
    bufs := q.bufs.filter (fun b => b.2.vf != vf)
    groups := q.groups.filter (fun g => g.2.vf != vf) })
  let s := s.haltFor p
  let s := s.mapStrands p (fun t => { t with run := .halted, ssq := [], dq := [], issued := none, parked := [] })
  let s := (s.strands.filter p).foldl (fun s t => s.kill t.core t.ctx) s
  let s := { s with
    cores := s.cores.map (fun (c : Nat × Core) => (c.1, { c.2.takeSaved p with l1 := c.2.l1.filter (fun l => l.page.vf != vf) }))
    hanks := s.hanks.map (fun (h : Nat × Hank) => (h.1, { h.2 with rce := h.2.rce.filter (fun q => q.vf != vf) }))
    anchor := { s.anchor with evicted := s.anchor.evicted.filter (fun e => e.vf != vf) } }
  let chunks := (v.segs.map (fun g => g.2.chunks)).flatten
  let s := (s.updVf vf (fun v =>
    { v.invalidate false 0 0 with segs := [], pgq := [], late := [], mailbox := [], s1root := 0, trapVec := 0 })).send (.abort vf)
  s.updPart v.part (fun q =>
    { q with used := q.used.filter (fun c => !chunks.contains c), returning := q.returning ++ [(vf, v.gen + 1, chunks)] })

/-- RESET_VF (R407): it completes when the function's chunks have returned. -/
def execResetVf (tag vf : Nat) (s : State) : Out :=
  pfBegin (.resetVf tag vf)
    (fun s => match s.vf? vf with
      | none => { tag := tag, code := 0x0C, missing := some 0x12 }
      | some v => { tag := tag, code := 0x0C, vfs := [v] })
    (fun s => match s.vf? vf with
      | some v => s.resetFunction vf v tag
      | none => s) s

/-! ## Partitions (R95, R100, R403, R406) -/

/-- No partition holds the coil, or has plies there still to move. -/
def State.coilFree (s : State) (c : Nat) : Bool := !s.parts.any (fun p => p.2.coils.contains c || p.2.parkedCoils.contains c)

/-- No partition holds the channel. -/
def State.chanFree (s : State) (g : Nat) : Bool := !s.parts.any (fun p => p.2.chans.contains g)

/-- The numbers strictly rise. -/
def rising : List Nat → Bool
  | a :: b :: l => decide (a < b) && rising (b :: l)
  | _ => true

/-- A well-formed operand block: distinct coils and channels, in ascending order as masks give them. -/
def goodMasks (coils chans : List Nat) : Bool :=
  coils.all (fun c => decide (c < 128)) && chans.all (fun g => decide (g < 1024)) && rising coils && rising chans

/-- Start scrubbing a channel (R100): its slice and queue are empty, and an access to a bank waits until the ZE has finished with it
(R101; assumption 20). -/
def State.startScrub (s : State) (g : Nat) : State :=
  s.updChan g (fun c => { c with
    scrub := List.range 64
    l2 := c.l2.filter (fun l => decide (userLines ≤ l.off))
    bank := c.bank.filter (fun l => decide (userLines ≤ l.1))
    queue := []
    backoff := [] })

/-- A core newly given to a partition holds nothing (assumption 24). -/
def State.cleanCore (s : State) (c : Nat) : State := ({ s with cores := del s.cores c }).zeroStore c

/-- New number of each allocated chunk when a partition comes to hold `n` chunks: kept where it can be. -/
def renumber (used : List Nat) (n : Nat) : List (Nat × Nat) :=
  used.foldl (fun (m : List (Nat × Nat)) k =>
    if k < n then m ++ [(k, k)]
    else
      let taken := used.filter (fun x => decide (x < n)) ++ m.map (fun x => x.2)
      m ++ [(k, (lowestFree taken (taken.length + 1) 0 1).headD 0)]) []

/-- Re-lay every allocated chunk of a partition under a new interleave. -/
def State.relay (s : State) (part : Nat) (chans : List Nat) : State :=
  let p := s.part part
  let q := { p with chans := chans }
  let m := renumber p.used q.chunkCount
  let s := s.settleLines (p.chunkLines p.used)
  let image := p.used.map (fun k => (k, (p.chunkLines [k]).map s.bankLine))
  let s := (chans.filter (fun g => !p.chans.contains g)).foldl (fun s g => s.startScrub g) s
  let s := s.updPart part (fun p => { p with chans := chans, used := m.map (fun x => x.2) })
  let s := image.foldl (fun s x => s.putLines (q.chunkLines [look m x.1 x.1]) x.2) s
  let f (cs : List Nat) : List Nat := cs.map (fun k => look m k k)
  let mine := (s.vfsOf part).map (fun v => v.1)
  let move (v : Nat × Vf) : Nat × Vf :=
    if v.2.part = part then (v.1, { v.2 with segs := v.2.segs.map (fun g => (g.1, { g.2 with chunks := f g.2.chunks })) }) else v
  { s with vfs := s.vfs.map move }.forgetVfs mine.contains

/-- A partition's channels may not change now: a function is not paused, chunks have still to return, or those allocated would not fit
(R403; assumption 45). -/
def State.chansHeld (s : State) (part : Nat) (chans : List Nat) : Bool :=
  let p := s.part part
  chans != p.chans && ((s.policies part).any (fun v => v.st != .paused) || !p.returning.isEmpty
    || decide (chans.length * 261632 < p.used.length))

/-- Give a partition these coils and channels: a coil that leaves is kept aside while plies or saved contexts of it have to move (R398),
a new coil's cores hold nothing, and a change of channels re-lays what is allocated. -/
def State.endow (s : State) (part : Nat) (coils chans : List Nat) : State :=
  let p := s.part part
  let gone := p.coils.filter (fun c => !coils.contains c)
  let s1 := (gone.filter s.coilEmpty).foldl (fun s c => (coilCores c).foldl State.flushL1 s) s
  let away := (p.parkedCoils ++ gone.filter (fun c => !s.coilEmpty c)).filter (fun c => !coils.contains c)
  let s2 := s1.updPart part (fun p => { p with coils := coils, parkedCoils := away })
  let fresh := coils.filter (fun c => !p.coils.contains c && !p.parkedCoils.contains c)
  let s3 := ((fresh.map coilCores).flatten).foldl (fun s c => s.cleanCore c) s2
  if chans = p.chans then s3 else s3.relay part chans

/-- Keys of the partition's tenant, in the hanks where it now holds something. -/
def State.settleKeys (s : State) (part : Nat) : State :=
  match (s.part part).tenant with
  | some t => s.loadKeys part t
  | none => s

/-- Operands of ASSIGN and RESIZE: coils and channels that are free, but for those that `mine` names, and channels that were trained. -/
def State.grantable (s : State) (p : Part) (coils chans : List Nat) : Bool :=
  goodMasks coils chans && coils.all (fun c => s.coilFree c || p.coils.contains c || p.parkedCoils.contains c)
    && chans.all (fun g => (s.chanFree g || p.chans.contains g) && (s.chan g).trained)

/-- The numbers of two ascending lists, ascending. -/
def merged (a b : List Nat) (n : Nat) : List Nat := (List.range n).filter (fun x => a.contains x || b.contains x)

/-- ASSIGN (R403, R408, R427): the partition holds the coils and channels besides what it held. -/
def execAssign (tag part : Nat) (coils chans : List Nat) (s : State) : Out :=
  pfCommand (.assign tag part coils chans)
    (fun s => { tag := tag, code := 0x02, early := true, missing := if 16 ≤ part then some 0x12 else none, vfs := s.policies part })
    (fun s =>
      let p := s.part part
      let allCoils := merged p.coils coils 128
      let allChans := merged p.chans chans 1024
      if !s.grantable {} coils chans || allCoils.isEmpty || decide (allChans.length < 8) then (0x12, 0, s)
      else if !p.used.isEmpty && s.chansHeld part allChans then (0x13, 0, s)
      else
        let t := s.endow part allCoils allChans
        if t.overloads part then (0x11, 0, s) else (0, 0, t.settleKeys part)) s

/-- RESIZE: the operands are the partition's new coils and channels. -/
def execResize (tag part : Nat) (coils chans : List Nat) (s : State) : Out :=
  pfCommand (.resize tag part coils chans)
    (fun s => { tag := tag, code := 0x08, early := true
                missing := if 16 ≤ part ∨ (s.part part).coils = [] then some 0x12 else none, vfs := s.policies part })
    (fun s =>
      let p := s.part part
      if !s.grantable p coils chans || coils.isEmpty || decide (chans.length < 8) then (0x12, 0, s)
      else if s.chansHeld part chans then (0x13, 0, s)
      else
        let t := s.endow part coils chans
        (0, 0, (t.dropKeys part (p.hanks.filter (fun h => !(t.part part).hanks.contains h))).settleKeys part)) s

/-- A strand of the partition is gone, with its pair. -/
def State.clearStrands (s : State) (part : Nat) : State :=
  let gone (t : Strand) : Bool := t.part == part
  let dead := (s.strands.filter gone).map (fun t => t.pairNo)
  { s with
    me := if s.me.live && gone s.me then {} else s.me
    others := s.others.filter (fun t => !(t.live && gone t))
    pairs := s.pairs.filter (fun q => !dead.contains q.1) }

/-- Steps 1 to 4 of R406, and the start of the scrub. -/
def State.resetPartition (s : State) (part tag : Nat) : State :=
  let p := s.part part
  let vfs := (s.vfsOf part).map (fun v => v.1)
  let s := (s.failGroups part (fun _ => true)).clearStrands part
  let s := p.cores.foldl (fun s c => s.cleanCore c) s
  let s := (p.coils ++ p.parkedCoils).foldl (fun s c => { s with coils := upd s.coils c {} (fun k => { k with fused := false, groups := [] }) }) s
  let s := { s with hanks := s.hanks.map (fun (h : Nat × Hank) => (h.1, { h.2 with rce := h.2.rce.filter (fun q => q.part != part) })) }
  let s := s.forgetVfs vfs.contains
  let s := vfs.foldl (fun s v => (s.updVf v (fun v => { v with
    st := .bound, s1root := 0, segs := [], unmapped := [], dirtied := [], gen := 0, ring := [], pgq := [], late := [], wasReset := true,
    slice := 0 })).send (.abort v)) s
  let s := { s with anchor := { s.anchor with evicted := s.anchor.evicted.filter (fun e => !vfs.contains e.vf) } }
  let s := p.chans.foldl (fun s g => s.startScrub g) (s.dropKeys part p.hanks)
  s.updPart part (fun q => { coils := q.coils, chans := q.chans, parkedCoils := q.parkedCoils, resetTag := some tag })

/-- A partition's reset ends when its channels are scrubbed: it has no tenant, and its coils and channels are free. -/
def State.endReset (s : State) : State :=
  match s.parts.find? (fun p => p.2.resetTag.isSome && p.2.chans.all (fun g => (s.chan g).scrub.isEmpty)) with
  | some (k, p) => ({ s with parts := del s.parts k }).answerPf (p.resetTag.getD 0) 0 0
  | none => s

/-- RESET (R406). -/
def execReset (tag part : Nat) (s : State) : Out :=
  pfBegin (.reset tag part)
    (fun s => { tag := tag, code := 0x09, missing := if 16 ≤ part then some 0x12 else none, vfs := s.policies part })
    (fun s => (s.resetPartition part tag).endReset) s

/-- SCRUB_BANK (R100, R101): the zeroing engine finishes a bank, the requested one whose access came first or else the lowest; reads
that waited for it go on. -/
def execScrubBank (chan : Nat) (s : State) : Out :=
  match (s.chan chan).nextScrub with
  | none => .next s
  | some b => .next { ((s.scrubBank chan b).retryReads chan).endReset with waiting := false }

/-! ## Page replies and queries (R118–R120, R403) -/

/-- The page request a reply names. -/
def Vf.request? (v : Vf) (reqid : Nat) : Option PageReq := v.pgq.find? (fun r => r.id == reqid)

/-- R118's checks of a GRANT, in order: the number of the one that fails. A handle names a chunk for the tenant only while the
partition is that tenant's. -/
def grantCheck (p : Part) (tenant : Nat) (n : Option Nat) (handles : List Nat) : Nat :=
  match n with
  | none => 1
  | some n =>
    if handles.length ≠ n then 2
    else if !decide handles.Nodup then 3
    else if p.tenant ≠ some tenant ∨ handles.any (fun k => decide (p.chunkCount ≤ k) || p.takenList.contains k) = true then 4
    else 0

/-- PAGE_REPLY with a GRANT. A count above the sixteen handle fields of the capsule is malformed rather than R118's check 2
(assumption 75). -/
def execPageReplyGrant (tag vf reqid : Nat) (handles : List Nat) (s : State) : Out :=
  vfCommand (.pageReplyGrant tag vf reqid handles) vf { tag := tag, code := 0x0A, good := decide (handles.length ≤ 16 ∧ reqid < 2 ^ 16) }
    (fun v s =>
      let q := v.request? reqid
      let c := grantCheck (s.part v.part) v.tenant (q.map (fun r => r.nchunk)) handles
      match q with
      | some q => if c = 0 then (0, 0, s.mapSegment vf q.iseg q.lw q.pw handles) else (c, 0, s)
      | none => (1, 0, s)) s

def execPageReplyRefuse (tag vf reqid : Nat) (s : State) : Out :=
  vfCommand (.pageReplyRefuse tag vf reqid) vf { tag := tag, code := 0x0A, good := decide (reqid < 2 ^ 16) }
    (fun v s => match v.request? reqid with
      | some q => (0, 0, s.refuse vf q)
      | none => (1, 0, s)) s

/-- A query at the physical function's mailbox, or at a function's. -/
def query (i : Capsule) (tag : Nat) (vf : Option Nat) (own : State → Served) (s : State) : Out :=
  match vf with
  | some v => vfCommand i v { tag := tag, code := 0x0B } (fun _ s => own s) s
  | none => pfCommand i (fun _ => { tag := tag, code := 0x0B }) own s

def execQueryIdentifier (tag : Nat) (vf : Option Nat) (s : State) : Out :=
  query (.queryIdentifier tag vf) tag vf (fun s => (0, Config.deviceId, s)) s

/-- State code of a function (selector 1). -/
def VfState.code (v : VfState) : Nat :=
  match v with
  | .resident => 1
  | .paused => 2
  | .resetting => 3
  | .bound => 4

/-- What QUERY reports of a function: 0 where there is none, and 3 while it or its partition is reset (R403, R407). -/
def State.vfCode (s : State) (vf : Nat) : Nat :=
  match s.vf? vf with
  | none => 0
  | some v => (if s.partResetting v.part then VfState.resetting else v.st).code

/-- QUERY of a function's state at its mailbox, answered also for an absent function and for one that is being reset. -/
def execQueryVfState (tag vf : Nat) (s : State) : Out :=
  inTurn (some vf) (.queryVfState tag vf) (fun s =>
    let answer (st : Nat) : Option State := some (s.answerVf vf tag st 0)
    if s.anchor.stage = 1 then answer 0x13
    else if 2 ^ 16 ≤ tag then answer 0x10
    else if 192 ≤ vf then answer 0x12
    else if (s.vf? vf).any (fun v => !v.hostOp 0x0B) then answer 0x11
    else some (s.answerVf vf tag 0 (BitVec.ofNat 64 (s.vfCode vf)))) s

def execQueryFreeChunks (tag : Nat) (vf : Option Nat) (part : Nat) (s : State) : Out :=
  let p := match vf with
    | some v => s.vfPart v
    | none => part
  query (.queryFreeChunks tag vf part) tag vf (fun s => if 15 < p then (0x12, 0, s) else (0, BitVec.ofNat 64 (s.part p).freeCount, s)) s

/-! ## SPDM and TDISP (R401) -/

/-- SPDM_MESSAGE: a tenant's session registers its key; functions are bound as TDIs, and IDE streams keyed for those in RUN. -/
def execSpdmMessage (msg : SpdmMsg) (s : State) : Out :=
  .next (if s.anchor.stage = 0 then s else match msg with
    | .authenticate tenant key =>
      if 2 ^ 16 ≤ tenant then s
      else if s.anchor.tenants.any (fun t => t.num == tenant) then s.updTenant tenant (fun t => { t with key := key })
      else { s with anchor := { s.anchor with tenants := s.anchor.tenants ++ [{ num := tenant, key := key }] } }
    | .bindTdi vf => s.updVf vf (fun v => { v with tdiBound := true })
    | .startTdi vf => s.updVf vf (fun v => { v with tdiRun := v.tdiBound })
    | .stopTdi vf => s.updVf vf (fun v => { v with tdiRun := false, ideKeyed := false })
    | .keyIde vf => s.updVf vf (fun v => { v with ideKeyed := v.tdiRun }))

end Sys2Proof.Machine
end

