-- ==== Sys2Proof/Machine/Issue.lean ====
section
/-!
DEFINITION. Dispatch from the dispatch queues (R334, R370): the arbiters of a core's vector unit and VLSU.
-/
namespace Sys2Proof.Machine

/-- The strand's front end is stopped: not running (R386, R391, R395), its ply parked, or its function not resident. -/
def State.stopped (s : State) (t : Strand) : Bool :=
  t.run != .running || s.plyParked t ||
  (match s.vf? t.vf with
   | some v => v.st != .resident
   | none => true)

/-- The instruction goes to the VLSU: the memory instructions (format VM). -/
def toVlsu (i : Instr) : Bool := decide (0xC0 ≤ opOf (encode i))

/-- The token field of an instruction's word. -/
def tokenField (i : Instr) : BitVec 2 := fld (encode i) 0 2

/-- The wait of a queued instruction's token field is over: none is asked for, it was satisfied before, a token is there, or
the FIFO has closed, which the instruction traps (R34, R35). -/
def State.tokenReady (s : State) (t : Strand) (e : DqEntry) : Bool :=
  !(tokenField e.instr).getLsbD 0 || e.tkSat || decide (0 < s.tokens t t.waitF) || s.fifoClosed t t.waitF

/-! ## Past an instruction held in its unit (R116) -/

/-- First rows of the groups of RC rows that an instruction writes, and of those that it reads (Table 1 of R262; R199, R253, R310). -/
def rowGroups (w : Code) : List Nat × List Nat :=
  let o := opOf w
  let d := (fld w 17 5).toNat
  let a := (fld w 12 5).toNat
  let b := (fld w 7 5).toNat
  let v := (fld w 19 5).toNat
  if 0xC0 ≤ o then
    let data := if o = 0xC3 ∨ o = 0xC7 ∨ o = 0xCA ∨ o = 0xCB ∨ o = 0xCD ∨ o = 0xCE then [] else if o = 0xD6 then [v, v + 1] else [v]
    let index := if o = 0xC2 ∨ o = 0xC6 ∨ 0xD0 ≤ o then [(fld w 9 5).toNat] else []
    let writes := (0xC0 ≤ o ∧ o ≤ 0xC2) ∨ o = 0xC8 ∨ o = 0xCC ∨ (0xD0 ≤ o ∧ o ≤ 0xD7) ∨ o = 0xD9
    (if writes then data else [], data ++ index)
  else if o = 0x54 ∨ o = 0x78 then ([d], [d])
  else if o = 0x53 ∨ o = 0x79 then ([], [a])
  else if 0x81 ≤ o ∧ o ≤ 0xBA then
    let writes := !(o == 0x82 || decide (0xA7 ≤ o ∧ o ≤ 0xAF) || decide (0xB0 ≤ o ∧ o ≤ 0xB4) || decide (0xB7 ≤ o ∧ o ≤ 0xB9))
    let reads := !(o == 0x81 || o == 0x83 || o == 0x86 || decide (0xAA ≤ o ∧ o ≤ 0xAF) || o == 0xB8)
    let pair := o == 0x81 || o == 0x89 || o == 0x8E || decide (0x90 ≤ o ∧ o ≤ 0x96) || o == 0x98 || o == 0x99 || o == 0x9F
      || decide (0xA0 ≤ o ∧ o ≤ 0xA2) || decide (0xA4 ≤ o ∧ o ≤ 0xA9) || o == 0xB7
    (if writes then [d] else [], (if writes then [d] else []) ++ (if reads then [a] else []) ++ (if pair && formOf w == 0 then [b] else []))
  else ([], [])

/-- Two lists of groups of `n` rows have a row in common. -/
def groupsMeet (n : Nat) (xs ys : List Nat) : Bool := xs.any (fun x => ys.any (fun y => decide (x < y + n ∧ y < x + n)))

/-- The rows of an instruction and those of a held one: it reads or writes one that the held one writes, or writes one that it reads. -/
def rowsDepend (n : Nat) (w held : Code) : Bool :=
  let x := rowGroups w
  let y := rowGroups held
  groupsMeet n (x.1 ++ x.2) y.1 || groupsMeet n x.1 y.2

/-- The addresses of a vector memory instruction, by its word. -/
def memOpOf (w : Code) : MemOp :=
  let o := opOf w
  { word := w.setWidth 64
    form := if o = 0xC1 ∨ o = 0xC5 then .strided else if o = 0xC2 ∨ o = 0xC6 ∨ 0xD0 ≤ o then .indexed else if o = 0xCC then .tags else .unit
    a := fld w 14 5, b := fld w 9 5, k := fld w 6 3, acc := .read }

/-- The bytes that an element at `va` accesses, first and number: the whole line for VPF, VZERO, VLDTAG, VFLUSH and VINVL. -/
def bytesAt (w : Code) (sewBits va : Nat) : Nat × Nat :=
  let o := opOf w
  if o = 0xCA ∨ o = 0xCB ∨ o = 0xCC ∨ o = 0xCD ∨ o = 0xCE then (va / 128 * 128, 128) else (va, (sewBits + 7) / 8)

/-- A memory instruction of the front-end strand may access a byte of a pending element of a held one (R145, R146). -/
def State.meetsPending (s : State) (e : DqEntry) (p : Parked) : Bool :=
  let w := encode e.instr
  let u := { s with me := s.me.takeUp e }
  let n := u.me.sewBits
  let held := p.pending.map (fun q => bytesAt (encode p.entry.instr) n q.va)
  decide (0xC0 ≤ opOf w) && (u.me.actives (memOpOf w).k).any (fun j =>
    let x := bytesAt w n (u.addrOf (memOpOf w) j)
    held.any (fun h => mayMeet (placeOf u.me.core x.1) x.2 (placeOf u.me.core h.1) (placeOf u.me.core h.1 + h.2)))

/-- The instruction is an acquire or a release, or takes or gives a token or a queue entry: no rollback passes back over those
(R145, R150, R255). -/
def Strand.ordering (t : Strand) (e : DqEntry) : Bool :=
  let o := opOf (encode e.instr)
  t.acquires e || releases e.instr || o == 0x53 || o == 0x54 || o == 0xC3 || o == 0xC7

/-- A vector instruction depends on one that is held (R116): it shares rows with it, is a memory access ordered after a pending
element, or must have its effect after it. So does every one behind an instruction that is to trap (R338), that acquires, whose
VL a trim may still set (R183), whose mask, links or OSC it would take or change, or while VSTART or RSTART is the held one's
(assumption 28). -/
def State.dependsOn (s : State) (e : DqEntry) (p : Parked) : Bool :=
  let t := s.me
  let w := encode e.instr
  let held := encode p.entry.instr
  let o := opOf w
  let h := opOf held
  p.trap.isSome || (match p.entry.done_ with
    | some x => x.fault.isSome
    | none => false)
    || t.ordering e || t.acquires p.entry || t.vstart != 0 || t.rstart != 0
    || (t.rc == 1 && (decide (0xC0 ≤ h ∧ h ≤ 0xC3) || h == 0xC8 || h == 0xCC || h == 0xD9) && fld held 4 2 != 0)
    || h == 0xD8 || (h == 0xD7 && (o == 0xD7 || o == 0xD8)) || (o == 0x87 && (storesVector p.entry.instr || h == 0xC6 || h == 0xDA))
    || rowsDepend t.rc w held || s.meetsPending e p

/-- A queued scalar store that has still to wait lies in the extent of a plain vector memory instruction after it (R387). -/
def Strand.behindStore (t : Strand) (e : DqEntry) : Bool :=
  match t.extent e with
  | none => false
  | some x => t.ssq.any (fun q =>
      let lo := placeOf t.core x.1
      decide (q.older < e.seq) && t.olderThan (q.older + 1) && mayMeet (placeOf t.core q.addr.toNat) q.bytes lo (lo + (x.2 - x.1)))

/-- Instructions in a core's VLSU: those parked, and those under way. -/
def State.inVlsu (s : State) (core : Nat) : Nat :=
  ((s.strands.filter (fun t => t.core == core)).map (fun t =>
    (t.parked.filter (fun p => !p.pending.isEmpty)).length + (if t.issued.any (fun e => toVlsu e.instr) then 1 else 0))).foldl (· + ·) 0

/-- The DQ head may dispatch past the instructions that are held (R116): it depends on none, and the core's VLSU, which holds up to
eight, has room for it. -/
def State.passes (s : State) (t : Strand) (e : DqEntry) : Bool :=
  (!toVlsu e.instr || decide (s.inVlsu t.core < 8))
    && (t.parked.isEmpty || (!t.behindStore e && !t.parked.any (fun p => ({ s with me := t }).dependsOn e p)))

/-- The strand's DQ head can dispatch to the unit. -/
def State.candidate (s : State) (core : Nat) (vlsu : Bool) (t : Strand) : Bool :=
  t.core == core && !s.stopped t && t.issued.isNone && (match t.dq with
    | [] => false
    | e :: _ => toVlsu e.instr == vlsu && s.tokenReady t e && s.passes t e)

/-- The class of a strand: its braid's PRIO. -/
def State.prioOf (s : State) (t : Strand) : Nat :=
  match s.braidOf? t.part t.braid with
  | some b => b.prio
  | none => 0

/-- The order in which a round serves the classes. -/
def classOrder (round : Nat) : List Nat :=
  if round % 16 = 15 then
    let k := round / 16
    [1 + k % 3, 1 + (k + 1) % 3, 1 + (k + 2) % 3, 0]
  else [0, 1, 2, 3]

/-- The round, plus one, in which a strand last issued on a unit; 0 if never. -/
def Strand.lastIssued (t : Strand) (vlsu : Bool) : Nat := if vlsu then t.lastVlsu else t.lastVec

/-- The rounds that a core's unit has held. -/
def Core.round (c : Core) (vlsu : Bool) : Nat := if vlsu then c.vlsuRound else c.vecRound

/-- The least recently issued of some strands, the lower context first among equals. -/
def leastRecent (vlsu : Bool) (ts : List Strand) : Option Strand :=
  let key (t : Strand) : Nat := t.lastIssued vlsu * 8 + t.ctx
  ts.foldl (fun best t => match best with
    | none => some t
    | some b => if key t < key b then some t else some b) none

/-- The strand that a round serves. -/
def State.roundWinner (s : State) (core : Nat) (vlsu : Bool) : Option Strand :=
  let ts := s.strands.filter (s.candidate core vlsu)
  (classOrder ((s.core core).round vlsu)).findSome? (fun k => leastRecent vlsu (ts.filter (fun t => s.prioOf t == k)))

/-- The DQ head of the front-end strand dispatches. Scalar stores before it that may be performed are performed first (R335, R387);
the model does so too before an indexed, atomic or near-memory instruction, to which R145 leaves a store without a FENCE.SV
unordered (assumption 81). -/
def State.dispatchHead (s : State) : State :=
  let s := s.performAll
  match s.me.dq with
  | [] => s
  | e :: rest => { s with waiting := false, me := { s.me with dq := rest }.takeUp e }

/-- The strand has issued in a round of a unit. -/
def Strand.markRound (t : Strand) (vlsu : Bool) (round : Nat) : Strand :=
  if vlsu then { t with lastVlsu := round + 1 } else { t with lastVec := round + 1 }

/-- Hold a round: it is counted, and its winner marked. -/
def State.holdRound (s : State) (core : Nat) (vlsu : Bool) : State :=
  let w := s.roundWinner core vlsu
  let n := (s.core core).round vlsu
  let s := s.updCore core (fun c => if vlsu then { c with vlsuRound := n + 1 } else { c with vecRound := n + 1 })
  match w with
  | some t => s.onStrand core t.ctx (fun s => { s with me := s.me.markRound vlsu n }.dispatchHead)
  | none => s

/-- ISSUE_ROUND. -/
def execIssueRound (core : Nat) (vlsu : Bool) (s : State) : Out := .next (s.holdRound core vlsu)

end Sys2Proof.Machine
end

