-- ==== Sys2Proof/Machine/Rce.lean ====
section
/-!
DEFINITION. The recoding engine of a hank (R239, R240): RCREQ, the rewriting of a segment's lines, and its packing.
-/
namespace Sys2Proof.Machine

/-- RCREQ (R239). -/
def execRcreq (d a b c : BitVec 5) (t : BitVec 2) (s : State) : Out :=
  runOrdered t (fun s =>
    let va := (s.reg a).toNat
    let n := (s.reg b).toNat
    let x := (s.reg c).toNat
    let f := x % 64
    let okPolicy := match s.vf? s.me.vf with
      | some v => v.policy.demFmt.getLsbD f
      | none => false
    if 2 ^ 56 ≤ va then trap00 s causeAccess (s.reg a)
    else if n = 0 ∨ 4096 < n ∨ 2 ^ 15 ≤ x ∨ (s.myCtx.fmt f).isReal = false ∨ okPolicy = false then .done (s.setReg d 0)
    else
      let h := hankOf s.me.core
      let room := 256 - (s.hank h).rce.length
      let k := Nat.min (Nat.min n (2 ^ 38 - va / 2 ^ 18)) room
      let new := (List.range k).map (fun i =>
        { vf := s.me.vf, part := s.me.part, vseg := va / 2 ^ 18 + i, fmt := f, bsc := x / 2 ^ 6 % 256,
          auto := x / 2 ^ 14 % 2 == 1, fmts := s.myCtx.fmts : RceReq })
      .done ((s.updHank h (fun q => { q with rce := q.rce ++ new })).setReg d (BitVec.ofNat 64 k))) s

/-- The format context of a request (R432). -/
def RceReq.ctx (q : RceReq) : FmtCtx := ⟨q.fmts, []⟩

/-- The stage-1 leaf of an address and its level, whatever the leaf permits, from a table of a level on, by a walk of the hank (R110,
R112, R423), with what its reads leave; none where a table cannot be read or maps nothing. -/
def State.leafFrom (s : State) (hank : Nat) (q : RceReq) (va : Nat) : Nat → Nat → Option (Nat × Nat) × State
  | 0, _ => (none, s)
  | n + 1, ia =>
    let a := ia + 8 * s1Index va n
    match s.s2Find hank q.vf (a / 2 ^ 18) with
    | (none, s) => (none, s)
    | (some g, s) =>
      if !g.rd then (none, s)
      else
        let s := s.updHank hank (fun h => { h with refs := h.refs + 1 })
        let x := s.readHome (.page (g.homeEntry q.vf (a / 2 ^ 18)) (a % 2 ^ 18 / 128)) {}
        let e := if classOf x.2.1 = 0 then x.1.toNat / 2 ^ (8 * (a % 128)) % 2 ^ 64 else 0
        if !bit e 0 || malformed q.ctx e n then (none, x.2.2)
        else if bit e 1 then (some (e, n), x.2.2)
        else
          let next := e / 2 ^ 20 % 2 ^ 43 * 2 ^ 9
          (x.2.2.holdTable hank q.vf va n next).leafFrom hank q va n next

/-- The intermediate segment of a request, and its leaf's DEM, with what the walk leaves; none when stage 1 does not map it. -/
def State.rceLeaf (s : State) (hank : Nat) (q : RceReq) : Option (Nat × Nat) × State :=
  let va := q.vseg * 2 ^ 18
  let st := s.walkStart hank q.vf va
  let x := s.leafFrom hank q va st.1 st.2
  (x.1.map (fun y => ((y.1 / 2 ^ 20 % 2 ^ 34 * 2 ^ 18 + va % pageSize y.2) / 2 ^ 18, y.1 / 2 ^ 9 % 4)), x.2)

/-- PW′ of R240. -/
def RceReq.newPw (q : RceReq) (lw : Nat) : Nat := Nat.max ((q.ctx.fmt q.fmt).container lw) (lw / 8)

/-- A page line of a segment at its home. -/
def State.rceLoc (s : State) (vf iseg j : Nat) : LineLoc := .page (s.homeEntry vf iseg) j

/-- Page lines j + 0 .. j + n − 1 as the engine reads them, with what the reads leave. -/
def State.rceRead (s : State) (vf iseg j n : Nat) : List (Line × Tag) × State :=
  (List.range n).foldl (fun x i =>
    let h := x.2.readHome (x.2.rceLoc vf iseg (j + i)) {}
    (x.1 ++ [(h.1, h.2.1)], h.2.2)) (([] : List (Line × Tag)), s)

/-- The segment may be recoded: BACKGROUND, PW′ below PW, and its VALID lines floating or fixed-point. -/
def State.rceWanted (s : State) (q : RceReq) (iseg dem : Nat) (g : Seg) : Bool × State :=
  if dem = 2 ∧ q.newPw g.lw < g.pw then
    let x := s.rceRead q.vf iseg 0 2048
    (x.1.all (fun y => classOf y.2 != 0 || (q.ctx.fmt (fmtOf y.2)).isReal), x.2)
  else (false, s)

/-- The head request of a hank's engine changed, or removed. -/
def State.rceHead (s : State) (hank : Nat) (f : RceReq → Option RceReq) : State :=
  s.updHank hank (fun h => { h with rce := match h.rce with
    | [] => []
    | q :: rest => match f q with
      | some r => r :: rest
      | none => rest })

/-- Codes of a page line at layout width. -/
def lineCodes (d : Line) (lw : Nat) : List Nat := (List.range (1024 / lw)).map (fun i => d.toNat / 2 ^ (lw * i) % 2 ^ lw)

/-- A page line from its codes. -/
def codesLine (lw : Nat) (cs : List Nat) : Line := BitVec.ofNat 1024 (cs.foldr (fun c acc => c % 2 ^ lw + 2 ^ lw * acc) 0)

/-- The values of a line that AUTO ranges over. -/
def RceReq.values (q : RceReq) (lw : Nat) (d : Line) (t : Tag) : List Num :=
  let f := q.ctx.fmt (fmtOf t)
  if classOf t = 0 ∧ f.isReal = true then (lineCodes d lw).map (elemValue f (bscOf t)) else []

/-- A line as phase 1 rewrites it; none when it stays. -/
def RceReq.recode (q : RceReq) (lw bsc : Nat) (d : Line) (t : Tag) : Option (Line × Tag) :=
  let f := q.ctx.fmt (fmtOf t)
  let g := q.ctx.fmt q.fmt
  let b := if g.scaled then bsc else 127
  match classOf t with
  | 0 =>
    if f.isReal then
      some (codesLine lw ((lineCodes d lw).map (fun c => (roundTo g b ⟨0, 0, true⟩ (elemValue f (bscOf t) c)).1)),
        mkTag q.fmt b 0 true)
    else none
  | 1 => some (0, t)
  | 4 => some (0, withClass t 1)
  | _ => some (codesLine lw ((lineCodes d lw).map (fun c => c % 2 ^ g.container lw)), t)

/-- Rewrite the request's next page line; with it those of its machine line, which share its FMT and BSC (assumption 16). -/
def State.rceRewrite (s : State) (hank : Nat) (q : RceReq) (iseg : Nat) (g : Seg) : State :=
  let m := packing g.lw g.pw
  let m' := g.lw / q.newPw g.lw
  let j := q.next
  let choose := q.auto && j % m' == 0
  let r := s.rceRead q.vf iseg j (if choose then m' else m)
  let bsc :=
    if !q.auto then q.bsc
    else if choose then autoBsc (q.ctx.fmt q.fmt) ((r.1.map (fun x => q.values g.lw x.1 x.2)).flatten)
    else q.bscNow
  let s := ((r.1.take m).zipIdx).foldl (fun s x => match q.recode g.lw bsc x.1.1 x.1.2 with
    | some y => s.applyHome (s.rceLoc q.vf iseg (j + x.2)) { data := y.1, mask := fullMask, tag := y.2, typed := true, width := 0, keepDem := true } none {}
    | none => s) r.2
  s.rceHead hank (fun q => some { q with next := j + m, bscNow := bsc })

/-- The segment that the head request recodes, with what its checks leave; none where it is skipped. -/
def State.rceTarget (s : State) (hank : Nat) (q : RceReq) : Option (Nat × Seg) × State :=
  match q.iseg with
  | some i => ((s.seg? q.vf i).map (fun g => (i, g)), s)
  | none => match s.rceLeaf hank q with
    | (none, s) => (none, s)
    | (some (i, dem), s) => match s.seg? q.vf i with
      | none => (none, s)
      | some g =>
        if g.host then (none, s)
        else
          let x := s.rceWanted q i dem g
          (if x.1 then some (i, g) else none, x.2)

/-- RCE_LINE_RECODE: the head request begins, is skipped, or goes on with its next line. -/
def State.rceLine (s : State) (hank : Nat) : State :=
  match (s.hank hank).rce with
  | [] => s
  | q :: _ =>
    if q.ended then s.rceHead hank (fun _ => none)
    else
      let x := s.rceTarget hank q
      match x.1 with
      | none => x.2.rceHead hank (fun _ => none)
      | some (iseg, g) =>
        let s := x.2.rceHead hank (fun q => some { q with iseg := some iseg })
        if q.next < 2048 then s.rceRewrite hank q iseg g else s

def execRceLineRecode (hank : Nat) (s : State) : Out := .next (s.rceLine hank)

/-! ## Phase 2 -/

/-- The lines of a machine line fit at PW′ (R240): none is UNINIT, and the VALID ones agree. -/
def packFits (c : FmtCtx) (lw pw : Nat) (group : List (Line × Tag)) : Bool :=
  let valid := group.filter (fun x => classOf x.2 == 0)
  group.all (fun x => classOf x.2 != 4) && valid.all (fun x => decide ((c.fmt (fmtOf x.2)).container lw ≤ pw)
    && valid.all (fun y => fmtOf x.2 == fmtOf y.2 && bscOf x.2 == bscOf y.2))

/-- Tag word of a machine line packed from page lines: the format of its VALID ones, else of its first, and the OR of their DEM bits
(R49; assumption 75). -/
def packWord (group : List (Line × Tag)) : Tag :=
  let base := match group.find? (fun x => classOf x.2 == 0) with
    | some x => x.2
    | none => (group.headD (0, zeroTag)).2
  packedWord (fmtOf base) (bscOf base) (group.any (fun x => (classOf x.2 == 0 || classOf base != 0) && demOf x.2))
    (group.map (fun x => if classOf x.2 = 4 then 1 else classOf x.2))

/-- Payload of a machine line packed from page lines. -/
def packPayload (lw pw : Nat) (group : List (Line × Tag)) : Line :=
  let bits := 1024 / lw * pw
  BitVec.ofNat 1024 ((group.zipIdx).foldl (fun acc x => acc + squeeze (1024 / lw) pw lw x.1.1.toNat * 2 ^ (bits * x.2)) 0)

/-- The m′ lines of machine line k. -/
def packGroup (lines : List (Line × Tag)) (m k : Nat) : List (Line × Tag) := (lines.drop (m * k)).take m

/-- RCE_PACK: the head request's segment, all of whose lines have been rewritten, is packed if every line fits. -/
def State.rcePack (s : State) (hank : Nat) : State :=
  match (s.hank hank).rce with
  | [] => s
  | q :: _ =>
    match q.iseg with
    | none => s
    | some iseg =>
      if q.ended ∨ q.next < 2048 then s
      else
        let done (s : State) : State := s.rceHead hank (fun _ => none)
        match s.seg? q.vf iseg with
        | none => done s
        | some g =>
          let pw := q.newPw g.lw
          let m := g.lw / pw
          let r := s.rceRead q.vf iseg 0 2048
          let lines := r.1
          let s := r.2
          if (List.range (2048 / m)).all (fun k => packFits q.ctx g.lw pw (packGroup lines m k)) then
            let part := s.vfPart q.vf
            let keep := g.chunks.take (16 / m)
            let s := (List.range (2048 / m)).foldl (fun s k =>
              let a := (s.part part).chunkLine keep k
              let grp := packGroup lines m k
              (s.reach false a {}).writeLine false a (packPayload g.lw pw grp) (packWord grp)) s
            let back := g.chunks.drop (16 / m)
            let s := s.updSeg q.vf iseg (fun g => { g with pw := pw, chunks := keep })
            done (s.updPart part (fun p => { p with used := p.used.filter (fun c => !back.contains c) }))
          else done s

def execRcePack (hank : Nat) (s : State) : Out := .next (s.rcePack hank)

end Sys2Proof.Machine
end

