-- ==== Sys2Proof/Machine/Scalar.lean ====
section
/-!
DEFINITION. Scalar integer and bit instructions (R340–R342), LIMM (R31) and NOP (R35).
-/
namespace Sys2Proof.Machine

/-- NOP: a pure token wait, signal or both (R35). -/
def execNop (t : BitVec 2) (s : State) : Out := runAhead t (fun s => .done s) s

/-- LIMM: its 24 bits extend the immediate of the instruction executed next in sequence (R31, R33). -/
def execLimm (imm : BitVec 24) (s : State) : Out :=
  let p := s.me.succ
  .next { s with
    waiting := false
    me := { s.me with limm := some (imm, s.me.pc), pc := p.1, fellOff := p.2, atVec := false } }

/-- The range of 64-bit results: NAT64 with U, else INT64 (R340). -/
def clamp64 (u : Bool) (i : Int) : Word × Nat :=
  let lo : Int := if u then 0 else -(2 ^ 63 : Nat)
  let hi : Int := if u then (2 ^ 64 : Nat) - 1 else (2 ^ 63 : Nat) - 1
  if i < lo then (BitVec.ofInt 64 lo, flagSAT) else if hi < i then (BitVec.ofInt 64 hi, flagSAT) else (BitVec.ofInt 64 i, 0)

/-- The integer that a register holds: signed, or unsigned with U. -/
def wordInt (u : BitVec 1) (x : Word) : Int := if u = 1 then (x.toNat : Int) else x.toInt

/-- ADD, SUB, MUL: wrap modulo 2^64, or clamp under .SAT and set FCSR.SAT (R340). -/
def arith (op : Int → Int → Int) (d a b : BitVec 5) (u : BitVec 1) (m t : BitVec 2) (s : State) : Out :=
  runAhead t (fun s =>
    let x := op (wordInt u (s.reg a)) (wordInt u (s.reg b))
    if m = 1 then
      let r := clamp64 (u == 1) x
      .done ((s.raise r.2).setReg d r.1)
    else .done (s.setReg d (BitVec.ofInt 64 x))) s

def execAdd (d a b : BitVec 5) (u : BitVec 1) (m t : BitVec 2) (s : State) : Out := arith (· + ·) d a b u m t s

def execSub (d a b : BitVec 5) (u : BitVec 1) (m t : BitVec 2) (s : State) : Out := arith (· - ·) d a b u m t s

def execMul (d a b : BitVec 5) (u : BitVec 1) (m t : BitVec 2) (s : State) : Out := arith (· * ·) d a b u m t s

/-- Bits [127:64] of the product (R340). -/
def execMulh (d a b : BitVec 5) (u : BitVec 1) (t : BitVec 2) (s : State) : Out :=
  runReg t d (fun s => BitVec.ofInt 64 (wordInt u (s.reg a) * wordInt u (s.reg b) / (2 ^ 64 : Nat))) s

/-- Quotient truncated toward zero; by zero, all ones and FCSR.IDZ (R340). −2^63 by −1 wraps to −2^63. -/
def execDiv (d a b : BitVec 5) (u : BitVec 1) (t : BitVec 2) (s : State) : Out :=
  runAhead t (fun s =>
    if s.reg b = 0 then .done ((s.raise flagIDZ).setReg d (BitVec.allOnes 64))
    else .done (s.setReg d (BitVec.ofInt 64 (Int.tdiv (wordInt u (s.reg a)) (wordInt u (s.reg b)))))) s

/-- Remainder with the dividend's sign; by zero, the dividend and FCSR.IDZ (R340). -/
def execRem (d a b : BitVec 5) (u : BitVec 1) (t : BitVec 2) (s : State) : Out :=
  runAhead t (fun s =>
    if s.reg b = 0 then
      let v := s.reg a
      .done ((s.raise flagIDZ).setReg d v)
    else .done (s.setReg d (BitVec.ofInt 64 (Int.tmod (wordInt u (s.reg a)) (wordInt u (s.reg b)))))) s

/-- AND (R340). -/
def execAnd (d a b : BitVec 5) (t : BitVec 2) (s : State) : Out :=
  runReg t d (fun s => s.reg a &&& s.reg b) s

/-- OR (R340). -/
def execOr (d a b : BitVec 5) (t : BitVec 2) (s : State) : Out :=
  runReg t d (fun s => s.reg a ||| s.reg b) s

/-- XOR (R340). -/
def execXor (d a b : BitVec 5) (t : BitVec 2) (s : State) : Out :=
  runReg t d (fun s => s.reg a ^^^ s.reg b) s

/-- Shift left by s[sb][5:0] (R340). -/
def execShl (d a b : BitVec 5) (t : BitVec 2) (s : State) : Out :=
  runReg t d (fun s => s.reg a <<< ((s.reg b).toNat % 64)) s

/-- Shift right, zero fill (R340). -/
def execShr (d a b : BitVec 5) (t : BitVec 2) (s : State) : Out :=
  runReg t d (fun s => s.reg a >>> ((s.reg b).toNat % 64)) s

/-- Shift right, sign fill (R340). -/
def execSra (d a b : BitVec 5) (t : BitVec 2) (s : State) : Out :=
  runReg t d (fun s => (s.reg a).sshiftRight ((s.reg b).toNat % 64)) s

/-- The smaller (R340). -/
def execMin (d a b : BitVec 5) (u : BitVec 1) (t : BitVec 2) (s : State) : Out :=
  runReg t d (fun s => if wordInt u (s.reg b) < wordInt u (s.reg a) then s.reg b else s.reg a) s

/-- The larger (R340). -/
def execMax (d a b : BitVec 5) (u : BitVec 1) (t : BitVec 2) (s : State) : Out :=
  runReg t d (fun s => if wordInt u (s.reg a) < wordInt u (s.reg b) then s.reg b else s.reg a) s

/-- 1 if s[sa] < s[sb], else 0 (R340). -/
def execSlt (d a b : BitVec 5) (u : BitVec 1) (t : BitVec 2) (s : State) : Out :=
  runReg t d (fun s => if wordInt u (s.reg a) < wordInt u (s.reg b) then 1 else 0) s

/-- s[sa] + imm, wrapping (R341). -/
def execAddi (d a : BitVec 5) (imm : BitVec 12) (t : BitVec 2) (s : State) : Out :=
  runReg t d (fun s => s.reg a + s.immSI imm) s

/-- R341. -/
def execAndi (d a : BitVec 5) (imm : BitVec 12) (t : BitVec 2) (s : State) : Out :=
  runReg t d (fun s => s.reg a &&& s.immSI imm) s

/-- R341. -/
def execOri (d a : BitVec 5) (imm : BitVec 12) (t : BitVec 2) (s : State) : Out :=
  runReg t d (fun s => s.reg a ||| s.immSI imm) s

/-- R341. -/
def execXori (d a : BitVec 5) (imm : BitVec 12) (t : BitVec 2) (s : State) : Out :=
  runReg t d (fun s => s.reg a ^^^ s.immSI imm) s

/-- Shift left by imm[5:0] (R341). -/
def execShli (d a : BitVec 5) (imm : BitVec 12) (t : BitVec 2) (s : State) : Out :=
  runReg t d (fun s => s.reg a <<< ((s.immSI imm).toNat % 64)) s

/-- R341. -/
def execShri (d a : BitVec 5) (imm : BitVec 12) (t : BitVec 2) (s : State) : Out :=
  runReg t d (fun s => s.reg a >>> ((s.immSI imm).toNat % 64)) s

/-- R341. -/
def execSrai (d a : BitVec 5) (imm : BitVec 12) (t : BitVec 2) (s : State) : Out :=
  runReg t d (fun s => (s.reg a).sshiftRight ((s.immSI imm).toNat % 64)) s

/-- 1 if s[sa] < imm, signed (R341). -/
def execSlti (d a : BitVec 5) (imm : BitVec 12) (t : BitVec 2) (s : State) : Out :=
  runReg t d (fun s => if (s.reg a).toInt < (s.immSI imm).toInt then 1 else 0) s

/-- (s[sa] shifted left by 12) OR imm12 zero-extended (R341). -/
def execMovhi (d a : BitVec 5) (imm : BitVec 12) (t : BitVec 2) (s : State) : Out :=
  runReg t d (fun s => (s.reg a <<< 12) ||| imm.setWidth 64) s

/-- Leading zero bits of the low `n` bits of `x`. -/
def leadingZeros : Nat → Nat → Nat
  | 0, _ => 0
  | n + 1, x => if x / 2 ^ n % 2 = 1 then 0 else 1 + leadingZeros n x

/-- Trailing zero bits, at most `n`. -/
def trailingZeros : Nat → Nat → Nat
  | 0, _ => 0
  | n + 1, x => if x % 2 = 1 then 0 else 1 + trailingZeros n (x / 2)

/-- Set bits among the low `n`. -/
def bitCount : Nat → Nat → Nat
  | 0, _ => 0
  | n + 1, x => x % 2 + bitCount n (x / 2)

/-- Leading zero bits; 64 for zero (R342). -/
def execClz (d a : BitVec 5) (t : BitVec 2) (s : State) : Out :=
  runReg t d (fun s => BitVec.ofNat 64 (leadingZeros 64 (s.reg a).toNat)) s

/-- Trailing zero bits; 64 for zero (R342). -/
def execCtz (d a : BitVec 5) (t : BitVec 2) (s : State) : Out :=
  runReg t d (fun s => BitVec.ofNat 64 (trailingZeros 64 (s.reg a).toNat)) s

/-- Set bits (R342). -/
def execPopc (d a : BitVec 5) (t : BitVec 2) (s : State) : Out :=
  runReg t d (fun s => BitVec.ofNat 64 (bitCount 64 (s.reg a).toNat)) s

/-- Position and width of a bit field: s[sb][5:0] and min(s[sc], 64 − p) (R342). -/
def fieldOf (b c : Word) : Nat × Nat := (b.toNat % 64, Nat.min c.toNat (64 - b.toNat % 64))

/-- Extract a bit field, zero-extended (R342). -/
def execBfx (d a b c : BitVec 5) (t : BitVec 2) (s : State) : Out :=
  runReg t d (fun s =>
    let f := fieldOf (s.reg b) (s.reg c)
    BitVec.ofNat 64 ((s.reg a).toNat / 2 ^ f.1 % 2 ^ f.2)) s

/-- Insert a bit field; the other bits of s[sd] are unchanged (R342). -/
def execBfi (d a b c : BitVec 5) (t : BitVec 2) (s : State) : Out :=
  runReg t d (fun s =>
    let f := fieldOf (s.reg b) (s.reg c)
    let k := BitVec.ofNat 64 ((2 ^ f.2 - 1) * 2 ^ f.1)
    (s.reg d &&& ~~~k) ||| ((s.reg a <<< f.1) &&& k)) s

/-- s[sb] if s[sa] is not zero, else s[sc] (R342). -/
def execSel (d a b c : BitVec 5) (t : BitVec 2) (s : State) : Out :=
  runReg t d (fun s => if s.reg a ≠ 0 then s.reg b else s.reg c) s

/-- Sign-extend the low 8, 16 or 32 bits (R342). -/
def execSext (d a : BitVec 5) (w t : BitVec 2) (s : State) : Out :=
  runReg t d (fun s => BitVec.ofInt 64 (signedOf (8 * 2 ^ w.toNat) (s.reg a).toNat)) s

end Sys2Proof.Machine
end

