-- ==== Sys2Proof/Machine/ScalarFloat.lean ====
section
/-!
DEFINITION. Scalar floating-point instructions (R343, R344).
-/
namespace Sys2Proof.Machine

/-- FFMT: FP64, FP32, FP16, BF16 (R343). -/
def ffmt (f : BitVec 2) : Fmt := fixedFmt (f.toNat + 1)

/-- Rounding selection of MOD: RNE, RNE with the saturate column, RTZ, DICE with row 0 and element 0 (R343). -/
def State.scalarRounding (s : State) (m : BitVec 2) : Rounding :=
  match m.toNat with
  | 0 => ⟨0, 0, false⟩
  | 1 => ⟨0, 0, true⟩
  | 2 => ⟨1, 0, false⟩
  | _ => ⟨5, diceBits s.me.diceSeed.toNat 0 0, false⟩

/-- The value in the low bits of a register; the upper bits are ignored (R343). -/
def State.fval (s : State) (f : Fmt) (r : BitVec 5) : Num := f.decode ((s.reg r).toNat % 2 ^ f.width)

/-- Write a result and its flags, or trap FP_EXCEPTION at (0, 0) with sd not written when a flag is enabled (R75). -/
def floatResult (d : BitVec 5) (code fl : Nat) (s : State) : Eff :=
  let x := trapFlags s.me.fcsr fl
  if x ≠ 0 then .trap s { cause := causeFp, val := BitVec.ofNat 64 x, isElem := true }
  else .done ((s.raise fl).setReg d (BitVec.ofNat 64 code))

/-- One operation rounded once to FFMT. -/
def floatOp (op : State → Nat → Num × Nat) (d : BitVec 5) (f m t : BitVec 2) (s : State) : Out :=
  runAhead t (fun s =>
    let r := s.scalarRounding m
    let v := op s r.rm
    let c := roundTo (ffmt f) 127 r v.1
    floatResult d c.1 (v.2 ||| c.2) s) s

def execSfadd (d a b : BitVec 5) (f m t : BitVec 2) (s : State) : Out :=
  floatOp (fun s rm => (s.fval (ffmt f) a).add rm (s.fval (ffmt f) b)) d f m t s

def execSfsub (d a b : BitVec 5) (f m t : BitVec 2) (s : State) : Out :=
  floatOp (fun s rm => (s.fval (ffmt f) a).sub rm (s.fval (ffmt f) b)) d f m t s

def execSfmul (d a b : BitVec 5) (f m t : BitVec 2) (s : State) : Out :=
  floatOp (fun s _ => (s.fval (ffmt f) a).mul (s.fval (ffmt f) b)) d f m t s

def execSfdiv (d a b : BitVec 5) (f m t : BitVec 2) (s : State) : Out :=
  floatOp (fun s _ => (s.fval (ffmt f) a).div (s.fval (ffmt f) b)) d f m t s

/-- s[sa]·s[sb] + s[sd], one rounding (R343). -/
def execSfma (d a b : BitVec 5) (f m t : BitVec 2) (s : State) : Out :=
  floatOp (fun s rm => (s.fval (ffmt f) a).fma rm (s.fval (ffmt f) b) (s.fval (ffmt f) d)) d f m t s

def execSfsqrt (d a : BitVec 5) (f m t : BitVec 2) (s : State) : Out :=
  floatOp (fun s _ => (s.fval (ffmt f) a).sqrt) d f m t s

def floatMinMax (max : Bool) (d a b : BitVec 5) (f t : BitVec 2) (s : State) : Out :=
  runAhead t (fun s =>
    let v := Num.minmax max (s.fval (ffmt f) a) (s.fval (ffmt f) b)
    floatResult d (roundTo (ffmt f) 127 ⟨0, 0, false⟩ v.1).1 v.2 s) s

def execSfmin (d a b : BitVec 5) (f t : BitVec 2) (s : State) : Out := floatMinMax false d a b f t s

def execSfmax (d a b : BitVec 5) (f t : BitVec 2) (s : State) : Out := floatMinMax true d a b f t s

def execSfcmp (d a b : BitVec 5) (r f t : BitVec 2) (s : State) : Out :=
  runAhead t (fun s =>
    let c := relation r.toNat (s.fval (ffmt f) a) (s.fval (ffmt f) b)
    floatResult d c.1.toNat c.2 s) s

/-- Conversions of Table 6 of R344: codes 0–3 FFMT to FP64, FP32, FP16, BF16; 4 and 5 to INT64 and NAT64; 6 and 7 from
them. -/
def execSfcvt (d a v : BitVec 5) (f m t : BitVec 2) (s : State) : Out :=
  runAhead t (fun s =>
    let g := ffmt f
    let r := s.scalarRounding m
    let src := s.fval g a
    let sig := match src with
      | .nan true => flagNV
      | _ => 0
    let c : Nat × Nat :=
      match v.toNat with
      | 4 => toIntSat (fixedFmt 11) r src
      | 5 => toIntSat (fixedFmt 17) r src
      | 6 => roundTo g 127 r (.ofInt (s.reg a).toInt)
      | 7 => roundTo g 127 r (.ofInt (s.reg a).toNat)
      | k =>
        let x := roundTo (fixedFmt (k + 1)) 127 r src
        (x.1, x.2 ||| sig)
    floatResult d c.1 c.2 s) s

/-- Bits 0–9 of Table 5 of R280 (R343). -/
def execSfclass (d a : BitVec 5) (f t : BitVec 2) (s : State) : Out :=
  runReg t d (fun s => BitVec.ofNat 64 (classBits (ffmt f) (s.fval (ffmt f) a) ((s.reg a).toNat % 2 ^ (ffmt f).width))) s

end Sys2Proof.Machine
end

