-- ==== Sys2Proof/Machine/Startup.lean ====
section
/-!
DEFINITION. Staged start (R425–R427), thermal protection (R428), rails (R429), and the sensor sweep with its forecasts and
the throttle by attribution (R409, R431).
-/
namespace Sys2Proof.Machine

/-- Report an event of the device to the Anchor; numbers from 0x80 on are the model's names for reports that are no log events
(assumption 26): 0x80 channel that failed training, 0x81 port, 0x82 throttle entry, 0x83 throttle exit, 0x84 shutdown. -/
def State.tell (s : State) (event detail : Nat) : State :=
  { s with anchor := { s.anchor with reports := ⟨0, event, 0xFF, 0, 0, BitVec.ofNat 64 detail⟩ :: s.anchor.reports } }

/-! ## Stages (R425) -/

/-- POWER_GOOD: every part of the device starts anew; host memory and the non-volatile log stay. -/
def State.powerUp (s : State) : State :=
  { State.reset with
    mem := s.mem.filter (fun c => decide (2 ^ 47 ≤ c.1))
    anchor := { stage := 1, nvLog := s.anchor.nvLog }
    agenda := s.agenda
    freeCtr := s.freeCtr }

def execPowerGood (s : State) : Out :=
  .next (if s.anchor.stage = 0 ∨ s.anchor.powered = false then s.powerUp else s)

/-- STAGE0_COMPLETE. -/
def execStage0Complete (s : State) : Out :=
  .next (if s.anchor.stage = 1 then { s with anchor := { s.anchor with stage := 2 } } else s)

/-- A channel whose banks have all been scrubbed (R100): nothing of its user lines is cached or waited for, and no row counts. -/
def Channel.scrubbedAll (c : Channel) : Channel :=
  { c with
    l2 := c.l2.filter (fun l => decide (userLines ≤ l.off))
    bank := c.bank.filter (fun l => decide (userLines ≤ l.1))
    act := []
    openRow := []
    backoff := []
    scrub := []
    queue := [] }

/-- Every channel has been scrubbed. -/
def State.scrubDevice (s : State) : State :=
  { s with
    chans := s.chans.map (fun (c : Nat × Channel) => (c.1, c.2.scrubbedAll))
    mem := s.mem.filter (fun c => !decide (c.1 < 2 ^ 42 ∧ c.1 / 128 % 2 ^ 25 < userLines))
    tags := s.tags.filter (fun t => !decide (t.1 < 2 ^ 35 ∧ t.1 % 2 ^ 25 < userLines)) }

/-- STAGE1_COMPLETE: hanks are up with their cycle counters at 0, every channel is scrubbed, and those that failed their training, which
are named, stay down; the hops of the device accept packed lines, references and tags (R322; assumption 27). Management firmware sets
the threshold of the activation counters, from 512 to 8,192 (R98): a free choice. -/
def State.endStage1 (s : State) (bad : List Nat) : State :=
  let s := (bad.filter (fun g => decide (g < 1024))).foldl (fun s g => (s.updChan g (fun c => { c with trained := false })).tell 0x80 g)
    s.scrubDevice
  let x := s.pick 7681
  let s := x.2
  { s with
    hanks := s.hanks.map (fun (h : Nat × Hank) => (h.1, { h.2 with cycle := 0 }))
    anchor := { s.anchor with stage := 3, actThreshold := 512 + x.1, pkcap := put s.anchor.pkcap 18 7 } }

def execStage1Complete (badChans : List Nat) (s : State) : Out :=
  .next (if s.anchor.stage = 2 then s.endStage1 badChans else s)

/-- Train scale-up port p: PKCAP is what its neighbour advertises, a free choice. -/
def State.trainPort (s : State) (bad : List Nat) (p : Nat) : State :=
  let x := s.pick 8
  let s := x.2
  let ok := !bad.contains p
  let s := { s with
    ports := put s.ports p { up := ok }
    anchor := { s.anchor with pkcap := put s.anchor.pkcap p (BitVec.ofNat 32 x.1) } }
  if ok then s else s.tell 0x81 p

/-- STAGE2_COMPLETE: ports that fail stay out of the live set, and every mirror is cleared. -/
def execStage2Complete (badPorts : List Nat) (s : State) : Out :=
  .next (if s.anchor.stage = 3 then
      let s := (List.range 18).foldl (fun s p => s.trainPort badPorts p) s
      { s with mirrors := [], sentMirrors := [], anchor := { s.anchor with stage := 4 } }
    else s)

/-! ## Temperatures (R428) -/

/-- A hank's throttle after its sensor `n` has measured a temperature: on at 105 °C, off once every sensor that has measured one reads
below 100 °C. -/
def Hank.throttle (h : Hank) (n milliC : Nat) : Hank :=
  let t := put h.temps n milliC
  { h with
    temps := t
    throttled := decide (105000 ≤ milliC) || (h.throttled && t.any (fun x => decide (100000 ≤ x.2))) }

/-- MEASURED_TEMPERATURE, in thousandths of a degree. -/
def State.measured (s : State) (sensor : Sensor) (milliC : Nat) : State :=
  if 115000 ≤ milliC then
    let s := s.tell 0x84 milliC
    { s with anchor := { s.anchor with nvLog := s.anchor.nvLog ++ [milliC], powered := false } }
  else match sensor with
    | .hank h n =>
      if 8 ≤ h then s
      else
        let old := s.hank h
        let new := old.throttle n milliC
        let s := s.updHank h (fun _ => new)
        if new.throttled = old.throttled then s else s.tell (if new.throttled then 0x82 else 0x83) h
    | _ => s

def execMeasuredTemperature (sensor : Sensor) (milliC : Nat) (s : State) : Out :=
  .next (if s.anchor.stage = 0 then s else s.measured sensor milliC)

/-! ## The sensor sweep (R409, R429, R431) -/

/-- TFCAST of a coil from its forecasts: OVER above 95 °C. -/
def Coil.forecast (c : Coil) (f : CoilForecast) (sweep : Nat) : Coil :=
  let t := if f.logic.toNat < f.cache.toNat then f.cache else f.logic
  { c with temp := t, overLimit := decide (95 * 16 < t.toNat), sweep := BitVec.ofNat 32 sweep }

/-- The forecasts of a sweep are written, for every coil and stack. -/
def State.writeForecasts (s : State) (r : SweepReport) : State :=
  let n := s.anchor.sweeps + 1
  let s := { s with anchor := { s.anchor with sweeps := n, stackPeaks := r.stackPeaks } }
  (List.range 128).foldl (fun s c => { s with coils := upd s.coils c {} (fun k => k.forecast (r.coils[c]?.getD {}) n) }) s

/-- Partition that holds a coil. -/
def State.ownerOf (s : State) (coil : Nat) : Option Nat := (s.parts.find? (fun p => p.2.coils.contains coil)).map (fun p => p.1)

/-- Partition that owns a cache-die bank: the one that holds the channel whose slice lies there (R408; assumption 49). -/
def State.bankOwner (s : State) (chan : Nat) : Option Nat := (s.parts.find? (fun p => p.2.chans.contains chan)).map (fun p => p.1)

/-- What of a bank's forecast rise is attributed to coils of a partition. -/
def State.shareOf (s : State) (f : BankForecast) (part : Nat) : List (Nat × Nat) :=
  f.shares.filter (fun x => s.ownerOf x.1 == some part && decide (0 < x.2))

/-- Coils to be slowed for a bank above its limit: those of each other partition to whose coils at least half of its forecast rise is
attributed. -/
def State.blamed (s : State) (f : BankForecast) : List Nat :=
  match s.bankOwner f.chan with
  | none => []
  | some v =>
    let heavy (h : Nat) : Bool := decide (f.rise ≤ 2 * ((s.shareOf f h).map (fun x => x.2)).foldl (· + ·) 0)
    (((s.parts.filter (fun p => p.1 != v && heavy p.1)).map (fun p => (s.shareOf f p.1).map (fun x => x.1))).flatten).eraseDups

/-- A coil after a sweep: slowed by 1/8, to no less than 1/4, for the banks `hot`; else a slowed one gains 1/8 once none of the banks
that it was slowed for is in `warm`, less than 2 °C below its limit. -/
def Coil.adjust (c : Coil) (hot warm : List Nat) : Coil :=
  if !hot.isEmpty then { c with rate := Nat.max 2 (c.rate - 1), lowered := (hot ++ c.lowered).eraseDups }
  else if c.rate < 8 ∧ c.lowered.all (fun b => !warm.contains b) = true then
    { c with rate := c.rate + 1, lowered := if c.rate = 7 then [] else c.lowered }
  else c

/-- The throttle by attribution (R409). -/
def State.attribute (s : State) (r : SweepReport) : State :=
  let hot := (r.banks.filter (fun f => f.hot)).map (fun f => (f.chan, s.blamed f))
  let warm := r.banks.map (fun f => f.chan)
  let banks (c : Nat) : List Nat := (hot.filter (fun x => x.2.contains c)).map (fun x => x.1)
  let coils := ((hot.map (fun x => x.2)).flatten ++ s.coils.map (fun c => c.1)).eraseDups
  coils.foldl (fun s c => { s with coils := upd s.coils c {} (fun k => k.adjust (banks c) warm) }) s

/-- SENSOR_SWEEP: every sensor and rail is read; from stage 1 onward the model forecasts. -/
def State.sweep (s : State) (r : SweepReport) : State :=
  let s := r.sensors.foldl (fun s x => s.measured x.1 x.2) { s with anchor := { s.anchor with rails := r.rails } }
  if s.anchor.stage < 2 then s else (s.writeForecasts r).attribute r

def execSensorSweep (r : SweepReport) (s : State) : Out := .next (if s.anchor.stage = 0 then s else s.sweep r)

end Sys2Proof.Machine
end

