-- ==== Sys2Proof/Machine/VectorAtomic.lean ====
section
/-!
DEFINITION. Vector atomics (R199, R200), linked gathers and conditional scatters (R201, R202), and near-memory
instructions (R97, R203).
-/
namespace Sys2Proof.Machine

/-! ## Read-modify-write of an element at its home -/

/-- The operations of Table 5 of R199 and the scatter-reductions of R203. -/
inductive AtomOp where
  | add | min | max | swp | and | or | cas | nearAdd | nearMax
  deriving DecidableEq, Repr

def AtomOp.isNear : AtomOp → Bool
  | .nearAdd => true
  | .nearMax => true
  | _ => false

/-- AND and OR compare no tag, and leave the line its own (R199). -/
def AtomOp.lineTag : AtomOp → Bool
  | .and => true
  | .or => true
  | _ => false

/-- Format arithmetic applies (R199). -/
def AtomOp.arith : AtomOp → Bool
  | .add => true
  | .min => true
  | .max => true
  | _ => false

/-- A value rounded to the line's format: integers wrap (R73); none where the spec states no integer result. -/
def atomRound (f : Fmt) (bsc : Nat) (r : Rounding) (v : Num) : Option (Nat × Nat) :=
  if f.isInt then v.int?.map (fun i => f.intResult false i) else some (roundTo f bsc r v)

/-- The new code from the line's value and the operand's (R97, R199): code and flags. -/
def AtomOp.apply (o : AtomOp) (f : Fmt) (bsc : Nat) (r : Rounding) (x y : Num) : Option (Nat × Nat) :=
  let extreme (max : Bool) : Option (Nat × Nat) :=
    if x.isNan || y.isNan then atomRound f bsc r (.nan true) else atomRound f bsc r (Num.minmax max x y).1
  match o with
  | .min => extreme false
  | .max => extreme true
  | .nearMax => extreme true
  | _ => let v := x.add r.rm y; (atomRound f bsc r v.1).map (fun c => (c.1, c.2 ||| v.2))

/-- The cause that refuses an element on its locked line (R97, R199), ranks 8 to 11 of Table 1 of R184. `lt` is the line's
tag, an empty line's already the tag it is taken with. -/
def AtomOp.refused (o : AtomOp) (s : State) (cls : Nat) (strict : Bool) (lt rt : Tag) (va : Nat) : Option (Nat × Word) :=
  let c := s.myCtx
  let pair := some (causeFormatPair, pairVal (fmtOf lt) (fmtOf rt))
  -- an unassigned index has no arithmetic, whatever the lattice table holds (R62)
  let bare := c.isUnassigned (fmtOf lt) || c.isUnassigned (fmtOf rt)
  if cls = 3 then some (causeConflict, BitVec.ofNat 64 va)
  else if cls = 4 ∧ strict = true ∧ o.isNear = false then some (causeUninit, BitVec.ofNat 64 va)
  else if o.lineTag then none
  else if o.isNear then (if !bare && c.joinFmt (fmtOf lt) (fmtOf rt) == some (fmtOf lt) then none else pair)
  else if fmtOf lt ≠ fmtOf rt ∨ bscOf lt ≠ bscOf rt then pair
  else if o.arith && (bare || (c.joinFmt (fmtOf rt) (fmtOf rt)).isNone) then pair
  else none

/-- What the elements performed so far leave: state, old codes by group index, flags, and whether POISON was met. -/
structure AtomRun where
  s : State
  olds : List (Nat × Nat) := []
  flags : Nat := 0
  poison : Bool := false
  fault : Option ElemFault := none

/-- One element at its home (R97, R200), checked against the tag that the line has when its turn comes: one that an earlier element of
the instruction took from ZERO to VALID has that element's format (assumption 75). `cas` is the row whose element VCAS writes. -/
def atomElem (o : AtomOp) (rows : Nat → Row) (cas : Row) (x : AtomRun) (e : Elem) : AtomRun :=
  if x.fault.isSome then x
  else
    let s := x.s
    let w := s.me.sewBits
    let r := e.j / s.me.vl
    let i := e.j % s.me.vl
    let row := rows r
    let rt := row.tag
    let h := s.readHome e.loc s.reader
    let cls := classOf h.2.1
    let empty := cls == 1 || cls == 4
    let lt := if empty then withClass (if o.lineTag then h.2.1 else rt) 0 else h.2.1
    match o.refused s cls e.loc.strict lt rt e.va with
    | some f => { x with s := h.2.2, fault := some (e.j, f) }
    | none =>
      let s := h.2.2
      let off := e.va % 128
      let old := if empty then 0 else lineNat h.1 off (w / 8)
      let y := rowCode row.bits rt w i
      let c := s.myCtx
      let f := c.fmt (fmtOf lt)
      let fr := s.free
      let res : State × Nat × Nat := match o with
        | .swp => (s, y, 0)
        | .and => (s, old &&& y, 0)
        | .or => (s, old ||| y, 0)
        | .cas => (s, rowCode cas.bits cas.tag w i, 0)
        | _ =>
          match o.apply f (bscOf lt) (s.me.rounding 0 r i) (elemValue f (bscOf lt) old) (rowValue c rt y) with
          | some z => (s, z.1, z.2)
          | none => (fr.2, fr.1.toNat % 2 ^ f.container w, 0)
      let s := res.1
      let olds := (e.j, old) :: x.olds
      if o = .cas ∧ old ≠ y then { x with s := s, olds := olds, poison := x.poison || cls == 2 }
      else
        let cls' := if o.lineTag then 0 else if classOf rt = 2 then 2 else 0
        let data := lineOfNat res.2.1 off (w / 8)
        -- an empty line is taken as all zero codes: it is written whole
        let wr : Write := { data := data, mask := if empty then fullMask else byteRun off (w / 8), tag := withDem (withClass lt cls') (demOf h.2.1)
                            typed := true, width := f.container w, keepDem := true }
        match s.homeWrite e.loc wr none s.me.pm s.reader (BitVec.ofNat 64 e.va) with
        | (none, t) => { x with s := t, fault := some (e.j, causeChunk, BitVec.ofNat 64 e.va) }
        | (some t, _) =>
          { s := t, olds := olds, flags := x.flags ||| res.2.2, poison := x.poison || cls == 2 || (o.isNear && classOf rt == 2) }

/-- Element codes and tags of the returned rows (R200): FMT and BSC kept, POISON if v or a line read was. -/
def State.returnOlds (s : State) (v : Nat) (olds : List (Nat × Nat)) (poison : Bool) : State :=
  let vl := s.me.vl
  let s := olds.reverse.foldl (fun s x => s.setCode (v + x.1 / vl) (x.1 % vl) x.2) s
  (List.range s.me.rc).foldl (fun s r =>
    if olds.any (fun x => x.1 / vl == r) then
      let t := s.me.tag (v + r)
      let p := poison || classOf t == 2
      let s := s.setRowTag (v + r) (withClass t (if p then 2 else 0))
      if p then s.raise flagPSN else s
    else s) s

/-- A vector atomic, as one event (R200). -/
def atomicV (o : AtomOp) (op : Nat) (v a b : BitVec 5) (k : BitVec 3) (t : BitVec 2) (s : State) : Out :=
  let x : MemOp := ⟨wordVM op v a b k 0 t, .indexed, a, b, k, .atomic, o.isNear⟩
  runOrdered t (fun s =>
    if o = .cas ∧ s.me.rc ≠ 1 then trap00 s causeVtype x.word
    else withAll x [v] (fun r =>
      let s := r.elems.foldl (fun s e => s.writeBackAndDrop s.me.core e.loc) r.s
      -- rows of class ZERO are read as zero codes throughout (R52)
      let rows (i : Nat) : Row := r.s.me.row (v.toNat + i)
      let q := r.elems.foldl (atomElem o rows (rows 1)) { s := s }
      let s := if o.isNear then (if q.poison then q.s.raise flagPSN else q.s) else q.s.returnOlds v.toNat q.olds q.poison
      finishMem (s.raise q.flags) (firstFault q.fault r.fault)) s) s

def execVamoadd (v a b : BitVec 5) (k : BitVec 3) (t : BitVec 2) (s : State) : Out := atomicV .add 0xD0 v a b k t s
def execVamomin (v a b : BitVec 5) (k : BitVec 3) (t : BitVec 2) (s : State) : Out := atomicV .min 0xD1 v a b k t s
def execVamomax (v a b : BitVec 5) (k : BitVec 3) (t : BitVec 2) (s : State) : Out := atomicV .max 0xD2 v a b k t s
def execVamoswp (v a b : BitVec 5) (k : BitVec 3) (t : BitVec 2) (s : State) : Out := atomicV .swp 0xD3 v a b k t s
def execVamoand (v a b : BitVec 5) (k : BitVec 3) (t : BitVec 2) (s : State) : Out := atomicV .and 0xD4 v a b k t s
def execVamoor (v a b : BitVec 5) (k : BitVec 3) (t : BitVec 2) (s : State) : Out := atomicV .or 0xD5 v a b k t s
def execVcas (v a b : BitVec 5) (k : BitVec 3) (t : BitVec 2) (s : State) : Out := atomicV .cas 0xD6 v a b k t s
def execVsanm (v a b : BitVec 5) (k : BitVec 3) (t : BitVec 2) (s : State) : Out := atomicV .nearAdd 0xDB v a b k t s
def execVsxnm (v a b : BitVec 5) (k : BitVec 3) (t : BitVec 2) (s : State) : Out := atomicV .nearMax 0xDC v a b k t s

/-! ## Linked gather and conditional scatter -/

/-- A read of VGLL at the home, which links the line (R201). A line that an earlier turn of the instruction linked is not linked
again: if the link has been broken since, it stays so (R163). -/
def readLinked (before : List Nat) : LineRead := fun s l =>
  let h := readAtHome s l
  let links := h.2.2.me.links
  (h.1, h.2.1, { h.2.2 with me := { h.2.2.me with links := if links.contains l.key || before.contains l.key then links else links ++ [l.key] } })

/-- VGLL keeps its links on the first 64 lines in element order, where no write has broken them since (R163, R201). -/
def State.trimLinks (s : State) (keys : List Nat) : State :=
  { s with me := { s.me with links := s.me.links.filter (fun k => (keys.take 64).contains k) } }

/-- VGLL (R201): a gather from the homes that links at most 64 lines. -/
def execVgll (v a b : BitVec 5) (k : BitVec 3) (t : BitVec 2) (s : State) : Out :=
  let x : MemOp := ⟨wordVM 0xD7 v a b k 0 t, .indexed, a, b, k, .read, false⟩
  runOrdered t (withElems x [v] true (fun pr r =>
    let s := if s.me.done_.isSome then r.s else { r.s with me := { r.s.me with links := [] } }
    let q := takeElems (readLinked (pr.taken.map (fun t => t.elem.loc.key))) r.elems s
    let got := mergeTaken pr.taken q.1
    let keys := (distinctLines (got.map (fun t => t.elem))).map (fun e => e.loc.key)
    let fin (es : List Taken) (f : Option ElemFault) : Loaded := loadRows (rowsAt v) k es f q.2.me.rc 0 q.2
    match r.pending with
    | [] => endLoad v false false (fun s => s.trimLinks keys)
        (fin (got.filter (fun t => r.fault.all (fun y => decide (t.elem.j < y.1)))) r.fault)
    | p :: _ =>
      let y := fin (got.filter (fun t => decide (t.elem.j < p.j))) none
      if y.fault.isSome then endLoad v false false id y else parkInstr q.2 r.pending { pr with taken := got, fault := r.fault })) s

/-- What the elements of a VSC performed so far leave: the places attempted and the elements that succeeded. -/
structure ScRun where
  s : State
  tried : List (Nat × Nat) := []
  won : List Nat := []
  fault : Option ElemFault := none

/-- An element of VSC at its home: attempted unless a lower one names its bytes, under whatever address (R143); it succeeds while the
link holds (R202). The spec does not say whether an attempted element that is not written can fault: in the model it takes
FORMAT_FIT or its demotion's FP_EXCEPTION all the same (assumption 81). -/
def scElem (v : Nat) (x : ScRun) (e : Elem) : ScRun :=
  let here := (e.loc.key, e.va % 128)
  if x.fault.isSome ∨ x.tried.contains here = true then x
  else
    let s := x.s
    let row := s.me.row (v + e.j / s.me.vl)
    let w := s.me.sewBits
    let own := s.outElem row e.loc (e.j % s.me.vl)
    let wr : Write := { data := lineOfNat own.code here.2 (w / 8), mask := byteRun here.2 (w / 8), tag := withDem own.tag own.changed
                        typed := true, width := (s.myCtx.fmt (fmtOf own.tag)).container w }
    let linked := s.me.links.contains e.loc.key
    let put : LineWrite := fun s l w va => if linked then s.homeWrite l w (some (s.me.core, s.me.ctx)) s.me.pm s.reader va else (some s, s)
    let x := { x with tried := here :: x.tried }
    match storeCause put s row e own wr with
    | some f => { x with s := f.2, fault := some f.1 }
    | none =>
      if !linked then x
      else match put s e.loc wr (BitVec.ofNat 64 e.va) with
        | (none, t) => { x with s := t, fault := some (e.j, causeChunk, BitVec.ofNat 64 e.va) }
        | (some t, _) => { x with s := t.raise own.flags, won := e.j :: x.won }

/-- VSC (R202): mask k keeps the active elements that did not succeed. -/
def execVsc (v a b : BitVec 5) (k : BitVec 3) (t : BitVec 2) (s : State) : Out :=
  let x : MemOp := ⟨wordVM 0xD8 v a b k 0 t, .indexed, a, b, k, .write, false⟩
  runOrdered t (withAll x [v] (fun r =>
    let s := r.elems.foldl (fun s e => s.writeBackAndDrop s.me.core e.loc) r.s
    let q := r.elems.foldl (scElem v.toNat) { s := s }
    let won := BitVec.ofNat 32768 (q.won.foldl (fun acc j => acc + 2 ^ j) 0)
    let s := { q.s with me := q.s.me.setMask k.toNat (q.s.me.mask k.toNat &&& ~~~won) }
    finishMem s (firstFault q.fault r.fault))) s

/-! ## Near-memory gather and scatter -/

/-- VGNM (R203). -/
def execVgnm (v a b : BitVec 5) (k : BitVec 3) (f g : BitVec 1) (t : BitVec 2) (s : State) : Out :=
  let x : MemOp := ⟨wordVM 0xD9 v a b k (f.toNat * 8 + g.toNat * 4) t, .indexed, a, b, k, .read, true⟩
  runOrdered t (loadElems x [v] false (f == 1) (g == 1) (readPlain 0) (rowsAt v) (endLoad v (f == 1) (g == 1) id)) s

/-- VSNM (R203). -/
def execVsnm (v a b : BitVec 5) (k : BitVec 3) (t : BitVec 2) (s : State) : Out :=
  let x : MemOp := ⟨wordVM 0xDA v a b k 0 t, .indexed, a, b, k, .write, true⟩
  runOrdered t (fun s => storeAll x [v] false false (writePlain 0) (fun i => s.me.row (v.toNat + i)) finishMem s) s

end Sys2Proof.Machine
end

