-- ==== Sys2Proof/Machine/VectorBits.lean ====
section
/-!
DEFINITION. Vector logic, shifts and compares (R270–R272) and mask instructions (R273).
-/
namespace Sys2Proof.Machine

/-- The second operand's bits at an element of `w` bits: vb's code, or the splat's pattern x[SEW−1:0] (R264, R270, R271). -/
def Src.bits (src : Src) (w : Nat) (codes : List Nat) : Nat :=
  match src with
  | .row _ => codes.getD 1 0
  | .splat x _ => x.toNat % 2 ^ w

/-- Bitwise instructions: slots of SEW bits under va's tag, or vb's when only va is ZERO (R270). -/
def logicX (f : Nat → Nat → Nat) (x : Src) (d a : BitVec 5) (k : BitVec 3) : Elementwise :=
  { d := d, srcs := a :: x.groups, k := k, m := 0
    rowTag := fun _ _ tags =>
      let ta := tags.headD 0
      let tb := tags.getD 1 ta
      let c := if classOf ta = 1 ∧ classOf tb ≠ 1 then tb else ta
      .ok (mkTag (fmtOf c) (bscOf c) 0 (demOf c))
    op := fun s _ t codes _ =>
      { code := f (codes.headD 0) (x.bits s.me.sewBits codes) % 2 ^ (s.myCtx).cw (fmtOf t) s.me.sewBits } }

def logicV (f : Nat → Nat → Nat) (form : Nat) (src : State → Src) (op : Nat) (d a b : BitVec 5) (k : BitVec 3) (t : BitVec 2) (s : State) : Out :=
  runOrdered t (fun s => elementwise (wordV op form d a b k 0 t) (logicX f (src s) d a k) s) s

/-- Shifts within the container width of va's format (R271). -/
def shiftX (f : Nat → Nat → Nat → Nat) (x : Src) (d a : BitVec 5) (k : BitVec 3) : Elementwise :=
  { d := d, srcs := a :: x.groups, k := k, m := 0
    rowTag := fun _ _ tags => .ok (mkTag (fmtOf (tags.headD 0)) (bscOf (tags.headD 0)) 0 (demOf (tags.headD 0)))
    op := fun s tags _ codes _ =>
      let w := (s.myCtx).cw (fmtOf (tags.headD 0)) s.me.sewBits
      { code := f w (codes.headD 0 % 2 ^ w) (x.bits s.me.sewBits codes) } }

def shiftV (f : Nat → Nat → Nat → Nat) (form : Nat) (src : State → Src) (op : Nat) (d a b : BitVec 5) (k : BitVec 3) (t : BitVec 2) (s : State) : Out :=
  runOrdered t (fun s => elementwise (wordV op form d a b k 0 t) (shiftX f (src s) d a k) s) s

def shlCode (w x n : Nat) : Nat := if w ≤ n then 0 else x * 2 ^ n % 2 ^ w
def shrCode (w x n : Nat) : Nat := if w ≤ n then 0 else x / 2 ^ n
def sraCode (w x n : Nat) : Nat :=
  let k := Nat.min n w
  let sign := x / 2 ^ (w - 1) % 2
  if w ≤ n then sign * (2 ^ w - 1) else x / 2 ^ k + sign * (2 ^ w - 2 ^ (w - k))

def execVandVv (d a b : BitVec 5) (k : BitVec 3) (t : BitVec 2) (s : State) : Out :=
  logicV (fun x y => x &&& y) 0 (srcVV b) 0xa0 d a b k t s

def execVandVs (d a sb : BitVec 5) (k : BitVec 3) (t : BitVec 2) (s : State) : Out :=
  logicV (fun x y => x &&& y) 1 (srcVS sb) 0xa0 d a sb k t s

def execVandVi (d a imm : BitVec 5) (k : BitVec 3) (t : BitVec 2) (s : State) : Out :=
  logicV (fun x y => x &&& y) 2 (srcVI imm) 0xa0 d a imm k t s

def execVorVv (d a b : BitVec 5) (k : BitVec 3) (t : BitVec 2) (s : State) : Out :=
  logicV (fun x y => x ||| y) 0 (srcVV b) 0xa1 d a b k t s

def execVorVs (d a sb : BitVec 5) (k : BitVec 3) (t : BitVec 2) (s : State) : Out :=
  logicV (fun x y => x ||| y) 1 (srcVS sb) 0xa1 d a sb k t s

def execVorVi (d a imm : BitVec 5) (k : BitVec 3) (t : BitVec 2) (s : State) : Out :=
  logicV (fun x y => x ||| y) 2 (srcVI imm) 0xa1 d a imm k t s

def execVxorVv (d a b : BitVec 5) (k : BitVec 3) (t : BitVec 2) (s : State) : Out :=
  logicV (fun x y => x ^^^ y) 0 (srcVV b) 0xa2 d a b k t s

def execVxorVs (d a sb : BitVec 5) (k : BitVec 3) (t : BitVec 2) (s : State) : Out :=
  logicV (fun x y => x ^^^ y) 1 (srcVS sb) 0xa2 d a sb k t s

def execVxorVi (d a imm : BitVec 5) (k : BitVec 3) (t : BitVec 2) (s : State) : Out :=
  logicV (fun x y => x ^^^ y) 2 (srcVI imm) 0xa2 d a imm k t s

/-- The complement of va's slot (R270). -/
def notX (d a : BitVec 5) (k : BitVec 3) : Elementwise :=
  { d := d, srcs := [a], k := k, m := 0
    rowTag := fun _ _ tags => .ok (mkTag (fmtOf (tags.headD 0)) (bscOf (tags.headD 0)) 0 (demOf (tags.headD 0)))
    op := fun s _ t codes _ =>
      { code := (2 ^ s.me.sewBits - 1 - codes.headD 0) % 2 ^ (s.myCtx).cw (fmtOf t) s.me.sewBits } }

def execVnot (d a : BitVec 5) (k : BitVec 3) (t : BitVec 2) (s : State) : Out :=
  runOrdered t (elementwise (wordV 0xA3 0 d a 0 k 0 t) (notX d a k)) s

def execVshlVv (d a b : BitVec 5) (k : BitVec 3) (t : BitVec 2) (s : State) : Out :=
  shiftV shlCode 0 (srcVV b) 0xa4 d a b k t s

def execVshlVs (d a sb : BitVec 5) (k : BitVec 3) (t : BitVec 2) (s : State) : Out :=
  shiftV shlCode 1 (srcVS sb) 0xa4 d a sb k t s

def execVshlVi (d a imm : BitVec 5) (k : BitVec 3) (t : BitVec 2) (s : State) : Out :=
  shiftV shlCode 2 (srcVI imm) 0xa4 d a imm k t s

def execVshrVv (d a b : BitVec 5) (k : BitVec 3) (t : BitVec 2) (s : State) : Out :=
  shiftV shrCode 0 (srcVV b) 0xa5 d a b k t s

def execVshrVs (d a sb : BitVec 5) (k : BitVec 3) (t : BitVec 2) (s : State) : Out :=
  shiftV shrCode 1 (srcVS sb) 0xa5 d a sb k t s

def execVshrVi (d a imm : BitVec 5) (k : BitVec 3) (t : BitVec 2) (s : State) : Out :=
  shiftV shrCode 2 (srcVI imm) 0xa5 d a imm k t s

def execVsraVv (d a b : BitVec 5) (k : BitVec 3) (t : BitVec 2) (s : State) : Out :=
  shiftV sraCode 0 (srcVV b) 0xa6 d a b k t s

def execVsraVs (d a sb : BitVec 5) (k : BitVec 3) (t : BitVec 2) (s : State) : Out :=
  shiftV sraCode 1 (srcVS sb) 0xa6 d a sb k t s

def execVsraVi (d a imm : BitVec 5) (k : BitVec 3) (t : BitVec 2) (s : State) : Out :=
  shiftV sraCode 2 (srcVI imm) 0xa6 d a imm k t s

/-- One bit of mask kd; a write to k0 is discarded. -/
def State.setMaskBit (s : State) (k j : Nat) (v : Bool) : State :=
  let m := s.me.mask k
  let n := m.toNat - m.toNat / 2 ^ j % 2 * 2 ^ j + v.toNat * 2 ^ j
  { s with me := s.me.setMask k (BitVec.ofNat 32768 n) }

/-- The elements of row r of a compare. -/
def compareLoop (rel : Nat) (kd : Nat) (va : BitVec 5) (src : Src) (k : BitVec 3) (r : Nat) : Nat → Nat → State → Eff
  | 0, _, s => .done s
  | n + 1, e, s =>
    let j := r * s.me.vl + e
    if !s.me.act k j then compareLoop rel kd va src k r n (e + 1) s
    else
      let c := s.myCtx
      let value (v : BitVec 5) :=
        let row := s.me.row (v.toNat + r)
        rowValue c row.tag (getElem_ row.bits s.me.sewBits e)
      let a := value va
      let b := match src with
        | .row v => value v
        | .splat x imm => splatValue (c.fmt (fmtOf (s.me.tag (va.toNat + r)))) x imm
      let q := relation rel a b
      let fl := trapFlags s.me.fcsr q.2
      if fl ≠ 0 then trapAt s causeFp (BitVec.ofNat 64 fl) r e
      else compareLoop rel kd va src k r n (e + 1) ((s.raise q.2).setMaskBit kd j q.1)

/-- The rows of a compare (R272). -/
def compareRows (rel : Nat) (kd : Nat) (va : BitVec 5) (src : Src) (k : BitVec 3) : Nat → Nat → State → Eff
  | 0, _, s =>
    let m := s.me.mask kd
    .done ({ s with me := s.me.setMask kd (BitVec.ofNat 32768 (m.toNat % 2 ^ s.me.count)) }.clearStart)
  | n + 1, r, s =>
    let ta := s.me.tag (va.toNat + r)
    let tb := match src with
      | .row v => s.me.tag (v.toNat + r)
      | .splat _ _ => mkTag (fmtOf ta) (bscOf ta) 0 false
    match joinRow s.myCtx ta tb with
    | none => trapAt s causeFormatPair (pairVal (joinFmts ta tb).1 (joinFmts ta tb).2) r 0
    | some _ =>
      let e0 := if r = s.me.rstart then s.me.vstart else 0
      consume s (classOf ta == 2 || classOf tb == 2) r (fun s =>
        (compareLoop rel kd va src k r (s.me.vl - e0) e0 s).bind (compareRows rel kd va src k n (r + 1)))

/-- A compare (R272). -/
def compareV (rel : Nat) (form : Nat) (src : State → Src) (op : Nat) (d a b : BitVec 5) (k : BitVec 3) (t : BitVec 2) (s : State) : Out :=
  runOrdered t (fun s =>
    let x := src s
    vecOp (wordV op form d a b k 0 t) (a :: x.groups) (fun _ => false)
      (fun s => compareRows rel d.toNat a x k (s.me.rc - s.me.rstart) s.me.rstart s) s) s

def execVcmpeqVv (d a b : BitVec 5) (k : BitVec 3) (t : BitVec 2) (s : State) : Out :=
  compareV 0 0 (srcVV b) 0xa7 d a b k t s

def execVcmpeqVs (d a sb : BitVec 5) (k : BitVec 3) (t : BitVec 2) (s : State) : Out :=
  compareV 0 1 (srcVS sb) 0xa7 d a sb k t s

def execVcmpeqVi (d a imm : BitVec 5) (k : BitVec 3) (t : BitVec 2) (s : State) : Out :=
  compareV 0 2 (srcVI imm) 0xa7 d a imm k t s

def execVcmpltVv (d a b : BitVec 5) (k : BitVec 3) (t : BitVec 2) (s : State) : Out :=
  compareV 1 0 (srcVV b) 0xa8 d a b k t s

def execVcmpltVs (d a sb : BitVec 5) (k : BitVec 3) (t : BitVec 2) (s : State) : Out :=
  compareV 1 1 (srcVS sb) 0xa8 d a sb k t s

def execVcmpltVi (d a imm : BitVec 5) (k : BitVec 3) (t : BitVec 2) (s : State) : Out :=
  compareV 1 2 (srcVI imm) 0xa8 d a imm k t s

def execVcmpleVv (d a b : BitVec 5) (k : BitVec 3) (t : BitVec 2) (s : State) : Out :=
  compareV 2 0 (srcVV b) 0xa9 d a b k t s

def execVcmpleVs (d a sb : BitVec 5) (k : BitVec 3) (t : BitVec 2) (s : State) : Out :=
  compareV 2 1 (srcVS sb) 0xa9 d a sb k t s

def execVcmpleVi (d a imm : BitVec 5) (k : BitVec 3) (t : BitVec 2) (s : State) : Out :=
  compareV 2 2 (srcVI imm) 0xa9 d a imm k t s

/-- A mask instruction: VTYPE_ILLEGAL when the configuration is ill (R245), then the mask's bits (R273). It has no active
elements, and the start point stays (assumption 67). -/
def maskV (word : Word) (kd : BitVec 5) (bit : State → Nat → Bool) (t : BitVec 2) (s : State) : Out :=
  runOrdered t (vecOp word [] (fun _ => false) (fun s => .done (s.writeMask kd.toNat (bit s)))) s

def execKand (d a b : BitVec 5) (t : BitVec 2) (s : State) : Out :=
  maskV (wordV 0xAA 0 d a b 0 0 t) d (fun s j => (s.me.mask a.toNat).getLsbD j && (s.me.mask b.toNat).getLsbD j) t s

def execKor (d a b : BitVec 5) (t : BitVec 2) (s : State) : Out :=
  maskV (wordV 0xAB 0 d a b 0 0 t) d (fun s j => (s.me.mask a.toNat).getLsbD j || (s.me.mask b.toNat).getLsbD j) t s

def execKxor (d a b : BitVec 5) (t : BitVec 2) (s : State) : Out :=
  maskV (wordV 0xAC 0 d a b 0 0 t) d (fun s j => (s.me.mask a.toNat).getLsbD j != (s.me.mask b.toNat).getLsbD j) t s

def execKnot (d a : BitVec 5) (t : BitVec 2) (s : State) : Out :=
  maskV (wordV 0xAD 0 d a 0 0 0 t) d (fun s j => !(s.me.mask a.toNat).getLsbD j) t s

/-- Lowest j < VL·RC with ka[j] = 1, or all ones (R273). -/
def execKffs (d a : BitVec 5) (t : BitVec 2) (s : State) : Out :=
  runOrdered t (vecOp (wordV 0xAE 0 d a 0 0 0 t) [] (fun _ => false) (fun s =>
    .done (s.setRegV d (match (List.range s.me.count).find? (fun j => (s.me.mask a.toNat).getLsbD j) with
      | some j => BitVec.ofNat 64 j
      | none => BitVec.allOnes 64)))) s

def execKpopc (d a : BitVec 5) (t : BitVec 2) (s : State) : Out :=
  runOrdered t (vecOp (wordV 0xAF 0 d a 0 0 0 t) [] (fun _ => false) (fun s =>
    .done (s.setRegV d (BitVec.ofNat 64 ((List.range s.me.count).filter (fun j => (s.me.mask a.toNat).getLsbD j)).length)))) s

/-- kd[j] := s[sa] ≤ j < s[sb] (R273). -/
def execKset (d a b : BitVec 5) (t : BitVec 2) (s : State) : Out :=
  let word := wordV 0xB8 0 d a b 0 0 t
  runOrdered t (vecOp word [] (fun _ => false) (fun s =>
    let lo := (s.capA a).toNat
    let hi := (s.capB b).toNat
    .done (s.writeMask d.toNat (fun j => decide (lo ≤ j ∧ j < hi))))) s

/-- The rows of KMV: kd[j] := the code of group element j is nonzero (R273). -/
def kmvRows (kd : Nat) (va : BitVec 5) : Nat → Nat → State → Eff
  | 0, _, s =>
    let m := s.me.mask kd
    .done { s with me := s.me.setMask kd (BitVec.ofNat 32768 (m.toNat % 2 ^ s.me.count)) }
  | n + 1, r, s =>
    let row := s.me.row (va.toNat + r)
    consume s (classOf row.tag == 2) r (fun s =>
      kmvRows kd va n (r + 1) ((List.range s.me.vl).foldl (fun s e =>
        s.setMaskBit kd (r * s.me.vl + e) (rowCode row.bits row.tag s.me.sewBits e != 0)) s))

def execKmv (d a : BitVec 5) (t : BitVec 2) (s : State) : Out :=
  runOrdered t (vecOp (wordV 0xB9 0 d a 0 0 0 t) [a] (fun _ => false) (fun s => kmvRows d.toNat a s.me.rc 0 s)) s

end Sys2Proof.Machine
end

