-- ==== Sys2Proof/Machine/Dispatch.lean ====
section
/-!
DEFINITION. One arm per constructor of Instr: its meaning.
-/
namespace Sys2Proof.Machine

def exec (i : Instr) (s : State) : Host.Outcome State Fault Refusal :=
  match i with
  | .thalt => Sys2Proof.Machine.execThalt s
  | .tloopImm l n => Sys2Proof.Machine.execTloopImm l n s
  | .tloopParam l k => Sys2Proof.Machine.execTloopParam l k s
  | .tnext l o => Sys2Proof.Machine.execTnext l o s
  | .tjmp o => Sys2Proof.Machine.execTjmp o s
  | .tagsetImm g fsel imm => Sys2Proof.Machine.execTagsetImm g fsel imm s
  | .tagsetParam g fsel k => Sys2Proof.Machine.execTagsetParam g fsel k s
  | .trd b g => Sys2Proof.Machine.execTrd b g s
  | .twr b g => Sys2Proof.Machine.execTwr b g s
  | .tcvt d src f r x p => Sys2Proof.Machine.execTcvt d src f r x p s
  | .tpack d src w v p => Sys2Proof.Machine.execTpack d src w v p s
  | .tunpk d src w v p => Sys2Proof.Machine.execTunpk d src w v p s
  | .ttrn w => Sys2Proof.Machine.execTtrn w s
  | .tscl b f => Sys2Proof.Machine.execTscl b f s
  | .tbsc b => Sys2Proof.Machine.execTbsc b s
  | .tsig r => Sys2Proof.Machine.execTsig r s
  | .twt r => Sys2Proof.Machine.execTwt r s
  | .nop t => Sys2Proof.Machine.execNop t s
  | .add d a b u m t => Sys2Proof.Machine.execAdd d a b u m t s
  | .sub d a b u m t => Sys2Proof.Machine.execSub d a b u m t s
  | .mul d a b u m t => Sys2Proof.Machine.execMul d a b u m t s
  | .mulh d a b u t => Sys2Proof.Machine.execMulh d a b u t s
  | .div d a b u t => Sys2Proof.Machine.execDiv d a b u t s
  | .rem d a b u t => Sys2Proof.Machine.execRem d a b u t s
  | .and d a b t => Sys2Proof.Machine.execAnd d a b t s
  | .or d a b t => Sys2Proof.Machine.execOr d a b t s
  | .xor d a b t => Sys2Proof.Machine.execXor d a b t s
  | .shl d a b t => Sys2Proof.Machine.execShl d a b t s
  | .shr d a b t => Sys2Proof.Machine.execShr d a b t s
  | .sra d a b t => Sys2Proof.Machine.execSra d a b t s
  | .min d a b u t => Sys2Proof.Machine.execMin d a b u t s
  | .max d a b u t => Sys2Proof.Machine.execMax d a b u t s
  | .slt d a b u t => Sys2Proof.Machine.execSlt d a b u t s
  | .addi d a imm t => Sys2Proof.Machine.execAddi d a imm t s
  | .andi d a imm t => Sys2Proof.Machine.execAndi d a imm t s
  | .ori d a imm t => Sys2Proof.Machine.execOri d a imm t s
  | .xori d a imm t => Sys2Proof.Machine.execXori d a imm t s
  | .shli d a imm t => Sys2Proof.Machine.execShli d a imm t s
  | .shri d a imm t => Sys2Proof.Machine.execShri d a imm t s
  | .srai d a imm t => Sys2Proof.Machine.execSrai d a imm t s
  | .slti d a imm t => Sys2Proof.Machine.execSlti d a imm t s
  | .movhi d a imm t => Sys2Proof.Machine.execMovhi d a imm t s
  | .limm imm => Sys2Proof.Machine.execLimm imm s
  | .clz d a t => Sys2Proof.Machine.execClz d a t s
  | .ctz d a t => Sys2Proof.Machine.execCtz d a t s
  | .popc d a t => Sys2Proof.Machine.execPopc d a t s
  | .bfx d a b c t => Sys2Proof.Machine.execBfx d a b c t s
  | .bfi d a b c t => Sys2Proof.Machine.execBfi d a b c t s
  | .sel d a b c t => Sys2Proof.Machine.execSel d a b c t s
  | .sfadd d a b f m t => Sys2Proof.Machine.execSfadd d a b f m t s
  | .sfsub d a b f m t => Sys2Proof.Machine.execSfsub d a b f m t s
  | .sfmul d a b f m t => Sys2Proof.Machine.execSfmul d a b f m t s
  | .sfdiv d a b f m t => Sys2Proof.Machine.execSfdiv d a b f m t s
  | .sfma d a b f m t => Sys2Proof.Machine.execSfma d a b f m t s
  | .sfmin d a b f t => Sys2Proof.Machine.execSfmin d a b f t s
  | .sfmax d a b f t => Sys2Proof.Machine.execSfmax d a b f t s
  | .sfcmp d a b r f t => Sys2Proof.Machine.execSfcmp d a b r f t s
  | .sfcvt d a v f m t => Sys2Proof.Machine.execSfcvt d a v f m t s
  | .sfsqrt d a f m t => Sys2Proof.Machine.execSfsqrt d a f m t s
  | .sfclass d a f t => Sys2Proof.Machine.execSfclass d a f t s
  | .sext d a w t => Sys2Proof.Machine.execSext d a w t s
  | .beq a b o slot t => Sys2Proof.Machine.execBeq a b o slot t s
  | .bne a b o slot t => Sys2Proof.Machine.execBne a b o slot t s
  | .blt a b o slot t => Sys2Proof.Machine.execBlt a b o slot t s
  | .bge a b o slot t => Sys2Proof.Machine.execBge a b o slot t s
  | .jmp o slot t => Sys2Proof.Machine.execJmp o slot t s
  | .call o slot t => Sys2Proof.Machine.execCall o slot t s
  | .jr d a t => Sys2Proof.Machine.execJr d a t s
  | .bnzd a o slot t => Sys2Proof.Machine.execBnzd a o slot t s
  | .brk imm t => Sys2Proof.Machine.execBrk imm t s
  | .trap imm t => Sys2Proof.Machine.execTrap imm t s
  | .rett t => Sys2Proof.Machine.execRett t s
  | .exit t => Sys2Proof.Machine.execExit t s
  | .yield t => Sys2Proof.Machine.execYield t s
  | .park d t => Sys2Proof.Machine.execPark d t s
  | .wake d a t => Sys2Proof.Machine.execWake d a t s
  | .ancallBufdef d a t => Sys2Proof.Machine.execAncallBufdef d a t s
  | .ancallBufdrop d a t => Sys2Proof.Machine.execAncallBufdrop d a t s
  | .grpopen d a t => Sys2Proof.Machine.execGrpopen d a t s
  | .grpleave d a t => Sys2Proof.Machine.execGrpleave d a t s
  | .grpspare d a t => Sys2Proof.Machine.execGrpspare d a t s
  | .ancallOther d a imm t => Sys2Proof.Machine.execAncallOther d a imm t s
  | .sld8 d a imm t => Sys2Proof.Machine.execSld8 d a imm t s
  | .sld16 d a imm t => Sys2Proof.Machine.execSld16 d a imm t s
  | .sld32 d a imm t => Sys2Proof.Machine.execSld32 d a imm t s
  | .sld64 d a imm t => Sys2Proof.Machine.execSld64 d a imm t s
  | .sst8 d a imm t => Sys2Proof.Machine.execSst8 d a imm t s
  | .sst16 d a imm t => Sys2Proof.Machine.execSst16 d a imm t s
  | .sst32 d a imm t => Sys2Proof.Machine.execSst32 d a imm t s
  | .sst64 d a imm t => Sys2Proof.Machine.execSst64 d a imm t s
  | .samo32 d a b o t => Sys2Proof.Machine.execSamo32 d a b o t s
  | .samo64 d a b o t => Sys2Proof.Machine.execSamo64 d a b o t s
  | .scas32 d a b c t => Sys2Proof.Machine.execScas32 d a b c t s
  | .scas64 d a b c t => Sys2Proof.Machine.execScas64 d a b c t s
  | .csrr d imm t => Sys2Proof.Machine.execCsrr d imm t s
  | .csrw a imm t => Sys2Proof.Machine.execCsrw a imm t s
  | .csrx d a imm t => Sys2Proof.Machine.execCsrx d a imm t s
  | .jrnlbaseWrite v => Sys2Proof.Machine.execJrnlbaseWrite v s
  | .qcfgWrite v => Sys2Proof.Machine.execQcfgWrite v s
  | .tkselWrite v => Sys2Proof.Machine.execTkselWrite v s
  | .scopestWrite v => Sys2Proof.Machine.execScopestWrite v s
  | .sqendWrite v => Sys2Proof.Machine.execSqendWrite v s
  | .trapstatusWrite v => Sys2Proof.Machine.execTrapstatusWrite v s
  | .s1rootWrite v => Sys2Proof.Machine.execS1rootWrite v s
  | .spf h a imm t => Sys2Proof.Machine.execSpf h a imm t s
  | .tkcfgQuery d a b t => Sys2Proof.Machine.execTkcfgQuery d a b t s
  | .tkcfgDrain d a b t => Sys2Proof.Machine.execTkcfgDrain d a b t s
  | .tkwait d a b t => Sys2Proof.Machine.execTkwait d a b t s
  | .tksend a b t => Sys2Proof.Machine.execTksend a b t s
  | .qpush q v k t => Sys2Proof.Machine.execQpush q v k t s
  | .qpop v q k t => Sys2Proof.Machine.execQpop v q k t s
  | .qpushs a q t => Sys2Proof.Machine.execQpushs a q t s
  | .qpops d q t => Sys2Proof.Machine.execQpops d q t s
  | .qstat d q t => Sys2Proof.Machine.execQstat d q t s
  | .fenceSv t => Sys2Proof.Machine.execFenceSv t s
  | .fenceVs t => Sys2Proof.Machine.execFenceVs t s
  | .fenceVv t => Sys2Proof.Machine.execFenceVv t s
  | .rel scope t => Sys2Proof.Machine.execRel scope t s
  | .acq scope t => Sys2Proof.Machine.execAcq scope t s
  | .bar imm t => Sys2Proof.Machine.execBar imm t s
  | .wmpub a b t => Sys2Proof.Machine.execWmpub a b t s
  | .wmwait a b t => Sys2Proof.Machine.execWmwait a b t s
  | .claim d a b t => Sys2Proof.Machine.execClaim d a b t s
  | .launch d a t => Sys2Proof.Machine.execLaunch d a t s
  | .sqpush a b c t => Sys2Proof.Machine.execSqpush a b c t s
  | .sqpop d c t => Sys2Proof.Machine.execSqpop d c t s
  | .sqstat d c t => Sys2Proof.Machine.execSqstat d c t s
  | .fmtset d a b t => Sys2Proof.Machine.execFmtset d a b t s
  | .fmtget d a t => Sys2Proof.Machine.execFmtget d a t s
  | .pltset d a b c t => Sys2Proof.Machine.execPltset d a b c t s
  | .pltget d a b t => Sys2Proof.Machine.execPltget d a b t s
  | .tlbinv a b t => Sys2Proof.Machine.execTlbinv a b t s
  | .rcreq d a b c t => Sys2Proof.Machine.execRcreq d a b c t s
  | .wmread d a t => Sys2Proof.Machine.execWmread d a t s
  | .xred v o b k m t => Sys2Proof.Machine.execXred v o b k m t s
  | .xsend v b k t => Sys2Proof.Machine.execXsend v b k t s
  | .xrecv v b k t => Sys2Proof.Machine.execXrecv v b k t s
  | .xmemb d a b t => Sys2Proof.Machine.execXmemb d a b t s
  | .ecfg e r a t => Sys2Proof.Machine.execEcfg e r a t s
  | .ecfgr e r a t => Sys2Proof.Machine.execEcfgr e r a t s
  | .ego e a t => Sys2Proof.Machine.execEgo e a t s
  | .ewait e a t => Sys2Proof.Machine.execEwait e a t s
  | .estat e r a t => Sys2Proof.Machine.execEstat e r a t s
  | .ecancel e a t => Sys2Proof.Machine.execEcancel e a t s
  | .publish a scope t => Sys2Proof.Machine.execPublish a scope t s
  | .mxzero x t => Sys2Proof.Machine.execMxzero x t s
  | .vaccrd v x b k t => Sys2Proof.Machine.execVaccrd v x b k t s
  | .vaccwr x v b k t => Sys2Proof.Machine.execVaccwr x v b k t s
  | .tsqld r a t => Sys2Proof.Machine.execTsqld r a t s
  | .tsqgo r a t => Sys2Proof.Machine.execTsqgo r a t s
  | .ejrnl e a t => Sys2Proof.Machine.execEjrnl e a t s
  | .tsqstat r a t => Sys2Proof.Machine.execTsqstat r a t s
  | .vsetl d a sew c p r z t => Sys2Proof.Machine.execVsetl d a sew c p r z t s
  | .vmvVv d b k t => Sys2Proof.Machine.execVmvVv d b k t s
  | .vmvVs d sb k t => Sys2Proof.Machine.execVmvVs d sb k t s
  | .vmvVi d imm k t => Sys2Proof.Machine.execVmvVi d imm k t s
  | .vmvx d a b t => Sys2Proof.Machine.execVmvx d a b t s
  | .vmvs d a b t => Sys2Proof.Machine.execVmvs d a b t s
  | .vtag d a b k t => Sys2Proof.Machine.execVtag d a b k t s
  | .vcvt d a b k m t => Sys2Proof.Machine.execVcvt d a b k m t s
  | .vid d k t => Sys2Proof.Machine.execVid d k t s
  | .vscale d a b k m t => Sys2Proof.Machine.execVscale d a b k m t s
  | .vclass d a k t => Sys2Proof.Machine.execVclass d a k t s
  | .vmergeVv d a b k t => Sys2Proof.Machine.execVmergeVv d a b k t s
  | .vmergeVs d a sb k t => Sys2Proof.Machine.execVmergeVs d a sb k t s
  | .vmergeVi d a imm k t => Sys2Proof.Machine.execVmergeVi d a imm k t s
  | .vcompress d a k t => Sys2Proof.Machine.execVcompress d a k t s
  | .vexpand d a k t => Sys2Proof.Machine.execVexpand d a k t s
  | .vslupVs d a sb k t => Sys2Proof.Machine.execVslupVs d a sb k t s
  | .vslupVi d a imm k t => Sys2Proof.Machine.execVslupVi d a imm k t s
  | .vsldnVs d a sb k t => Sys2Proof.Machine.execVsldnVs d a sb k t s
  | .vsldnVi d a imm k t => Sys2Proof.Machine.execVsldnVi d a imm k t s
  | .vrgath d a b k t => Sys2Proof.Machine.execVrgath d a b k t s
  | .vtrn d a t => Sys2Proof.Machine.execVtrn d a t s
  | .vaddVv d a b k m t => Sys2Proof.Machine.execVaddVv d a b k m t s
  | .vaddVs d a sb k m t => Sys2Proof.Machine.execVaddVs d a sb k m t s
  | .vaddVi d a imm k m t => Sys2Proof.Machine.execVaddVi d a imm k m t s
  | .vsubVv d a b k m t => Sys2Proof.Machine.execVsubVv d a b k m t s
  | .vsubVs d a sb k m t => Sys2Proof.Machine.execVsubVs d a sb k m t s
  | .vsubVi d a imm k m t => Sys2Proof.Machine.execVsubVi d a imm k m t s
  | .vmulVv d a b k m t => Sys2Proof.Machine.execVmulVv d a b k m t s
  | .vmulVs d a sb k m t => Sys2Proof.Machine.execVmulVs d a sb k m t s
  | .vmulVi d a imm k m t => Sys2Proof.Machine.execVmulVi d a imm k m t s
  | .vfmaVv d a b k m t => Sys2Proof.Machine.execVfmaVv d a b k m t s
  | .vfmaVs d a sb k m t => Sys2Proof.Machine.execVfmaVs d a sb k m t s
  | .vfmaVi d a imm k m t => Sys2Proof.Machine.execVfmaVi d a imm k m t s
  | .vfmsVv d a b k m t => Sys2Proof.Machine.execVfmsVv d a b k m t s
  | .vfmsVs d a sb k m t => Sys2Proof.Machine.execVfmsVs d a sb k m t s
  | .vfmsVi d a imm k m t => Sys2Proof.Machine.execVfmsVi d a imm k m t s
  | .vfnmaVv d a b k m t => Sys2Proof.Machine.execVfnmaVv d a b k m t s
  | .vfnmaVs d a sb k m t => Sys2Proof.Machine.execVfnmaVs d a sb k m t s
  | .vfnmaVi d a imm k m t => Sys2Proof.Machine.execVfnmaVi d a imm k m t s
  | .vdivVv d a b k m t => Sys2Proof.Machine.execVdivVv d a b k m t s
  | .vdivVs d a sb k m t => Sys2Proof.Machine.execVdivVs d a sb k m t s
  | .vdivVi d a imm k m t => Sys2Proof.Machine.execVdivVi d a imm k m t s
  | .vsqrt d a k m t => Sys2Proof.Machine.execVsqrt d a k m t s
  | .vminVv d a b k m t => Sys2Proof.Machine.execVminVv d a b k m t s
  | .vminVs d a sb k m t => Sys2Proof.Machine.execVminVs d a sb k m t s
  | .vminVi d a imm k m t => Sys2Proof.Machine.execVminVi d a imm k m t s
  | .vmaxVv d a b k m t => Sys2Proof.Machine.execVmaxVv d a b k m t s
  | .vmaxVs d a sb k m t => Sys2Proof.Machine.execVmaxVs d a sb k m t s
  | .vmaxVi d a imm k m t => Sys2Proof.Machine.execVmaxVi d a imm k m t s
  | .vabs d a k m t => Sys2Proof.Machine.execVabs d a k m t s
  | .vneg d a k m t => Sys2Proof.Machine.execVneg d a k m t s
  | .vrsqrt d a k m t => Sys2Proof.Machine.execVrsqrt d a k m t s
  | .vexp2 d a k m t => Sys2Proof.Machine.execVexp2 d a k m t s
  | .vlog2 d a k m t => Sys2Proof.Machine.execVlog2 d a k m t s
  | .vmulhVv d a b k m t => Sys2Proof.Machine.execVmulhVv d a b k m t s
  | .vmulhVs d a sb k m t => Sys2Proof.Machine.execVmulhVs d a sb k m t s
  | .vmulhVi d a imm k m t => Sys2Proof.Machine.execVmulhVi d a imm k m t s
  | .vandVv d a b k t => Sys2Proof.Machine.execVandVv d a b k t s
  | .vandVs d a sb k t => Sys2Proof.Machine.execVandVs d a sb k t s
  | .vandVi d a imm k t => Sys2Proof.Machine.execVandVi d a imm k t s
  | .vorVv d a b k t => Sys2Proof.Machine.execVorVv d a b k t s
  | .vorVs d a sb k t => Sys2Proof.Machine.execVorVs d a sb k t s
  | .vorVi d a imm k t => Sys2Proof.Machine.execVorVi d a imm k t s
  | .vxorVv d a b k t => Sys2Proof.Machine.execVxorVv d a b k t s
  | .vxorVs d a sb k t => Sys2Proof.Machine.execVxorVs d a sb k t s
  | .vxorVi d a imm k t => Sys2Proof.Machine.execVxorVi d a imm k t s
  | .vnot d a k t => Sys2Proof.Machine.execVnot d a k t s
  | .vshlVv d a b k t => Sys2Proof.Machine.execVshlVv d a b k t s
  | .vshlVs d a sb k t => Sys2Proof.Machine.execVshlVs d a sb k t s
  | .vshlVi d a imm k t => Sys2Proof.Machine.execVshlVi d a imm k t s
  | .vshrVv d a b k t => Sys2Proof.Machine.execVshrVv d a b k t s
  | .vshrVs d a sb k t => Sys2Proof.Machine.execVshrVs d a sb k t s
  | .vshrVi d a imm k t => Sys2Proof.Machine.execVshrVi d a imm k t s
  | .vsraVv d a b k t => Sys2Proof.Machine.execVsraVv d a b k t s
  | .vsraVs d a sb k t => Sys2Proof.Machine.execVsraVs d a sb k t s
  | .vsraVi d a imm k t => Sys2Proof.Machine.execVsraVi d a imm k t s
  | .vcmpeqVv d a b k t => Sys2Proof.Machine.execVcmpeqVv d a b k t s
  | .vcmpeqVs d a sb k t => Sys2Proof.Machine.execVcmpeqVs d a sb k t s
  | .vcmpeqVi d a imm k t => Sys2Proof.Machine.execVcmpeqVi d a imm k t s
  | .vcmpltVv d a b k t => Sys2Proof.Machine.execVcmpltVv d a b k t s
  | .vcmpltVs d a sb k t => Sys2Proof.Machine.execVcmpltVs d a sb k t s
  | .vcmpltVi d a imm k t => Sys2Proof.Machine.execVcmpltVi d a imm k t s
  | .vcmpleVv d a b k t => Sys2Proof.Machine.execVcmpleVv d a b k t s
  | .vcmpleVs d a sb k t => Sys2Proof.Machine.execVcmpleVs d a sb k t s
  | .vcmpleVi d a imm k t => Sys2Proof.Machine.execVcmpleVi d a imm k t s
  | .kand d a b t => Sys2Proof.Machine.execKand d a b t s
  | .kor d a b t => Sys2Proof.Machine.execKor d a b t s
  | .kxor d a b t => Sys2Proof.Machine.execKxor d a b t s
  | .knot d a t => Sys2Proof.Machine.execKnot d a t s
  | .kffs d a t => Sys2Proof.Machine.execKffs d a t s
  | .kpopc d a t => Sys2Proof.Machine.execKpopc d a t s
  | .vredsum d a k m t => Sys2Proof.Machine.execVredsum d a k m t s
  | .vredmin d a k m t => Sys2Proof.Machine.execVredmin d a k m t s
  | .vredmax d a k m t => Sys2Proof.Machine.execVredmax d a k m t s
  | .vredxor d a k t => Sys2Proof.Machine.execVredxor d a k t s
  | .vredarg d a k t => Sys2Proof.Machine.execVredarg d a k t s
  | .vscan d a k m t => Sys2Proof.Machine.execVscan d a k m t s
  | .vscanx d a k m t => Sys2Proof.Machine.execVscanx d a k m t s
  | .vdot d a b k m t => Sys2Proof.Machine.execVdot d a b k m t s
  | .kset d a b t => Sys2Proof.Machine.execKset d a b t s
  | .kmv d a t => Sys2Proof.Machine.execKmv d a t s
  | .vround d a k m t => Sys2Proof.Machine.execVround d a k m t s
  | .vld v a b k f g h t => Sys2Proof.Machine.execVld v a b k f g h t s
  | .vlds v a b k f g h t => Sys2Proof.Machine.execVlds v a b k f g h t s
  | .vldx v a b k f g h t => Sys2Proof.Machine.execVldx v a b k f g h t s
  | .vldq q a b k f g h t => Sys2Proof.Machine.execVldq q a b k f g h t s
  | .vst v a b k h t => Sys2Proof.Machine.execVst v a b k h t s
  | .vsts v a b k h t => Sys2Proof.Machine.execVsts v a b k h t s
  | .vstx v a b k h t => Sys2Proof.Machine.execVstx v a b k h t s
  | .vstq q a b k h t => Sys2Proof.Machine.execVstq q a b k h t s
  | .vlda v a b k f scope t => Sys2Proof.Machine.execVlda v a b k f scope t s
  | .vstr v a b k scope t => Sys2Proof.Machine.execVstr v a b k scope t s
  | .vpf a b k h t => Sys2Proof.Machine.execVpf a b k h t s
  | .vzero a b k h t => Sys2Proof.Machine.execVzero a b k h t s
  | .vldtag v a b k f g h t => Sys2Proof.Machine.execVldtag v a b k f g h t s
  | .vflush a b k scope t => Sys2Proof.Machine.execVflush a b k scope t s
  | .vinvl a b k scope t => Sys2Proof.Machine.execVinvl a b k scope t s
  | .vamoadd v a b k t => Sys2Proof.Machine.execVamoadd v a b k t s
  | .vamomin v a b k t => Sys2Proof.Machine.execVamomin v a b k t s
  | .vamomax v a b k t => Sys2Proof.Machine.execVamomax v a b k t s
  | .vamoswp v a b k t => Sys2Proof.Machine.execVamoswp v a b k t s
  | .vamoand v a b k t => Sys2Proof.Machine.execVamoand v a b k t s
  | .vamoor v a b k t => Sys2Proof.Machine.execVamoor v a b k t s
  | .vcas v a b k t => Sys2Proof.Machine.execVcas v a b k t s
  | .vgll v a b k t => Sys2Proof.Machine.execVgll v a b k t s
  | .vsc v a b k t => Sys2Proof.Machine.execVsc v a b k t s
  | .vgnm v a b k f g t => Sys2Proof.Machine.execVgnm v a b k f g t s
  | .vsnm v a b k t => Sys2Proof.Machine.execVsnm v a b k t s
  | .vsanm v a b k t => Sys2Proof.Machine.execVsanm v a b k t s
  | .vsxnm v a b k t => Sys2Proof.Machine.execVsxnm v a b k t s
  | .trapset d a b t => Sys2Proof.Machine.execTrapset d a b t s
  | .mapsetUnmap d a b c t => Sys2Proof.Machine.execMapsetUnmap d a b c t s
  | .mapsetPerm d a b c t => Sys2Proof.Machine.execMapsetPerm d a b c t s
  | .mapsetAlloc d a b c t => Sys2Proof.Machine.execMapsetAlloc d a b c t s
  | .mapsetQuery d a b c t => Sys2Proof.Machine.execMapsetQuery d a b c t s
  | .tlbinva a b t => Sys2Proof.Machine.execTlbinva a b t s
  | .ctxsave d a b t => Sys2Proof.Machine.execCtxsave d a b t s
  | .ctxload d a b t => Sys2Proof.Machine.execCtxload d a b t s
  | .pgqrd d a t => Sys2Proof.Machine.execPgqrd d a t s
  | .pgqackGrant d a b t => Sys2Proof.Machine.execPgqackGrant d a b t s
  | .pgqackRefuse d a b t => Sys2Proof.Machine.execPgqackRefuse d a b t s
  | .errrd d a t => Sys2Proof.Machine.execErrrd d a t s
  | .errack d a t => Sys2Proof.Machine.execErrack d a t s
  | .grant d a b t => Sys2Proof.Machine.execGrant d a b t s
  | .strandctlStatus d a b t => Sys2Proof.Machine.execStrandctlStatus d a b t s
  | .strandctlHalt d a b t => Sys2Proof.Machine.execStrandctlHalt d a b t s
  | .strandctlResume d a b t => Sys2Proof.Machine.execStrandctlResume d a b t s
  | .strandctlKill d a b t => Sys2Proof.Machine.execStrandctlKill d a b t s
  | .engineFaultTrap => Sys2Proof.Machine.execEngineFaultTrap s
  | .commandStart core eng => Sys2Proof.Machine.execCommandStart core eng s
  | .commandComplete core eng => Sys2Proof.Machine.execCommandComplete core eng s
  | .cpeUnit core eng => Sys2Proof.Machine.execCpeUnit core eng s
  | .mxeStep core => Sys2Proof.Machine.execMxeStep core s
  | .multicastForm coil grp => Sys2Proof.Machine.execMulticastForm coil grp s
  | .rowRelease core g => Sys2Proof.Machine.execRowRelease core g s
  | .mxeOutputRow core => Sys2Proof.Machine.execMxeOutputRow core s
  | .tsqInstructionIssue core => Sys2Proof.Machine.execTsqInstructionIssue core s
  | .rceLineRecode hank => Sys2Proof.Machine.execRceLineRecode hank s
  | .rcePack hank => Sys2Proof.Machine.execRcePack hank s
  | .fitCheckedWrite w => Sys2Proof.Machine.execFitCheckedWrite w s
  | .segmentSwitch vf seg => Sys2Proof.Machine.execSegmentSwitch vf seg s
  | .writebackMerge core line => Sys2Proof.Machine.execWritebackMerge core line s
  | .l1Eviction core line => Sys2Proof.Machine.execL1Eviction core line s
  | .dirtyAgeSweep core => Sys2Proof.Machine.execDirtyAgeSweep core s
  | .hostSnoop line => Sys2Proof.Machine.execHostSnoop line s
  | .lineReadComplete p r => Sys2Proof.Machine.execLineReadComplete p r s
  | .patrolRead p o => Sys2Proof.Machine.execPatrolRead p o s
  | .activationAlert chan bank row => Sys2Proof.Machine.execActivationAlert chan bank row s
  | .backoffEnd chan bank => Sys2Proof.Machine.execBackoffEnd chan bank s
  | .scrubBank chan => Sys2Proof.Machine.execScrubBank chan s
  | .walkComplete core ctx va acc => Sys2Proof.Machine.execWalkComplete core ctx va acc s
  | .pageRequestDeliver vf => Sys2Proof.Machine.execPageRequestDeliver vf s
  | .elementReplay core ctx => Sys2Proof.Machine.execElementReplay core ctx s
  | .longStallTimeout core ctx => Sys2Proof.Machine.execLongStallTimeout core ctx s
  | .unmapChunkReturn part => Sys2Proof.Machine.execUnmapChunkReturn part s
  | .scalarStorePerform core ctx => Sys2Proof.Machine.execScalarStorePerform core ctx s
  | .issueRound core vlsu => Sys2Proof.Machine.execIssueRound core vlsu s
  | .queueSquash core ctx => Sys2Proof.Machine.execQueueSquash core ctx s
  | .sliceEnd core ctx => Sys2Proof.Machine.execSliceEnd core ctx s
  | .partitionContextSwap part => Sys2Proof.Machine.execPartitionContextSwap part s
  | .partitionContextRestore part => Sys2Proof.Machine.execPartitionContextRestore part s
  | .braidStart part slot => Sys2Proof.Machine.execBraidStart part slot s
  | .plyPlacement part at_ => Sys2Proof.Machine.execPlyPlacement part at_ s
  | .stageEnd part slot stage => Sys2Proof.Machine.execStageEnd part slot stage s
  | .braidComplete part slot => Sys2Proof.Machine.execBraidComplete part slot s
  | .rebalanceRise part slot q => Sys2Proof.Machine.execRebalanceRise part slot q s
  | .rebalanceFull part slot q => Sys2Proof.Machine.execRebalanceFull part slot q s
  | .rebalanceDrain part slot q => Sys2Proof.Machine.execRebalanceDrain part slot q s
  | .plyReplace part src dst => Sys2Proof.Machine.execPlyReplace part src dst s
  | .coilFusionChange coil fuse => Sys2Proof.Machine.execCoilFusionChange coil fuse s
  | .barrierComplete part slot stage ply n => Sys2Proof.Machine.execBarrierComplete part slot stage ply n s
  | .xmessageReceive part grp msg => Sys2Proof.Machine.execXmessageReceive part grp msg s
  | .memberFail part grp rank => Sys2Proof.Machine.execMemberFail part grp rank s
  | .collectiveTimeout part grp rank => Sys2Proof.Machine.execCollectiveTimeout part grp rank s
  | .mirrorReference peer plane x => Sys2Proof.Machine.execMirrorReference peer plane x s
  | .packedLineReceive peer plane x => Sys2Proof.Machine.execPackedLineReceive peer plane x s
  | .linkRetry link => Sys2Proof.Machine.execLinkRetry link s
  | .linkRetrain plane ok => Sys2Proof.Machine.execLinkRetrain plane ok s
  | .createVf tag vf part tenant pol sigOk => Sys2Proof.Machine.execCreateVf tag vf part tenant pol sigOk s
  | .assign tag part coils chans => Sys2Proof.Machine.execAssign tag part coils chans s
  | .schedule tag vf slice rec_ => Sys2Proof.Machine.execSchedule tag vf slice rec_ s
  | .pause tag vf buf size => Sys2Proof.Machine.execPause tag vf buf size s
  | .resume tag vf => Sys2Proof.Machine.execResume tag vf s
  | .evictContext tag vf dest => Sys2Proof.Machine.execEvictContext tag vf dest s
  | .evictSegment tag vf seg handle => Sys2Proof.Machine.execEvictSegment tag vf seg handle s
  | .restore tag vf from_ image => Sys2Proof.Machine.execRestore tag vf from_ image s
  | .resize tag part coils chans => Sys2Proof.Machine.execResize tag part coils chans s
  | .reset tag part => Sys2Proof.Machine.execReset tag part s
  | .pageReplyGrant tag vf reqid handles => Sys2Proof.Machine.execPageReplyGrant tag vf reqid handles s
  | .pageReplyRefuse tag vf reqid => Sys2Proof.Machine.execPageReplyRefuse tag vf reqid s
  | .queryIdentifier tag vf => Sys2Proof.Machine.execQueryIdentifier tag vf s
  | .queryVfState tag vf => Sys2Proof.Machine.execQueryVfState tag vf s
  | .queryFreeChunks tag vf part => Sys2Proof.Machine.execQueryFreeChunks tag vf part s
  | .resetVf tag vf => Sys2Proof.Machine.execResetVf tag vf s
  | .powerGood => Sys2Proof.Machine.execPowerGood s
  | .stage0Complete => Sys2Proof.Machine.execStage0Complete s
  | .stage1Complete badChans => Sys2Proof.Machine.execStage1Complete badChans s
  | .stage2Complete badPorts => Sys2Proof.Machine.execStage2Complete badPorts s
  | .sensorSweep r => Sys2Proof.Machine.execSensorSweep r s
  | .illegalInstructionWord w => Sys2Proof.Machine.execIllegalInstructionWord w s
  | .fetchFault => Sys2Proof.Machine.execFetchFault s
  | .cxlMemAccess vf addr wr => Sys2Proof.Machine.execCxlMemAccess vf addr wr s
  | .hostLinkTraining port req => Sys2Proof.Machine.execHostLinkTraining port req s
  | .spdmMessage msg => Sys2Proof.Machine.execSpdmMessage msg s
  | .xredContributionReceive part grp c => Sys2Proof.Machine.execXredContributionReceive part grp c s
  | .groupMembershipMessage part grp msg => Sys2Proof.Machine.execGroupMembershipMessage part grp msg s
  | .measuredTemperature sensor milliC => Sys2Proof.Machine.execMeasuredTemperature sensor milliC s

end Sys2Proof.Machine
end

