-- ==== Sys2Proof/Machine/Schedule.lean ====
section
/-!
DEFINITION. The default schedule, when the agenda names nothing: what may act, and which of it acts next. Every order of
steps is reached by an agenda; this one only keeps a machine without one going (assumption 30).
-/
namespace Sys2Proof.Machine

/-- Every sixteenth turn, and whenever the strand that steps can do nothing, something else acts. -/
def State.due (s : State) : Bool := !s.me.live || s.waiting || s.turns % 16 == 15

/-- Steps of a core's engines and arbiters that may act. -/
noncomputable def Core.choices (c : Core) (core : Nat) (s : State) : List Choice :=
  let engine (e : Nat) : List Instr :=
    let x := c.engines.getD e {}
    match x.running with
    | none => if x.pending.isEmpty then [] else [.commandStart core e]
    | some r =>
      if r.finished then [.commandComplete core e]
      else match e with
        | 0 => (if r.mcen && !r.formed then [.multicastForm (coilOf core) r.mcgrp] else [])
            ++ (match r.unreleased with
              | g :: _ => [Instr.rowRelease core g]
              | [] => if r.outRow.isSome then [.mxeOutputRow core] else [.mxeStep core])
        | 3 => [.tsqInstructionIssue core]
        | _ => [.cpeUnit core e]
  let rounds : List Instr :=
    (if (s.roundWinner core false).isSome then [.issueRound core false] else [])
      ++ (if (s.roundWinner core true).isSome then [.issueRound core true] else [])
  (((List.range 4).map engine).flatten ++ rounds).map Choice.event

/-- Steps of a strand: its own turn, its store queue, and its parked instructions. -/
noncomputable def Strand.choices (t : Strand) (s : State) : List Choice :=
  (if t.issued.isSome || !s.stopped t then [Choice.strand t.core t.ctx] else [])
    ++ (if t.ssq.isEmpty then [] else [.event (.scalarStorePerform t.core t.ctx)])
    ++ (if (s.wokenOf t).isSome then [.event (.elementReplay t.core t.ctx)] else [])

/-- The first free pairs of a coil, by number. -/
def State.firstPairs (s : State) (coil n : Nat) : List (Nat × Nat) :=
  (((List.range 32).map (fun i => (8 * coil + i / 4, i % 4))).filter (fun x => s.pairFree x.1 x.2)).take n

/-- What a partition's dispatcher would do: place the first waiting ply, or where none can be placed what else R371 asks of it. -/
noncomputable def State.placement (s : State) (part : Nat) : List Instr :=
  let resident (v : Nat) : Bool := match s.vf? v with
    | some x => x.st == .resident
    | none => false
  let now := s.part part
  let p := { now with braids := now.braids.map (fun (b : Nat × Braid) => (b.1, b.2.refill)) }
  let other : List Instr := if p.braids == now.braids then [] else [.plyPlacement part []]
  match p.nextPly? resident with
  | none => other
  | some (_, b, ply) => match b.stages[ply.stage]? with
    | none => other
    | some d => match s.chooseCoil part b.fuse d.pairs with
      | none => other
      | some coil => [.plyPlacement part (s.firstPairs coil d.pairs)]

/-- Steps of a partition's dispatcher. -/
noncomputable def Part.choices (p : Part) (part : Nat) (s : State) : List Choice :=
  let braid (x : Nat × Braid) : List Instr :=
    (if !x.2.running && p.ready x.2 then [.braidStart part x.1] else [])
      ++ ((List.range x.2.stages.length).filter x.2.stageDone).map (fun st => .stageEnd part x.1 st)
      ++ (if x.2.complete then [.braidComplete part x.1] else [])
      ++ x.2.crossed.map (fun c => match c.1 with
        | 0 => .rebalanceRise part x.1 c.2
        | 1 => .rebalanceFull part x.1 c.2
        | _ => .rebalanceDrain part x.1 c.2)
  let replaced := match s.chooseEmpty part with
    | some dst => p.parkedCoils.map (fun src => Instr.plyReplace part src dst)
    | none => []
  ((p.braids.map braid).flatten ++ s.placement part ++ replaced ++ (if p.returning.isEmpty then [] else [Instr.unmapChunkReturn part])).map Choice.event

/-- The step that executes a capsule. -/
noncomputable def capsuleStep (c : Capsule) : Instr :=
  match c with
  | .createVf tag vf part tenant pol sigOk => .createVf tag vf part tenant pol sigOk
  | .assign tag part coils chans => .assign tag part coils chans
  | .schedule tag vf slice rec_ => .schedule tag vf slice rec_
  | .pause tag vf buf size => .pause tag vf buf size
  | .resume tag vf => .resume tag vf
  | .evictContext tag vf dest => .evictContext tag vf dest
  | .evictSegment tag vf seg handle => .evictSegment tag vf seg handle
  | .restore tag vf from_ image => .restore tag vf from_ image
  | .resize tag part coils chans => .resize tag part coils chans
  | .reset tag part => .reset tag part
  | .pageReplyGrant tag vf reqid handles => .pageReplyGrant tag vf reqid handles
  | .pageReplyRefuse tag vf reqid => .pageReplyRefuse tag vf reqid
  | .queryIdentifier tag vf => .queryIdentifier tag vf
  | .queryVfState tag vf => .queryVfState tag vf
  | .queryFreeChunks tag vf part => .queryFreeChunks tag vf part
  | .resetVf tag vf => .resetVf tag vf

/-- The capsule at the head of each mailbox's queue. -/
def State.headCapsules (s : State) : List Capsule :=
  (((s.anchor.capsules.map (fun c => c.1)).eraseDups).map (fun b => ((s.anchor.capsules.find? (fun c => c.1 == b)).map (fun c => c.2)).toList)).flatten

/-- Everything that may act. -/
noncomputable def State.choices (s : State) : List Choice :=
  (s.strands.map (fun t => t.choices s)).flatten
    ++ (s.cores.map (fun c => c.2.choices c.1 s)).flatten
    ++ (s.parts.map (fun p => p.2.choices p.1 s)).flatten
    ++ s.headCapsules.map (fun c => Choice.event (capsuleStep c))
    ++ (s.hanks.map (fun h => if h.2.rce.isEmpty then [] else [Choice.event (.rceLineRecode h.1), .event (.rcePack h.1)])).flatten
    ++ (s.vfs.map (fun v => if v.2.pgq.any (fun q => !q.delivered) then [Choice.event (.pageRequestDeliver v.1)] else [])).flatten
    ++ (s.chans.map (fun c => (if c.2.scrub.isEmpty then [] else [Choice.event (.scrubBank c.1)])
      ++ c.2.backoff.map (fun b => .event (.backoffEnd c.1 b)))).flatten

/-- One of the possible steps, each in its turn. -/
noncomputable def State.actOther (s : State) : Out :=
  let cs := s.choices
  let t := { s with turns := s.turns + 1, picks := s.picks + 1 }
  match cs[s.picks % cs.length]? with
  | none => .next t
  | some (.event i) => exec i { t with waiting := false }
  | some (.strand core ctx) => .next ({ t with waiting := false }.switchTo core ctx)
  | some .enter => .next t

end Sys2Proof.Machine
end

