-- ==== Sys2Proof/Machine/Front.lean ====
section
/-!
DEFINITION. What the front end of `me` does next (R334): fetch, decode and the checks before execution (R14, R36), the
scalar store queue, and entry into the dispatch queue; and how a program is placed for the host's checks.
-/
namespace Sys2Proof.Machine

/-! ## Waiting for a scalar result of a vector instruction (R274) -/

/-- Scalar registers that a word names of an instruction that may run ahead (R337). -/
def scalarRegs (w : Code) : List (BitVec 5) :=
  let o := opOf w
  if (1 ≤ o ∧ o ≤ 0x0F) ∨ (0x20 ≤ o ∧ o ≤ 0x28) then [fld w 19 5, fld w 14 5, fld w 9 5]
  else if 0x1D ≤ o ∧ o ≤ 0x1F then [fld w 19 5, fld w 14 5, fld w 9 5, fld w 4 5]
  else if (0x10 ≤ o ∧ o ≤ 0x1C) ∧ o ≠ 0x19 then [fld w 19 5, fld w 14 5]
  else if (0x29 ≤ o ∧ o ≤ 0x33) ∨ o = 0x36 ∨ (0x40 ≤ o ∧ o ≤ 0x47) then [fld w 19 5, fld w 14 5]
  else if o = 0x35 then [31]
  else if o = 0x37 ∨ o = 0x4C then [fld w 19 5]
  else if o = 0x4F then [fld w 14 5]
  else if o = 0x72 ∨ o = 0x7B then [fld w 7 5]
  else []

/-- Scalar registers that a vector instruction may capture (R22, R334). -/
def capturedRegs (w : Code) : List (BitVec 5) :=
  if 0xC0 ≤ opOf w then [fld w 14 5, fld w 9 5] else [fld w 12 5, fld w 7 5]

/-- The scalar register that a vector instruction writes when it completes (R274). -/
def scalarDest (i : Instr) : Option (BitVec 5) :=
  let w := encode i
  let o := opOf w
  if o = 0x82 ∨ o = 0xAE ∨ o = 0xAF ∨ (0xB0 ≤ o ∧ o ≤ 0xB4) ∨ o = 0xB7 then some (fld w 17 5) else none

/-- An instruction waits for an older vector instruction that writes a scalar register it names (R274; assumption 29). -/
def Strand.awaits (t : Strand) (w : Code) (vec : Bool) : Bool :=
  let rs := if vec then capturedRegs w else scalarRegs w
  t.uncompleted.any (fun e => match scalarDest e.instr with
    | some d => d != 0 && rs.contains d
    | none => false)

/-! ## The checkpoint log (R336) -/

/-- The log has not room for `n` more records of registers and FCSR; the journal head's record is no part of it. -/
def Strand.logFull (t : Strand) (n : Nat) : Bool :=
  t.older && decide (64 < (t.ckpt.filter (fun r => r.what != 33)).length + n)

/-- A run-ahead instruction that may write FCSR beside its register: scalar floating-point operations, loads (R189), DIV and REM (R340),
and ADD, SUB and MUL that saturate. -/
def flagging (w : Code) : Bool :=
  let o := opOf w
  decide ((0x20 ≤ o ∧ o ≤ 0x2A) ∨ (0x40 ≤ o ∧ o ≤ 0x43) ∨ o = 5 ∨ o = 6 ∨ ((1 ≤ o ∧ o ≤ 3) ∧ fld w 2 2 ≠ 0))

/-! ## The turn -/

/-- What a strand's front end does next: run an instruction, or an outcome of its own. -/
inductive Turn where
  | run (i : Instr) (s : State)
  | out (o : Out)

/-- A vector instruction enters the DQ (a full one stalls the front end, R334). Unless `enter` says that it only enters, an
instruction with nothing before it has its unit's arbiter hold a round at once, and runs if it wins. -/
def State.frontVector (s : State) (i : Instr) (enter : Bool) : Turn :=
  if 32 ≤ s.me.dq.length then .out (blocked s)
  else if enter || s.me.older then .out (.next (s.enterDq i))
  else
    let t := (s.enterDq i).holdRound s.me.core (toVlsu i)
    match t.me.issued with
    | some e => .run e.instr t
    | none => .out (.next t)

/-- The instruction is a LIMM. -/
def Instr.isLimm : Instr → Bool
  | .limm .. => true
  | _ => false

/-- An instruction that decodes, at the front end. A pending ENGINE_FAULT comes after its decode causes; a LIMM is one instruction
with its consumer, whose causes come first (R31, R378). -/
def State.frontInstr (s : State) (i : Instr) (w : Code) (enter : Bool) : Turn :=
  match s.decodeCause i w with
  | some c => .out (if s.me.older then blocked s else s.takeTrap { cause := c, val := w.setWidth 64 })
  | none =>
    if !s.me.asyncFaults.isEmpty && !s.me.pm && !Instr.isLimm i then .run .engineFaultTrap s
    else if s.me.awaits w (isVector i) then .out (blocked s)
    else if isVector i then s.frontVector i enter
    else if s.me.logFull (if flagging w then 2 else 1) then .out (blocked s)
    else .run i s

/-- The front end's turn: a signal still to be given, the queued scalar stores that may be performed (R335), then the next
instruction. A full checkpoint log stalls, and an instruction that the log has not room for (R336). -/
noncomputable def State.front (s : State) (enter : Bool) : Turn :=
  if s.stopped s.me then .out (blocked s)
  else match s.me.sigPend with
  | some pc => .out (s.signalled.retire 2 (pc, s.me.fellOff))
  | none =>
    let s := s.performAll
    if s.me.logFull 1 then .out (blocked s)
    else
      match s.fetch with
      | .fault _ _ _ => .run .fetchFault s
      | .park _ _ => .run .fetchFault s
      | .word t link w =>
        let t := { t with me := { t.me with link := link, held := none, anchorHold := false } }
        match decodeStrand w with
        | .error _ => .run (.illegalInstructionWord w) t
        | .ok i => t.frontInstr i w enter

/-- The turn of `me`: a dispatched vector instruction first, else the front end. -/
noncomputable def State.turn (s : State) (enter : Bool) : Turn :=
  match s.me.issued with
  | some e => .run e.instr s
  | none => s.front enter

/-- Steps that only another step of the machine causes: an event of theirs does nothing by itself. -/
def Instr.caused : Instr → Bool
  | .jrnlbaseWrite .. => true
  | .qcfgWrite .. => true
  | .tkselWrite .. => true
  | .scopestWrite .. => true
  | .sqendWrite .. => true
  | .trapstatusWrite .. => true
  | .s1rootWrite .. => true
  | .illegalInstructionWord .. => true
  | .fitCheckedWrite .. => true
  | .segmentSwitch .. => true
  | .engineFaultTrap .. => true
  | .fetchFault .. => true
  | _ => false

/-- An event that may happen by itself. -/
def Instr.spontaneous (i : Instr) : Bool := i.isEvent && !Instr.caused i

/-- A dispatched vector instruction that waits, and has had no effect, goes back to the head of the DQ; the front end goes on
(R116, R334). -/
def State.settle (s : State) : State :=
  if s.waiting && s.me.issued.isSome && !s.me.dispatched then { s with waiting := false, me := s.me.unissue } else s

/-! ## A program placed for the host's checks (assumption 1) -/

/-- The strand that runs it: context 0 of core 0, an ACC of function 0 in partition 0. -/
def loadStrand : Strand :=
  { live := true, pc := 0x4, ckpt := [] }

/-- Its function. -/
def loadPolicy : Policy :=
  { version := 1, reservedSet := false, maxScope := true, hostOps := 0, preempt := 0, bwWeight := 0, demFmt := 0, pgTmo := 0,
    reserve := 0, trapVec := 0, ceil := 7, windows := [] }

def loadVf : Vf :=
  { st := .resident, policy := loadPolicy,
    segs := [(0, { rd := true, wr := true, ex := true, lw := 64, pw := 64, chunks := List.range 16 })] }

/-- Its translation: virtual segment 0 is intermediate segment 0. -/
def loadTlb : TlbEntry :=
  { vf := 0, vseg := 0, rd := true, wr := true, ex := true, priv := false, lw := 64, pw := 64, dem := 0, dfmt := 0,
    strict := false, near := false, shadowed := false, iseg := 0, chunks := List.range 16 }

/-- Its partition: coil 0 and channel 0. -/
def loadPart : Part := { tenant := some 0, coils := [0], chans := [0], used := List.range 16 }

/-- Place a strand's word in slot 1 of the code line at address 0: END, LAST 15, zeros after it. -/
def State.placeWord (s : State) (w : Nat) : State :=
  { s with
    me := loadStrand
    vfs := put s.vfs 0 loadVf
    parts := put s.parts 0 loadPart
    cores := upd s.cores 0 {} (fun c => { c with tlb := [loadTlb] })
    mem := memPutNat s.mem 0 (0x1F000000 + w * 2 ^ 32) 8
    tags := put s.tags 0 (mkTag 17 127 0 false)
    anchor := { s.anchor with stage := 4 }
    waiting := false
    turns := 0
    agenda := [] }

/-- Place a word of a transform-sequencer program at word 0 of core 0's sequencer, started by a command. -/
noncomputable def State.placeTsqWord (s : State) (w : Nat) : State :=
  let s := s.placeWord 0
  let run : RunCmd := { ctx := 0, num := 1, vf := 0, part := 0, braid := 0, image := 0, priv := false, arg := 0, prog := 0,
                        regs := List.replicate 16 0, dice := 0, checked := true }
  { s with
    cores := upd s.cores 0 {} (fun c => { c with
      tsq := { c.tsq with imem := [(0, BitVec.ofNat 32 w)], st := 1 }
      engines := c.engines.setIfInBounds 3 { running := some run } })
    agenda := [.event (.tsqInstructionIssue 0)] }

/-- Place the word where the next step takes it from. -/
noncomputable def State.placeProgram (s : State) (nbits w : Nat) : State :=
  match decodeStrand (BitVec.ofNat 32 w), decodeTsq (BitVec.ofNat 32 w) with
  | .error _, .ok _ => s.placeTsqWord w
  | _, _ => if nbits ≤ 32 then s.placeWord (w % 2 ^ 32) else s

end Sys2Proof.Machine
end

