-- ==== Sys2Proof/Machine/Step.lean ====
section
/-!
DEFINITION. One step of the machine: the head of the agenda acts, or what is by default next; and the placing of a word.
-/
namespace Sys2Proof.Machine

/-- What a step answers after an instruction of `me` (State.settle). -/
def settled (o : Host.Outcome State Fault Refusal) : Host.Outcome State Fault Refusal :=
  match o with
  | .next s => .next s.settle
  | o => o

/-- Run the turn of `me`. -/
noncomputable def State.takeTurn (s : State) (enter : Bool) : Host.Outcome State Fault Refusal :=
  match s.turn enter with
  | .run i t => settled (exec i t)
  | .out o => o

/-- What a step answers: in its state, commands that have become startable have their places (R209). -/
def readied (o : Host.Outcome State Fault Refusal) : Host.Outcome State Fault Refusal :=
  match o with
  | .next s => .next s.markReady
  | o => o

/-- What acts in a step. -/
noncomputable def State.act (s : State) : Host.Outcome State Fault Refusal :=
  match s.agenda with
  | c :: rest =>
    let t := { s with agenda := rest, waiting := false }
    match c with
    | .event i =>
      if s.anchor.powered || i == .powerGood then
        if Instr.spontaneous i then exec i t else .next t
      else .fault .powerRemoved
    | .strand core ctx => if s.anchor.powered then .next (t.switchTo core ctx) else .fault .powerRemoved
    | .enter =>
      if !s.anchor.powered then .fault .powerRemoved
      else if s.me.live then t.takeTurn true else .next t
  | [] =>
    if !s.anchor.powered then .fault .powerRemoved
    else if s.due then s.actOther
    else { s with turns := s.turns + 1 }.takeTurn false

/-- One step. -/
noncomputable def step (s : State) : Host.Outcome State Fault Refusal := readied s.act

/-- `s` with the instruction of bits `w` where the next step runs it (assumption 1). -/
noncomputable def State.withFetchWord (s : State) (nbits w : Nat) : State := s.placeProgram nbits w

end Sys2Proof.Machine
end

