-- ==== Sys2Proof/Safety.lean ====
section
/-!
DEFINITION. What counts as a safe step and a safe state, in the terms the statements use.
-/
namespace Sys2Proof

/-- The step neither faults nor refuses. -/
def Safety.runs (o : Host.Outcome Machine.State Machine.Fault Machine.Refusal) : Bool :=
  match o with
  | .next _ => true
  | .fault _ => false
  | .refused _ => false

end Sys2Proof

namespace Sys2Proof.Machine

/-- An instruction with token field `t` issues now, and its signal has room (R34, R337); `ahead` says that it may run ahead
of older vector instructions. -/
def State.ready (s : State) (t : BitVec 2) (ahead : Bool) : Bool :=
  s.me.sigPend.isNone && s.issueCheck t ahead == .go && s.canGive t

/-- The instruction retires: its signal is given, and the strand goes on at the sequential successor (R12, R34). -/
def State.retired (s : State) (t : BitVec 2) : State := (s.giveToken t).finish s.me.succ

/-- It retires, and the strand goes on at a code address. -/
def State.retiredTo (s : State) (t : BitVec 2) (pc : Word) : State := (s.giveToken t).finish (pc, false)

/-- The instruction's effect is done, and it retires, or holds its signal while the FIFO that takes it is full (R34). -/
def State.retires (s : State) (t : BitVec 2) : State :=
  if s.canGive t then s.retired t
  else { s with waiting := true, me := { s.me with sigPend := some s.me.succ.1, fellOff := if s.me.issued.isSome then s.me.fellOff else s.me.succ.2 } }

/-- No channel has a scrub or reads of its own to finish, and each bank's copy of a line holds the bytes that its slice holds. -/
def State.banksQuiet (s : State) : Prop :=
  ∀ g, (s.chan g).scrub = [] ∧ (s.chan g).queue = []
    ∧ ∀ off b, (s.chan g).bank.lookup off = some b → b.1 = memLine s.mem (128 * (g * 2 ^ 25 + off))

/-- No L1 set that is full would give up a dirty line (R27, R132). -/
def State.evictsClean (s : State) : Prop := ∀ c key l, (s.core c).l1Victim? key = some l → l.dirty = 0

/-- What translating an address, or reading a line, leaves: every pair and, unless a full L1 set gives up a dirty line for it, every
strand, and every byte of memory too where no bank that the access reaches has a scrub or a read of its own to finish first (R99,
R101). -/
def State.readsOnly (s u : State) : Prop :=
  u.me = { s.me with links := u.me.links } ∧ u.pairs = s.pairs
  ∧ (s.evictsClean → u.me = s.me ∧ u.others = s.others
      ∧ (s.banksQuiet → Memory.wf s.mem = true → ∀ b, memGet u.mem b = memGet s.mem b))

/-- What writing a line leaves of the strands: all but their links. -/
def State.writesOnly (s u : State) : Prop := u.me = { s.me with links := u.me.links } ∧ u.pairs = s.pairs

/-- No exception of FCSR is enabled (R74). -/
def Strand.noTraps (t : Strand) : Bool := t.fcsr.toNat / 2 ^ 8 % 2 ^ 6 == 0

/-- What a vector instruction that writes rows may change: rows, FCSR with its checkpoint records, and the start point. -/
def State.rowsOnly (s u : State) : Prop :=
  u = { s with
    me := { s.me with rows := u.me.rows, fcsr := u.me.fcsr, ckpt := u.me.ckpt, vstart := 0, rstart := 0 }
    freeCtr := u.freeCtr }

/-- Rows outside the group of `n` rows from `d` are unchanged. -/
def State.rowsKept (s u : State) (d n : Nat) : Prop := ∀ v, v < d ∨ d + n ≤ v → u.me.row v = s.me.row v

/-- What a vector instruction that writes one scalar register may change (R274). -/
def State.scalarOnly (s u : State) (d : BitVec 5) : Prop :=
  u = { s with
    me := { s.me with regs := u.me.regs, fcsr := u.me.fcsr, ckpt := u.me.ckpt, vstart := 0, rstart := 0 }
    freeCtr := u.freeCtr }
  ∧ ∀ r : BitVec 5, r ≠ d → u.me.reg r = s.me.reg r

/-- What a vector instruction that writes one mask may change, beside the start point. -/
def State.maskOnly (s u : State) (k : Nat) : Prop :=
  u = { s with
    me := { s.me with masks := u.me.masks, fcsr := u.me.fcsr, ckpt := u.me.ckpt } }
  ∧ ∀ j, j ≠ k → u.me.mask j = s.me.mask j

/-! ## Element-wise vector instructions -/

/-- The groups whose elements an element of the result is computed from. -/
def Elementwise.groups (x : Elementwise) : List (BitVec 5) := if x.selfOp then x.srcs ++ [x.d] else x.srcs

/-- Tags of the operand rows of row `r`. -/
def Elementwise.tagsAt (x : Elementwise) (s : State) (r : Nat) : List Tag := x.groups.map (fun g => s.me.tag (g.toNat + r))

/-- A POISON row takes part in row `r`: an operand, or the destination's when some of its elements stay (R75, R77). -/
def Elementwise.poisoned (x : Elementwise) (s : State) (r : Nat) : Bool :=
  !x.plain && (if s.me.retains x.k r && !x.selfOp then x.tagsAt s r ++ [s.me.tag (x.d.toNat + r)] else x.tagsAt s r).any
    (fun t => classOf t == 2)

/-- Result of element `e` of row `r` under result tag `t`, from the rows as they stand. -/
def Elementwise.result (x : Elementwise) (s : State) (r e : Nat) (t : Tag) : ElemRes :=
  x.op s (x.tagsAt s r) (withClass t (if x.poisoned s r then 2 else 0))
    ((x.groups.zip (x.tagsAt s r)).map (fun g => rowCode (s.me.row (g.1.toNat + r)).bits g.2 s.me.sewBits e)) (s.me.rounding x.m r e)

/-- The vector configuration is one that VSETL makes: a group fits its rows, and the start point lies in it (R242–R248). -/
def Strand.configured (t : Strand) : Bool :=
  decide (t.slices ≤ 8) && decide (t.vl ≤ t.vlmax) && decide (t.vstart ≤ t.vl) && decide (t.rstart < t.rc) && decide (t.rc ≤ 8)

/-- Code of group element `j` of the group at row `v`, zero in a ZERO row (R52, R177). -/
def State.code (s : State) (v j : Nat) : Nat :=
  let row := s.me.row (v + j / s.me.vl)
  rowCode row.bits row.tag s.me.sewBits (j % s.me.vl)

/-- Group element `j` of the group at row `v` as it stands in `u`, read with the configuration of `s`. -/
def State.slot (s u : State) (v j : Nat) : Nat := getElem_ (u.me.row (v + j / s.me.vl)).bits s.me.sewBits (j % s.me.vl)

/-- Every element that `vals` names of the group at `d` holds its code, in the container of its row's format; every other
element of the group stays; the rows have the FMT and BSC that `tags` gives. -/
def State.wrote (s u : State) (d : Nat) (tags : Nat → Tag) (vals : Nat → Option Nat) : Prop :=
  s.rowsOnly u ∧ s.rowsKept u d s.me.rc
  ∧ (∀ j, j < s.me.count → s.slot u d j = match vals j with
      | some c => c % 2 ^ (s.myCtx).cw (fmtOf (tags (j / s.me.vl))) s.me.sewBits
      | none => s.slot s d j)
  ∧ ∀ r, r < s.me.rc → fmtOf (u.me.tag (d + r)) = fmtOf (tags r) ∧ bscOf (u.me.tag (d + r)) = bscOf (tags r)

/-- The three forms of an arithmetic instruction. -/
noncomputable def arithForms (vv vs vi : BitVec 5 → BitVec 5 → BitVec 5 → BitVec 3 → BitVec 2 → BitVec 2 → Instr) (o : ArithOp)
    (d a b : BitVec 5) (k : BitVec 3) (m t : BitVec 2) (s : State) : List (Instr × Elementwise) :=
  [(vv d a b k m t, arithX o (srcVV b s) d a k m), (vs d a b k m t, arithX o (srcVS b s) d a k m),
   (vi d a b k m t, arithX o (srcVI b s) d a k m)]

/-- The three forms of a logic or shift instruction. -/
noncomputable def bitForms (vv vs vi : BitVec 5 → BitVec 5 → BitVec 5 → BitVec 3 → BitVec 2 → Instr) (x : Src → Elementwise)
    (d a b : BitVec 5) (k : BitVec 3) (t : BitVec 2) (s : State) : List (Instr × Elementwise) :=
  [(vv d a b k t, x (srcVV b s)), (vs d a b k t, x (srcVS b s)), (vi d a b k t, x (srcVI b s))]

/-- Every element-wise instruction with what it does to an element (R268–R271, R278–R280, R282). -/
noncomputable def elementForms (d a b : BitVec 5) (k : BitVec 3) (m t : BitVec 2) (s : State) : List (Instr × Elementwise) :=
  arithForms .vaddVv .vaddVs .vaddVi .add d a b k m t s ++ arithForms .vsubVv .vsubVs .vsubVi .sub d a b k m t s
  ++ arithForms .vmulVv .vmulVs .vmulVi .mul d a b k m t s ++ arithForms .vfmaVv .vfmaVs .vfmaVi .fma d a b k m t s
  ++ arithForms .vfmsVv .vfmsVs .vfmsVi .fms d a b k m t s ++ arithForms .vfnmaVv .vfnmaVs .vfnmaVi .fnma d a b k m t s
  ++ arithForms .vdivVv .vdivVs .vdivVi .div d a b k m t s ++ arithForms .vminVv .vminVs .vminVi .min d a b k m t s
  ++ arithForms .vmaxVv .vmaxVs .vmaxVi .max d a b k m t s ++ arithForms .vmulhVv .vmulhVs .vmulhVi .mulh d a b k m t s
  ++ [(.vsqrt d a k m t, arithX .sqrt (srcVV 0 s) d a k m), (.vabs d a k m t, arithX .abs (srcVV 0 s) d a k m),
      (.vneg d a k m t, arithX .neg (srcVV 0 s) d a k m), (.vrsqrt d a k m t, arithX .rsqrt (srcVV 0 s) d a k m),
      (.vexp2 d a k m t, arithX .exp2 (srcVV 0 s) d a k m), (.vlog2 d a k m t, arithX .log2 (srcVV 0 s) d a k m),
      (.vround d a k m t, roundX d a k m), (.vcvt d a b k m t, cvtX ((s.capB b).toNat % 64) d a k m),
      (.vscale d a b k m t, scaleX (s.capB b).toNat d a k m), (.vclass d a k t, classX d a k), (.vnot d a k t, notX d a k)]
  ++ bitForms .vandVv .vandVs .vandVi (fun x => logicX (fun p q => p &&& q) x d a k) d a b k t s
  ++ bitForms .vorVv .vorVs .vorVi (fun x => logicX (fun p q => p ||| q) x d a k) d a b k t s
  ++ bitForms .vxorVv .vxorVs .vxorVi (fun x => logicX (fun p q => p ^^^ q) x d a k) d a b k t s
  ++ bitForms .vshlVv .vshlVs .vshlVi (fun x => shiftX shlCode x d a k) d a b k t s
  ++ bitForms .vshrVv .vshrVs .vshrVi (fun x => shiftX shrCode x d a k) d a b k t s
  ++ bitForms .vsraVv .vsraVs .vsraVi (fun x => shiftX sraCode x d a k) d a b k t s

end Sys2Proof.Machine
end

