-- ==== Sys2Proof/Certificates/Slice0/Obligations.lean ====
section
/-!
DEFINITION. The statements for the provers, each with the rule of spec/ it formalises.
-/

open Sys2Proof Sys2Proof.Machine

/-- ADD, SUB, MUL, MULH, DIV and REM give their results and retire (R340). For every state in which the instruction
issues, every operand, sign form and token field: ADD, SUB and MUL answer the state in which only sd holds the result
and the strand goes on; without SAT the result wraps modulo 2^64; with SAT it is the exact result in range with no
flag, else the bound of the range with FCSR.SAT. For every state in which the instruction issues: MULH writes bits 127
to 64 of the product; DIV and REM by zero write all ones and the dividend and set FCSR.IDZ; otherwise DIV truncates
toward zero, REM keeps the dividend's sign, -2^63 by -1 gives -2^63 and 0, and no flag changes. -/
def Obligations.ScalarArithmetic : Prop :=
  (∀ (s : State) (d a b : BitVec 5) (u : BitVec 1) (t : BitVec 2), s.ready t true = true →
    let w := s.takeToken t
    let sum (i : Instr) (wrap : Word) := exec i s = .next ((w.setReg d wrap).retired t)
    let int (r : BitVec 5) : Int := if u = 1 then ((s.reg r).toNat : Int) else (s.reg r).toInt
    let lo : Int := if u = 1 then 0 else -2 ^ 63
    let hi : Int := if u = 1 then 2 ^ 64 - 1 else 2 ^ 63 - 1
    let clamps (i : Instr) (x : Int) :=
      (x < lo → exec i s = .next (((w.raise flagSAT).setReg d (BitVec.ofInt 64 lo)).retired t))
      ∧ (hi < x → exec i s = .next (((w.raise flagSAT).setReg d (BitVec.ofInt 64 hi)).retired t))
      ∧ (lo ≤ x → x ≤ hi → exec i s = .next ((w.setReg d (BitVec.ofInt 64 x)).retired t))
    sum (.add d a b u 0 t) (s.reg a + s.reg b) ∧ sum (.sub d a b u 0 t) (s.reg a - s.reg b)
      ∧ sum (.mul d a b u 0 t) (s.reg a * s.reg b)
      ∧ clamps (.add d a b u 1 t) (int a + int b) ∧ clamps (.sub d a b u 1 t) (int a - int b)
      ∧ clamps (.mul d a b u 1 t) (int a * int b))
  ∧ (∀ (s : State) (d a b : BitVec 5) (u : BitVec 1) (t : BitVec 2), s.ready t true = true →
    let w := s.takeToken t
    let int (r : BitVec 5) : Int := if u = 1 then ((s.reg r).toNat : Int) else (s.reg r).toInt
    exec (.mulh d a b u t) s = .next ((w.setReg d (BitVec.ofInt 64 (int a * int b / 2 ^ 64))).retired t)
    ∧ (s.reg b = 0 →
        exec (.div d a b u t) s = .next (((w.raise flagIDZ).setReg d (BitVec.allOnes 64)).retired t)
        ∧ exec (.rem d a b u t) s = .next (((w.raise flagIDZ).setReg d (s.reg a)).retired t))
    ∧ (s.reg b ≠ 0 →
        exec (.div d a b u t) s = .next ((w.setReg d (BitVec.ofInt 64 ((int a).tdiv (int b)))).retired t)
        ∧ exec (.rem d a b u t) s = .next ((w.setReg d (BitVec.ofInt 64 (int a - (int a).tdiv (int b) * int b))).retired t))
    ∧ (u = 0 → (s.reg a).toInt = -2 ^ 63 → (s.reg b).toInt = -1 →
        exec (.div d a b u t) s = .next ((w.setReg d (s.reg a)).retired t)
        ∧ exec (.rem d a b u t) s = .next ((w.setReg d 0).retired t)))

/-- Logic, selection, comparison and shift instructions write sd and nothing else (R340, R342, R341). For every state in
which the instruction issues and every operand, the bitwise, comparing and selecting instructions answer the state in
which sd holds the value of Tables 2 and 4 and the strand goes on. For every state in which the instruction issues:
bit j of the result of SHL, SHR and SRA (and of SHLI, SHRI and SRAI with the immediate, extended by a LIMM if one
stands before) is the bit that the shift moves there, zero or the sign where none does. -/
def Obligations.ScalarLogicAndShifts : Prop :=
  (∀ (s : State) (d a b c : BitVec 5) (u : BitVec 1) (t : BitVec 2), s.ready t true = true →
    let gives (i : Instr) (v : Word) := exec i s = .next (((s.takeToken t).setReg d v).retired t)
    let less (x y : Word) : Prop := if u = 1 then x.toNat < y.toNat else x.toInt < y.toInt
    gives (.and d a b t) (s.reg a &&& s.reg b) ∧ gives (.or d a b t) (s.reg a ||| s.reg b)
    ∧ gives (.xor d a b t) (s.reg a ^^^ s.reg b)
    ∧ (less (s.reg b) (s.reg a) → gives (.min d a b u t) (s.reg b) ∧ gives (.max d a b u t) (s.reg a) ∧ gives (.slt d a b u t) 0)
    ∧ (less (s.reg a) (s.reg b) → gives (.min d a b u t) (s.reg a) ∧ gives (.max d a b u t) (s.reg b) ∧ gives (.slt d a b u t) 1)
    ∧ (s.reg a = s.reg b → gives (.min d a b u t) (s.reg a) ∧ gives (.max d a b u t) (s.reg a) ∧ gives (.slt d a b u t) 0)
    ∧ (s.reg a ≠ 0 → gives (.sel d a b c t) (s.reg b)) ∧ (s.reg a = 0 → gives (.sel d a b c t) (s.reg c)))
  ∧ (∀ (s : State) (d a b : BitVec 5) (imm : BitVec 12) (t : BitVec 2), s.ready t true = true →
    let gives (i : Instr) (f : Nat → Bool) :=
      ∃ v : Word, exec i s = .next (((s.takeToken t).setReg d v).retired t) ∧ ∀ j, j < 64 → v.getLsbD j = f j
    let x := s.reg a
    let left (n : Nat) (j : Nat) : Bool := decide (n ≤ j) && x.getLsbD (j - n)
    let right (n : Nat) (j : Nat) : Bool := decide (j + n < 64) && x.getLsbD (j + n)
    let arith (n : Nat) (j : Nat) : Bool := if j + n < 64 then x.getLsbD (j + n) else x.getLsbD 63
    let n := (s.reg b).toNat % 64
    let k := (s.immSI imm).toNat % 64
    gives (.shl d a b t) (left n) ∧ gives (.shr d a b t) (right n) ∧ gives (.sra d a b t) (arith n)
    ∧ gives (.shli d a imm t) (left k) ∧ gives (.shri d a imm t) (right k) ∧ gives (.srai d a imm t) (arith k))

/-- ADDI, ANDI, ORI, XORI, SLTI and MOVHI, with a LIMM or without (R31, R341). For every state in which the instruction
issues at the front end: the immediate is imm12 sign-extended, or with a LIMM just before it the 36 bits imm24 then
imm12 sign-extended; each instruction answers the state in which sd holds its value of Table 3; MOVHI takes no LIMM. -/
def Obligations.ScalarImmediates : Prop :=
  ∀ (s : State) (d a : BitVec 5) (imm : BitVec 12) (t : BitVec 2), s.ready t true = true → s.me.issued = none →
    let gives (i : Instr) (v : Word) := exec i s = .next (((s.takeToken t).setReg d v).retired t)
    let x : Int := match s.me.limm with
      | none => imm.toInt
      | some l => l.1.toInt * 2 ^ 12 + imm.toNat
    let v : Word := BitVec.ofInt 64 x
    gives (.addi d a imm t) (s.reg a + v) ∧ gives (.andi d a imm t) (s.reg a &&& v) ∧ gives (.ori d a imm t) (s.reg a ||| v)
    ∧ gives (.xori d a imm t) (s.reg a ^^^ v)
    ∧ ((s.reg a).toInt < x → gives (.slti d a imm t) 1) ∧ (x ≤ (s.reg a).toInt → gives (.slti d a imm t) 0)
    ∧ gives (.movhi d a imm t) (BitVec.ofNat 64 ((s.reg a).toNat * 2 ^ 12 + imm.toNat))

/-- CLZ, CTZ, POPC, BFX, BFI and SEXT give the bits of Table 4 (R342). For every state in which the instruction issues:
CLZ and CTZ write the number of leading and trailing zero bits (64 for zero), POPC the number of set bits, BFX the
field zero-extended, BFI sd with the field replaced, SEXT the low 8, 16 or 32 bits sign-extended. -/
def Obligations.ScalarBits : Prop :=
  ∀ (s : State) (d a b c : BitVec 5) (k t : BitVec 2), s.ready t true = true →
    let gives (i : Instr) (p : Word → Prop) := ∃ v : Word, exec i s = .next (((s.takeToken t).setReg d v).retired t) ∧ p v
    let x := s.reg a
    let p := (s.reg b).toNat % 64
    let w := min (s.reg c).toNat (64 - p)
    gives (.clz d a t) (fun v => v.toNat ≤ 64 ∧ (∀ j, j < 64 → 64 ≤ j + v.toNat → x.getLsbD j = false)
      ∧ (v.toNat < 64 → x.getLsbD (63 - v.toNat) = true))
    ∧ gives (.ctz d a t) (fun v => v.toNat ≤ 64 ∧ (∀ j, j < v.toNat → x.getLsbD j = false)
      ∧ (v.toNat < 64 → x.getLsbD v.toNat = true))
    ∧ gives (.popc d a t) (fun v => v.toNat = ((List.range 64).filter (fun j => x.getLsbD j)).length)
    ∧ gives (.bfx d a b c t) (fun v => ∀ j, j < 64 → v.getLsbD j = (decide (j < w) && x.getLsbD (p + j)))
    ∧ gives (.bfi d a b c t) (fun v => ∀ j, j < 64 →
        v.getLsbD j = if p ≤ j ∧ j < p + w then x.getLsbD (j - p) else (s.reg d).getLsbD j)
    ∧ (k ≠ 3 → gives (.sext d a k t) (fun v => ∀ j, j < 64 → v.getLsbD j = x.getLsbD (min j (8 * 2 ^ k.toNat - 1))))

/-- NOP only gives and takes tokens; LIMM holds 24 bits for its successor (R31, R35). Where it issues, NOP answers the
state whose strand has gone on, with its tokens taken and given. LIMM answers the state whose strand has gone on
holding imm24 and the LIMM's own address. -/
def Obligations.NopAndLimm : Prop :=
  ∀ (s : State) (imm : BitVec 24) (t : BitVec 2),
    (s.ready t true = true → exec (.nop t) s = .next ((s.takeToken t).retired t))
    ∧ exec (.limm imm) s = .next { s with
        waiting := false
        me := { s.me with limm := some (imm, s.me.pc), pc := s.me.succ.1, fellOff := s.me.succ.2, atVec := false } }

/-- BEQ, BNE, BLT, BGE and BNZD branch exactly when their relation holds (R345). For every state in which the instruction
issues: when the signed relation holds the strand goes on at the line of the branch plus the offset in lines, at the
slot; otherwise at the sequential successor; BNZD first decrements sa, and with s0 always branches; its sb field must
be zero. -/
def Obligations.Branches : Prop :=
  ∀ (s : State) (a b : BitVec 5) (o : BitVec 8) (slot : BitVec 4) (t : BitVec 2), s.ready t true = true →
    let w := s.takeToken t
    let tgt : Word := s.me.pc - BitVec.ofNat 64 (s.me.pc.toNat % 64) + BitVec.ofInt 64 (64 * o.toInt) + BitVec.ofNat 64 (4 * slot.toNat)
    let decides (i : Instr) (c : Prop) := (c → exec i s = .next (w.retiredTo t tgt)) ∧ (¬c → exec i s = .next (w.retired t))
    decides (.beq a b o slot t) (s.reg a = s.reg b) ∧ decides (.bne a b o slot t) (s.reg a ≠ s.reg b)
    ∧ decides (.blt a b o slot t) ((s.reg a).toInt < (s.reg b).toInt) ∧ decides (.bge a b o slot t) ((s.reg b).toInt ≤ (s.reg a).toInt)
    ∧ (a ≠ 0 → s.reg a ≠ 1 → exec (.bnzd a o slot t) s = .next ((w.setReg a (s.reg a - 1)).retiredTo t tgt))
    ∧ (a ≠ 0 → s.reg a = 1 → exec (.bnzd a o slot t) s = .next ((w.setReg a 0).retired t))
    ∧ (a = 0 → s.reg 0 = 0 → exec (.bnzd a o slot t) s = .next ((w.setReg 0 (BitVec.allOnes 64)).retiredTo t tgt))
    ∧ (∀ c : Code, opOf c = 0x37 → fld c 14 5 ≠ 0 → decodeStrand c = .error .nonzeroField)

/-- JMP, CALL and JR go to their target and keep the successor's address (R12, R21, R346, R347). For every state in which
the instruction issues: JMP goes to the target of R21; CALL writes s31 with the sequential successor's address, or
past LAST of an END line where there is none; JR writes sd so and goes to s[sa] as it was before, whatever address
that is; its other fields must be zero. -/
def Obligations.Jumps : Prop :=
  ∀ (s : State) (d a : BitVec 5) (o : BitVec 18) (slot : BitVec 4) (t : BitVec 2), s.ready t true = true →
    let w := s.takeToken t
    let line : Word := s.me.pc - BitVec.ofNat 64 (s.me.pc.toNat % 64)
    let tgt : Word := line + BitVec.ofInt 64 (64 * o.toInt) + BitVec.ofNat 64 (4 * slot.toNat)
    let last := s.me.link.toNat / 2 ^ 24 % 16
    let next : Word :=
      if s.me.pc.toNat / 4 % 16 < last then s.me.pc + 4
      else if s.me.link.getLsbD 28 then line + BitVec.ofNat 64 (4 * (last + 1))
      else s.me.image + BitVec.ofNat 64 (64 * (s.me.link.toNat % 2 ^ 24) + 4)
    exec (.jmp o slot t) s = .next (w.retiredTo t tgt)
    ∧ exec (.call o slot t) s = .next ((w.setReg 31 next).retiredTo t tgt)
    ∧ exec (.jr d a t) s = .next ((w.setReg d next).retiredTo t (s.reg a))
    ∧ (∀ c : Code, opOf c = 0x36 → c &&& 0x3FFC ≠ 0 → decodeStrand c = .error .nonzeroField)

/-- BRK and TRAP take their trap with TRAPVAL holding imm12 (R348). At the front end with nothing older outstanding, where
the instruction issues: BRK takes BREAKPOINT with TRAPPC at the instruction, TRAP takes SOFTWARE with TRAPPC at the
sequential successor, TKW 0 and its signal pushed; both hold imm12 zero-extended in TRAPVAL, PPM the old mode, P-mode,
no element place, and go on at TRAPVEC. -/
def Obligations.SoftwareTraps : Prop :=
  ∀ (s : State) (imm : BitVec 12) (t : BitVec 2), s.me.issued = none → s.me.older = false → s.ready t false = true →
    (∃ u, exec (.brk imm t) s = .next u ∧ u.me.trapCause = 0x12 ∧ u.me.trapVal = imm.setWidth 64
        ∧ u.me.trapPc = (match s.me.limm with | some l => l.2 | none => s.me.pc)
        ∧ u.me.pc = s.me.trapVec ∧ u.me.pm = true ∧ u.me.ppm = s.me.pm ∧ u.me.trapElem = 0 ∧ u.me.vstart = 0 ∧ u.me.rstart = 0
        ∧ u.me.tkw = (t.getLsbD 0 || s.me.tkSat) ∧ u.me.regs = s.me.regs ∧ u.me.rows = s.me.rows ∧ u.mem = s.mem)
    ∧ (∃ u, exec (.trap imm t) s = .next u ∧ u.me.trapCause = 0x13 ∧ u.me.trapVal = imm.setWidth 64
        ∧ u.me.trapPc = s.me.succ.1 ∧ u.me.pc = s.me.trapVec ∧ u.me.pm = true ∧ u.me.ppm = s.me.pm ∧ u.me.trapElem = 0
        ∧ u.me.vstart = 0 ∧ u.me.rstart = 0 ∧ u.me.tkw = false
        ∧ (∀ f, u.tokens u.me f = ((s.takeToken t).giveToken t).tokens ((s.takeToken t).giveToken t).me f) ∧ u.me.regs = s.me.regs ∧ u.me.rows = s.me.rows ∧ u.mem = s.mem)

/-- RETT restores what trap entry saved, and outside P-mode traps PRIVILEGE (R349). With nothing older outstanding and
nothing dispatched, where it issues: in P-mode RETT answers the state whose mode is PPM, whose start point is
TRAPELEM's when VALID and zero otherwise, whose token wait is TKW, whose resume record is used when it is TRAPPC's and
dropped otherwise, and whose pc is TRAPPC; outside P-mode it answers the trap PRIVILEGE with TRAPVAL its word. -/
def Obligations.ReturnFromTrap : Prop :=
  ∀ (s : State) (t : BitVec 2), s.me.issued = none → s.me.older = false → s.ready t false = true →
    (s.me.pm = true → ∃ u, exec (.rett t) s = .next u ∧ u.me.pc = s.me.trapPc ∧ u.me.pm = s.me.ppm ∧ u.me.tkSat = s.me.tkw
        ∧ (s.me.trapElem.getLsbD 31 = true →
            u.me.rstart = s.me.trapElem.toNat / 2 ^ 16 % 8 ∧ u.me.vstart = s.me.trapElem.toNat % 2 ^ 16)
        ∧ (s.me.trapElem.getLsbD 31 = false → u.me.rstart = 0 ∧ u.me.vstart = 0)
        ∧ (∀ q, s.me.resumeUse = false → s.me.resume = some q → q.pc = s.me.trapPc → u.me.resume = some q ∧ u.me.resumeUse = true)
        ∧ (s.me.resumeUse = false → (∀ q, s.me.resume = some q → q.pc ≠ s.me.trapPc) → u.me.resume = none ∧ u.me.resumeUse = false)
        ∧ u.me.ppm = s.me.ppm
        ∧ u.me.regs = s.me.regs ∧ u.me.rows = s.me.rows ∧ u.me.masks = s.me.masks ∧ u.mem = s.mem)
    ∧ (s.me.pm = false → ∃ u, exec (.rett t) s = .next u ∧ u.me.trapCause = 0x03
        ∧ u.me.trapVal = BitVec.ofNat 64 (0x3A000000 + t.toNat) ∧ u.me.pc = s.me.trapVec ∧ u.me.pm = true ∧ u.me.ppm = false)

/-- Taking a trap writes the trap CSRs and enters the handler (R379). For every trap of a front-end instruction with
nothing older outstanding: the links break, TRAPCAUSE, TRAPPC, TRAPVAL and TRAPELEM hold what R379 says, the start
point is the place or zero, PPM is the old mode, the strand is in P-mode at TRAPVEC, and registers, rows, masks and
memory stay. -/
def Obligations.TrapEntry : Prop :=
  ∀ (s : State) (r : TrapReq), s.me.issued = none → s.me.older = false →
    ∃ u, s.takeTrap r = .next u ∧ u.me.links = [] ∧ u.me.trapCause = BitVec.ofNat 64 (r.cause + (if r.async then 256 else 0))
      ∧ u.me.trapPc = r.pc.getD (match s.me.limm with | some l => l.2 | none => s.me.pc) ∧ u.me.trapVal = r.val
      ∧ u.me.trapElem = (if r.isElem then BitVec.ofNat 64 (2 ^ 31 + r.row * 2 ^ 16 + r.elem) else 0)
      ∧ u.me.rstart = r.row ∧ u.me.vstart = (if r.isElem then r.elem else 0) ∧ u.me.ppm = s.me.pm ∧ u.me.pm = true
      ∧ u.me.tkw = (s.me.tkSat && r.cause != 0x13) ∧ u.me.pc = s.me.trapVec
      ∧ u.me.regs = s.me.regs ∧ u.me.rows = s.me.rows ∧ u.me.masks = s.me.masks ∧ u.me.fcsr = s.me.fcsr
      ∧ u.mem = s.mem ∧ u.tags = s.tags ∧ u.others = s.others

/-- Scalar float operations round the exact result once and raise its flags (R343, R67). For every state in which the
instruction issues with no exception enabled, every format, rounding and operand: SFADD, SFSUB, SFMUL, SFDIV, SFSQRT
and SFMA answer the state in which sd holds the exact result rounded once to FFMT, with the upper bits zero, and FCSR
the flags of the operation and the rounding. -/
def Obligations.ScalarFloats : Prop :=
  ∀ (s : State) (d a b : BitVec 5) (f m t : BitVec 2), s.ready t true = true →
    let w := s.takeToken t
    let g := fixedFmt (f.toNat + 1)
    let val (r : BitVec 5) : Machine.Num := g.decode ((s.reg r).toNat % 2 ^ g.width)
    let r : Rounding := match m.toNat with
      | 0 => ⟨0, 0, false⟩
      | 1 => ⟨0, 0, true⟩
      | 2 => ⟨1, 0, false⟩
      | _ => ⟨5, diceBits s.me.diceSeed.toNat 0 0, false⟩

    let gives (i : Instr) (x : Machine.Num × Nat) :=
      let c := roundTo g 127 r x.1
      s.me.noTraps = true → exec i s = .next (((w.raise (x.2 ||| c.2)).setReg d (BitVec.ofNat 64 c.1)).retired t)
    gives (.sfadd d a b f m t) ((val a).add r.rm (val b)) ∧ gives (.sfsub d a b f m t) ((val a).sub r.rm (val b))
    ∧ gives (.sfmul d a b f m t) ((val a).mul (val b)) ∧ gives (.sfdiv d a b f m t) ((val a).div (val b))
    ∧ gives (.sfma d a b f m t) ((val a).fma r.rm (val b) (val d)) ∧ gives (.sfsqrt d a f m t) (val a).sqrt

/-- SFMIN, SFMAX, SFCMP, SFCLASS and SFCVT complete with their value and flags (R269, R272, R280, R343, R344). For every
state in which the instruction issues with no exception enabled: minimum and maximum write one of R269's results with
its flags, SFCMP 1 or 0 by the relation, SFCLASS the bit of its operand's class with no flag, SFCVT the converted
value with its flags for every conversion; only sd and FCSR change. -/
def Obligations.ScalarFloatOthers : Prop :=
  ∀ (s : State) (d a b v : BitVec 5) (f m t : BitVec 2), s.ready t true = true →
    let w := s.takeToken t
    let g := fixedFmt (f.toNat + 1)
    let val (r : BitVec 5) : Machine.Num := g.decode ((s.reg r).toNat % 2 ^ g.width)
    let r : Rounding := match m.toNat with
      | 0 => ⟨0, 0, false⟩
      | 1 => ⟨0, 0, true⟩
      | 2 => ⟨1, 0, false⟩
      | _ => ⟨5, diceBits s.me.diceSeed.toNat 0 0, false⟩

    let cvt : Nat × Nat := match v.toNat with
      | 4 => toIntSat (fixedFmt 11) r (val a)
      | 5 => toIntSat (fixedFmt 17) r (val a)
      | 6 => roundTo g 127 r (.ofInt (s.reg a).toInt)
      | 7 => roundTo g 127 r (.ofInt (s.reg a).toNat)
      | k => ((roundTo (fixedFmt (k + 1)) 127 r (val a)).1,
          (roundTo (fixedFmt (k + 1)) 127 r (val a)).2 ||| (match val a with | .nan true => flagNV | _ => 0))
    s.me.noTraps = true →
    exec (.sfmin d a b f t) s = .next (((w.raise (Machine.Num.minmax false (val a) (val b)).2).setReg d
        (BitVec.ofNat 64 (roundTo g 127 ⟨0, 0, false⟩ (Machine.Num.minmax false (val a) (val b)).1).1)).retired t)
    ∧ exec (.sfmax d a b f t) s = .next (((w.raise (Machine.Num.minmax true (val a) (val b)).2).setReg d
        (BitVec.ofNat 64 (roundTo g 127 ⟨0, 0, false⟩ (Machine.Num.minmax true (val a) (val b)).1).1)).retired t)
    ∧ exec (.sfcmp d a b m f t) s = .next (((w.raise (relation m.toNat (val a) (val b)).2).setReg d
        (if (relation m.toNat (val a) (val b)).1 then 1 else 0)).retired t)
    ∧ exec (.sfclass d a f t) s = .next ((w.setReg d (match val a with
        | .nan true => 0x100
        | .nan false => 0x200
        | .inf n => if n then 1 else 0x80
        | .dz n => if n then 1 else 0x80
        | .fin n 0 _ _ => if n then 8 else 0x10
        | .fin n _ _ _ => if (s.reg a).toNat / 2 ^ g.m % 2 ^ g.e = 0 then (if n then 4 else 0x20) else if n then 2 else 0x40)).retired t)
    ∧ exec (.sfcvt d a v f m t) s = .next (((w.raise cvt.2).setReg d (BitVec.ofNat 64 cvt.1)).retired t)

/-- An enabled flag of a scalar float operation traps FP_EXCEPTION and leaves sd (R75, R343, R344). At the front end with
nothing older outstanding: when the operation or its rounding raises a flag that FCSR enables, SFADD, SFSUB, SFMUL,
SFDIV, SFMA, SFSQRT, SFMIN, SFMAX, SFCMP and SFCVT trap FP_EXCEPTION at (0, 0) with TRAPVAL the enabled flags, and no
register and no flag of FCSR changes. -/
def Obligations.ScalarFloatTrap : Prop :=
  ∀ (s : State) (d a b v : BitVec 5) (f m t : BitVec 2), s.me.issued = none → s.me.older = false → s.ready t true = true →
    let g := fixedFmt (f.toNat + 1)
    let val (r : BitVec 5) : Machine.Num := g.decode ((s.reg r).toNat % 2 ^ g.width)
    let r : Rounding := match m.toNat with
      | 0 => ⟨0, 0, false⟩
      | 1 => ⟨0, 0, true⟩
      | 2 => ⟨1, 0, false⟩
      | _ => ⟨5, diceBits s.me.diceSeed.toNat 0 0, false⟩

    let cvt : Nat × Nat := match v.toNat with
      | 4 => toIntSat (fixedFmt 11) r (val a)
      | 5 => toIntSat (fixedFmt 17) r (val a)
      | 6 => roundTo g 127 r (.ofInt (s.reg a).toInt)
      | 7 => roundTo g 127 r (.ofInt (s.reg a).toNat)
      | k => ((roundTo (fixedFmt (k + 1)) 127 r (val a)).1,
          (roundTo (fixedFmt (k + 1)) 127 r (val a)).2 ||| (match val a with | .nan true => flagNV | _ => 0))
    let traps (i : Instr) (flags : Nat) : Prop :=
      let fl := trapFlags s.me.fcsr flags
      fl ≠ 0 → ∃ u, exec i s = .next u ∧ u.me.trapCause = 0x0F ∧ u.me.trapVal = BitVec.ofNat 64 fl
        ∧ u.me.trapElem = BitVec.ofNat 64 (2 ^ 31) ∧ u.me.pc = s.me.trapVec ∧ u.me.regs = s.me.regs ∧ u.me.fcsr = s.me.fcsr
    let rounded (x : Machine.Num × Nat) : Nat := x.2 ||| (roundTo g 127 r x.1).2
    traps (.sfadd d a b f m t) (rounded ((val a).add r.rm (val b)))
    ∧ traps (.sfsub d a b f m t) (rounded ((val a).sub r.rm (val b)))
    ∧ traps (.sfmul d a b f m t) (rounded ((val a).mul (val b)))
    ∧ traps (.sfdiv d a b f m t) (rounded ((val a).div (val b)))
    ∧ traps (.sfma d a b f m t) (rounded ((val a).fma r.rm (val b) (val d)))
    ∧ traps (.sfsqrt d a f m t) (rounded (val a).sqrt)
    ∧ traps (.sfmin d a b f t) (Machine.Num.minmax false (val a) (val b)).2
    ∧ traps (.sfmax d a b f t) (Machine.Num.minmax true (val a) (val b)).2
    ∧ traps (.sfcmp d a b m f t) (relation m.toNat (val a) (val b)).2
    ∧ traps (.sfcvt d a v f m t) cvt.2

/-- Decode and encode agree on every strand instruction (R18, R19, R20, R22, R23, R24). For every well-formed instruction
with a strand word of its own, decoding its encoding gives it back with every operand; and a strand word that decodes
to an instruction is that instruction's encoding, and the instruction is well formed. No bit of an encoding is dropped
and no word has two meanings. -/
def Obligations.StrandWordsRoundTrip : Prop :=
  (∀ i : Instr, i.wf = true → i.wordless = false → i.isTsq = false → i.isEvent = false → decodeStrand (encode i) = .ok i)
  ∧ ∀ (w : Code) (i : Instr), decodeStrand w = .ok i → encode i = w ∧ i.wf = true

/-- Decode and encode agree on every transform-sequencer instruction (R230). For every well-formed transform-sequencer
instruction, decoding its encoding gives it back with every operand, and a sequencer word that decodes is its
instruction's encoding. -/
def Obligations.TsqWordsRoundTrip : Prop :=
  (∀ i : Instr, i.isTsq = true → i.wf = true → decodeTsq (encode i) = .ok i)
  ∧ ∀ (w : Code) (i : Instr), decodeTsq w = .ok i → encode i = w ∧ i.wf = true

/-- Words written out from the formats decode to their instructions (R18, R230). One word of each of several families,
laid out bit by bit from Table 2 of R18 and Table 9 of R230, decodes to the instruction it stands for. -/
def Obligations.SampleWords : Prop :=
  decodeStrand (0b00000001_00101_00101_00100_0000_0_00_00#32) = .ok (.add 5 5 4 0 0 0)
  ∧ decodeStrand (0b00010000_00100_00000_000000000101_00#32) = .ok (.addi 4 0 5 0)
  ∧ decodeStrand (0b00110111_00100_00000_00000000_0011_00#32) = .ok (.bnzd 4 0 3 0)
  ∧ decodeStrand (0b00111010_0000000000000000000000_10#32) = .ok (.rett 2)
  ∧ decodeStrand (0b01110010_001_000000000_00110_00000_01#32) = .ok (.ego 1 6 1)
  ∧ decodeStrand (0b10010000_01_00011_00010_01001_000_00_00#32) = .ok (.vaddVs 3 2 9 0 0 0)
  ∧ decodeStrand (0b11000100_00001_00010_00011_010_00_00_00#32) = .ok (.vst 1 2 3 2 0 0)
  ∧ decodeTsq (0b000010_01_000000000000_000000000111#32) = .ok (.tnext 1 7)

/-- Reserved OP bytes never decode, and trap ILLEGAL_INSTRUCTION with the word (R36, R37). Every word whose OP byte Table
6 reserves is refused by the decoder; ILLEGAL_INSTRUCTION_WORD at the front end with nothing older outstanding answers
the trap state: cause 0x01, TRAPVAL the word, P-mode at the trap vector, registers, rows and memory as before. -/
def Obligations.ReservedOpcodes : Prop :=
  (∀ w : Code,
    let o := w.toNat / 2 ^ 24
    ((0x2C ≤ o ∧ o ≤ 0x2F) ∨ o = 0x7E ∨ o = 0x7F ∨ (0xBB ≤ o ∧ o ≤ 0xBF) ∨ o = 0xCF ∨ (0xDD ≤ o ∧ o ≤ 0xDF) ∨ 0xEB ≤ o) →
      decodeStrand w = .error .reservedOpcode)
  ∧ ∀ (s : State) (w : Code), s.me.issued = none → s.me.older = false →
      ∃ u, exec (.illegalInstructionWord w) s = .next u ∧ u.me.trapCause = 1 ∧ u.me.trapVal = w.setWidth 64
        ∧ u.me.pc = s.me.trapVec ∧ u.me.pm = true ∧ u.me.ppm = s.me.pm ∧ u.me.regs = s.me.regs ∧ u.me.rows = s.me.rows
        ∧ u.mem = s.mem

/-- A fetch that fails and an asynchronous engine fault are taken at the front end (R14, R15, R33, R378, R386). With
nothing older outstanding: FETCH_FAULT answers the trap state with the fetch's cause and TRAPVAL, with TRAPPC at the
instruction, at the LIMM before it, or past slot LAST of an END line where R15 puts it, unless the fetch is a
handler's first, which enters DOUBLE; one of a strand that is not running does nothing; ENGINE_FAULT_TRAP outside
P-mode with no LIMM held and no signal pending takes the lowest recorded command number, with TRAPCAUSE 0x111 and
TRAPVAL the number. -/
def Obligations.FetchAndAsyncTraps : Prop :=
  ∀ s : State, s.me.issued = none → s.me.older = false →
    (s.me.run ≠ .running → exec .fetchFault s = .next s)
    ∧ (∀ (t : State) (c : Nat) (v : Word), s.me.run = .running → s.fetch = .fault t c v → t.me = s.me → s.me.atVec = false →
      ∃ u, exec .fetchFault s = .next u ∧ u.me.trapCause = BitVec.ofNat 64 c ∧ u.me.trapVal = v ∧ u.me.pc = s.me.trapVec
        ∧ u.me.trapPc = (match s.me.limm with
          | some l => if s.me.fellOff then s.me.pc else l.2
          | none => s.me.pc)
        ∧ u.me.pm = true ∧ u.me.regs = s.me.regs)
    ∧ (∀ (t : State) (c : Nat) (v : Word), s.me.run = .running → s.fetch = .fault t c v → t.me = s.me → s.me.live = true →
      s.me.atVec = true →
      ∃ u, exec .fetchFault s = .next u ∧ u.me = { s.me with run := .double })
    ∧ (∀ (n : Nat) (rest : List Nat), s.me.asyncFaults = n :: rest → s.me.pm = false → s.me.limm = none →
      s.me.sigPend = none →
      ∃ u, exec .engineFaultTrap s = .next u ∧ u.me.trapCause = 0x111 ∧ u.me.trapVal = BitVec.ofNat 64 n
        ∧ u.me.asyncFaults = rest ∧ u.me.trapPc = s.me.pc ∧ u.me.pc = s.me.trapVec ∧ u.me.pm = true ∧ u.me.regs = s.me.regs)

/-- A step runs the instruction whose word stands at the program counter (R13, R36, R334). With no agenda, power, a turn
of the front-end strand due, no scalar store queued and room in the checkpoint log: when the fetch answers a word that
decodes to i with no decode cause, a step is exec of i at the fetched state (settled, and with the commands that
became startable placed); a vector instruction first enters the dispatch queue and runs when its arbiter picks it; a
dispatched one runs first. -/
def Obligations.StepRunsDecoded : Prop :=
  ∀ s : State, s.agenda = [] → s.anchor.powered = true → s.due = false →
    let t := { s with turns := s.turns + 1 }
    (∀ e : DqEntry, s.me.issued = some e → step s = readied (settled (exec e.instr t)))
    ∧ (s.me.issued = none → t.stopped s.me = false → s.me.sigPend = none → s.me.ssq = [] → s.me.logFull 2 = false →
      s.me.asyncFaults = [] ∨ s.me.pm = true →
      ∀ (u : State) (link : BitVec 32) (w : Code) (i : Instr),
        t.fetch = .word u link w → u.me = s.me → decodeStrand w = .ok i →
        let r := { u with me := { u.me with link := link, held := none, anchorHold := false } }
        r.decodeCause i w = none → r.me.awaits w (isVector i) = false →
        (isVector i = false → step s = readied (settled (exec i r)))
        ∧ (isVector i = true → s.me.older = false → ∀ e : DqEntry,
            ((r.enterDq i).holdRound r.me.core (toVlsu i)).me.issued = some e →
            step s = readied (settled (exec e.instr ((r.enterDq i).holdRound r.me.core (toVlsu i))))))

/-- The state after reset (R242, R247, R251, R258, R259, R425). After reset no strand, function or partition exists and
power-good has not been signalled; the registers of an empty context stand as R242, R247, R252, R259 and R258 give
them: VL 0, VTYPE.ILL 1, RC 1, FCSR 0, TKSEL WAITF 0 and SIGF 8, queues and token FIFOs empty. That memory and tags
list nothing before any scrub is the model's choice (assumptions 4 and 31). -/
def Obligations.ResetState : Prop :=
  State.reset.me.live = false ∧ State.reset.others = [] ∧ State.reset.vfs = [] ∧ State.reset.parts = []
  ∧ State.reset.anchor.stage = 0 ∧ State.reset.mem = [] ∧ State.reset.tags = []
  ∧ (∀ r : BitVec 5, State.reset.reg r = 0) ∧ State.reset.me.vl = 0 ∧ State.reset.me.ill = true ∧ State.reset.me.rc = 1
  ∧ State.reset.me.fcsr = 0 ∧ State.reset.me.waitF = 0 ∧ State.reset.me.sigF = 8 ∧ State.reset.me.jrnlHead = 0
  ∧ (∀ n q, q < 4 → (State.reset.pair n).q.toList[q]? = some []) ∧ (∀ f, State.reset.tokens State.reset.me f = 0)

/-- Every step keeps memory in its canonical form (03_memory_stacks.md, 05_cache_die_and_local_store.md). For every state
whose memory lists its bytes by strictly rising address with no zero byte listed, whatever step the machine takes, the
next state's memory has that form. The form is the model's own (assumption 4); no rule of the spec gives it. -/
def Obligations.MemoryStaysCanonical : Prop :=
  ∀ s t : State, Memory.wf s.mem = true → step s = .next t → Memory.wf t.mem = true

/-- Memory after reset has the canonical form (03_memory_stacks.md, 05_cache_die_and_local_store.md). The memory of the
state after reset lists nothing: every byte reads as zero, and the form that every step keeps holds. Both are the
model's choice (assumptions 4 and 31): the spec states contents only after a scrub (R100) and a tenant switch (R138). -/
def Obligations.ResetMemoryCanonical : Prop :=
  Memory.wf State.reset.mem = true ∧ ∀ a, memGet State.reset.mem a = 0

/-- QPUSHS appends, QPOPS takes the oldest, QSTAT counts, and the wrong side traps (R251, R254, R257). Where they issue:
QPUSHS by the writing strand to an open queue with room appends s[sa] and changes nothing else; QPOPS by the reading
strand of a nonempty queue writes sd with the oldest entry and removes it; QSTAT writes the visible entries, the free
ones (neither visible nor reserved), closed and writer; on the wrong side QPUSHS and QPOPS trap QUEUE_MISUSE. -/
def Obligations.ScalarQueues : Prop :=
  ∀ (s : State) (d a c : BitVec 5) (t : BitVec 2), s.ready t false = true →
    let w := s.takeToken t
    let n := c.toNat
    (n < 2 → w.me.writesSq n = true → w.sqClosed n = false → (w.sqOf n).length < 16 →
      exec (.qpushs a c t) s = .next ((w.setSq n (w.sqOf n ++ [s.reg a])).retired t))
    ∧ (∀ (x : Word) (xs : List Word), n < 2 → w.me.writesSq n = false → w.sqOf n = x :: xs →
      exec (.qpops d c t) s = .next (((w.setSq n xs).setReg d x).retired t))
    ∧ (n < 4 → exec (.qstat d c t) s = .next ((w.setReg d (BitVec.ofNat 64 ((w.vq n).length + (8 - (w.vq n).length - w.reservedOf n) * 32
          + (w.qClosed n).toNat * 1024 + (w.me.writesQ n).toNat * 2048))).retired t))
    ∧ (n = 4 ∨ n = 5 → exec (.qstat d c t) s = .next ((w.setReg d (BitVec.ofNat 64 ((w.sqOf (n - 4)).length
          + (16 - (w.sqOf (n - 4)).length) * 32 + (w.sqClosed (n - 4)).toNat * 1024
          + (w.me.writesSq (n - 4)).toNat * 2048))).retired t))
    ∧ (n < 2 → w.me.writesSq n = false → exec (.qpushs a c t) s
          = w.takeTrap { cause := 0x0E, val := BitVec.ofNat 64 (4 + n + 16) })
    ∧ (n < 2 → w.me.writesSq n = true → exec (.qpops d c t) s
          = w.takeTrap { cause := 0x0E, val := BitVec.ofNat 64 (4 + n + 16) })

/-- TKWAIT pops, TKSEND pushes, TKCFG reads or drains a token FIFO (R258, R260). Where they issue, with f the code in sa
and n the number in sb: TKWAIT of a receive FIFO that holds n tokens removes them and writes what is left to sd;
TKSEND into a send FIFO that is open and has room adds n; TKCFG writes the occupancy to sd and with operation 1
empties a receive FIFO. Nothing else changes. -/
def Obligations.Tokens : Prop :=
  ∀ (s : State) (d a b : BitVec 5) (t : BitVec 2), s.ready t false = true →
    let w := s.takeToken t
    let f := (s.reg a).toNat
    let n := (s.reg b).toNat
    let x := w.tokens w.me f
    (f ≤ 4 → n ≤ 32 → n ≤ x → exec (.tkwait d a b t) s = .next (((w.setTokens f (x - n)).setReg d (BitVec.ofNat 64 (x - n))).retired t))
    ∧ (f = 8 ∨ f = 9 → n ≤ 32 → x + n ≤ 32 → w.fifoClosed w.me f = false → (w.setTokens f (x + n)).canGive t = true →
        exec (.tksend a b t) s = .next ((w.setTokens f (x + n)).retired t))
    ∧ (f ≤ 4 ∨ f = 8 ∨ f = 9 → n = 0 → exec (.tkcfgQuery d a b t) s = .next ((w.setReg d (BitVec.ofNat 64 x)).retired t))
    ∧ (f ≤ 4 → n = 1 → exec (.tkcfgDrain d a b t) s = .next (((w.setTokens f 0).setReg d (BitVec.ofNat 64 x)).retired t))
    ∧ (∀ m, f ≤ 4 ∨ f = 8 ∨ f = 9 → (w.setTokens f m).tokens (w.setTokens f m).me f = m)

/-- CSRR writes sd with the CSR; CSRX also writes the CSR (R354, R355, R356, R242, R252, R259, R377, R380, R417). Where it
issues, CSRR of each CSR of Table 9, of the braid, trap and partition CSRs that the mode may read writes sd with its
fields as their tables lay them out and changes nothing else; CYCLE moves on by an amount the model leaves free
(assumption 10); CSRX first reads, then writes the CSR with s[sa] as CSRW does, or traps QUEUE_MISUSE where its signal
then has a closed FIFO; outside P-mode CSRs from 0x100 on trap PRIVILEGE, and an index not defined traps
ILLEGAL_INSTRUCTION. -/
def Obligations.CsrReads : Prop :=
  ∀ (s : State) (d a : BitVec 5) (n : BitVec 12) (t : BitVec 2), s.ready t false = true →
    let w := s.takeToken t
    let c := s.me
    let reads (v : Nat) : Prop := exec (.csrr d n t) s = .next ((w.setReg d (BitVec.ofNat 64 v)).retired t)
    (n = 0x000 → reads c.vl) ∧ (n = 0x001 → reads c.rc) ∧ (n = 0x003 → reads c.vstart) ∧ (n = 0x004 → reads c.rstart)
    ∧ (n = 0x002 → c.ill = true → reads (2 ^ 63))
    ∧ (n = 0x002 → c.ill = false → reads (c.sew + (c.rc - 1) * 8 + c.repro.toNat * 64 + c.rm * 128))
    ∧ (n = 0x005 → reads (c.slices + c.pend * 256)) ∧ (n = 0x008 → reads c.fcsr.toNat) ∧ (n = 0x020 → reads (c.waitF + c.sigF * 256))
    ∧ (n = 0x040 → reads c.jrnlBase.toNat) ∧ (n = 0x041 → reads c.jrnlHead.toNat) ∧ (n = 0x015 → reads (8 * c.core + c.ctx))
    ∧ (c.pm = true → (n = 0x100 → reads c.trapVec.toNat) ∧ (n = 0x101 → reads c.trapCause.toNat)
        ∧ (n = 0x102 → reads c.trapPc.toNat) ∧ (n = 0x103 → reads c.trapVal.toNat) ∧ (n = 0x104 → reads c.trapElem.toNat)
        ∧ (n = 0x105 → reads (1 + c.ppm.toNat * 2 + c.tkw.toNat * 4 + c.resume.isSome.toNat * 8))
        ∧ (n = 0x106 → reads c.trapScratch.toNat))
    ∧ (n = 0x006 → reads c.osc.toNat) ∧ (n = 0x007 → reads c.diceSeed.toNat) ∧ (n = 0x009 → reads c.wmBind.toNat)
    ∧ (n = 0x010 → reads c.strandId) ∧ (n = 0x011 → reads c.plyId) ∧ (n = 0x012 → reads c.stage) ∧ (n = 0x013 → reads c.braid)
    ∧ (n = 0x014 → reads c.role) ∧ (n = 0x016 → reads (c.part + c.vf * 16)) ∧ (n = 0x021 → reads (s.pair c.pairNo).qcfg.toNat)
    ∧ (n = 0x042 → reads c.jrnlDone.toNat) ∧ (n = 0x050 → reads (c.scopeCount + c.scopeSticky.toNat * 2 ^ 63))
    ∧ (n = 0x051 → ∃ (u : State) (k : Nat), exec (.csrr d n t) s = .next ((u.setReg d (u.hank (hankOf c.core)).cycle).retired t)
        ∧ u = { w with hanks := u.hanks, freeCtr := u.freeCtr }
        ∧ (u.hank (hankOf c.core)).cycle = (s.hank (hankOf c.core)).cycle + BitVec.ofNat 64 k)
    ∧ (n = 0x052 → let q := s.coil (coilOf c.core); reads (q.temp.toNat + q.overLimit.toNat * 2 ^ 16 + q.sweep.toNat * 2 ^ 32))
    ∧ (n = 0x053 → reads (c.laneCount % 2 ^ 32 + (if c.pend = c.slices then 0 else 2 ^ 32)))
    ∧ (n = 0x060 → reads c.braidNo.toNat) ∧ (n = 0x061 → reads (s.plyStat c)) ∧ (n = 0x062 → reads c.sqEnd.toNat)
    ∧ (∀ b, s.braidOf? c.part c.braid = some b →
        (n = 0x063 → reads b.prio) ∧ (n = 0x064 → reads (min (look b.rebal c.stage 0) 0xFFFFFFFF)))
    ∧ (c.pm = true →
        (∀ x, s.vfs.lookup c.vf = some x →
          (n = 0x120 → reads (x.s1root.toNat % 2 ^ 52 / 2 ^ 16 * 2 ^ 16))
          ∧ (n = 0x121 → reads (x.policy.maxScope.toNat + x.policy.ceil.toNat * 2 + x.policy.preempt.toNat * 16
              + x.policy.bwWeight % 128 * 256))
          ∧ (n = 0x123 → reads (x.pgq.length + (x.pgq.filter (fun r => !r.read)).length * 128))
          ∧ (n = 0x126 → reads x.tenant) ∧ (n = 0x127 → reads x.gen))
        ∧ (let p := s.part c.part
           (n = 0x122 → reads (min p.errLog.length 511 + p.errLost % 2 ^ 32 * 2 ^ 32))
           ∧ (n = 0x124 → reads p.freeCount) ∧ (n = 0x125 → reads p.reserveNow)))
    ∧ (let word := 0x4C000000 + d.toNat * 524288 + n.toNat * 4 + t.toNat
       (c.pm = false → 0x100 ≤ n.toNat → exec (.csrr d n t) s = w.takeTrap { cause := 3, val := BitVec.ofNat 64 word })
       ∧ (c.pm = true ∨ n.toNat < 0x100 → csrDefined n.toNat = false →
            exec (.csrr d n t) s = w.takeTrap { cause := 1, val := BitVec.ofNat 64 word }))
    ∧ (c.pm = true ∨ n.toNat < 0x100 → csrDefined n.toNat = true → n ≠ 0x040 ∨ s.incomplete c = [] →
        let x := w.csrRead n.toNat
        let u := (x.2.csrWrite n.toNat (s.reg a)).setReg d x.1
        if (t.getLsbD 1 && u.fifoClosed u.me u.me.sigF) = true then
          exec (.csrx d a n t) s = w.takeTrap { cause := 0x0E, val := queueVal u.me.sigF 2 1 0 }
        else u.canGive t = true → exec (.csrx d a n t) s = .next (u.retired t))

/-- CSRW and the single CSR writes write the writable bits of their CSR and nothing else (R170, R187, R206, R242, R252,
R259, R265, R354, R377, R380, R417). Where it issues in a mode that may: CSRW stores the writable bits of s[sa] in the
CSR: VSTART, RSTART, OSC, DICESEED, FCSR, WMBIND, TKSEL (a code a field does not list leaves it), QCFG (sets the close
bits of the strand's own queues), SCOPEST, SQEND, JRNLBASE (which traps ILLEGAL_INSTRUCTION while a command is
incomplete), the trap CSRs and S1ROOT; a read-only CSR keeps its value; a signal whose FIFO, as SIGF then selects it,
is closed traps QUEUE_MISUSE instead; the step of each CSR write that the table names does the same. JRNLBASE_WRITE,
QCFG_WRITE, TKSEL_WRITE, SCOPEST_WRITE, SQEND_WRITE, TRAPSTATUS_WRITE and S1ROOT_WRITE answer the state in which the
named register holds what its rule gives for the written value: sticky bits are cleared by ones, close bits are set by
ones, unlisted codes leave their field, and nothing else changes. -/
def Obligations.CsrWrites : Prop :=
  (∀ (s : State) (a : BitVec 5) (n : BitVec 12) (t : BitVec 2), s.ready t false = true →
    let w := s.takeToken t
    let v := s.reg a
    let writes (u : State) : Prop :=
      if (t.getLsbD 1 && u.fifoClosed u.me u.me.sigF) = true then
        exec (.csrw a n t) s = w.takeTrap { cause := 0x0E, val := queueVal u.me.sigF 2 1 0 }
      else u.canGive t = true → exec (.csrw a n t) s = .next (u.retired t)
    let set (f : Strand → Strand) : Prop := writes { w with me := f w.me }
    (n = 0x003 → set (fun c => { c with vstart := v.toNat % 2 ^ 16 })) ∧ (n = 0x004 → set (fun c => { c with rstart := v.toNat % 8 }))
    ∧ (n = 0x006 → set (fun c => { c with osc := v &&& 0x1FF })) ∧ (n = 0x007 → set (fun c => { c with diceSeed := v &&& 0xFFFFFFFF }))
    ∧ (n = 0x008 → set (fun c => { c with fcsr := v &&& 0x3FFF }))
    ∧ (n = 0x020 → set (fun c => { c with
        waitF := if v.toNat % 16 ≤ 4 then v.toNat % 16 else c.waitF
        sigF := if v.toNat / 256 % 16 = 8 ∨ v.toNat / 256 % 16 = 9 then v.toNat / 256 % 16 else c.sigF }))
    ∧ (n = 0x021 → writes (w.setPair w.me.pairNo { w.pair w.me.pairNo with
        qcfg := (w.pair w.me.pairNo).qcfg ||| (v.setWidth 8 &&& (if s.me.role = 0 then 0x93 else 0x6C)) }))
    ∧ (n = 0x040 → s.incomplete s.me = [] → set (fun c => { c with jrnlBase := v &&& 0xF8001 }))
    ∧ (n = 0x040 → s.incomplete s.me ≠ [] → exec (.csrw a n t) s
        = w.takeTrap { cause := 1, val := BitVec.ofNat 64 (0x4D000000 + a.toNat * 16384 + n.toNat * 4 + t.toNat) })
    ∧ (n = 0x009 → set (fun c => { c with wmBind := v &&& 0xFFFFFFFF00007FFF }))
    ∧ (n = 0x050 → set (fun c => { c with scopeSticky := c.scopeSticky && !v.getLsbD 63 }))
    ∧ (n = 0x062 → set (fun c => { c with sqEnd := c.sqEnd &&& ~~~v.setWidth 16 }))
    ∧ ((n.toNat < 0x003 ∨ n = 0x005 ∨ (0x010 ≤ n.toNat ∧ n.toNat ≤ 0x016) ∨ n = 0x041 ∨ n = 0x042 ∨ (0x051 ≤ n.toNat ∧ n.toNat ≤ 0x053)
        ∨ n = 0x060 ∨ n = 0x061 ∨ n = 0x063 ∨ n = 0x064) → writes w)
    ∧ (s.me.pm = true →
        (n = 0x100 → set (fun c => { c with trapVec := v })) ∧ (n = 0x101 → set (fun c => { c with trapCause := v &&& 0x1FF }))
        ∧ (n = 0x103 → set (fun c => { c with trapVal := v })) ∧ (n = 0x104 → set (fun c => { c with trapElem := v &&& 0x8007FFFF }))
        ∧ (0x121 ≤ n.toNat → n.toNat ≤ 0x127 → writes w)
        ∧ (n = 0x120 → ∀ x : Vf, s.vfs.lookup s.me.vf = some x →
            writes { w with vfs := put w.vfs w.me.vf { x with s1root := v &&& 0xFFFFFFFFF0000 } })
        ∧ (n = 0x102 → set (fun c => { c with trapPc := v }))
        ∧ (n = 0x105 → set (fun c => { c with ppm := v.getLsbD 1, tkw := v.getLsbD 2, resume := if v.getLsbD 3 then none else c.resume }))
        ∧ (n = 0x106 → set (fun c => { c with trapScratch := v }))))
  ∧ (∀ (s : State) (v : Word),
    let set (i : Instr) (f : Strand → Strand) : Prop := exec i s = .next { s with me := f s.me }
    set (.jrnlbaseWrite v) (fun c => { c with jrnlBase := v &&& 0xF8001 })
    ∧ set (.tkselWrite v) (fun c => { c with
        waitF := if v.toNat % 16 ≤ 4 then v.toNat % 16 else c.waitF
        sigF := if v.toNat / 256 % 16 = 8 ∨ v.toNat / 256 % 16 = 9 then v.toNat / 256 % 16 else c.sigF })
    ∧ set (.scopestWrite v) (fun c => { c with scopeSticky := c.scopeSticky && !v.getLsbD 63 })
    ∧ set (.sqendWrite v) (fun c => { c with sqEnd := c.sqEnd &&& ~~~v.setWidth 16 })
    ∧ set (.trapstatusWrite v) (fun c =>
        { c with ppm := v.getLsbD 1, tkw := v.getLsbD 2, resume := if v.getLsbD 3 then none else c.resume })
    ∧ exec (.qcfgWrite v) s = .next (s.setPair s.me.pairNo { s.pair s.me.pairNo with
        qcfg := (s.pair s.me.pairNo).qcfg ||| (v.setWidth 8 &&& (if s.me.role = 0 then 0x93 else 0x6C)) })
    ∧ (∀ x : Vf, s.vfs.lookup s.me.vf = some x →
        exec (.s1rootWrite v) s = .next { s with vfs := put s.vfs s.me.vf { x with s1root := v &&& 0xFFFFFFFFF0000 } }))

/-- VSETL configures SEW, RC and VL, takes a pending grant and clears the start point (R244, R246, R248). Where it issues,
with accepted SEW and RM codes: VL becomes the smaller of the request (VLMAX when sa is s0) and VLMAX of the grant
then in force, VTYPE takes the fields, VSTART and RSTART become 0, sd holds VL; the first one clears all rows, and a
later one that changes the grant zeroes the row bits that are not in both the old grant and the new and counts itself.
With a code not accepted, VTYPE.ILL is set, and VL and sd are 0. -/
def Obligations.SetVectorLength : Prop :=
  ∀ (s : State) (d a : BitVec 5) (sew c : BitVec 3) (p : BitVec 1) (r : BitVec 3) (z t : BitVec 2), s.ready t false = true →
    let w := s.takeToken t
    (z ≠ 0 ∨ 5 < sew.toNat ∨ 5 < r.toNat → exec (.vsetl d a sew c p r z t) s
      = .next ((State.setReg { w with me := { w.me with sew := 0, repro := false, rm := 0, ill := true, vl := 0 } } d 0).retired t))
    ∧ (z = 0 → sew.toNat ≤ 5 → r.toNat ≤ 5 →
      let vlmax := 1024 * s.me.pend / 2 ^ (sew.toNat + 1)
      let vl := if a = 0 then vlmax else min (s.reg a).toNat vlmax
      ∃ u : State, exec (.vsetl d a sew c p r z t) s = .next (u.retired t)
        ∧ u.me.vl = vl ∧ u.me.sew = sew.toNat ∧ u.me.rc = c.toNat + 1 ∧ u.me.rm = r.toNat ∧ u.me.repro = (p == 1) ∧ u.me.ill = false
        ∧ u.me.vstart = 0 ∧ u.me.rstart = 0 ∧ u.me.slices = s.me.pend ∧ u.me.pend = s.me.pend
        ∧ (d ≠ 0 → u.reg d = BitVec.ofNat 64 vl) ∧ (∀ x, x ≠ d → u.reg x = s.reg x) ∧ u.me.masks = s.me.masks
        ∧ u.me.fcsr = s.me.fcsr ∧ u.mem = s.mem ∧ u.tags = s.tags
        ∧ (s.me.rowsInit = false → u.me.rows = Vector.replicate 32 {})
        ∧ (s.me.rowsInit = true → s.me.pend = s.me.slices → u.me.rows = s.me.rows)
        ∧ (s.me.rowsInit = true → s.me.pend ≠ s.me.slices → ∀ (v i : Nat), v < 32 →
            (u.me.row v).tag = (s.me.row v).tag
            ∧ (u.me.row v).bits.getLsbD i = (decide (i < 1024 * min s.me.pend s.me.slices) && (s.me.row v).bits.getLsbD i))
        ∧ u.me.laneCount = (if s.me.pend = s.me.slices then s.me.laneCount else (s.me.laneCount + 1) % 2 ^ 32))

/-- SLD writes sd with the bytes at sa + imm and leaves all memory and other registers (R189, R192). Where it issues with
no store queued and no older vector instruction that it waits for, at an address that is aligned, translates and may
be read, on a line that is not POISON nor UNINIT under STRICT: SLD of each size writes sd with the bytes of the line
the load finds, zero-extended (zero on an UNINIT line), and leaves every pair, and unless a full L1 set gives up a
dirty line every strand otherwise as they were, and every byte of memory unless a bank too has a scrub or reads of its
own to finish; a misaligned address traps MISALIGNED with TRAPVAL the address; SPF only moves lines. -/
def Obligations.ScalarLoads : Prop :=
  ∀ (s : State) (d a : BitVec 5) (imm : BitVec 12) (h t : BitVec 2), s.ready t true = true → s.me.ssq = [] →
    let w := s.takeToken t
    let va := s.reg a + s.immSI imm
    let loads (i : Instr) (n : Nat) : Prop :=
      (∀ (u : State) (l : LineLoc) (off : Nat) (st : Bool), w.checkScalar va n .read = .ok u l off st →
        u.loadWaits va.toNat n = false →
        let x := u.loadLine s.me.core l 0 s.reader
        let c := classOf x.2.1
        c ≠ 2 → (c = 4 → st = false) →
        ∃ r : State, w.readsOnly r
          ∧ exec i s = .next ((r.setReg d (BitVec.ofNat 64 (if c = 4 then 0 else lineNat x.1 off n))).retires t))
      ∧ (va.toNat % n ≠ 0 → exec i s = w.takeTrap { cause := 4, val := va })
    loads (.sld8 d a imm t) 1 ∧ loads (.sld16 d a imm t) 2 ∧ loads (.sld32 d a imm t) 4 ∧ loads (.sld64 d a imm t) 8
    ∧ ∃ r : State, w.readsOnly r ∧ exec (.spf h a imm t) s = .next (r.retires t)

/-- A scalar load from a local-store window reads its bytes, little-endian (R6, R102, R189). Where it issues with no store
queued and no older vector instruction that it waits for, at an aligned address of a local-store window of the coil
that no shadowed buffer moves, on a line whose tag is neither bad, POISON nor UNINIT: SLD writes sd with the bytes
there, the lowest address in the low byte, and changes nothing else. -/
def Obligations.LocalStoreLoads : Prop :=
  ∀ (s : State) (d a : BitVec 5) (imm : BitVec 12) (t : BitVec 2) (c off : Nat), s.ready t true = true → s.me.ssq = [] →
    Memory.wf s.mem = true →
    let va := s.reg a + s.immSI imm
    let tag := s.tagAt (2 ^ 36 + 8192 * c + off / 128)
    classify s.me.core va.toNat = .window c off → s.resolveMe va.toNat = va.toNat → badTag tag = false →
    classOf tag ≠ 2 → classOf tag ≠ 4 →
    let loads (i : Instr) (n : Nat) : Prop := off % n = 0 → (s.takeToken t).loadWaits va.toNat n = false →
      exec i s = .next (((s.takeToken t).setReg d (BitVec.ofNat 64 (memNat s.mem (lsByte c off) n))).retires t)
    loads (.sld8 d a imm t) 1 ∧ loads (.sld16 d a imm t) 2 ∧ loads (.sld32 d a imm t) 4 ∧ loads (.sld64 d a imm t) 8

/-- SST is performed at once, or queued behind older vector work; a refused growth traps (R189, R335). Where it issues at
an address that is aligned, translates and may be written: with nothing older outstanding SST of each size stores the
low bytes of sd at the address as an untyped write, or traps CHUNK_DENIED when growth is refused; with older vector
work and room it only enters the scalar store queue. No register changes. -/
def Obligations.ScalarStores : Prop :=
  ∀ (s : State) (d a : BitVec 5) (imm : BitVec 12) (t : BitVec 2), s.ready t true = true →
    let w := s.takeToken t
    let va := s.reg a + s.immSI imm
    let stores (i : Instr) (n : Nat) : Prop :=
      ∀ (u : State) (l : LineLoc) (off : Nat) (st : Bool), w.checkScalar va n .write = .ok u l off st →
        let v := (s.reg d).toNat % 2 ^ (8 * n)
        let x := u.storeLine s.me.core l (untyped v off n) 0 s.me.pm s.reader va
        (s.me.older = false → ∀ r : State, x.1 = some r → w.writesOnly r ∧ exec i s = .next (r.retires t))
        ∧ (s.me.older = false → x.1 = none → exec i s = x.2.takeTrap { cause := 0x0D, val := va })
        ∧ (s.me.older = true → s.me.ssq.length < 16 → (∀ e j, l = .page e j → u.fitChecked e = false ∨ e.host = true) →
            exec i s = .next (State.retires { u with me := { u.me with ssq := u.me.ssq ++
              [⟨BitVec.ofNat 64 (s.resolveMe va.toNat), n, BitVec.ofNat 64 v, s.me.entered, s.me.pm, l.entry?, s.me.jrnlHead⟩] } } t)
            ∧ w.readsOnly u)
    stores (.sst8 d a imm t) 1 ∧ stores (.sst16 d a imm t) 2 ∧ stores (.sst32 d a imm t) 4 ∧ stores (.sst64 d a imm t) 8

/-- A scalar store into a local-store window changes exactly its bytes (R6, R102, R158, R189). Where it issues with
nothing older outstanding, at an aligned address of a local-store window of the coil that no shadowed buffer moves:
after SST the bytes at the address hold the low bytes of sd, every other byte of memory reads as before, and every
register and row is as before. -/
def Obligations.LocalStoreStores : Prop :=
  ∀ (s : State) (d a : BitVec 5) (imm : BitVec 12) (t : BitVec 2) (c off : Nat), s.ready t true = true → s.me.older = false →
    Memory.wf s.mem = true →
    let va := s.reg a + s.immSI imm
    classify s.me.core va.toNat = .window c off → s.resolveMe va.toNat = va.toNat →
    let stores (i : Instr) (n : Nat) : Prop := off % n = 0 →
      ∃ u : State, exec i s = .next (u.retires t) ∧ (s.takeToken t).writesOnly u
        ∧ memNat u.mem (lsByte c off) n = (s.reg d).toNat % 2 ^ (8 * n)
        ∧ ∀ b, b < lsByte c off ∨ lsByte c off + n ≤ b → memGet u.mem b = memGet s.mem b
    stores (.sst8 d a imm t) 1 ∧ stores (.sst16 d a imm t) 2 ∧ stores (.sst32 d a imm t) 4 ∧ stores (.sst64 d a imm t) 8

/-- SAMO, SCAS and CLAIM read and write their bytes in one step (R190, R191, R373). Where they issue, at an aligned
address of a local-store window that no shadowed buffer moves, on a line neither bad nor POISON: SAMO writes sd with
the old value and memory with the result of its operation; SCAS stores s[sc] exactly when the old value equals s[sb];
CLAIM advances NEXT by the grant, sets VL to it and sd to the base; every other byte is as before. -/
def Obligations.ScalarAtomics : Prop :=
  ∀ (s : State) (d a b e o : BitVec 5) (t : BitVec 2) (c off : Nat), s.ready t false = true → Memory.wf s.mem = true →
    let va := s.reg a
    let tag := s.tagAt (2 ^ 36 + 8192 * c + off / 128)
    classify s.me.core va.toNat = .window c off → s.resolveMe va.toNat = va.toNat → badTag tag = false → classOf tag ≠ 2 →
    let p := lsByte c off
    let does (i : Instr) (n new : Nat) (r : Word) : Prop :=
      ∃ u : State, exec i s = .next ((u.setReg d r).retires t) ∧ (s.takeToken t).writesOnly u ∧ memNat u.mem p n = new
        ∧ ∀ x, x < p ∨ p + n ≤ x → memGet u.mem x = memGet s.mem x
    let amo (k : Nat) (x y : BitVec k) : Nat :=
      (match o.toNat with
       | 0 => x + y
       | 1 => x &&& y
       | 2 => x ||| y
       | 3 => x ^^^ y
       | 4 => if y.toInt < x.toInt then y else x
       | 5 => if x.toInt < y.toInt then y else x
       | 6 => if y.toNat < x.toNat then y else x
       | 7 => if x.toNat < y.toNat then y else x
       | _ => y).toNat
    let old4 := memNat s.mem p 4
    let old8 := memNat s.mem p 8
    (off % 4 = 0 → o.toNat ≤ 8 →
      does (.samo32 d a b o t) 4 (amo 32 (BitVec.ofNat 32 old4) ((s.reg b).setWidth 32)) (BitVec.ofNat 64 old4))
    ∧ (off % 8 = 0 → o.toNat ≤ 8 → does (.samo64 d a b o t) 8 (amo 64 (BitVec.ofNat 64 old8) (s.reg b)) (BitVec.ofNat 64 old8))
    ∧ (off % 4 = 0 → does (.scas32 d a b e t) 4
        (if old4 = (s.reg b).toNat % 2 ^ 32 then (s.reg e).toNat % 2 ^ 32 else old4) (BitVec.ofNat 64 old4))
    ∧ (off % 8 = 0 → does (.scas64 d a b e t) 8 (if old8 = (s.reg b).toNat then (s.reg e).toNat else old8) (BitVec.ofNat 64 old8))
    ∧ (off % 16 = 0 → s.me.ill = false →
        let limit := memNat s.mem (p + 8) 8
        let req := if s.reg b = 0 then s.me.vlmax else (s.reg b).toNat
        let g := if limit ≤ old8 then 0 else min (min req (limit - old8)) s.me.vlmax
        ∃ u : State, (s.takeToken t).writesOnly u
          ∧ exec (.claim d a b t) s = .next ((State.setReg { u with me := { u.me with vl := g, vstart := 0, rstart := 0 } } d
              (if 0 < g then BitVec.ofNat 64 old8 else BitVec.allOnes 64)).retires t)
          ∧ memNat u.mem p 8 = (old8 + g) % 2 ^ 64 ∧ ∀ x, x < p ∨ p + 8 ≤ x → memGet u.mem x = memGet s.mem x)

/-- Fences, REL, ACQ and YIELD complete and leave registers and rows (R169, R171, R173, R174, R351). Where they issue:
FENCE.VS, FENCE.VV only retire; FENCE.SV and REL perform the queued scalar stores, and REL writes back to the level of
its scope; ACQ self-invalidates to the level of its scope; system scope is performed at tenant scope, and counted,
where the policy caps it; YIELD gives its strand the round after the last in both arbiters, as if it had just issued.
Registers, rows, masks and flags stay. -/
def Obligations.Fences : Prop :=
  ∀ (s : State) (scope : BitVec 3) (t : BitVec 2), s.ready t false = true →
    let w := s.takeToken t
    let done (i : Instr) (u : State) : Prop := exec i s = .next (u.retires t) ∧ u.me.regs = s.me.regs ∧ u.me.rows = s.me.rows
      ∧ u.me.masks = s.me.masks ∧ u.me.fcsr = s.me.fcsr
    let capped := scope = 5 ∧ (∀ v, s.vfs.lookup s.me.vf = some v → v.policy.maxScope = false)
    let c := s.core s.me.core
    done (.yield t) { w with me := { w.me with lastVec := c.vecRound + 1, lastVlsu := c.vlsuRound + 1 } }
    ∧ done (.fenceVs t) w ∧ done (.fenceVv t) w ∧ done (.fenceSv t) w.performAll
    ∧ (¬capped → done (.rel scope t) (w.performAll.release scope.toNat) ∧ done (.acq scope t) (w.acquire scope.toNat))
    ∧ (capped →
        let c := { w with me := { w.me with scopeCount := min (w.me.scopeCount + 1) 0xFFFFFFFF, scopeSticky := true } }
        done (.rel scope t) (c.performAll.release 4) ∧ done (.acq scope t) (c.acquire 4))

/-- Watermarks are raised, awaited and read; PARK and WAKE pass a wake (R374, R352). Where they issue, with an index up to
255: WMPUB leaves the partition's watermark at the larger of its value and s[sb]; WMREAD writes sd with it; WMWAIT
completes when it is at least s[sb], and waits otherwise with nothing changed; an index above 255 traps ACCESS with
TRAPVAL the index. Where they issue with no store queued: PARK of a strand whose wake flag is set clears it, acquires
at coil scope and writes 1 to sd; without it PARK waits; WAKE of a strand of the ply that has not exited sets its wake
flag and writes 1, and of another number writes 0. -/
def Obligations.WatermarksAndWakes : Prop :=
  (∀ (s : State) (d a b : BitVec 5) (t : BitVec 2), s.ready t false = true → s.me.ssq = [] →
    let w := s.takeToken t
    let m := (s.reg a).toNat
    let v := look (s.part s.me.part).wm m 0
    (m ≤ 255 → exec (.wmread d a t) s = .next ((w.setReg d v).retires t))
    ∧ (m ≤ 255 → (s.reg b).toNat ≤ v.toNat → exec (.wmwait a b t) s = .next ((w.acquire 3).retires t))
    ∧ (m ≤ 255 → v.toNat < (s.reg b).toNat → exec (.wmwait a b t) s = .next { w with waiting := true })
    ∧ (m ≤ 255 → exec (.wmpub a b t) s = .next (((w.release 3).updPart s.me.part (fun p =>
        { p with wm := upd p.wm m 0 (fun x => if x.toNat < (s.reg b).toNat then s.reg b else x) })).retires t))
    ∧ (255 < m → exec (.wmpub a b t) s = w.takeTrap { cause := 5, val := s.reg a }
        ∧ exec (.wmwait a b t) s = w.takeTrap { cause := 5, val := s.reg a }
        ∧ exec (.wmread d a t) s = w.takeTrap { cause := 5, val := s.reg a }))
  ∧ (∀ (s : State) (d a : BitVec 5) (t : BitVec 2), s.ready t false = true → s.me.ssq = [] →
    let w := s.takeToken t
    let r := w.release 1
    let id := (s.reg a).toNat
    (s.me.wake = true → exec (.park d t) s
      = .next (((State.acquire { w with me := { w.me with wake := false } } 1).setReg d 1).retires t))
    ∧ (s.me.wake = false → exec (.park d t) s = .next { w with waiting := true, me := { w.me with inPark := true } })
    ∧ ((∃ u, u ∈ r.everyStrand ∧ s.me.mate u id = true) → exec (.wake d a t) s
        = .next (((r.mapEvery (fun u => s.me.mate u id) (fun u => { u with wake := true })).setReg d 1).retires t))
    ∧ ((∀ u, u ∈ r.everyStrand → s.me.mate u id = false) → exec (.wake d a t) s = .next ((r.setReg d 0).retires t)))

/-- FMTSET, FMTGET, PLTSET and PLTGET write and read the braid's format context (R376). Where they issue: FMTSET of a
custom index with a valid descriptor stores it and answers 0, an index outside 23 to 63 answers 2, an invalid
descriptor 1; PLTSET stores the low 7 bits at entry (a, b) and answers 0, or 2 out of range; FMTGET and PLTGET write
sd with what is stored, or the code for an index without a descriptor; nothing else changes. -/
def Obligations.FormatContext : Prop :=
  ∀ (s : State) (d a b c : BitVec 5) (t : BitVec 2), s.ready t false = true →
    let w := s.takeToken t
    let x := (s.reg a).toNat
    let y := (s.reg b).toNat
    let v := (s.reg c).toNat
    let gives (i : Instr) (u : State) (r : Nat) : Prop := exec i s = .next ((u.setReg d (BitVec.ofNat 64 r)).retires t)
    (x < 23 ∨ 63 < x → gives (.fmtset d a b t) w 2)
    ∧ (23 ≤ x → x ≤ 63 → y < 2 ^ 32 → descValid y = true → gives (.fmtset d a b t)
        (w.updBraid s.me.part s.me.braid (fun q => { q with fmts := put q.fmts x (BitVec.ofNat 19 y) })) 0)
    ∧ (23 ≤ x → x ≤ 63 → 2 ^ 32 ≤ y ∨ descValid y = false → gives (.fmtset d a b t) w 1)
    ∧ (x < 23 → gives (.fmtget d a t) w (2 ^ 63 + x)) ∧ (63 < x → gives (.fmtget d a t) w (2 ^ 63 + 255))
    ∧ (23 ≤ x → x ≤ 63 → (∀ g, w.myCtx.fmts.lookup x = some g → gives (.fmtget d a t) w g.toNat)
        ∧ (w.myCtx.fmts.lookup x = none → gives (.fmtget d a t) w 0))
    ∧ (63 < x ∨ 63 < y ∨ 255 < v → gives (.pltset d a b c t) w 2)
    ∧ (x ≤ 63 → y ≤ 63 → v ≤ 255 → gives (.pltset d a b c t)
        (w.updBraid s.me.part s.me.braid (fun q => { q with plt := put q.plt (64 * x + y) (BitVec.ofNat 8 (v % 128)) })) 0)
    ∧ (63 < x ∨ 63 < y → gives (.pltget d a b t) w (2 ^ 63 + 255))
    ∧ (x ≤ 63 → y ≤ 63 → gives (.pltget d a b t) w (w.myCtx.pltAt x y))

/-- Element-wise vector instructions write each active element's result and nothing else (R55, R75, R77, R180, R245, R263,
R266, R268, R270, R271, R278, R282). For every element-wise instruction, in a legal configuration with no exception
enabled and row tags the instruction accepts: it completes, only rows of vd's group, FCSR and the start point change;
each active element from the start point on holds the low SEW bits of its operation on the operands as they were;
every other slot stays; each row has the result tag's FMT and BSC; a POISON operand makes the row POISON and sets
FCSR.PSN. -/
def Obligations.ElementwiseVector : Prop :=
  ∀ (s : State) (d a b : BitVec 5) (k : BitVec 3) (m t : BitVec 2), s.ready t false = true →
    let w := s.takeToken t
    ∀ p ∈ elementForms d a b k m t w,
      s.me.vtypeIll (p.2.d :: p.2.srcs) = false → (∀ v ∈ p.2.srcs, s.me.straddle d v = false) → s.me.configured = true →
      s.me.noTraps = true → s.me.resumeUse = false →
      (∀ r, s.me.rstart ≤ r → r < s.me.rc → ∃ g, p.2.rowTag w r (p.2.tagsAt w r) = .ok g) →
      ∃ u : State, exec p.1 s = .next (u.retires t) ∧ w.rowsOnly u ∧ w.rowsKept u d.toNat s.me.rc
        ∧ (∀ r e g, s.me.rstart ≤ r → r < s.me.rc → e < s.me.vl → s.me.act k (r * s.me.vl + e) = true →
            p.2.rowTag w r (p.2.tagsAt w r) = .ok g → (p.2.result w r e g).open_ = false →
            getElem_ (u.me.row (d.toNat + r)).bits s.me.sewBits e = (p.2.result w r e g).code % 2 ^ s.me.sewBits)
        ∧ (∀ r e, r < s.me.rc → (e + 1) * s.me.sewBits ≤ 8192 → ¬(e < s.me.vl ∧ s.me.act k (r * s.me.vl + e) = true) →
            getElem_ (u.me.row (d.toNat + r)).bits s.me.sewBits e = getElem_ (s.me.row (d.toNat + r)).bits s.me.sewBits e)
        ∧ (∀ r g, s.me.rstart ≤ r → r < s.me.rc → p.2.rowTag w r (p.2.tagsAt w r) = .ok g →
            fmtOf (u.me.tag (d.toNat + r)) = fmtOf g ∧ bscOf (u.me.tag (d.toNat + r)) = bscOf g
            ∧ (p.2.poisoned w r = true → classOf (u.me.tag (d.toNat + r)) = 2 ∧ u.me.fcsr.getLsbD 5 = true))

/-- What the integer, bitwise and shift operations give for an element (R73, R268, R270, R271). For each integer and
natural format whose container is SEW, on VALID rows of that format: the operation of VADD, VSUB, VMUL and VFMA gives
the result modulo 2^SEW with no flag; AND, OR, XOR and NOT act bit by bit; the shifts move bits by the second
operand's code, zero (or the sign, for VSRA) where none is moved in. -/
def Obligations.ElementOperations : Prop :=
  ∀ (s : State) (d a b : BitVec 5) (k : BitVec 3) (m : BitVec 2) (r : Rounding) (n fmt x y z : Nat),
    n ≤ 5 → s.me.sew = n → fmt = 16 - n ∨ fmt = 22 - n → r.sat = false →
    let w := 2 ^ (n + 1)
    let g := mkTag fmt 127 0 false
    x < 2 ^ w → y < 2 ^ w → z < 2 ^ w →
    let arith (o : ArithOp) (v : Nat) : Prop := (arithX o (.row b) d a k m).op s [g, g, g] g [x, y, z] r = { code := v % 2 ^ w }
    let bits (e : ElemRes) (f : Nat → Bool) : Prop := ∀ i, e.code.testBit i = (decide (i < w) && f i)
    arith .add (x + y) ∧ arith .sub (x + (2 ^ w - y)) ∧ arith .mul (x * y) ∧ arith .fma (x * y + z)
    ∧ bits ((logicX (fun p q => p &&& q) (.row b) d a k).op s [g, g] g [x, y] r) (fun i => x.testBit i && y.testBit i)
    ∧ bits ((logicX (fun p q => p ||| q) (.row b) d a k).op s [g, g] g [x, y] r) (fun i => x.testBit i || y.testBit i)
    ∧ bits ((logicX (fun p q => p ^^^ q) (.row b) d a k).op s [g, g] g [x, y] r) (fun i => x.testBit i != y.testBit i)
    ∧ bits ((notX d a k).op s [g] g [x] r) (fun i => !x.testBit i)
    ∧ bits ((shiftX shlCode (.row b) d a k).op s [g, g] g [x, y] r) (fun i => decide (y ≤ i) && x.testBit (i - y))
    ∧ bits ((shiftX shrCode (.row b) d a k).op s [g, g] g [x, y] r) (fun i => x.testBit (i + y))
    ∧ bits ((shiftX sraCode (.row b) d a k).op s [g, g] g [x, y] r) (fun i => if i + y < w then x.testBit (i + y) else x.testBit (w - 1))

/-- Moves, VTAG and VID write rows or one register, and nothing else (R275, R276, R277, R281). In a legal configuration
with no exception enabled: VMV copies the active elements of a group under its tags, or a splat; VTAG copies codes
under the tag that sb names; VID writes each active element's group index as NAT of SEW; VMVX writes sd with one
element's code, the row's tag for index 2^64 - 1, or 0 out of range; VMVS writes one element from sa; these two leave
the start point (assumption 67). Nothing else changes. -/
def Obligations.VectorMoves : Prop :=
  ∀ (s : State) (d a b : BitVec 5) (k : BitVec 3) (t : BitVec 2), s.ready t false = true → s.me.configured = true → s.me.noTraps = true →
    let w := s.takeToken t
    let writes (i : Instr) (groups : List (BitVec 5)) (tags : Nat → Tag) (vals : Nat → Nat) : Prop :=
      s.me.vtypeIll (d :: groups) = false → ∃ u : State, exec i s = .next (u.retires t)
        ∧ w.wrote u d.toNat tags (fun j => if s.me.act k j then some (vals j) else none)
    let x := (s.capB b).toNat
    let tag := mkTag (x % 64) (x / 64 % 256) 0 (x / 2 ^ 17 % 2 == 1)
    writes (.vmvVv d b k t) [b] (fun r => s.me.tag (b.toNat + r)) (fun j => s.code b.toNat j)
    ∧ writes (.vmvVs d b k t) [] (fun r => s.me.tag (d.toNat + r)) (fun _ => x % 2 ^ s.me.sewBits)
    ∧ writes (.vmvVi d b k t) [] (fun r => s.me.tag (d.toNat + r)) (fun _ => (s.immVI b).toNat % 2 ^ s.me.sewBits)
    ∧ ((s.myCtx.fmt (x % 64)).container s.me.sewBits ≤ s.me.sewBits →
        writes (.vtag d a b k t) [a] (fun _ => tag) (fun j => s.code a.toNat j))
    ∧ writes (.vid d k t) [] (fun _ => mkTag (22 - s.me.sew) 127 0 false) (fun j => j)
    ∧ (s.me.vtypeIll [a] = false →
        (x = 2 ^ 64 - 1 → exec (.vmvx d a b t) s = .next ((w.setRegV d ((s.me.tag a.toNat).setWidth 64)).retires t))
        ∧ (s.me.count ≤ x → x ≠ 2 ^ 64 - 1 → exec (.vmvx d a b t) s = .next ((w.setRegV d 0).retires t))
        ∧ (x < s.me.count → classOf (s.me.tag (a.toNat + x / s.me.vl)) ≠ 2 →
            exec (.vmvx d a b t) s = .next ((w.setRegV d (BitVec.ofNat 64 (s.code a.toNat x))).retires t)))
    ∧ (s.me.vtypeIll [d] = false →
        (s.me.count ≤ x → exec (.vmvs d a b t) s = .next (w.retires t))
        ∧ (x < s.me.count → ∃ u : State, exec (.vmvs d a b t) s
              = .next ({ u with me := { u.me with vstart := s.me.vstart, rstart := s.me.rstart } }.retires t)
            ∧ w.wrote u d.toNat (fun r => s.me.tag (d.toNat + r)) (fun j => if j = x then some (s.capA a).toNat else none)))

/-- Permuting instructions move elements as their pattern says (R283, R284, R285, R286, R287, R288). In a legal
configuration with no exception enabled and groups of one format: VMERGE takes the second operand's element where the
mask is set and the first's elsewhere; VCOMPRESS packs the selected elements; VEXPAND spreads them; VSLUP and VSLDN
move elements by the amount and fill; VRGATH takes the element that the index names, zero out of range; VTRN
transposes blocks of RC elements. All reads come before all writes; nothing else changes. -/
def Obligations.VectorPermutes : Prop :=
  ∀ (s : State) (d a b : BitVec 5) (k : BitVec 3) (t : BitVec 2), s.ready t false = true → s.me.configured = true → s.me.noTraps = true →
    let w := s.takeToken t
    let moves (i : Instr) (srcs also : List (BitVec 5)) (vals : Tag → Nat → Option Nat) : Prop :=
      s.me.vtypeIll (d :: srcs ++ also) = false → ∀ g, groupTag ((srcs.map (fun v => s.me.groupTags v.toNat)).flatten) = .ok g →
      ∃ u : State, exec i s = .next (u.retires t) ∧ w.wrote u d.toNat (fun _ => g) (vals g)
    let n := s.me.count
    let ca (j : Nat) : Nat := s.code a.toNat j
    let sel := (List.range n).filter (fun j => s.me.active k j)
    let merge (y : Nat → Nat) (_ : Tag) (j : Nat) : Option Nat := if s.me.active k j then some (y j) else some (ca j)
    let fill (x : Nat) (g : Tag) : Option Nat := fillCode (s.myCtx.fmt (fmtOf g)) (x / 2 ^ 16 % 4)
    let up (x : Nat) (g : Tag) (j : Nat) : Option Nat :=
      if !s.me.act k j then none else if x % 2 ^ 16 ≤ j then some (ca (j - x % 2 ^ 16)) else fill x g
    let down (x : Nat) (g : Tag) (j : Nat) : Option Nat :=
      if !s.me.act k j then none else if j + x % 2 ^ 16 < n then some (ca (j + x % 2 ^ 16)) else fill x g
    let sb := (s.capB b).toNat
    let imm := (s.immVI b).toNat
    moves (.vmergeVv d a b k t) [a, b] [] (merge (fun j => s.code b.toNat j))
    ∧ moves (.vmergeVs d a b k t) [a] [] (merge (fun _ => sb % 2 ^ s.me.sewBits))
    ∧ moves (.vmergeVi d a b k t) [a] [] (merge (fun _ => imm % 2 ^ s.me.sewBits))
    ∧ moves (.vcompress d a k t) [a] [] (fun _ i => (sel[i]?).map ca)
    ∧ moves (.vexpand d a k t) [a] [] (fun _ j => (sel.idxOf? j).map ca)
    ∧ moves (.vslupVs d a b k t) [a] [] (up sb) ∧ moves (.vslupVi d a b k t) [a] [] (up imm)
    ∧ moves (.vsldnVs d a b k t) [a] [] (down sb) ∧ moves (.vsldnVi d a b k t) [a] [] (down imm)
    ∧ moves (.vrgath d a b k t) [a] [b] (fun _ j =>
        if s.me.act k j then some (if s.code b.toNat j < n then ca (s.code b.toNat j) else 0) else none)
    ∧ moves (.vtrn d a t) [a] [] (fun _ j =>
        let r := j / s.me.vl
        let e := j % s.me.vl
        if e < s.me.rc * (s.me.vl / s.me.rc) then some (ca (e % s.me.rc * s.me.vl + e / s.me.rc * s.me.rc + r)) else some (ca j))

/-- Compares and mask instructions write one mask or one register (R250, R272, R273). In a legal configuration with no
exception enabled: a compare of groups whose formats join writes bit j of kd with its relation for each active element
from the start point on, keeps the other bits below VL·RC and clears those above; KAND, KOR, KXOR, KNOT, KSET and KMV
write the bits of R273; KFFS and KPOPC write sd. A write to k0 is ignored, and nothing else changes but the start
point, which a compare clears and the others leave (assumption 67). -/
def Obligations.MasksAndCompares : Prop :=
  ∀ (s : State) (d a b : BitVec 5) (k : BitVec 3) (t : BitVec 2), s.ready t false = true → s.me.configured = true → s.me.noTraps = true →
    d.toNat ≤ 7 →
    let w := s.takeToken t
    let n := s.me.count
    let was (i j : Nat) : Bool := (s.me.mask i).getLsbD j
    let masks (i : Instr) (v : State) (bit : Nat → Bool) : Prop := ∃ u : State, exec i s = .next (u.retires t) ∧ v.maskOnly u d.toNat
      ∧ (d.toNat ≠ 0 → ∀ j, j < 32768 → (u.me.mask d.toNat).getLsbD j = (decide (j < n) && bit j))
    let value (v : BitVec 5) (j : Nat) : Machine.Num :=
      let row := s.me.row (v.toNat + j / s.me.vl)
      rowValue s.myCtx row.tag (getElem_ row.bits s.me.sewBits (j % s.me.vl))
    let compares (i : Instr) (rel : Nat) (x : Src) : Prop :=
      s.me.vtypeIll (a :: x.groups) = false →
      (∀ r, s.me.rstart ≤ r → r < s.me.rc → (joinRow s.myCtx (s.me.tag (a.toNat + r)) (match x with
        | .row v => s.me.tag (v.toNat + r)
        | .splat _ _ => mkTag (fmtOf (s.me.tag (a.toNat + r))) (bscOf (s.me.tag (a.toNat + r))) 0 false)).isSome = true) →
      masks i w.clearStart (fun j => if s.me.act k j then (relation rel (value a j) (match x with
        | .row v => value v j
        | .splat y imm => splatValue (s.myCtx.fmt (fmtOf (s.me.tag (a.toNat + j / s.me.vl)))) y imm)).1 else was d.toNat j)
    let vs : Src := .splat (s.capB b) false
    let vi : Src := .splat (s.immVI b) true
    compares (.vcmpeqVv d a b k t) 0 (.row b) ∧ compares (.vcmpeqVs d a b k t) 0 vs ∧ compares (.vcmpeqVi d a b k t) 0 vi
    ∧ compares (.vcmpltVv d a b k t) 1 (.row b) ∧ compares (.vcmpltVs d a b k t) 1 vs ∧ compares (.vcmpltVi d a b k t) 1 vi
    ∧ compares (.vcmpleVv d a b k t) 2 (.row b) ∧ compares (.vcmpleVs d a b k t) 2 vs ∧ compares (.vcmpleVi d a b k t) 2 vi
    ∧ (s.me.ill = false →
        masks (.kand d a b t) w (fun j => was a.toNat j && was b.toNat j) ∧ masks (.kor d a b t) w (fun j => was a.toNat j || was b.toNat j)
        ∧ masks (.kxor d a b t) w (fun j => was a.toNat j != was b.toNat j) ∧ masks (.knot d a t) w (fun j => !was a.toNat j)
        ∧ masks (.kset d a b t) w (fun j => decide ((s.capA a).toNat ≤ j ∧ j < (s.capB b).toNat))
        ∧ (s.me.vtypeIll [a] = false → masks (.kmv d a t) w (fun j => s.code a.toNat j != 0))
        ∧ (∀ x : BitVec 5, exec (.kpopc x a t) s
            = .next ((w.setRegV x (BitVec.ofNat 64 ((List.range n).filter (was a.toNat)).length)).retires t))
        ∧ (∀ x : BitVec 5, (∀ j, j < n → was a.toNat j = false) →
            exec (.kffs x a t) s = .next ((w.setRegV x (BitVec.allOnes 64)).retires t))
        ∧ (∀ (x : BitVec 5) (j : Nat), j < n → was a.toNat j = true → (∀ i, i < j → was a.toNat i = false) →
            exec (.kffs x a t) s = .next ((w.setRegV x (BitVec.ofNat 64 j)).retires t)))

/-- Reductions write one scalar register; scans write one group (R76, R274, R289, R290, R291, R292). In a legal
configuration with no exception enabled, on groups of one format that has an accumulation format: VREDSUM, VREDMIN,
VREDMAX, VREDARG and VDOT complete and change only sd, FCSR and the start point. Sums and dot products of integers are
exact modulo 2^64 when they do not saturate, and reproducible ones are reproSum rounded; VREDMIN and VREDMAX give the
least and the greatest value rounded once (minus zero below plus zero), the canonical NaN where an element is one, and
the identity for no element; VREDARG gives the first index of the greatest value, all ones for none; VREDXOR writes
the XOR of the active codes; VSCAN and VSCANX onto another group write each active element from the start point on
with the running total that takes it in, or leaves it out, and change only that group's rows. -/
def Obligations.ReductionsAndScans : Prop :=
  ∀ (s : State) (d a b : BitVec 5) (k : BitVec 3) (m t : BitVec 2), s.ready t false = true → s.me.configured = true → s.me.noTraps = true →
    let w := s.takeToken t
    let scalar (i : Instr) : Prop := ∃ u : State, exec i s = .next (u.retires t) ∧ w.scalarOnly u d
    let gives (i : Instr) (x : Word) : Prop :=
      ∃ u : State, exec i s = .next (((u.setRegV d x).clearStart).retires t) ∧ w.scalarOnly u d
    let val (v : BitVec 5) (j : Nat) : Machine.Num :=
      let row := s.me.row (v.toNat + j / s.me.vl)
      rowValue s.myCtx row.tag (getElem_ row.bits s.me.sewBits (j % s.me.vl))
    let js := (List.range s.me.count).filter (fun j => s.me.active k j)
    let rnd := s.me.rounding m 0 0
    let isInt (n : Nat) : Prop := n = 11 ∨ n = 17
    let ints (v : BitVec 5) (x : Nat → Int) : Prop := ∀ j, j ∈ js → (val v j).int? = some (x j)
    let code (n : Nat) (x : Machine.Num) : Word := BitVec.ofNat 64 (roundTo (fixedFmt n) 127 rnd x).1
    let ordered (n : Nat) (x : Nat → Machine.Num) : Word :=
      code n (reproSum (fixedFmt n) ((List.range s.me.count).map (fun j => if s.me.active k j then x j else .zero))).1
    let under (x y : Machine.Num) : Bool := x.lt y || (x.isZero && y.isZero && x.isNeg && !y.isNeg)
    let extreme (i : Instr) (n : Nat) (before : Machine.Num → Machine.Num → Bool) (ident : Word) : Prop :=
      (js = [] → gives i ident)
      ∧ ((∃ j, j ∈ js ∧ (val a j).isNan = true) → gives i (if n = 1 then 0x7FF8000000000000 else 0x7FC00000))
      ∧ (js ≠ [] → (∀ j, j ∈ js → (val a j).isNan = false) →
          ∃ j, j ∈ js ∧ (∀ l, l ∈ js → before (val a l) (val a j) = false)
            ∧ (isInt n → ∀ x, (val a j).int? = some x → gives i (BitVec.ofInt 64 x)) ∧ (¬isInt n → gives i (code n (val a j))))
    s.me.vtypeIll [a] = false →
    (∀ g n, groupTag (s.me.groupTags a.toNat) = .ok g → accFormat s.myCtx (fmtOf g) = some n →
      scalar (.vredsum d a k m t) ∧ scalar (.vredmin d a k m t) ∧ scalar (.vredmax d a k m t) ∧ scalar (.vredarg d a k t)
      ∧ (∀ x, isInt n → m ≠ 1 → ints a x → gives (.vredsum d a k m t) (BitVec.ofInt 64 (js.foldl (fun y j => y + x j) 0)))
      ∧ (¬isInt n → s.me.repro = true → gives (.vredsum d a k m t) (ordered n (val a)))
      ∧ extreme (.vredmin d a k m t) n under (match n with
          | 1 => 0x7FF0000000000000
          | 2 => 0x7F800000
          | 11 => 0x7FFFFFFFFFFFFFFF
          | _ => 0xFFFFFFFFFFFFFFFF)
      ∧ extreme (.vredmax d a k m t) n (fun x y => under y x) (match n with
          | 1 => 0xFFF0000000000000
          | 2 => 0xFF800000
          | 11 => 0x8000000000000000
          | _ => 0)
      ∧ ((∀ j, j ∈ js → (val a j).isNan = true) → gives (.vredarg d a k t) (BitVec.allOnes 64))
      ∧ (∀ j, j ∈ js → (val a j).isNan = false →
          (∀ l, l ∈ js → (val a l).isNan = false → (val a j).lt (val a l) = false ∧ (l < j → (val a l).lt (val a j) = true)) →
          gives (.vredarg d a k t) (BitVec.ofNat 64 j))
      ∧ (∀ gb n, s.me.vtypeIll [a, b] = false → groupTag (s.me.groupTags b.toNat) = .ok gb →
          s.myCtx.isUnassigned (fmtOf g) = false → s.myCtx.isUnassigned (fmtOf gb) = false →
          (s.myCtx.joinFmt (fmtOf g) (fmtOf gb)).bind (accFormat s.myCtx) = some n →
            scalar (.vdot d a b k m t)
            ∧ (∀ x y, isInt n → m ≠ 1 → ints a x → ints b y →
                gives (.vdot d a b k m t) (BitVec.ofInt 64 (js.foldl (fun z j => z + x j * y j) 0)))
            ∧ (¬isInt n → s.me.repro = true → gives (.vdot d a b k m t) (ordered n (fun j => ((val a j).mul (val b j)).1))))
      ∧ (∀ q, s.me.vtypeIll [d, a] = false → s.me.overlap d a = false → resultTag s g g none = .ok q →
          let tgt := s.myCtx.fmt (fmtOf q)
          let upto (l : Nat) : List Nat := (List.range l).filter (fun j => s.me.active k j)
          let sum (x : Nat → Int) (l : Nat) : Int := (upto l).foldl (fun y j => y + x j) 0
          let total (l : Nat) : Machine.Num := (upto l).foldl (fun y j =>
            (fixedFmt n).decode (roundTo (fixedFmt n) 127 ⟨0, 0, false⟩ (y.add 0 (val a j)).1).1) .zero
          let scans (i : Instr) (own : Nat) : Prop := ∃ u : State, exec i s = .next (u.retires t) ∧ w.rowsOnly u ∧ w.rowsKept u d.toNat s.me.rc
            ∧ (∀ j, j < s.me.count → s.me.act k j = false → s.slot u d.toNat j = s.slot s d.toNat j)
            ∧ (∀ j x, j < s.me.count → s.me.act k j = true → isInt n → m ≠ 1 → tgt.isInt = true → ints a x →
                s.slot u d.toNat j = (sum x (j + own) % (2 ^ tgt.m : Int)).toNat)
            ∧ (∀ j, j < s.me.count → s.me.act k j = true → ¬isInt n → tgt.isInt = false → s.slot u d.toNat j =
                (roundTo tgt (bscOf q) (s.me.rounding m (j / s.me.vl) (j % s.me.vl)) (total (j + own))).1 % 2 ^ s.me.sewBits)
          scans (.vscan d a k m t) 1 ∧ scans (.vscanx d a k m t) 0))
    ∧ ((∀ r, r < s.me.rc → classOf (s.me.tag (a.toNat + r)) ≠ 2) → exec (.vredxor d a k t) s = .next (((w.setRegV d (BitVec.ofNat 64
        (((List.range s.me.count).filter (fun j => s.me.active k j)).foldl (fun x j => x ^^^ s.code a.toNat j) 0))).clearStart).retires t))

/-- QPUSH appends a group to a vector queue, QPOP takes the oldest entries, and neither does it in part (R251, R253,
R257). In a legal configuration with no exception enabled: QPUSH by the writer to an open queue with room for RC
entries beside the visible and reserved ones appends them, each with the active codes of its row (zero elsewhere), its
FMT and BSC, SEW and VL; QPOP by the reader takes the RC oldest entries of its SEW into the active elements of its
group, zero beyond an entry's VL, the others staying; a queue without room, or without RC entries, makes it wait with
nothing changed; the wrong side, or a closed queue, traps QUEUE_MISUSE. -/
def Obligations.VectorQueues : Prop :=
  ∀ (s : State) (q v : BitVec 5) (k : BitVec 3) (t : BitVec 2), s.ready t false = true → s.me.configured = true → s.me.noTraps = true →
    q.toNat < 4 → s.me.vtypeIll [v] = false →
    let w := s.takeToken t
    let n := q.toNat
    let old := s.vq n
    (s.me.writesQ n = true → s.qClosed n = false → old.length + s.reservedOf n + s.me.rc ≤ 8 →
        ∃ (u : State) (es : List QEntry), exec (.qpush q v k t) s = .next (u.retires t)
          ∧ u.vq n = old ++ es ∧ es.length = s.me.rc ∧ (∀ j, j < 4 → j ≠ n → u.vq j = s.vq j)
          ∧ u.me.regs = s.me.regs ∧ u.me.rows = s.me.rows ∧ u.me.masks = s.me.masks ∧ u.mem = s.mem
          ∧ ∀ r x, es[r]? = some x → x.sew = s.me.sew ∧ x.vl = s.me.vl
              ∧ fmtOf x.row.tag = fmtOf (s.me.tag (v.toNat + r)) ∧ bscOf x.row.tag = bscOf (s.me.tag (v.toNat + r))
              ∧ ∀ e, e < s.me.vl → getElem_ x.row.bits s.me.sewBits e
                  = (if s.me.act k (r * s.me.vl + e) then s.code v.toNat (r * s.me.vl + e) else 0))
    ∧ (s.me.writesQ n = true → s.qClosed n = false → 8 < old.length + s.reservedOf n + s.me.rc →
        exec (.qpush q v k t) s = .next { w with waiting := true })
    ∧ (s.me.writesQ n = true → s.qClosed n = true → exec (.qpush q v k t) s = w.takeTrap { cause := 0x0E, val := queueVal n 2 0 0 })
    ∧ (s.me.writesQ n = false → exec (.qpush q v k t) s = w.takeTrap { cause := 0x0E, val := queueVal n 1 0 0 })
    ∧ (s.me.writesQ n = true → exec (.qpop v q k t) s = w.takeTrap { cause := 0x0E, val := queueVal n 1 0 0 })
    ∧ (s.me.writesQ n = false → old.length < s.me.rc → exec (.qpop v q k t) s =
        if s.qClosed n then w.takeTrap { cause := 0x0E, val := queueVal n 2 0 0 } else .next { w with waiting := true })
    ∧ (s.me.writesQ n = false → s.me.rc ≤ old.length → (∀ x, x ∈ old.take s.me.rc → x.sew = s.me.sew) →
        ∃ u : State, exec (.qpop v q k t) s = .next (u.retires t)
          ∧ u.vq n = old.drop s.me.rc ∧ (∀ j, j < 4 → j ≠ n → u.vq j = s.vq j)
          ∧ u.me.regs = s.me.regs ∧ u.me.masks = s.me.masks ∧ u.mem = s.mem ∧ s.rowsKept u v.toNat s.me.rc
          ∧ ∀ r x, r < s.me.rc → old[r]? = some x →
              fmtOf (u.me.tag (v.toNat + r)) = fmtOf x.row.tag ∧ bscOf (u.me.tag (v.toNat + r)) = bscOf x.row.tag
              ∧ ∀ e, e < s.me.vl → s.slot u v.toNat (r * s.me.vl + e) =
                  (if s.me.act k (r * s.me.vl + e) then (if e < x.vl then rowCode x.row.bits x.row.tag s.me.sewBits e else 0)
                   else s.slot s v.toNat (r * s.me.vl + e)))

/-- A vector load whose elements can all be read writes its group, or its queue entries, and completes (R177, R178, R180,
R182, R194, R196, R197, R201, R203). In a legal group, with no watermark binding, where every active element that is
not yet performed translates and the lines the load reads stop none: VLD, VLDS, VLDX, VGNM, VGLL and VLDA write the
rows that the lines give, those read before the instruction was parked among them, and complete; VGLL keeps links on
its first 64 lines; VLDQ pushes the rows as queue entries and its reservation ends, or it waits for room; VLDTAG
writes each element's tag word. Scalar registers, masks and the rows outside the group stay; an illegal group traps
VTYPE_ILLEGAL. -/
def Obligations.VectorLoads : Prop :=
  ∀ (s : State) (d a b : BitVec 5) (k : BitVec 3) (f g : BitVec 1) (h t : BitVec 2) (sc : BitVec 3), s.ready t false = true →
    s.me.wmBind.getLsbD 14 = false →
    let w := s.takeToken t
    let op (word : Word) (form : AddrForm) (near : Bool) : MemOp := ⟨word, form, a, b, k, .read, near⟩
    let word (n : Nat) : Word := wordVM n d a b k (loadModm f g h) t
    let kept (u : State) : Prop := u.me.regs = s.me.regs ∧ u.me.masks = s.me.masks ∧ s.rowsKept u d.toNat s.me.rc
    let pr := w.progress k
    let one (ff tf : BitVec 1) : Bool := (ff == 1 || tf == 1) && s.me.rc == 1
    let finds (x : MemOp) (inOrder : Bool) (gs : List (BitVec 5)) (r : Found) : Prop := s.me.memIll x gs = false ∧ s.indexPoison x = false
      ∧ findElems x pr inOrder (w.todo x pr) w = r ∧ r.fault = none ∧ r.pending = []
    let taken (read : LineRead) (r : Found) : List Taken := mergeTaken pr.taken (takeElems read r.elems r.s).1
    let loads (i : Instr) (x : MemOp) (inOrder : Bool) (read : LineRead) (first mid : State → State) (after : State → List Elem → State) : Prop :=
      (∀ r₀ : Found, finds x inOrder [d] r₀ →
        let r : Found := { r₀ with s := first r₀.s }
        let y := loadRows (rowsAt d) k (taken read r) none s.me.rc 0 (takeElems read r.elems r.s).2
        y.fault = none →
        let u := (after ((mid y.s).putRows d.toNat y.rows) ((taken read r).map (fun e => e.elem))).clearStart
        exec i s = .next (u.retires t) ∧ kept u)
      ∧ (s.me.memIll x [d] = true → exec i s = w.takeTrap { cause := 2, val := x.word })
    let plain := readPlain h.toNat
    let at_ := fun (u : State) (_ : List Elem) => u
    let scope := (w.clampScope sc.toNat).1
    let wq := wordVM 0xC3 d a b k (loadModm f g h) t
    loads (.vld d a b k f g h t) (op (word 0xC0) .unit false) (one f g) plain id id at_
    ∧ loads (.vlds d a b k f g h t) (op (word 0xC1) .strided false) (one f g) plain id id at_
    ∧ loads (.vldx d a b k f g h t) (op (word 0xC2) .indexed false) (one f g) plain id id at_
    ∧ loads (.vgnm d a b k f g t) (op (wordVM 0xD9 d a b k (f.toNat * 8 + g.toNat * 4) t) .indexed true) (one f g) (readPlain 0) id id at_
    ∧ loads (.vlda d a b k f sc t) (op (wordVM 0xC8 d a b k (f.toNat * 8 + sc.toNat) t) .unit false) (one f 0) (readLevel scope) id
        (fun u => (u.clampScope sc.toNat).2) (fun u _ => u.acquire scope)
    ∧ loads (.vgll d a b k t) (op (wordVM 0xD7 d a b k 0 t) .indexed false) false (readLinked (pr.taken.map (fun e => e.elem.loc.key)))
        (fun u => if s.me.done_.isSome then u else { u with me := { u.me with links := [] } }) id
        (fun u es => u.trimLinks ((distinctLines es).map (fun e => e.loc.key)))
    ∧ (∀ r : Found, finds (op (word 0xCC) .tags false) (one f g) [d] r →
        let tag := mkTag (if s.me.sewBits = 32 then 18 else 17) 127 0 false
        let u := ((taken plain r).foldl (fun (y : State) e =>
          let n := d.toNat + e.elem.j / y.me.vl
          (y.setCode n (e.elem.j % y.me.vl) e.tag.toNat).setRowTag n tag) (takeElems plain r.elems r.s).2).clearStart
        exec (.vldtag d a b k f g h t) s = .next (u.retires t) ∧ kept u)
    ∧ (s.me.memIll (op wq .unit false) [] = false → s.me.writesQ d.toNat = true → s.qClosed d.toNat = false →
        (8 < (s.vq d.toNat).length + s.me.rc → exec (.vldq d a b k f g h t) s = .next { w with waiting := true })
        ∧ ((s.vq d.toNat).length + s.me.rc ≤ 8 → ∀ r : Found, finds (op wq .unit false) (one f g) [] r →
            let y := loadRows (fun _ _ => {}) k (taken plain r) none s.me.rc 0 (takeElems plain r.elems r.s).2
            y.fault = none → exec (.vldq d a b k f g h t) s = .next (State.retires (State.clearStart ((y.s.setReserved d.toNat 0).pushVq
              d.toNat ((List.range s.me.rc).map (fun i => ⟨look y.rows i {}, s.me.sew, s.me.vl⟩)))) t)))

/-- VLD and VST move the bytes of a local-store window to and from a group, little-endian (R6, R55, R102, R178, R180,
R194, R195). In a legal configuration with no exception enabled, no element performed before, and elements of whole
bytes, at aligned addresses of local-store windows that no shadowed buffer moves: VLD from VALID lines of one format
writes each active element from the start point on with its bytes and keeps the others; VST leaves each such element's
code at its address and every other byte of memory; registers, masks and other rows stay. -/
def Obligations.LocalStoreVectors : Prop :=
  ∀ (s : State) (d a b : BitVec 5) (k : BitVec 3) (h t : BitVec 2), s.ready t false = true → s.me.configured = true → s.me.noTraps = true →
    s.me.vtypeIll [d] = false → s.me.wmBind.getLsbD 14 = false → Memory.wf s.mem = true → s.me.done_ = none →
    let w := s.takeToken t
    let n := s.me.sewBits / 8
    8 ≤ s.me.sewBits → 0 < s.me.vl →
    let va (j : Nat) : Nat := ((s.capA a).toNat + (s.capB b).toNat + j * n) % 2 ^ 64
    ∀ c : Nat → Nat,
    (∀ j, j < s.me.count → s.me.act k j = true →
      classify s.me.core (va j) = .window (c j) (va j % 2 ^ 20) ∧ s.resolveBy (fun b => (s.fronts s.me.part).contains b.1) s.me.vf (va j) = va j ∧ va j % n = 0) →
    let p (j : Nat) : Nat := lsByte (c j) (va j % 2 ^ 20)
    (∀ g, (∀ j, j < s.me.count → s.me.act k j = true → s.tagAt (p j / 128) = g) → badTag g = false → classOf g = 0 →
        (s.myCtx.fmt (fmtOf g)).container s.me.sewBits ≤ s.me.sewBits →
        (∀ r, r < s.me.rc → r * s.me.vl < s.me.start → fmtOf (s.me.tag (d.toNat + r)) = fmtOf g ∧ bscOf (s.me.tag (d.toNat + r)) = bscOf g) →
        ∃ u : State, exec (.vld d a b k 0 0 h t) s = .next (u.retires t) ∧ w.rowsOnly u ∧ s.rowsKept u d.toNat s.me.rc
          ∧ ∀ j, j < s.me.count → s.slot u d.toNat j = (if s.me.act k j then memNat s.mem (p j) n else s.slot s d.toNat j))
    ∧ ∃ u : State, exec (.vst d a b k h t) s = .next (u.retires t)
        ∧ u.me = { w.me with links := u.me.links, vstart := 0, rstart := 0 } ∧ u.pairs = w.pairs
        ∧ (∀ j, j < s.me.count → s.me.act k j = true → memNat u.mem (p j) n = s.code d.toNat j)
        ∧ ∀ x, (∀ j, j < s.me.count → s.me.act k j = true → x < p j ∨ p j + n ≤ x) → memGet u.mem x = memGet s.mem x

/-- A vector store whose elements are all accepted completes and changes no register (R177, R178, R180, R181, R185, R195,
R196, R198, R203). In a legal group, where every active element that is not yet performed translates and none is
refused: VST, VSTS, VSTX, VSNM and VSTR store the elements in ascending order and complete, VSTR after a release at
its scope; VSTQ stores the RC oldest entries of its queue and takes them, or those that it took before it was parked
or trapped; VZERO writes each covered line whole, zero under the scrubbed tag; VPF, VFLUSH and VINVL act on the lines
that translate. Registers, rows and masks stay. -/
def Obligations.VectorStores : Prop :=
  ∀ (s : State) (d a b : BitVec 5) (k : BitVec 3) (h t : BitVec 2) (sc : BitVec 3), s.ready t false = true →
    let w := s.takeToken t
    let op (word : Word) (form : AddrForm) (acc : Access) (near : Bool) : MemOp := ⟨word, form, a, b, k, acc, near⟩
    let word (n : Nat) : Word := wordVM n d a b k h.toNat t
    let kept (u : State) : Prop := u.me.regs = s.me.regs ∧ u.me.masks = s.me.masks ∧ u.me.rows = s.me.rows
    let done := w.progress k
    let finds (x : MemOp) (gs : List (BitVec 5)) (pr : Progress) (v : State) (r : Found) : Prop := s.me.memIll x gs = false
      ∧ s.indexPoison x = false ∧ findElems x pr false (v.todo x pr) v = r ∧ r.fault = none ∧ r.pending = []
    let stores (i : Instr) (x : MemOp) (gather : Bool) (put : LineWrite) (v : State) : Prop :=
      (∀ r : Found, finds x [d] done v r →
        let q := storeElems k gather put (fun i => s.me.row (d.toNat + i)) r.elems none r.s
        q.2 = none → exec i s = .next (q.1.clearStart.retires t) ∧ kept q.1)
      ∧ (s.me.memIll x [d] = true → exec i s = w.takeTrap { cause := 2, val := x.word })
    let scope := (w.clampScope sc.toNat).1
    let counted := (w.clampOnce sc.toNat).2
    stores (.vst d a b k h t) (op (word 0xC4) .unit .write false) true (writePlain h.toNat) w
    ∧ stores (.vsts d a b k h t) (op (word 0xC5) .strided .write false) false (writePlain h.toNat) w
    ∧ stores (.vstx d a b k h t) (op (word 0xC6) .indexed .write false) false (writePlain h.toNat) w
    ∧ stores (.vsnm d a b k t) (op (wordVM 0xDA d a b k 0 t) .indexed .write true) false (writePlain 0) w
    ∧ stores (.vstr d a b k sc t) (op (wordVM 0xC9 d a b k sc.toNat t) .unit .write false) true (writeLevel scope)
        (if s.me.done_.isSome then counted else counted.release scope)
    ∧ (let x := op (word 0xC7) .unit .write false
       let n := d.toNat
       let es := s.me.poppedBefore.getD ((s.vq n).take s.me.rc)
       let pr : Progress := { done with popped := some es }
       let v₀ := if s.me.poppedBefore.isSome then w else w.setVq n ((s.vq n).drop s.me.rc)
       let v : State := { v₀ with me := { v₀.me with done_ := some pr } }
       (s.me.poppedBefore = none → s.me.writesQ n = false ∧ s.me.rc ≤ (s.vq n).length) → ∀ r : Found, finds x [] pr v r →
         let q := storeElems k true (writePlain h.toNat) (fun i => (es[i]?.map (fun e => e.row)).getD {}) r.elems none r.s
         q.2 = none → exec (.vstq d a b k h t) s = .next (q.1.clearStart.retires t) ∧ kept q.1)
    ∧ (∀ r : Found, finds (op (wordVM 0xCB 0 a b k h.toNat t) .unit .write false) [] done w r →
        let z := (distinctLines r.elems).foldl (zeroLine h.toNat) (r.s, none)
        z.2 = none → exec (.vzero a b k h t) s = .next (z.1.clearStart.retires t) ∧ kept z.1)
    ∧ (s.me.ill = false →
        let lines (n m : Nat) : MemOp := op (wordVM n 0 a b k m t) .unit .read false
        let c := (w.clampScope sc.toNat).2
        let below := !(scope == 0 || (scope == 1 && (s.coil (coilOf s.me.core)).fused))
        let does (i : Instr) (u : State) : Prop := exec i s = .next (u.clearStart.retires t) ∧ kept u
        does (.vpf a b k h t) (w.coverLines (lines 0xCA h.toNat) (fun u l => (u.loadLine u.me.core l h.toNat u.reader).2.2))
        ∧ does (.vflush a b k sc t) (c.coverLines (lines 0xCD sc.toNat) (fun u l => match l with
            | .store _ _ => u
            | .page e j => if below then u.writeBackLine (u.l1Core u.me.core e j) l.key else u))
        ∧ does (.vinvl a b k sc t) (c.coverLines (lines 0xCE sc.toNat) (fun u l => match l with
            | .store _ _ => u
            | .page e j => if below then u.updCore (u.l1Core u.me.core e j) (fun q => q.clearValid l.key) else u)))

/-- A vector atomic whose elements are all accepted performs them in ascending order at their homes (R163, R199, R200,
R202, R203). In a legal group, where every active element translates, together or over several tries, and the lines
refuse none: VAMOADD, VAMOMIN, VAMOMAX, VAMOSWP, VAMOAND, VAMOOR and VCAS write their lines in one step and return the
old codes; VSANM and VSXNM return none; VSC clears the bits of mask k for the elements whose link held and that were
stored. Scalar registers and the rows outside the group stay; VCAS of more than one row traps. -/
def Obligations.VectorAtomics : Prop :=
  ∀ (s : State) (d a b : BitVec 5) (k : BitVec 3) (t : BitVec 2), s.ready t false = true →
    let w := s.takeToken t
    let op (n : Nat) (acc : Access) (near : Bool) : MemOp := ⟨wordVM n d a b k 0 t, .indexed, a, b, k, acc, near⟩
    let pr := w.progress k
    let finds (x : MemOp) (r : Found) : Prop := s.me.memIll x [d] = false ∧ s.indexPoison x = false
      ∧ findElems x pr false (w.todo x pr) w = r ∧ r.fault = none ∧ r.pending = []
    let home (r : Found) : State := r.elems.foldl (fun u e => u.writeBackAndDrop u.me.core e.loc) r.s
    let atomic (i : Instr) (o : AtomOp) (n : Nat) : Prop := (o = .cas → s.me.rc = 1) → ∀ r : Found, finds (op n .atomic o.isNear) r →
      let rows (j : Nat) : Row := s.me.row (d.toNat + j)
      let q := r.elems.foldl (atomElem o rows (rows 1)) { s := home r }
      q.fault = none →
      let u := State.raise (if o.isNear then (if q.poison then q.s.raise 0x20 else q.s) else q.s.returnOlds d.toNat q.olds q.poison) q.flags
      exec i s = .next (u.clearStart.retires t) ∧ u.me.regs = s.me.regs ∧ u.me.masks = s.me.masks
        ∧ s.rowsKept u d.toNat s.me.rc ∧ (o.isNear = true → u.me.rows = s.me.rows)
    atomic (.vamoadd d a b k t) .add 0xD0 ∧ atomic (.vamomin d a b k t) .min 0xD1 ∧ atomic (.vamomax d a b k t) .max 0xD2
    ∧ atomic (.vamoswp d a b k t) .swp 0xD3 ∧ atomic (.vamoand d a b k t) .and 0xD4 ∧ atomic (.vamoor d a b k t) .or 0xD5
    ∧ atomic (.vcas d a b k t) .cas 0xD6 ∧ atomic (.vsanm d a b k t) .nearAdd 0xDB ∧ atomic (.vsxnm d a b k t) .nearMax 0xDC
    ∧ (s.me.rc ≠ 1 → exec (.vcas d a b k t) s = w.takeTrap { cause := 2, val := wordVM 0xD6 d a b k 0 t })
    ∧ (∀ r : Found, finds (op 0xD8 .write false) r →
        let q := r.elems.foldl (scElem d.toNat) { s := home r }
        q.fault = none → ∃ u : State, exec (.vsc d a b k t) s = .next (u.retires t) ∧ u.mem = q.s.mem
          ∧ u.me.regs = s.me.regs ∧ u.me.rows = s.me.rows
          ∧ (k ≠ 0 → ∀ j, j < 32768 → (u.me.mask k.toNat).getLsbD j = ((s.me.mask k.toNat).getLsbD j && !q.won.contains j)))

/-- ECFG, ECFGR, EGO and TSQGO write and read the shadow registers and journal a command (R205, R206, R207, R208, R211,
R213, R228). With the journal enabled and canonical memory: ECFG performs the queued scalar stores and stores s[sa] in
the shadow register; ECFGR reads one as a scalar load does, zero from an UNINIT line, with PSN from a POISON one; EGO
and TSQGO, where the entry is free and the pending queue has room, write the next number's entry (NUM, ENGINE,
PENDING, PRIVM, ARG, PROG 0 and the 28 shadow registers as the queued stores leave them), queue the command, advance
JRNLHEAD and write sa with the number, and wait for room otherwise. With the journal disabled each traps
JOURNAL_OVERFLOW with TRAPVAL 0. -/
def Obligations.CommandIssue : Prop :=
  ∀ (s : State) (e : BitVec 3) (r : BitVec 9) (a : BitVec 5) (t : BitVec 2), s.ready t true = true → Memory.wf s.mem = true →
    let w := s.takeToken t
    let off (i : Instr) : Prop := s.me.jrnlBase.getLsbD 0 = false → exec i s = w.takeTrap { cause := 0x17, val := 0 }
    let goes (i : Instr) (k : Nat) (arg : Word) : Prop :=
      let n := s.me.jrnlHead.toNat + 1
      let st := s.jState s.me n
      let q := (s.engine s.me.core k).pending
      (s.me.egoWaits k n = true → exec i s = .next { w with waiting := true })
      ∧ (s.me.egoWaits k n = false → n < 2 ^ 64 → (st = 0 ∨ (s.jNum s.me n ≠ n ∧ (st = 3 ∨ st = 4))) →
      (16 ≤ q.length → exec i s = .next { w with waiting := true })
      ∧ (q.length < 16 → ∃ v : State,
          exec i s = .next ((State.setReg { v with me := { v.me.record 33 s.me.jrnlHead with jrnlHead := BitVec.ofNat 64 n } } a
            (BitVec.ofNat 64 n)).retires t)
          ∧ w.writesOnly v ∧ v.jNum s.me n = n ∧ v.jHead s.me n = k + 8 + s.me.pm.toNat * 2 ^ 16
          ∧ v.jArg s.me n = arg ∧ v.jProg s.me n = 0
          ∧ (∀ i, i < 28 → v.jReg s.me n i = BitVec.ofNat 64 (s.shadowReg k i))
          ∧ (v.engine s.me.core k).running = (s.engine s.me.core k).running
          ∧ (v.engine s.me.core k).pending = q ++ [⟨s.me.ctx, n, s.myCtx.fmts, s.myCtx.plt, s.me.diceSeed, none⟩]
          ∧ ∀ x, x < s.me.journalAt n ∨ s.me.journalAt n + 256 ≤ x → memGet v.mem x = memGet s.mem x))
    off (.ego e a t) ∧ off (.tsqgo r a t)
    ∧ (s.me.jrnlBase.getLsbD 0 = true →
        (e.toNat < 4 → goes (.ego e a t) e.toNat 0) ∧ goes (.tsqgo r a t) 3 (BitVec.ofNat 64 (8 * r.toNat)))
    ∧ (s.ready t false = true →
        off (.ecfg e r a t) ∧ off (.ecfgr e r a t)
        ∧ (s.me.jrnlBase.getLsbD 0 = true →
            let v := w.performAll
            let at_ := s.me.shadowAt e.toNat r.toNat
            let x := v.readHome (.store s.me.core (s.me.shadowOff e.toNat r.toNat / 128)) v.reader
            (∃ u : State, exec (.ecfg e r a t) s = .next (u.retires t) ∧ v.writesOnly u ∧ memNat u.mem at_ 8 = (s.reg a).toNat
              ∧ ∀ b, b < at_ ∨ at_ + 8 ≤ b → memGet u.mem b = memGet v.mem b)
            ∧ ((classOf x.2.1 = 2 → s.me.tePsn = false) → exec (.ecfgr e r a t) s
                = .next ((State.setReg (if classOf x.2.1 = 2 then x.2.2.raise 0x20 else x.2.2) a
                    (BitVec.ofNat 64 (if classOf x.2.1 = 4 then 0 else memNat v.mem at_ 8))).retires t))))

/-- EWAIT, ESTAT, ECANCEL, EJRNL, PUBLISH, TSQLD and TSQSTAT act on the strand's commands (R212, R214, R216, R217, R225,
R227, R229). Where they issue, with canonical memory: EWAIT retires when no named command of the engine is incomplete,
traps ENGINE_FAULT at a faulted one, and waits for the others; ESTAT and TSQSTAT write sa with the status; ECANCEL
retires when nothing named is left, making a PENDING command CANCELLED and never started; EJRNL requeues; PUBLISH of a
buffer of the function releases and flips its front, of another traps ACCESS; TSQLD waits for an idle sequencer and
loads the chain of lines, and one that a stage-2 miss held goes on from the line that missed. -/
def Obligations.CommandWaits : Prop :=
  ∀ (s : State) (e : BitVec 3) (r : BitVec 9) (a : BitVec 5) (scope : BitVec 3) (t : BitVec 2), s.ready t false = true →
    Memory.wf s.mem = true →
    let w := s.takeToken t
    let x := (s.reg a).toNat
    let k := e.toNat
    let inc := (s.incomplete s.me).filter (fun n => s.jEngine s.me n == k)
    let named := inc.filter (fun n => x == 0 || n == x)
    let bad (n : Nat) : Bool := s.jState s.me n == 5 || s.jState s.me n == 7
    let wrong := x ≠ 0 ∧ (s.me.jrnlHead.toNat < x ∨ (s.jNum s.me x = x ∧ s.jEngine s.me x ≠ k))
    let q := (s.core s.me.core).tsq
    (¬wrong → named = [] → exec (.ewait e a t) s = .next (w.retires t))
    ∧ (¬wrong → named ≠ [] → named.all (fun n => !bad n) = true →
        exec (.ewait e a t) s = .next { w with waiting := true, me := { w.me with engWait := named } })
    ∧ (∀ n, ¬wrong → named.find? bad = some n → exec (.ewait e a t) s = w.takeTrap { cause := 0x11, val := BitVec.ofNat 64 n })
    ∧ exec (.estat e r a t) s = .next ((w.setReg a (BitVec.ofNat 64 (s.engStatus k r.toNat))).retires t)
    ∧ (named = [] → exec (.ecancel e a t) s = .next (w.retires t))
    ∧ (∀ n, named = [n] → s.jState s.me n ≠ 2 → ctokOf k (s.jReg s.me n 0) = false →
        exec (.ecancel e a t) s = .next (((((w.jSetState w.me n 4 0).updEngine s.me.core k (fun y =>
          { y with pending := y.pending.filter (fun p => !(p.ctx == s.me.ctx && p.num == n)) })).settleDone s.me.core s.me.ctx)).retires t))
    ∧ exec (.ejrnl e a t) s = .next ((w.performAll.replay w.me k (if x = 0 then s.me.jrnlHead.toNat else x)).retires t)
    ∧ (let h := (s.part s.me.part).bufs.lookup x
       (∀ b, h = some b → b.vf = s.me.vf → x ≤ 255 →
          let c := w.clampScope scope.toNat
          exec (.publish a scope t) s = .next (((c.2.performAll.release c.1).updPart s.me.part (fun p =>
            { p with bufs := put p.bufs x { b with front := !b.front } })).retires t))
       ∧ ((∀ b, h = some b → b.vf ≠ s.me.vf ∨ 255 < x) → exec (.publish a scope t) s = w.takeTrap { cause := 5, val := s.reg a }))
    ∧ (let y := s.engine s.me.core 3
       s.me.tsqLoad = none → (y.running.isSome || !y.pending.isEmpty) = true → exec (.tsqld r a t) s = .next { w with waiting := true })
    ∧ (let y := s.engine s.me.core 3
       s.me.tsqLoad = none → y.running = none → y.pending = [] → ∀ u : State,
         let p := w.performAll
         tsqChain 4097 (s.reg a) (8 * r.toNat) { p with me := { p.me with tsqLoad := some (s.reg a, 8 * r.toNat) } } = .done u →
         exec (.tsqld r a t) s = .next (u.retires t) ∧ u.me.regs = s.me.regs ∧ u.me.rows = s.me.rows)
    ∧ (∀ (l : Word × Nat) (u : State), s.me.tsqLoad = some l → tsqChain 4097 l.1 l.2 w = .done u →
         exec (.tsqld r a t) s = .next (u.retires t) ∧ u.me.regs = s.me.regs ∧ u.me.rows = s.me.rows)
    ∧ (r.toNat ≤ 5 → exec (.tsqstat r a t) s = .next ((w.setReg a (BitVec.ofNat 64 (match r.toNat with
        | 0 => q.pc % 2 ^ 12 + q.st % 2 ^ 3 * 2 ^ 12
        | 5 => q.scale % 2 ^ 8
        | n => q.loopC.getD (n - 1) 0 % 2 ^ 24 + q.loopN.getD (n - 1) 0 % 2 ^ 24 * 2 ^ 24))).retires t))

/-- MXZERO clears a tile; VACCRD and VACCWR move elements between a tile and a group (R295, R311, R312, R313, R314, R315).
In a legal configuration with no exception enabled, where no earlier command on the tile is outstanding: MXZERO leaves
the tile in ZERO-state and the start point as it is (assumption 67); VACCRD of a tile whose width is SEW writes each
active element with the tile's code of its number, zero past its end, and keeps the others; VACCWR of a VALID group of
format 2, 12 or 1 at its SEW into a tile of that format or in ZERO-state writes the elements that the mask names.
Scalar registers stay. -/
def Obligations.TileInstructions : Prop :=
  ∀ (s : State) (d x b : BitVec 5) (k : BitVec 3) (t : BitVec 2), s.ready t false = true → s.me.configured = true → s.me.noTraps = true →
    x.toNat < 4 →
    let w := s.takeToken t
    let core := s.me.core
    let tile := s.tile core x.toNat
    let q0 := (s.capB b).toNat
    (s.me.ill = false → s.tileHeld x.toNat = false →
        exec (.mxzero x t) s = .next ((w.setTile core x.toNat {}).retires t))
    ∧ (s.me.ill = false → s.tileHeld x.toNat = true → exec (.mxzero x t) s = .next { w with waiting := true })
    ∧ (s.me.vtypeIll [d] = false → tile.accf ≠ 0 → s.me.sewBits = accWidth tile.accf → (∀ g, s.rowWait x.toNat g = .ready) →
        ∃ u : State, exec (.vaccrd d x b k t) s = .next (u.retires t) ∧ w.rowsOnly u ∧ s.rowsKept u d.toNat s.me.rc
          ∧ ∀ j, j < s.me.count → s.slot u d.toNat j =
              (if s.me.act k j then (if q0 + j < 128 * accCols tile.accf then look tile.vals (q0 + j) 0 % 2 ^ s.me.sewBits else 0)
               else s.code d.toNat j))
    ∧ (∀ g, s.me.vtypeIll [d] = false → s.tileHeld x.toNat = false → groupTag (s.me.groupTags d.toNat) = .ok g → classOf g ≠ 1 →
        ((fmtOf g = 2 ∨ fmtOf g = 12) ∧ s.me.sewBits = 32) ∨ (fmtOf g = 1 ∧ s.me.sewBits = 64) →
        tile.accf = 0 ∨ tile.accf = fmtOf g →
        ∃ v : Tile, exec (.vaccwr x d b k t) s = .next (((w.setTile core x.toNat v).clearStart).retires t) ∧ v.accf = fmtOf g
          ∧ ∀ q, q < 128 * accCols (fmtOf g) → look v.vals q 0 =
              (if q0 ≤ q ∧ q - q0 < s.me.count ∧ s.me.act k (q - q0) = true then s.code d.toNat (q - q0)
               else (denseCodes (128 * accCols (fmtOf g)) 0 tile.vals).getD q 0))

/-- Engine events start, advance and complete commands as their rules say (R209, R220, R221, R230, R300, R304, R307, R308,
R309, R310). COMMAND_START starts on an idle engine, of the pending commands that may start, the one that became
startable first (of several at once the one of the lowest context), and does nothing where none may; COMMAND_COMPLETE
makes a finished command DONE or CANCELLED and frees the engine once its token fits; CPE_UNIT performs one line or
completes: between local-store windows, with no multicast, a COPY's line takes the bytes and tag of its source line
and a ZERO's becomes zero, and no other byte changes but in the command's journal entry; MXE_STEP performs a ready
step's accumulation; ROW_RELEASE releases the next row group; MXE_OUTPUT_ROW writes a released row: into a local-store
window each element is the tile's converted value in its slot, whole lines take the row's tag, and no other byte
changes but in the journal entry; MULTICAST_FORM forms a complete group of one stream; TSQ_INSTRUCTION_ISSUE runs the
word at the sequencer's program counter. -/
def Obligations.EngineEvents : Prop :=
  ∀ (s : State) (core e g : Nat), e < 4 →
    let x := s.engine core e
    (∀ p st, x.running = none → s.nextCmd core e = some p → s.strand? core p.ctx = some st →
        let c := s.loadCmd st p
        let u := (s.jSetState st p.num 2 0).updEngine core e (fun y =>
          { pending := y.pending.filter (fun z => !(z.ctx == p.ctx && z.num == p.num)), running := some c })
        exec (.commandStart core e) s = .next (u.beginCmd core e c)
        ∧ p ∈ x.pending ∧ s.startable core e p = true
        ∧ (∀ y, y ∈ x.pending → s.startable core e y = true → y.before p = false)
        ∧ c.num = p.num ∧ c.prog = s.jProg st p.num ∧ c.regs = s.jRegs st p.num ∧ (u.engine core e).running = some c)
    ∧ (x.running = none → (∀ p, p ∈ x.pending → s.startable core e p = false) → exec (.commandStart core e) s = .next s)
    ∧ (∀ c, x.running = some c → exec (.commandStart core e) s = .next s)
    ∧ (∀ c st, x.running = some c → s.strand? core c.ctx = some st → c.finished = true →
        (ctokOf e (c.reg 0) = true → st.complTokens e < 32) →
        ∃ u : State, exec (.commandComplete core e) s = .next u ∧ (u.engine core e).running = none
          ∧ (u.engine core e).pending = x.pending ∧ u.me.regs = s.me.regs ∧ u.me.rows = s.me.rows
          ∧ u.mem = (s.jSetState st c.num (if c.cancel then 4 else 3) 0).mem)
    ∧ (∀ c, x.running = some c → c.finished = false →
        exec (.commandComplete core e) s = .next s
        ∧ (e = 1 ∨ e = 2 → exec (.cpeUnit core e) s = .next (if c.prog.toNat < c.cpeUnits then s.cpeLine core e c else s.finishCmd core e))
        ∧ (∀ (st : Strand) (cs os cd od : Nat), e = 1 ∨ e = 2 → s.strand? core c.ctx = some st → Memory.wf s.mem = true →
            c.prog.toNat < c.cpeUnits → (c.reg 0).getLsbD 4 = false →
            let i := c.prog.toNat
            let nx := (c.reg 3).toNat
            let ny := (c.reg 4).toNat
            let off (ys zs : Word) : Int :=
              ((i / (nx * ny) : Nat) : Int) * zs.toInt + ((i / nx % ny : Nat) : Int) * ys.toInt + ((128 * (i % nx) : Nat) : Int)
            let sa := (((c.reg 1).toNat + off (c.reg 6) (c.reg 8)) % (2 ^ 64 : Int)).toNat
            let da := ((c.dest.toNat + off (c.reg 7) (c.reg 9)) % (2 ^ 64 : Int)).toNat
            let line (k o : Nat) : Tag := s.tagAt (2 ^ 36 + 8192 * k + o / 128)
            let p := lsByte cd od
            let entry := st.journalAt c.num
            classify core da = .window cd od → da % 128 = 0 → p + 128 ≤ entry ∨ entry + 256 ≤ p →
            let writes (v : Nat) (t : Tag) : Prop := ∃ u : State, exec (.cpeUnit core e) s = .next u ∧ memNat u.mem p 128 = v
              ∧ u.tagAt (2 ^ 36 + 8192 * cd + od / 128) = t
              ∧ (∀ b, b < p ∨ p + 128 ≤ b → b < entry ∨ entry + 256 ≤ b → memGet u.mem b = memGet s.mem b)
              ∧ (i + 1 < c.cpeUnits → ∃ y, (u.engine core e).running = some y ∧ y.prog = c.prog + 1)
            ((c.reg 0).toNat % 4 = 0 → classify core sa = .window cs os → sa % 128 = 0 → badTag (line cs os) = false → classOf (line cs os) ≤ 3 →
              writes (memNat s.mem (lsByte cs os) 128) (withDem (line cs os) false))
            ∧ ((c.reg 0).toNat % 4 = 1 → writes 0 zeroTag))
        ∧ (∀ (st : Strand) (row cd od : Nat), e = 0 → c.outRow = some row → row < 128 → c.unreleased.contains (row / 16) = false →
            s.strand? core c.ctx = some st → Memory.wf s.mem = true →
            let tile := s.tile core c.tile
            let bsc := c.outBsc.getD (c.bscFor tile)
            let len := c.nB * c.ow / 8
            let a := ((((c.reg 3).toNat : Int) + (List.range 6).foldl (fun acc l =>
              if c.outl ≤ l then acc + (c.digit (c.step - 1) l : Int) * c.cstr l else acc) 0 + (row : Int) * (c.reg 6).toInt) % (2 ^ 64 : Int)).toNat
            let p := lsByte cd od
            let entry := st.journalAt c.num
            classify core a = .window cd od → od + len ≤ 2 ^ 20 → od % 128 + len ≤ 128 ∨ (od % 128 = 0 ∧ len % 128 = 0) →
            p + len ≤ entry ∨ entry + 256 ≤ p →
            ∃ u : State, exec (.mxeOutputRow core) s = .next u
              ∧ (∀ j, j < c.nB → memNat u.mem p len / 2 ^ (c.ow * j) % 2 ^ c.ow =
                  (convertTo (c.fmtCtx.fmt c.ofmt) bsc ⟨c.orm, if c.orm = 5 then diceBits c.dice.toNat row j else 0, c.osat⟩ (tile.accf == 12)
                    (tile.value ((denseCodes (128 * c.nB) 0 tile.vals).getD (row * c.nB + j) 0))).1 % 2 ^ c.ow)
              ∧ (od % 128 = 0 → len % 128 = 0 → ∀ k, 128 * k < len → u.tagAt (2 ^ 36 + 8192 * cd + od / 128 + k)
                  = mkTag c.ofmt bsc (if tile.poison.getLsbD row then 2 else if tile.accf = 0 then 1 else 0) false)
              ∧ (∀ b, b < p ∨ p + len ≤ b → b < entry ∨ entry + 256 ≤ b → memGet u.mem b = memGet s.mem b))
        ∧ (e = 0 → s.mxeReady core c = true → c.step < c.steps → ∀ a b, ∀ sa sb : State, ∀ f,
            let base := if c.step % c.passLen = 0 ∧ c.zacc = true then ({} : Tile) else s.tile core (c.stepTile c.step)
            s.readOperand core c (c.mcop.testBit 0) (c.operandAddr (c.reg 1) c.astr c.step) 128 c.aw = (.ok a, sa) →
            sa.readOperand core c (c.mcop.testBit 1) (c.operandAddr (c.reg 2) c.bstr c.step) c.nB c.bw = (.ok b, sb) → stepFormat c a b base = .acc f →
            ∃ u : State, exec (.mxeStep core) s = .next u ∧ u.tile core (c.stepTile c.step) = (accumulate c f (fun i => (Config.freeWord (s.freeCtr + i)).toNat) a b base).1
              ∧ (∀ i, i ≠ c.stepTile c.step → u.tile core i = s.tile core i) ∧ u.me.regs = s.me.regs ∧ u.me.rows = s.me.rows)
        ∧ (e = 0 → exec (.rowRelease core g) s = .next (if c.unreleased.head? = some g then
            (s.updRun core 0 (fun y => { y with unreleased := y.unreleased.drop 1 })).mxeSettle core else s))
        ∧ (∀ row, e = 0 → c.outRow = some row → exec (.mxeOutputRow core) s
            = .next (if c.unreleased.contains (row / 16) then s else s.outputRow core c row))
        ∧ (∀ i f, e = 3 → (s.tsq core).pc ≤ 4095 → decodeTsq (look (s.tsq core).imem (s.tsq core).pc 0) = .ok i →
            tsqMeaning i = some f → exec (.tsqInstructionIssue core) s = .next (f core c s)
              ∧ (core = s.me.core → exec (.tsqInstructionIssue core) s = exec i s)))
    ∧ (∀ coil c : Nat, ∀ m : RunCmd, c < 8 → (s.engine (8 * coil + c) 0).running = some m → m.forming g = true →
        s.groupStands coil g m.mcmask = false →
        (∀ j, j < 8 → m.mcmask.testBit j = true → ∃ d, s.matching (8 * coil + j) g m = some d ∧ d.stream = m.stream) →
        (∀ j n, j < c → (s.engine (8 * coil + j) 0).running = some n → n.forming g = false) →
        let u := ((List.range 8).filter (fun j => m.mcmask.testBit j)).foldl (fun v j => v.updRun (8 * coil + j) 0
          (fun d => { d with formed := true })) s
        exec (.multicastForm coil g) s = .next { u with
          coils := upd u.coils coil {} (fun y => { y with groups := y.groups ++ [(g, m.mcmask, m.reg 0x1B)] }) })

/-- Each instruction of the transform sequencer does what its rule says and goes on at its successor (R226, R230, R231,
R232, R233, R234, R235, R236, R237, R238). With a command running on the sequencer of the core: loops, jumps and
address generators change their own fields; TRD loads a buffer from the line at its generator's address, TWR writes
one there; TCVT, TPACK, TUNPK, TTRN and TBSC rewrite buffers, TSCL sets the scale to the least under which the largest
magnitude is finite (0xFF for a NaN, 254 for an infinity, 127 for zeros); TSIG and TWT move a token between the
strands of the pair and the sequencer, and stop it where there is no room or none; each then goes on at the next word;
THALT finishes the command; a field out of range faults it. -/
def Obligations.TransformSequencer : Prop :=
  ∀ (s : State) (c : RunCmd) (l g : BitVec 2) (b d f r v : BitVec 3) (n : BitVec 23) (o : BitVec 12) (k : BitVec 4) (imm : BitVec 20)
    (fm : BitVec 6) (sat ro : BitVec 1) (p : BitVec 5),
    (s.engine s.me.core 3).running = some c →
    let core := s.me.core
    let q := s.tsq core
    let on (i : Instr) (h : Tsq → Tsq) : Prop := exec i s = .next (s.updTsq core h)
    let goes (i : Instr) (h : Tsq → Tsq) : Prop := on i (fun y => { h y with pc := (q.pc + 1) % 65536, st := 1 })
    let stops (i : Instr) (code : Nat) : Prop := exec i s = .next (s.faultCmd core 3 code 0 (BitVec.ofNat 64 q.pc))
    let loop (i : Instr) (m : Nat) : Prop :=
      (m ≠ 0 → m < 2 ^ 24 → goes i (fun y => { y with loopC := y.loopC.setIfInBounds l.toNat 0, loopN := y.loopN.setIfInBounds l.toNat m }))
      ∧ (m = 0 ∨ 2 ^ 24 ≤ m → stops i 0x0F)
    let tagset (i : Instr) (x : Word) : Prop :=
      (5 < f.toNat → stops i 0x0D)
      ∧ (f.toNat ≤ 5 → goes i (fun y =>
          let a := y.ag.getD g.toNat {}
          { y with ag := y.ag.setIfInBounds g.toNat (if f = 0 then { a with base := x } else if f = 5 then { a with rowStride := x }
            else { a with strides := a.strides.setIfInBounds (f.toNat - 1) x }) }))
    let buffer (i : Instr) (tgt : Nat) (w : Nat) (code : Nat → Nat) : Prop := ∃ u : State, exec i s = .next u
      ∧ (∀ j, j < 1024 / w → bufCode ((u.tsq core).buf tgt) w j = code j % 2 ^ w)
      ∧ (∀ j, j ≠ tgt → (u.tsq core).buf j = q.buf j) ∧ (u.tsq core).pc = (q.pc + 1) % 65536 ∧ u.me.regs = s.me.regs ∧ u.mem = s.mem
    let ws := widthOf f.toNat
    let wd := widthOf v.toNat
    let part := p.toNat * (1024 / max ws wd)
    let next := (s.tsq core).loopC.getD l.toNat 0 + 1
    let a := q.addr g.toNat b.toNat
    exec .thalt s = .next (s.finishCmd core 3)
    ∧ loop (.tloopImm l n) n.toNat ∧ loop (.tloopParam l k) (c.param k).toNat
    ∧ on (.tjmp o) (fun y => { y with pc := (((q.pc : Int) + o.toInt) % 65536).toNat, st := 1 })
    ∧ on (.tnext l o) (fun y => { y with
        loopC := y.loopC.setIfInBounds l.toNat (next % 2 ^ 24), st := 1
        pc := if next < q.loopN.getD l.toNat 0 then (((q.pc : Int) + o.toInt) % 65536).toNat else (q.pc + 1) % 65536 })
    ∧ tagset (.tagsetImm g f imm) (imm.signExtend 64) ∧ tagset (.tagsetParam g f k) (c.param k)
    ∧ (∀ (u : State) (loc : LineLoc), s.engLine core c a .read = .ok u loc →
        let h := u.loadLine core loc 0 (c.walker core).reader
        let cls := classOf h.2.1
        let took := if cls = 4 then 1 else if 5 ≤ cls then 2 else cls
        cls ≠ 3 → (cls = 4 → loc.strict = false) → ∃ z : State, exec (.trd b g) s = .next z
          ∧ (z.tsq core).buf b.toNat = (if took = 1 then 0 else h.1, withClass h.2.1 took)
          ∧ (∀ j, j ≠ b.toNat → (z.tsq core).buf j = q.buf j) ∧ (z.tsq core).pc = (q.pc + 1) % 65536
          ∧ (s.banksQuiet → Memory.wf s.mem = true → ∀ x, memGet z.mem x = memGet s.mem x))
    ∧ (∀ (u y : State) (loc : LineLoc), s.engLine core c a .write = .ok u loc →
        tooWide c.fmtCtx (withDem (q.buf b.toNat).2 false) loc = false →
        u.engWrite core c loc a (q.buf b.toNat).1 fullMask (withDem (q.buf b.toNat).2 false) = .ok y →
        ∃ z : State, exec (.twr b g) s = .next z ∧ z.mem = y.mem ∧ (z.tsq core).pc = (q.pc + 1) % 65536
          ∧ ∀ j, (z.tsq core).buf j = q.buf j)
    ∧ (5 < r.toNat → stops (.tcvt d b fm r sat p) 0x0D)
    ∧ (r.toNat ≤ 5 → (c.fmtCtx.fmt (fmtOf (q.buf b.toNat).2)).tsqOk = false ∨ (c.fmtCtx.fmt fm.toNat).tsqOk = false →
        stops (.tcvt d b fm r sat p) 0x0E)
    ∧ (r.toNat ≤ 5 → (c.fmtCtx.fmt (fmtOf (q.buf b.toNat).2)).tsqOk = true → (c.fmtCtx.fmt fm.toNat).tsqOk = true →
        let tgt := c.fmtCtx.fmt fm.toNat
        let sb := q.buf b.toNat
        let x := (c.fmtCtx.fmt (fmtOf sb.2)).container 64
        let y := tgt.container 64
        let conv (i j : Nat) : Nat := (convertTo tgt (if tgt.scaled then q.scale else 127)
          ⟨r.toNat, if r = 5 then diceBits c.dice.toNat d.toNat j else 0, sat == 1⟩
          (c.fmtCtx.fmt (fmtOf sb.2)).isInt (rowValue c.fmtCtx sb.2 (bufCode sb x i))).1 % 2 ^ y
        (max x y / min x y ≤ p.toNat → stops (.tcvt d b fm r sat p) 0x0D)
        ∧ (p.toNat < max x y / min x y → ∃ u : State, exec (.tcvt d b fm r sat p) s = .next u
          ∧ fmtOf ((u.tsq core).buf d.toNat).2 = fm.toNat ∧ (∀ j, j ≠ d.toNat → (u.tsq core).buf j = q.buf j)
          ∧ (u.tsq core).pc = (q.pc + 1) % 65536 ∧ u.mem = s.mem
          ∧ ∀ j, j < 1024 / y → bufCode ((u.tsq core).buf d.toNat) y j =
              (if x ≤ y then conv (p.toNat * (1024 / y) + j) j
               else if p.toNat * (1024 / x) ≤ j ∧ j < p.toNat * (1024 / x) + 1024 / x then conv (j - p.toNat * (1024 / x)) j
               else bufCode (q.buf d.toNat) y j)))
    ∧ (f.toNat ≤ 5 → v.toNat ≤ 5 → p.toNat < max ws wd / min ws wd →
        (wd < ws → classOf (q.buf b.toNat).2 ≠ 1 → buffer (.tpack d b f v p) d.toNat wd (fun j =>
          if part ≤ j ∧ j < part + 1024 / ws then bufCode (q.buf b.toNat) ws (j - part) else bufCode (q.buf d.toNat) wd j))
        ∧ (ws < wd → buffer (.tunpk d b f v p) d.toNat wd (fun j => bufCode (q.buf b.toNat) ws (part + j))))
    ∧ (5 < f.toNat ∨ 5 < v.toNat ∨ ws = wd → stops (.tpack d b f v p) 0x0D ∧ stops (.tunpk d b f v p) 0x0D)
    ∧ (f.toNat ≤ 5 → (∀ i j, i < 8 → j < 8 → fmtOf (q.buf i).2 = fmtOf (q.buf j).2 ∧ bscOf (q.buf i).2 = bscOf (q.buf j).2) →
        ∃ u : State, exec (.ttrn f) s = .next u ∧ (u.tsq core).pc = (q.pc + 1) % 65536 ∧ u.mem = s.mem
          ∧ ∀ i x, i < 8 → x < 1024 / ws →
              bufCode ((u.tsq core).buf i) ws x = bufCode (q.buf (x % 8)) ws (x / 8 * 8 + i))
    ∧ ((c.fmtCtx.fmt fm.toNat).scaled = false → stops (.tscl b fm) 0x0E)
    ∧ (let tgt := c.fmtCtx.fmt fm.toNat
       let sb := q.buf b.toNat
       let x := (c.fmtCtx.fmt (fmtOf sb.2)).container 64
       let vals := (List.range (1024 / x)).map (fun i => rowValue c.fmtCtx sb.2 (bufCode sb x i))
       let within (z : Nat) (e : Machine.Num) : Bool := magLe e ((tgt.decode (tgt.maxSigned false)).mul2 ((z : Int) - 127))
       tgt.scaled = true → ∃ u : State, exec (.tscl b fm) s = .next u ∧ (u.tsq core).tb = q.tb
        ∧ (u.tsq core).pc = (q.pc + 1) % 65536 ∧ u.mem = s.mem
        ∧ (vals.any (fun e => e.isNan) = true → (u.tsq core).scale = 0xFF)
        ∧ (vals.any (fun e => e.isNan) = false → vals.any (fun e => e.isInf) = true → (u.tsq core).scale = 254)
        ∧ (vals.any (fun e => e.isNan) = false → vals.any (fun e => e.isInf) = false →
            (vals.all (fun e => e.isZero) = true → (u.tsq core).scale = 127)
            ∧ (vals.all (fun e => e.isZero) = false → (u.tsq core).scale ≤ 254
                ∧ ((u.tsq core).scale = 254 ∨ vals.all (within (u.tsq core).scale) = true)
                ∧ ∀ z, z < (u.tsq core).scale → vals.all (within z) = false)))
    ∧ (let t := (q.buf b.toNat).2
       ((c.fmtCtx.fmt (fmtOf t)).scaled = true → goes (.tbsc b) (fun y =>
          { y with tb := y.tb.setIfInBounds b.toNat ((q.buf b.toNat).1, mkTag (fmtOf t) q.scale (classOf t) (demOf t)) }))
       ∧ ((c.fmtCtx.fmt (fmtOf t)).scaled = false → stops (.tbsc b) 0x0E))
    ∧ (∀ m, s.strand? core (c.mate ro) = some m →
        (m.tokTsq < 32 → exec (.tsig ro) s
          = .next ((s.mapStrand core (c.mate ro) (fun y => { y with tokTsq := y.tokTsq + 1 })).updTsq core
              (fun y => { y with pc := (q.pc + 1) % 65536, st := 1 })))
        ∧ (32 ≤ m.tokTsq → on (.tsig ro) (fun y => { y with st := 2 }))
        ∧ (0 < m.tokToTsq → exec (.twt ro) s
          = .next ((s.mapStrand core (c.mate ro) (fun y => { y with tokToTsq := y.tokToTsq - 1 })).updTsq core
              (fun y => { y with pc := (q.pc + 1) % 65536, st := 1 })))
        ∧ (m.tokToTsq = 0 → on (.twt ro) (fun y => { y with st := 2 })))

/-- RCREQ queues segments; recoding, growth, write-backs and performed stores change homes as their rules say (R91, R92,
R94, R132, R163, R175, R239, R240, R317, R335, R405). RCREQ below 2^56 with operands in range and a permitted real
format queues as many segments as there are, and room, and writes their number, 0 otherwise; the engine removes an
ended request, rewrites the next lines of one under way, and packs a segment whose lines all fit; a home write that
fits is merged, marks its segment and breaks links, one refused changes no memory; SEGMENT_SWITCH takes the full
width; a write-back cleans a line held whole whose tag is that of its home and drops any other, an eviction drops it,
a sweep leaves none dirty, a host snoop leaves no copy and answers; the oldest queued scalar store is performed once
no older vector instruction is left. The model's choices: a refused growth drops the store that it was for (assumption
14), SEGMENT_SWITCH takes the lowest free chunks (assumption 9), and a write-back drops a line that the L1 does not
hold whole (assumption 70). -/
def Obligations.RecodingAndHomes : Prop :=
  (∀ (s : State) (d a b c : BitVec 5) (t : BitVec 2), s.ready t false = true →
    let w := s.takeToken t
    let va := (s.reg a).toNat
    let n := (s.reg b).toNat
    let x := (s.reg c).toNat
    let q := (s.hank (hankOf s.me.core)).rce
    let ok := 0 < n ∧ n ≤ 4096 ∧ x < 2 ^ 15 ∧ (s.myCtx.fmt (x % 64)).isReal = true
      ∧ ∃ v, s.vfs.lookup s.me.vf = some v ∧ v.policy.demFmt.getLsbD (x % 64) = true
    let k := min (min n (2 ^ 38 - va / 2 ^ 18)) (256 - q.length)
    (2 ^ 56 ≤ va → exec (.rcreq d a b c t) s = w.takeTrap { cause := 5, val := s.reg a })
    ∧ (va < 2 ^ 56 → ¬ok → exec (.rcreq d a b c t) s = .next ((w.setReg d 0).retires t))
    ∧ (va < 2 ^ 56 → ok → ∃ v : State, exec (.rcreq d a b c t) s = .next ((v.setReg d (BitVec.ofNat 64 k)).retires t)
        ∧ v.me = w.me ∧ v.mem = s.mem ∧ (v.hank (hankOf s.me.core)).rce = q ++ (List.range k).map (fun i =>
          { vf := s.me.vf, part := s.me.part, vseg := va / 2 ^ 18 + i, fmt := x % 64, bsc := x / 2 ^ 6 % 2 ^ 8,
            auto := x / 2 ^ 14 % 2 == 1, fmts := s.myCtx.fmts })))
  ∧ (∀ (s : State) (hank : Nat) (q : RceReq) (rest : List RceReq), (s.hank hank).rce = q :: rest →
    let drops (i : Instr) (u : State) : Prop := exec i s = .next (u.rceHead hank (fun _ => none))
      ∧ ((u.rceHead hank (fun _ => none)).hank hank).rce = rest
    (q.ended = true → drops (.rceLineRecode hank) s)
    ∧ (q.ended = false → q.iseg = none → ∀ u, s.rceTarget hank q = (none, u) → drops (.rceLineRecode hank) u)
    ∧ (∀ i g, q.ended = false → q.iseg = some i → s.seg? q.vf i = some g →
        (q.next < 2048 → exec (.rceLineRecode hank) s
          = .next ((s.rceHead hank (fun y => some { y with iseg := some i })).rceRewrite hank q i g) ∧ exec (.rcePack hank) s = .next s)
        ∧ (2048 ≤ q.next → g.host = false →
            let pw := q.newPw g.lw
            let m := g.lw / pw
            let r := s.rceRead q.vf i 0 2048
            let fits := (List.range (2048 / m)).all (fun k => packFits q.ctx g.lw pw (packGroup r.1 m k))
            (fits = false → drops (.rcePack hank) r.2)
            ∧ (fits = true → ∃ v : State, exec (.rcePack hank) s = .next v ∧ (v.hank hank).rce = rest
                ∧ (v.seg? q.vf i).map (fun h => (h.lw, h.pw, h.chunks)) = some (g.lw, pw, g.chunks.take (16 / m))))))
  ∧ (∀ (s : State) (w : HomeWrite),
    let e := s.homeEntry w.vf w.seg
    let l := LineLoc.page e w.line
    let wr : Write := ⟨w.data, w.mask, w.tag, w.typed, w.width, false⟩
    let h := s.meetHome l (w.typed && w.mask == fullMask) { vf := w.vf, coord := 8 * w.core + w.ctx }
    let x := mergeWrite h.1 h.2.1 wr
    let fits := h.2.2.fitsWrite (h.2.2.stored e w.line) x.2 wr
    (fits = true → exec (.fitCheckedWrite w) s
      = .next (((h.2.2.putHome l x.1 x.2 w.mask).breakLinks l.key none).updSeg w.vf w.seg (fun g => { g with dirty := true })))
    ∧ (fits = false → (h.2.2.part (s.vfPart w.vf)).freeCount < 16 → ∃ v : State, exec (.fitCheckedWrite w) s = .next v
        ∧ v.mem = h.2.2.mem ∧ v.vfs = s.vfs ∧ v.me = s.me))
  ∧ (∀ (s : State) (vf seg : Nat) (g : Seg), s.seg? vf seg = some g →
    let p := s.part (s.vfPart vf)
    (g.pw < g.lw → 16 ≤ p.freeCount → ∃ v : State, exec (.segmentSwitch vf seg) s = .next v
      ∧ v.seg? vf seg = some { g with pw := g.lw, chunks := p.chooseChunks 16 } ∧ v.me = s.me)
    ∧ (g.lw ≤ g.pw → exec (.segmentSwitch vf seg) s = .next s))
  ∧ (∀ (s : State) (core key : Nat),
    (∀ l, (s.core core).line? key = some l → l.dirty ≠ 0 →
      let home := s.applyHome l.loc l.write none {}
      let tag := (home.readHome l.loc {}).2.1
      (∃ v : State, exec (.writebackMerge core key) s = .next v ∧ v.mem = home.mem ∧ (v.core core).line? key
        = if l.valid ||| l.dirty = fullMask ∧ l.filled = true ∧ tag = l.seen then
            some { l with valid := fullMask, dirty := 0, fill := tag, typed := false, whole := false } else none)
      ∧ ∃ v : State, exec (.l1Eviction core key) s = .next v ∧ v.mem = home.mem ∧ (v.core core).line? key = none)
    ∧ (∀ l, (s.core core).line? key = some l → l.dirty = 0 → exec (.writebackMerge core key) s = .next s
        ∧ exec (.l1Eviction core key) s = .next (s.updCore core (fun c => c.dropLine key)))
    ∧ (((s.core core).l1.map (fun l => l.key)).Nodup → ∃ v : State, exec (.dirtyAgeSweep core) s = .next v
        ∧ ∀ l, l ∈ (v.core core).l1 → l.dirty = 0)
    ∧ ∃ v d, exec (.hostSnoop key) s = .next v ∧ v.me.regs = s.me.regs ∧ (∀ c, (v.core c).holdsHost key = false)
        ∧ v.outbox.getLast? = some (.snoop key d)
        ∧ (d = true ↔ ∃ c, c ∈ s.cores ∧ ∃ l, l ∈ c.2.l1 ∧ l.key = hostKey (128 * key) ∧ l.dirty ≠ 0))
  ∧ (∀ (s : State) (e : SsqEntry) (rest : List SsqEntry), s.me.live = true → s.me.ssq = e :: rest → s.me.olderThan (e.older + 1) = false →
    let x := s.storeLine s.me.core (e.loc s.me) (untyped e.value.toNat (e.addr.toNat % 128) e.bytes) 0 e.priv s.reader e.addr
    let u := x.1.getD x.2
    exec (.scalarStorePerform s.me.core s.me.ctx) s = .next { u with waiting := false, me := { u.me with ssq := rest } })

/-- Line reads, activations, scrubs, walks, page requests and replays do what their rules say (R83, R85, R98, R100, R110,
R117, R119, R121, R413, R427). A read that its slice answers, or of a channel that failed its training, changes
nothing; one whose bank answers counts a corrected error, and stores again a line with an uncorrectable one under the
POISON tag, unless it has been written since, and delivers the line so in either case, to the slice where it is no
patrol and no NEAR page; one whose bank is held waits in the queue of its channel; an activation alert clears the
counts of the row and its neighbours and holds the bank until its back-off ends; a scrub leaves the bank's user lines
and counts at 0; a walk that succeeds changes no strand or memory; a page request is delivered once; the oldest held
instruction that was woken goes on; a long stall fails the access that waits; unmapped chunks return. DEM in the
POISON tag is the model's choice (assumption 75). -/
def Obligations.MemoryEvents : Prop :=
  (∀ (s : State) (p : Nat) (r : StoredRead), p < 2 ^ 35 → Memory.wf s.mem = true →
    let g := p / 2 ^ 25
    let off := p % 2 ^ 25
    let b := s.bankLine p
    let o := r.err
    let n := symbolsOf o
    let found : Line × Tag :=
      if n ≤ 1 then b
      else if 4 ≤ n ∧ (o.missed = 1 ∨ o.missed = 2) then (b.1 ^^^ o.flip, b.2 ^^^ o.flipTag)
      else (b.1 ^^^ o.flip, poisonTag (s.packingOf p) (b.2 ^^^ o.flipTag) (o.flipTag != 0))
    let given := (badTag? (s.packingOf p) found.2).getD found.2
    let reads (i : Instr) (patrol near : Bool) : Prop :=
      ((s.chan g).trained = false → exec i s = .next s)
      ∧ (∀ l, patrol = false → near = false → (s.chan g).l2? off = some l → l.key = s.keySlot g → exec i s = .next s)
      ∧ ((s.chan g).trained = true → (s.chan g).l2? off = none ∨ patrol = true →
          ((s.chan g).holds (bankOf p) (rowOf p) = true → ∃ v q, exec i s = .next v ∧ (v.chan g).queue = (s.chan g).queue ++ [q]
              ∧ q.off = off ∧ q.err = o ∧ q.patrol = patrol ∧ q.near = near ∧ v.mem = s.mem ∧ v.tags = s.tags ∧ v.me = s.me)
          ∧ ((s.chan g).holds (bankOf p) (rowOf p) = false → ∃ v : State, exec i s = .next v ∧ v.me = s.me ∧ v.pairs = s.pairs
              ∧ (n = 0 → patrol = true → v.mem = s.mem ∧ v.tags = s.tags)
              ∧ (n = 1 ∨ (4 ≤ n ∧ o.missed = 2) → (v.chan g).corrected = (s.chan g).corrected + 1)
              ∧ v.bankLine p = (if o.written = true then b else (found.1, if patrol = true then found.2 else given))
              ∧ (patrol = false → near = false → v.homeLine p = (found.1, given))))
    reads (.lineReadComplete p r) false r.near ∧ (p % 2 ^ 25 < userLines → reads (.patrolRead p o) true false))
  ∧ (∀ (s : State) (chan bank row : Nat), chan < 1024 → bank < 64 → row < 65536 →
    ((s.chan chan).trained = false → exec (.activationAlert chan bank row) s = .next s)
    ∧ ((s.chan chan).trained = true → ∃ v : State, exec (.activationAlert chan bank row) s = .next v ∧ v.mem = s.mem ∧ v.me = s.me ∧ bank ∈ (v.chan chan).backoff
      ∧ (∀ r, row ≤ r + 2 → r ≤ row + 2 → r < 65536 → look (v.chan chan).act (rowKey bank r) 0 = 0)
      ∧ (∀ k, (∀ r, row ≤ r + 2 → r ≤ row + 2 → k ≠ rowKey bank r) → look (v.chan chan).act k 0 = look (s.chan chan).act k 0))
    ∧ exec (.backoffEnd chan bank) s
        = .next { (s.updChan chan (fun c => { c with backoff := c.backoff.erase bank })).retryReads chan with waiting := false }
    ∧ (∀ b, (s.chan chan).nextScrub = some b → (s.chan chan).queue = [] → ∃ v : State, exec (.scrubBank chan) s = .next v
        ∧ (v.chan chan).scrub = (s.chan chan).scrub.erase b
        ∧ (∀ r, r < 65536 → look (v.chan chan).act (rowKey b r) 0 = 0)
        ∧ ∀ p, chanOf p = chan → bankOf p = b → p % 2 ^ 25 < userLines → v.rawLine p = (0, zeroTag)))
  ∧ (∀ (s : State) (core ctx va : Nat) (acc : Access) (st : Strand), s.strand? core ctx = some st →
    (∀ u e, va < 2 ^ 56 → s.walk (s.walkerOf st) va acc = .ok u e →
      exec (.walkComplete core ctx va acc) s = .next u ∧ s.readsOnly u)
    ∧ (∀ p, s.wokenOf st = some p → p.trap = none → st.dispatched = false → st.run = .running →
        exec (.elementReplay core ctx) s
          = .next { s.mapStrand core ctx (fun y => y.unissue.resumeParked p) with waiting := false })
    ∧ (∀ v, s.vfs.lookup st.vf = some v → v.policy.pgTmo ≠ 0 → (st.held.isSome || !st.parked.isEmpty) = true →
        exec (.longStallTimeout core ctx) s = .next { s.mapStrand core ctx Strand.stall with waiting := false })
    ∧ (∀ h, st.held = some h → st.anchorHold = false → st.stall.denied = (h.1 / 2 ^ 18, 0x16) :: st.denied))
  ∧ (∀ (s : State) (vf part : Nat),
    (∀ v q, s.vfs.lookup vf = some v → v.pgq.find? (fun r => !r.delivered) = some q →
      ∃ u : State, exec (.pageRequestDeliver vf) s = .next u ∧ u.mem = s.mem ∧ u.me = s.me ∧ u.vfs.lookup vf = some { v with
        pgq := v.pgq.map (fun r => if r.id = q.id then { r with delivered := true } else r)
        mailbox := v.mailbox ++ [BitVec.ofNat 128 (q.record vf)] })
    ∧ ((∀ v x, s.vfs.lookup v = some x → x.resetTag = none) → ∃ u : State, exec (.unmapChunkReturn part) s = .next u
        ∧ (u.part part).returning = [] ∧ s.writesOnly u ∧ ((∀ c, (s.core c).l1 = []) → u.mem = s.mem)))

/-- TLBINV, TLBINVA, MAPSET, PGQRD, PGQACK, ERRRD and ERRACK act for the strand's function, and privileged words trap
outside P-mode (R36, R93, R114, R412, R413, R414, R415, R416, R424). Where they issue: outside P-mode each OP 0xE0 to
0xEA traps PRIVILEGE with TRAPVAL its word. TLBINV below 2^56 appends one record to the function's ring, and traps
ACCESS above; TLBINVA appends one to every function of the tenant in the partition; MAPSET waits for a locked segment,
unmaps (bits [9:1] of the descriptor stay), sets permissions, maps on free chunks above the reserve and reads a
descriptor, with the statuses of its table; PGQRD writes the oldest unread request's record and marks it read; PGQACK
maps or refuses, and misses that waited for room enter their requests in turn; ERRRD writes the oldest entry's record;
ERRACK removes the entries up to a number. The model's choices: which free chunks a mapping takes (the lowest,
assumption 9), and the statuses for operand bits beyond a field, a REQID of 2^16 or more and a record whose line may
not grow (assumption 47). -/
def Obligations.SegmentsAndReports : Prop :=
  ∀ (s : State) (d a b c : BitVec 5) (t : BitVec 2), s.ready t false = true →
    let w := s.takeToken t
    let p := w.performAll
    let n := s.me.vf
    let gives (i : Instr) (u : State) (x : Nat) : Prop := exec i s = .next ((u.setReg d (BitVec.ofNat 64 x)).retires t)
    let x := (p.reg a).toNat
    let y := (p.reg b).toNat
    let z := (p.reg c).toNat
    let g := x / 2 ^ 18
    let said (v : Vf) (r : InvRec) : Vf := { v with gen := v.gen + 1, ring := (v.ring ++ [r]).drop (v.ring.length + 1 - 64) }
    let bad := 2 ^ 52 ≤ x ∨ 3 < y
    let unread (v : Vf) : Option PageReq := v.pgq.find? (fun r => !r.read)
    (∀ i, i ∈ [(Instr.trapset d a b t, wordSR 0xE0 d a b 0 0 t), (.mapsetUnmap d a b c t, wordSR 0xE1 d a b c 0 t),
        (.mapsetPerm d a b c t, wordSR 0xE1 d a b c 0 t), (.mapsetAlloc d a b c t, wordSR 0xE1 d a b c 0 t),
        (.mapsetQuery d a b c t, wordSR 0xE1 d a b c 0 t), (.tlbinva a b t, wordSR 0xE2 0 a b 0 0 t),
        (.ctxsave d a b t, wordSR 0xE3 d a b 0 0 t), (.ctxload d a b t, wordSR 0xE4 d a b 0 0 t),
        (.pgqrd d a t, wordSR 0xE5 d a 0 0 0 t), (.pgqackGrant d a b t, wordSR 0xE6 d a b 0 0 t),
        (.pgqackRefuse d a b t, wordSR 0xE6 d a b 0 0 t), (.errrd d a t, wordSR 0xE7 d a 0 0 0 t),
        (.errack d a t, wordSR 0xE8 d a 0 0 0 t), (.grant d a b t, wordSR 0xE9 d a b 0 0 t),
        (.strandctlStatus d a b t, wordSR 0xEA d a b 0 0 t), (.strandctlHalt d a b t, wordSR 0xEA d a b 0 0 t),
        (.strandctlResume d a b t, wordSR 0xEA d a b 0 0 t), (.strandctlKill d a b t, wordSR 0xEA d a b 0 0 t)] →
      s.me.pm = false → exec i.1 s = w.takeTrap { cause := 3, val := i.2 })
    ∧ (2 ^ 56 ≤ (s.reg a).toNat → exec (.tlbinv a b t) s = w.takeTrap { cause := 5, val := s.reg a })
    ∧ ((s.reg a).toNat < 2 ^ 56 → ∀ v, (p.release 3).vfs.lookup n = some v → ∃ u : State,
        exec (.tlbinv a b t) s = .next (u.retires t) ∧ u.me = (p.release 3).me ∧ u.mem = (p.release 3).mem
        ∧ u.vfs.lookup n = some (said v ⟨v.gen + 1, false, (s.reg a).toNat / 2 ^ 18, (s.reg b).toNat⟩)
        ∧ ∀ e, e ∈ (u.core u.me.core).tlb → e.vf = n →
            (⟨v.gen + 1, false, (s.reg a).toNat / 2 ^ 18, (s.reg b).toNat⟩ : InvRec).hits e = false)
    ∧ (s.me.pm = true →
      (2 ^ 52 ≤ (s.reg a).toNat → exec (.tlbinva a b t) s = .next (w.retires t))
      ∧ ((s.reg a).toNat < 2 ^ 52 → (s.vfs.map (fun v => v.1)).Nodup → ∃ u : State,
          exec (.tlbinva a b t) s = .next (u.retires t) ∧ u.me = (p.release 3).me ∧ u.mem = (p.release 3).mem
          ∧ ∀ k v, (p.release 3).vfs.lookup k = some v → u.vfs.lookup k
            = some (if k ∈ s.tenantVfs then said v ⟨v.gen + 1, true, (s.reg a).toNat / 2 ^ 18, (s.reg b).toNat⟩ else v))
      ∧ (∀ i, i ∈ [Instr.mapsetUnmap d a b c t, .mapsetPerm d a b c t, .mapsetAlloc d a b c t, .mapsetQuery d a b c t] →
          (bad → gives i p 1)
          ∧ (¬bad → p.segLocked p.me.vf g = true → exec i s = .next { p with waiting := true })
          ∧ (¬bad → p.segLocked p.me.vf g = false → p.vfs.lookup p.me.vf = none → gives i p 3)
          ∧ (¬bad → p.segLocked p.me.vf g = false → ∀ v, p.vfs.lookup p.me.vf = some v →
              (v.segs.lookup g = none → (y = 0 → gives i p 3) ∧ (y = 3 → gives i p (look v.unmapped g 0)))
              ∧ (∀ h, v.segs.lookup g = some h →
                  (y = 0 → ∃ u : State, gives i u 0 ∧ u.me = p.me ∧ u.mem = p.mem ∧ (u.vfs.lookup p.me.vf).map (fun v => (v.segs.lookup g, look v.unmapped g 0))
                      = some (none, h.word - 1) ∧ (p.me.vf, v.gen + 1, h.chunks) ∈ (u.part v.part).returning)
                  ∧ (y = 3 → gives i p h.word))
              ∧ (y = 1 → (8 ≤ z → gives i p 1) ∧ (z < 8 → z &&& v.policy.ceil.toNat ≠ z → gives i p 2)
                  ∧ (z < 8 → z &&& v.policy.ceil.toNat = z → (v.segs.lookup g = none → gives i p 3)
                      ∧ ∀ h, v.segs.lookup g = some h → ∃ u : State, gives i u 0 ∧ u.me = p.me ∧ u.mem = p.mem ∧ u.seg? p.me.vf g
                          = some { h with rd := z % 2 == 1, wr := z / 2 % 2 == 1, ex := z / 4 % 2 == 1 }))
              ∧ (y = 2 → (allocWidths z = none → gives i p 1)
                  ∧ ∀ lw pw, allocWidths z = some (lw, pw) →
                      let q := p.part p.me.part
                      let k := 16 * pw / lw
                      let may := v.policy.ceil.getLsbD
                      ((v.segs.lookup g).isSome = true → gives i p 3)
                      ∧ (v.segs.lookup g = none → q.freeCount < q.reserveNow + k → gives i p 4)
                      ∧ (v.segs.lookup g = none → q.reserveNow + k ≤ q.freeCount → ∃ u : State, gives i u 0 ∧ p.writesOnly u
                          ∧ u.seg? p.me.vf g = some { rd := may 0, wr := may 1, ex := may 2, lw := lw, pw := pw, chunks := q.chooseChunks k, map := v.maps + 1 }
                          ∧ (p.banksQuiet → Memory.wf p.mem = true
                            → (∀ c l, l ∈ (p.core c).l1 → l.page.vf = p.me.vf → l.page.iseg ≠ g) → ∀ e, (∀ j, j < 128 * (q.chooseChunks k).length → e / 128 ≠ (p.part v.part).chunkLine (q.chooseChunks k) j) →
                              memGet u.mem e = memGet p.mem e)))))
      ∧ (x % 16 ≠ 0 → gives (.pgqrd d a t) p 1)
      ∧ (x % 16 = 0 → ((p.vfs.lookup p.me.vf).bind unread = none → gives (.pgqrd d a t) p 3)
          ∧ ∀ q, (p.vfs.lookup p.me.vf).bind unread = some q →
            (∀ u, p.writeRecord (p.reg a) 16 (q.record p.me.vf) = .ok u → gives (.pgqrd d a t) (u.updVf u.me.vf (fun v =>
              { v with pgq := v.pgq.map (fun r => if r.id = q.id then { r with read := true } else r) })) 0)
            ∧ (∀ u, p.writeRecord (p.reg a) 16 (q.record p.me.vf) = .bad u → gives (.pgqrd d a t) u 5))
      ∧ (∀ i, i ∈ [Instr.pgqackGrant d a b t, .pgqackRefuse d a b t] →
          let h := (p.vfs.lookup p.me.vf).bind (fun v => v.pgq.find? (fun r => r.id == x))
          (1 < y ∨ 2 ^ 16 ≤ x → gives i p 1)
          ∧ (y ≤ 1 → x < 2 ^ 16 → (h = none → gives i p 3) ∧ ∀ q, h = some q →
              (y = 1 → ∃ u : State, gives i u 0 ∧ u.mem = p.mem ∧ u.me.regs = p.me.regs
                ∧ ∀ v v', p.vfs.lookup p.me.vf = some v → u.vfs.lookup p.me.vf = some v' →
                  let left := v.pgq.filter (fun r => r.id != q.id)
                  ∃ more, v'.pgq = left ++ more ∧ more.map (fun r => r.iseg) = (v.late.take (64 - left.length)).map (fun m => m.1))
              ∧ (y = 0 → (p.part p.me.part).freeCount < (p.part p.me.part).reserveNow + q.nchunk → gives i p 4)
              ∧ (y = 0 → (p.part p.me.part).reserveNow + q.nchunk ≤ (p.part p.me.part).freeCount →
                  ∃ u : State, gives i u 0 ∧ p.writesOnly u ∧ ∀ v, u.vfs.lookup p.me.vf = some v →
                    (∀ r, r ∈ v.pgq → r.iseg ≠ q.iseg) ∧ ∃ s', v.segs.lookup q.iseg = some s' ∧ s'.lw = q.lw ∧ s'.pw = q.pw
                      ∧ s'.chunks = (p.part p.me.part).chooseChunks q.nchunk)))
      ∧ (x % 32 ≠ 0 → gives (.errrd d a t) p 1)
      ∧ (x % 32 = 0 → ((p.part p.me.part).errLog = [] → gives (.errrd d a t) p 3)
          ∧ ∀ e l, (p.part p.me.part).errLog = e :: l →
            (∀ u, p.writeRecord (p.reg a) 32 e.record = .ok u → gives (.errrd d a t) u 0)
            ∧ (∀ u, p.writeRecord (p.reg a) 32 e.record = .bad u → gives (.errrd d a t) u 5))
      ∧ (let l := (s.part s.me.part).errLog
         ∃ u : State, gives (.errack d a t) u (l.filter (fun e => decide (e.seq ≤ (s.reg a).toNat))).length ∧ u.me = w.me
           ∧ u.mem = s.mem ∧ (u.part s.me.part).errLog = l.filter (fun e => !decide (e.seq ≤ (s.reg a).toNat))))

/-- TRAPSET, GRANT, STRANDCTL, CTXSAVE and CTXLOAD control the strands of the function (R389, R391, R394, R395, R396,
R397). In P-mode, where they issue: TRAPSET refuses an illegal reach or code address and sets the trap vector of every
strand in reach; GRANT sets the pending slice units of a resident strand where the core's 64 suffice; STRANDCTL of
another resident strand reads its state, halts it behind a squash, resumes it (from DOUBLE at its vector in P-mode) or
frees it, with the statuses of its table; CTXSAVE without an area moves a halted core's strands into its saved context
and CTXLOAD brings them back with their registers. That GRANT of a saved strand gives 3, and the statuses of the core
operands of CTXSAVE and CTXLOAD, are the model's reading (assumption 43). -/
def Obligations.StrandControl : Prop :=
  ∀ (s : State) (d a b : BitVec 5) (t : BitVec 2), s.ready t false = true → s.me.pm = true →
    let w := s.takeToken t
    let x := s.reg a
    let n := (s.reg b).toNat
    let gives (i : Instr) (u : State) (k : Nat) : Prop := exec i s = .next ((u.setReg d (BitVec.ofNat 64 k)).retires t)
    let tgt := w.target x
    (4 < n ∨ codeAddr x = false → gives (.trapset d a b t) w 1)
    ∧ (codeAddr x = true →
        (n = 0 → gives (.trapset d a b t) { w with me := { w.me with trapVec := x } } 0)
        ∧ (n = 4 → gives (.trapset d a b t) (w.updVf w.me.vf (fun v => { v with trapVec := x })) 0)
        ∧ (1 ≤ n → n ≤ 3 → ∃ u : State, gives (.trapset d a b t) u 0 ∧ u.mem = s.mem ∧ u.me.regs = s.me.regs
            ∧ (w.me.live = true → u.me.trapVec = if w.me.reach w.me n then x else w.me.trapVec)
            ∧ u.others = w.others.map (fun y => if y.live && w.me.reach y n then { y with trapVec := x } else y)
            ∧ ∀ q, n = 3 → w.braidOf? w.me.part w.me.braid = some q → u.braidOf? w.me.part w.me.braid = some { q with trapVec := some x }))
    ∧ (n = 0 ∨ 8 < n → gives (.grant d a b t) w 1)
    ∧ (0 < n → n ≤ 8 → (tgt = .bad → gives (.grant d a b t) w 1) ∧ (tgt = .absent → gives (.grant d a b t) w 2)
        ∧ (∀ u, tgt = .saved u → gives (.grant d a b t) w 3)
        ∧ ∀ u, tgt = .resident u →
          let total := w.heldUnits u.core - Nat.max u.slices u.pend + Nat.max u.slices n
          (64 < total → gives (.grant d a b t) w 4)
          ∧ (total ≤ 64 → gives (.grant d a b t) (w.mapStrand u.core u.ctx (fun y => { y with pend := n })) 0))
    ∧ (s.me.ctl = none →
        ∀ i, i ∈ [Instr.strandctlStatus d a b t, .strandctlHalt d a b t, .strandctlResume d a b t, .strandctlKill d a b t] →
        (3 < n → gives i w 1)
        ∧ (n ≤ 3 → (tgt = .bad → gives i w 1) ∧ (tgt = .absent → gives i w 2)
          ∧ (∀ u, tgt = .saved u → (n = 0 → gives i w 0x400) ∧ (n ≠ 0 → gives i w 3))
          ∧ ∀ u, tgt = .resident u → (u.core = s.me.core ∧ u.ctx = s.me.ctx → gives i w 3)
            ∧ (¬(u.core = s.me.core ∧ u.ctx = s.me.ctx) →
              (n = 0 →
                (u.run = .double → gives i w 0x200)
                ∧ ((u.run = .halted ∨ u.run = .paused) ∧ u.issued = none → gives i w 0x100)
                ∧ (u.run = .running → w.plyParked u = true → gives i w 0x500)
                ∧ (u.run = .running → w.plyParked u = false → gives i w (if u.inPark then 0x300 else 0)))
              ∧ (n = 1 →
                let v := (w.squash u.core u.ctx).mapStrand u.core u.ctx (fun y => { y with run := .halted })
                (u.run = .double ∨ u.run = .paused ∨ (u.run = .halted ∧ u.issued = none) → gives i w 3)
                ∧ (u.run = .halted ∧ u.issued.isSome = true → exec i s = .next { w with waiting := true })
                ∧ (u.run = .running → w.plyParked u = true → gives i w 3)
                ∧ (u.run = .running → w.plyParked u = false → ∀ y, v.strand? (u.coord / 8) (u.coord % 8) = some y →
                    y.run = .halted → (y.issued = none → gives i { v with me := { v.me with ctl := none } } 0)
                      ∧ (y.issued.isSome = true → v.me.issued = none → exec i s = .next { v with waiting := true, me := { v.me with ctl := some u.coord } })))
              ∧ (n = 2 →
                (u.run = .double → gives i (w.mapStrand u.core u.ctx (fun y =>
                  { y with run := .running, pc := y.trapVec, pm := true, atVec := true, fellOff := false })) 0)
                ∧ ((u.run = .halted ∨ u.run = .paused) ∧ u.issued = none →
                    gives i (w.mapStrand u.core u.ctx (fun y => { y with run := .running })) 0)
                ∧ (u.run = .running → gives i w 3))
              ∧ (n = 3 → (u.run = .running → gives i w 3)
                ∧ (u.run = .double ∨ ((u.run = .halted ∨ u.run = .paused) ∧ u.issued = none) → gives i (w.kill u.core u.ctx) 0)))))
    ∧ (∀ k, w.coreOperand x = .error k → gives (.ctxsave d a b t) w k ∧ gives (.ctxload d a b t) w k)
    ∧ (∀ core, w.coreOperand x = .ok core →
        let here := w.strands.filter (fun u => u.core == core)
        let saved := (w.core core).saved
        (s.me.core = core → gives (.ctxsave d a b t) w 3)
        ∧ (saved = none → gives (.ctxload d a b t) w 3)
        ∧ (s.me.core ≠ core → here.all (fun u => u.vf == s.me.vf && (u.isHalted || u.run == .double)) = true →
            (saved.isSome = true → gives (.ctxsave d a b t) w 4)
            ∧ (saved = none → s.reg b = 0 → ∃ (u : State) (v : Saved), gives (.ctxsave d a b t) u 0 ∧ u.me.regs = s.me.regs
                ∧ (u.core core).saved = some v ∧ v.owner = some s.me.vf
                ∧ v.strands = here.map (fun y => { y with links := [] })
                ∧ ∀ y, y ∈ u.strands → y.core ≠ core))
        ∧ (∀ v, saved = some v → (v.owner ≠ some s.me.vf → gives (.ctxload d a b t) w 3)
            ∧ (v.owner = some s.me.vf → here ≠ [] ∨ w.fusionAllows core v = false → gives (.ctxload d a b t) w 4)
            ∧ (v.owner = some s.me.vf → here = [] → w.fusionAllows core v = true → s.reg b = 0 → ∃ u : State, gives (.ctxload d a b t) u 0
                ∧ u.me = { w.me with links := u.me.links } ∧ (u.core core).saved = none
                ∧ ∀ y, y ∈ v.strands → ∃ z, z ∈ u.others ∧ z = { y with links := z.links })))

/-- LAUNCH, SQPUSH, SQPOP, SQSTAT, BAR and EXIT act on braids, stage queues, barriers and the strand (R350, R360, R365,
R366, R367, R375). Where they issue: LAUNCH enters the record's braid in the lowest free entry and writes its number,
or the status of its table; SQPUSH appends to a queue of the strand's stage and waits while it is full; SQPOP takes
its oldest record, writes all ones and 0 at its end, and waits while it is empty; SQSTAT reads a queue; a wrong queue
or side traps QUEUE_MISUSE; BAR goes on when every strand of the ply waits at the barrier, and waits until then; EXIT
frees the strand's context and closes what it writes when no command is left, and traps ENGINE_FAULT at a faulted one. -/
def Obligations.LaunchAndStageQueues : Prop :=
  ∀ (s : State) (d a b c : BitVec 5) (imm : BitVec 12) (t : BitVec 2), s.ready t false = true →
    let w := s.takeToken t
    let p := w.performAll.release 3
    let n := imm.toNat
    let gives (u : State) (x : Nat) : Prop := exec (.launch d a t) s = .next ((u.setReg d (BitVec.ofNat 64 x)).retires t)
    let misuse (i : Instr) (reason : Nat) : Prop :=
      exec i s = w.takeTrap { cause := 0x0E, val := queueVal ((s.reg c).toNat % 16) reason 2 (s.reg c) }
    let find (x : Braid) : Option StageQueue := x.queues.find? (fun q => q.num == (s.reg c).toNat)
    let three := [Instr.sqpush a b c t, .sqpop d c t, .sqstat d c t]
    let arr : State := { w.performAll.release 1 with me := { (w.performAll.release 1).me with barAt := some n } }
    let full := arr.barFull arr.me.part arr.me.braid arr.me.stage arr.me.plyId n
    let inc := w.incomplete w.me
    let bad (k : Nat) : Bool := w.jState w.me k == 5 || w.jState w.me k == 7
    let own : Walker := { p.walker with own := true }
    (∀ u, p.readRecord own (p.reg a).toNat = .fail u → gives u (2 ^ 63 + 1))
    ∧ (∀ u v i, p.readRecord own (p.reg a).toNat = .hold u v i →
        exec (.launch d a t) s = .next { u.holdMe v i with waiting := true })
    ∧ (∀ u r ds, p.readRecord own (p.reg a).toNat = .ok u r ds →
        let q := u.part u.me.part
        (u.anchor.stage < 3 → gives u (2 ^ 63 + 4))
        ∧ (3 ≤ u.anchor.stage → malformedRecord r ds q.braidCtr = true → gives u (2 ^ 63 + 2))
        ∧ (3 ≤ u.anchor.stage → malformedRecord r ds q.braidCtr = false →
            ((∀ i, i < 64 → (q.braids.lookup i).isSome = true) → gives u (2 ^ 63 + 3))
            ∧ ∀ k, k < 64 → q.braids.lookup k = none → (∀ i, i < k → (q.braids.lookup i).isSome = true) →
                ∃ v : State, gives v (q.braidCtr + 1) ∧ v.me = u.me ∧ v.mem = u.mem
                  ∧ v.braidOf? u.me.part k = some (braidOf r ds (q.braidCtr + 1) u.me.vf)
                  ∧ (v.part u.me.part).braidCtr = q.braidCtr + 1))
    ∧ (16 ≤ (s.reg c).toNat → ∀ i, i ∈ three → misuse i 5)
    ∧ ((s.reg c).toNat < 16 → ∀ i, i ∈ three → ((w.braidOf? w.me.part w.me.braid).bind find) = none → misuse i 1)
    ∧ ((s.reg c).toNat < 16 → ∀ x q, w.braidOf? w.me.part w.me.braid = some x → find x = some q →
        (q.src ≠ s.me.stage → misuse (.sqpush a b c t) 1) ∧ (q.dst ≠ s.me.stage → misuse (.sqpop d c t) 1)
        ∧ (q.src = s.me.stage → q.cap ≤ q.recs.length → exec (.sqpush a b c t) s = .next { p with waiting := true })
        ∧ (q.src = s.me.stage → q.recs.length < q.cap → ∃ u : State, exec (.sqpush a b c t) s = .next (u.retires t) ∧ u.me = p.me
            ∧ u.mem = p.mem ∧ ∀ y, p.braidOf? p.me.part p.me.braid = some y → ∃ z, u.braidOf? p.me.part p.me.braid = some z
              ∧ z.queues = y.queues.map (fun x => if x.num = q.num then { x with recs := q.recs ++ [(p.reg a, p.reg b)] } else x)
              ∧ z.plies = y.plies ∧ z.ended = y.ended)
        ∧ (q.dst = s.me.stage → q.recs = [] → x.queueEnded q = false → exec (.sqpop d c t) s = .next { w with waiting := true })
        ∧ (q.dst = s.me.stage → q.recs = [] → x.queueEnded q = true → ∃ u : State, exec (.sqpop d c t) s = .next (u.retires t)
            ∧ u.me.sqEnd = s.me.sqEnd ||| BitVec.ofNat 16 (2 ^ q.num) ∧ u.mem = s.mem
            ∧ (d ≠ 0 → d + 1 ≠ d → u.me.reg d = BitVec.allOnes 64) ∧ (d + 1 ≠ 0 → u.me.reg (d + 1) = 0)
            ∧ ∀ r, r ≠ d → r ≠ d + 1 → u.me.reg r = s.me.reg r)
        ∧ (∀ y l, q.dst = s.me.stage → q.recs = y :: l → exec (.sqpop d c t) s
            = .next (((((((w.setRecs q l).settleBraid w.me.part w.me.braid).setReg d y.1).setReg (d + 1) y.2)).acquire 3).retires t))
        ∧ exec (.sqstat d c t) s = .next ((w.setReg d (BitVec.ofNat 64 (q.recs.length % 2 ^ 17 + (x.queueEnded q).toNat * 2 ^ 17
            + (q.src == s.me.stage).toNat * 2 ^ 18 + (q.dst == s.me.stage).toNat * 2 ^ 19))).retires t))
    ∧ (s.me.barAt = none → full = false → exec (.bar imm t) s = .next { arr with waiting := true })
    ∧ (s.me.barAt = none → full = true → s.me.live = true → ∃ u : State, exec (.bar imm t) s = .next (u.retires t)
        ∧ u.me.barAt = none ∧ u.me.regs = s.me.regs ∧ u.me.rows = s.me.rows)
    ∧ (∀ k, inc.find? bad = some k → exec (.exit t) s = w.takeTrap { cause := 0x11, val := BitVec.ofNat 64 k })
    ∧ (inc ≠ [] → inc.find? bad = none → exec (.exit t) s = .next { w with waiting := true, me := { w.me with engWait := inc } })
    ∧ (inc = [] → ∃ u : State, exec (.exit t) s = .next (u.retires (t &&& 1)) ∧ u.me.live = false
        ∧ (∀ y, y ∈ u.strands → ¬(y.core = s.me.core ∧ y.ctx = s.me.ctx))
        ∧ (u.pair s.me.pairNo).qcfg = (s.pair s.me.pairNo).qcfg ||| s.me.closable)

/-- The Dispatcher's and the Anchor's steps on strands, plies, stages and braids (R129, R361, R363, R364, R366, R368,
R369, R370, R375, R390, R392, R398). A round gives the lowest class, outside every 16th round, its dispatch, and in a
class the strand that issued least recently, and the winner's oldest queued instruction is dispatched; a squash goes
back to the oldest instruction discarded; a partition's swap, once no XRED is in flight, saves every core with a
strand, and its restore brings back a context of the current tenant; a waiting braid starts with its stages' MINPLY
plies; a ply's strands are created at the pairs named; stages and braids end under their conditions; rebalancing acts
on a noted crossing, and counts the actions applied; plies move with their coil to the empty one that the placement
rule chooses, once none of them has an XRED in flight; an empty coil changes fusion; a full barrier completes. The
model's choices: SLICE_END acts at the current boundary (assumption 19), and a squash, a swap and the lowering of
grants need the PREEMPT bit of their kind (assumption 44). -/
def Obligations.PlacementAndScheduling : Prop :=
  (∀ (s : State) (core : Nat) (vlsu : Bool), (s.strands.map (fun y => (y.core, y.ctx))).Nodup →
    let round (u : State) : Nat := (u.core core).round vlsu
    let rank (y : Strand) : Nat := 8 * y.lastIssued vlsu + y.ctx
    ∃ u : State, exec (.issueRound core vlsu) s = .next u ∧ round u = round s + 1
      ∧ (s.roundWinner core vlsu = none → u.me = s.me ∧ u.others = s.others ∧ u.mem = s.mem)
      ∧ ∀ y, s.roundWinner core vlsu = some y → s.candidate core vlsu y = true
        ∧ (∀ e l, y.dq = e :: l → ∃ z, u.strand? core y.ctx = some z ∧ z.dq = l ∧ z.issued = some e
          ∧ z.lastIssued vlsu = round s + 1)
        ∧ ∀ x, x ∈ s.strands → s.candidate core vlsu x = true → (round s % 16 ≠ 15 → s.prioOf y ≤ s.prioOf x)
            ∧ (s.prioOf x = s.prioOf y → rank y ≤ rank x))
  ∧ (∀ (s : State) (i : Instr × Bool), i ∈ [(Instr.queueSquash s.me.core s.me.ctx, false), (.sliceEnd s.me.core s.me.ctx, true)] →
    (s.mayQueueSquash s.me.core s.me.ctx i.2 = false → exec i.1 s = .next s)
    ∧ (s.mayQueueSquash s.me.core s.me.ctx i.2 = true → s.me.live = true → s.me.run = .running → s.me.issued = none →
        let bare (l : List Strand) : List Strand := l.map (fun y => { y with links := [] })
        ∃ u : State, exec i.1 s = .next u ∧ u.me.dq = [] ∧ u.me.rows = s.me.rows ∧ u.me.links = [] ∧ bare u.others = bare s.others
          ∧ (∀ e l, s.me.dq = e :: l → u.me.pc = e.pc ∧ u.me.entered = e.seq - 1)
          ∧ (s.me.dq = [] → u.mem = s.mem ∧ u.me.regs = s.me.regs
              ∧ u.me.pc = (match s.me.sigPend, s.me.limm with | none, some l => l.2 | _, _ => s.me.pc))))
  ∧ (∀ (s : State) (part : Nat),
    let p (y : Strand) : Bool := y.part == part
    let cores := (s.part part).cores
    let may := (s.strands.filter p).all (fun y => s.permits y.vf 2) && !s.swapBlocked part p true && !s.swapWaits p
    (may = false → exec (.partitionContextSwap part) s = .next s)
    ∧ (may = true → ∃ u : State, exec (.partitionContextSwap part) s = .next u
        ∧ (∀ y, y ∈ u.strands → y.part = part → y.core ∉ cores)
        ∧ ((s.strands.map (fun y => (y.core, y.ctx))).Nodup →
            ∀ c, c ∈ cores → (∃ y, y ∈ s.strands ∧ y.core = c ∧ y.part = part) → (u.core c).saved.isSome = true))
    ∧ ∀ c v, c ∈ cores → (s.core c).saved = some v → v.owner = none → s.restorable c v = true →
        s.savedCurrent part v = true →
        (∀ k, k ∈ cores → k ≠ c → (s.core k).saved = none) → ∃ u : State, exec (.partitionContextRestore part) s = .next u
          ∧ u.me = { s.me with links := u.me.links } ∧ (u.core c).saved = none
          ∧ ∀ y, y ∈ s.others ++ v.strands → ∃ z, z ∈ u.others ∧ z = { y with links := z.links })
  ∧ (∀ (s : State) (part slot : Nat) (b : Braid), s.braidOf? part slot = some b →
    let gives (i : Instr) (x : Braid) : Prop := ∃ u : State, exec i s = .next u ∧ u.braidOf? part slot = some x ∧ u.me = s.me
      ∧ u.mem = s.mem
    ((!b.running && (s.part part).ready b) = true → gives (.braidStart part slot) b.start)
    ∧ ((!b.running && (s.part part).ready b) = false → exec (.braidStart part slot) s = .next s)
    ∧ (b.start.running = true ∧ ∀ st d, b.stages[st]? = some d → (b.start.plies.filter (fun p => p.stage == st)).length
        = (b.plies.filter (fun p => p.stage == st)).length + (if d.inQ.isNone then Nat.min d.minPly d.nPly else d.minPly))
    ∧ (∀ st, gives (.stageEnd part slot st) (if b.stageDone st then
        { b with ended := b.ended ++ [st], plies := b.plies.filter (fun p => p.stage != st) } else b))
    ∧ (b.complete = false → exec (.braidComplete part slot) s = .next s)
    ∧ (b.complete = true → ∃ u : State, exec (.braidComplete part slot) s = .next u ∧ u.braidOf? part slot = none
        ∧ u.me.regs = s.me.regs)
    ∧ (∀ q, (b.crossed.contains (0, q) = false → exec (.rebalanceRise part slot q) s = .next s)
        ∧ (b.crossed.contains (1, q) = false → exec (.rebalanceFull part slot q) s = .next s)
        ∧ (b.crossed.contains (2, q) = false → exec (.rebalanceDrain part slot q) s = .next s))
    ∧ (∀ q x, b.queues.find? (fun y => y.num == q) = some x →
        let mine (y : Strand) : Bool := y.part == part && y.braid == slot && y.stage == x.src
        let maps (u : State) (f : Strand → Strand) : Prop :=
          u.me = (if s.me.live && mine s.me then f s.me else s.me)
            ∧ u.others = s.others.map (fun y => if y.live && mine y then f y else y)
        let counts (z : Braid) (ev st : Nat) (acts : Bool) : Prop := z.crossed = b.crossed.erase (ev, q)
          ∧ look z.rebal st 0 = if acts then Nat.min (look b.rebal st 0 + 1) 0xFFFFFFFF else look b.rebal st 0
        (∀ d, b.crossed.contains (0, q) = true → b.stages[x.dst]? = some d →
          let adds := decide ((b.resident x.dst).length < d.maxPly) && (s.chooseCoil part b.fuse d.pairs).isSome && !b.ended.contains x.dst
            && !b.queueEnded x
          ∃ (u : State) (z : Braid),
            exec (.rebalanceRise part slot q) s = .next u ∧ u.me = s.me ∧ u.others = s.others ∧ u.braidOf? part slot = some z
            ∧ counts z 0 x.dst adds
            ∧ z.plies = if adds then b.plies ++ [{ stage := x.dst, id := look b.nextPly x.dst 0 }] else b.plies)
        ∧ (b.crossed.contains (1, q) = true → ∃ (u : State) (z : Braid), exec (.rebalanceFull part slot q) s = .next u
            ∧ u.braidOf? part slot = some z
            ∧ ((s.everyStrand.filter mine).all (fun y => y.pend == 1) = true → counts z 1 x.src (b.parkable x.src (s.plyAway part slot)).isSome ∧
                u.me = s.me ∧ u.others = s.others
                ∧ z.plies = b.plies.map (fun p => if (b.parkable x.src (s.plyAway part slot)).any (fun y => p.stage == x.src && p.id == y.id)
                    then { p with parked := true } else p))
            ∧ ((s.everyStrand.filter mine).all (fun y => y.pend == 1) = false → s.permits b.vf 0 = false → counts z 1 x.src false ∧
                u.me = s.me ∧ u.others = s.others ∧ z.plies = b.plies ∧ z.lowered = b.lowered)
            ∧ ((s.everyStrand.filter mine).all (fun y => y.pend == 1) = false → s.permits b.vf 0 = true → counts z 1 x.src true ∧
                maps u (fun y => { y with pend := Nat.max 1 (y.pend / 2) }) ∧ z.plies = b.plies ∧ x.src ∈ z.lowered))
        ∧ (b.crossed.contains (2, q) = true → ∃ (u : State) (z : Braid), exec (.rebalanceDrain part slot q) s = .next u
            ∧ u.braidOf? part slot = some z
            ∧ counts z 2 x.src (b.lowered.contains x.src || b.plies.any (fun p => p.stage == x.src && p.parked))
            ∧ (b.lowered.contains x.src = true → maps u (fun y => { y with pend := 8 }))
            ∧ (b.lowered.contains x.src = false → u.me = s.me ∧ u.others = s.others)
            ∧ z.plies = b.plies.map (fun p => if p.stage = x.src then { p with parked := false } else p)))
    ∧ ∀ st ply n,
        let of (y : Strand) : Bool := y.ofPly part slot st ply
        (16 ≤ n ∨ s.barFull part slot st ply n = false → exec (.barrierComplete part slot st ply n) s = .next s)
        ∧ (n < 16 → s.barFull part slot st ply n = true → ∃ u : State, exec (.barrierComplete part slot st ply n) s = .next u
            ∧ u.mem = s.mem ∧ u.me = (if s.me.live && of s.me then { s.me with barAt := some (16 + n) } else s.me)
            ∧ u.others = s.others.map (fun y => if y.live && of y then { y with barAt := some (16 + n) } else y)))
  ∧ (∀ (s : State) (part : Nat) (at_ : List (Nat × Nat)),
    let s1 := s.updPart part (fun p => { p with braids := p.braids.map (fun b => (b.1, b.2.refill)) })
    let next := (s1.part part).nextPly? (fun v => match s1.vf? v with
      | some x => x.st == .resident
      | none => false)
    (next = none → exec (.plyPlacement part at_) s = .next s1)
    ∧ ∀ slot b ply d coil, next = some (slot, b, ply) → b.stages[ply.stage]? = some d → s1.chooseCoil part b.fuse d.pairs = some coil →
        s1.goodPairs coil d.pairs at_ = true → ∃ u : State, exec (.plyPlacement part at_) s = .next u ∧ u.me.regs = s.me.regs
          ∧ u.others.length = s.others.length + (if d.exeOnly then d.pairs else 2 * d.pairs)
          ∧ ∀ i x, at_[i]? = some x → ∀ role, role ≤ 1 → (role = 1 ∨ d.exeOnly = false) → ∃ y, y ∈ u.others ∧ y.live = true
            ∧ y.core = x.1 ∧ y.ctx = 2 * x.2 + role ∧ y.role = role ∧ y.strandId = 2 * i + role ∧ y.plyId = ply.id ∧ y.vf = b.vf
            ∧ y.stage = ply.stage ∧ y.pm = false ∧ y.image = b.image
            ∧ y.pc = b.image + BitVec.ofNat 64 (if role = 0 then d.accEnt else d.exeEnt))
  ∧ (∀ (s : State) (part src dst : Nat),
    let p := s.part part
    let may := p.parkedCoils.contains src = true ∧ s.chooseEmpty part = some dst ∧ s.swapWaits (fun y => coilOf y.core == src) = false
    (∀ c, s.chooseEmpty part = some c → c ∈ p.coils ∧ s.coilEmpty c = true ∧ ∀ k, k ∈ p.coils → s.coilEmpty k = true →
      ((s.coil c).overLimit = true → (s.coil k).overLimit = true)
      ∧ ((s.coil c).overLimit = (s.coil k).overLimit → (s.coil c).temp.toNat < (s.coil k).temp.toNat
          ∨ ((s.coil c).temp = (s.coil k).temp ∧ c ≤ k))) ∧
    (¬may → exec (.plyReplace part src dst) s = .next s)
    ∧ (may → ∃ u : State, exec (.plyReplace part src dst) s = .next u ∧ (∀ y, y ∈ u.strands → coilOf y.core ≠ src)
        ∧ (u.part part).parkedCoils = p.parkedCoils.erase src))
  ∧ (∀ (s : State) (coil : Nat) (fuse : Bool),
    (s.coilBusy coil = true ∨ (s.coil coil).fused = fuse → exec (.coilFusionChange coil fuse) s = .next s)
    ∧ (s.coilBusy coil = false → (s.coil coil).fused ≠ fuse → ∃ u : State, exec (.coilFusionChange coil fuse) s = .next u
        ∧ (u.coil coil).fused = fuse ∧ u.me.regs = s.me.regs))

/-- ANCALL's services, XRED, XSEND, XRECV and XMEMB, and what arrives for a group (R223, R324, R325, R326, R327, R329,
R330, R332, R333, R353, R426). Where they issue: an unreadable argument block gives status 4, bad values 3 and an
unknown service 1; BUFDEF and BUFDROP enter and remove a buffer, GRPLEAVE a group; GRPOPEN and GRPSPARE give 3 before
start-up stage 2 has completed, else enter a joining group, wait, and give 0 once it is active and a spare has written
the donor's log to its own, for whose segments it waits; XRED sends its contribution, waits for the live members' and,
held in its unit, for a segment of its log entry, and then writes each element combined in ascending rank; XSEND waits
for credits and sends its rows, XRECV takes the oldest message from a rank with a tag; XMEMB reads a group; a
contribution, message, failure, timeout and membership message change the group as their rules say. Which elements a
failed member leaves complete is not stated here. That a misaligned argument block gives 4 is the model's reading
(assumption 40). -/
def Obligations.AnchorServicesAndCollectives : Prop :=
  (∀ (s : State) (d a : BitVec 5) (imm : BitVec 12) (t : BitVec 2), s.ready t false = true →
    let w := s.takeToken t
    let p := w.performAll.release 3
    let x := (s.reg a).toNat
    let gives (i : Instr) (u : State) (n : Nat) : Prop := exec i s = .next (((u.acquire 3).setReg d (BitVec.ofNat 64 n)).retires t)
    let block (n : Nat) : BlockRes := p.readBlock { p.walker with own := true } true x n
    let taken (u : State) (h : Nat) : Prop := ∃ b, (u.part u.me.part).bufs.lookup h = some b ∧ b.vf ≠ u.me.vf
    let free (u : State) (h : Nat) : Prop := ∀ b, (u.part u.me.part).bufs.lookup h = some b → b.vf = u.me.vf
    gives (.ancallOther d a imm t) p 1
    ∧ (∀ i, i ∈ [(Instr.ancallBufdef d a t, 26), (.ancallBufdrop d a t, 8), (.grpleave d a t, 1)] →
        (x % 64 ≠ 0 → gives i.1 p 4)
        ∧ (x % 64 = 0 → (∀ u, block i.2 = .fail u → gives i.1 u 4)
            ∧ ∀ u va g, block i.2 = .hold u va g →
                exec i.1 s = .next { u.holdForAnchor va g with waiting := true }))
    ∧ (∀ u v, x % 64 = 0 → block 26 = .ok u v →
        let h := rfld v 0 0 64
        let ok := h ≤ 255 ∧ rfld v 8 0 64 % 2 ^ 18 = 0 ∧ rfld v 16 0 64 % 2 ^ 18 = 0 ∧ rfld v 24 0 16 ≠ 0
        (¬ok ∨ taken u h → gives (.ancallBufdef d a t) u 3)
        ∧ (ok → free u h → ∃ z : State, gives (.ancallBufdef d a t) z 0 ∧ z.me = u.me ∧ z.mem = u.mem
            ∧ (z.part u.me.part).bufs.lookup h
              = some { base := rfld v 8 0 64, alt := rfld v 16 0 64, segs := rfld v 24 0 16, front := false, vf := u.me.vf }))
    ∧ (∀ u v, x % 64 = 0 → block 8 = .ok u v →
        let h := rfld v 0 0 64
        (255 < h ∨ taken u h → gives (.ancallBufdrop d a t) u 3)
        ∧ (h ≤ 255 → free u h → ∃ z : State, gives (.ancallBufdrop d a t) z 0 ∧ z.me = u.me ∧ z.mem = u.mem
            ∧ (z.part u.me.part).bufs.lookup h = none))
    ∧ (∀ u v, x % 64 = 0 → block 1 = .ok u v →
        let g := rfld v 0 0 8
        (u.group? u.me.part g = none → gives (.grpleave d a t) u 3)
        ∧ ∀ y, u.group? u.me.part g = some y → (y.own.isSome = true → gives (.grpleave d a t) u 3)
          ∧ (y.own = none → ∃ z : State, gives (.grpleave d a t) z 0 ∧ z.me = u.me ∧ z.mem = u.mem ∧ z.group? u.me.part g = none))
    ∧ (∀ i, i ∈ [Instr.grpopen d a t, .grpspare d a t] →
        (∀ g, s.me.xseq = some g →
          let n : State := { w with me := { w.me with xseq := none } }
          (w.group? w.me.part g = none → gives i n 3)
          ∧ ∀ y, w.group? w.me.part g = some y → (y.gstate ≠ 1 → exec i s = .next { w with waiting := true })
            ∧ (y.gstate = 1 → (w.part w.me.part).logToCopy g = none → gives i n 0)
            ∧ (y.gstate = 1 → ∀ log, (w.part w.me.part).logToCopy g = some log →
                (∀ va j z, segsMiss y.logBase.toNat 5 w = (some (va, j), z) →
                  exec i s = .next { z.holdForAnchor va j with waiting := true })
                ∧ ∀ z, segsMiss y.logBase.toNat 5 w = (none, z) → ∃ u : State, gives i u 0 ∧ u.me.xseq = none
                    ∧ u.me.regs = s.me.regs ∧ (u.part w.me.part).logToCopy g = none
                    ∧ u.mem = (z.writeLog y.logBase.toNat ((List.range 8192).map (fun k => (128 * k, look log k (0, zeroTag))))).mem))
        ∧ (s.me.xseq = none → s.anchor.stage < 4 → gives i p 3)
        ∧ (s.me.xseq = none → 4 ≤ s.anchor.stage → x % 64 ≠ 0 → gives i p 4))
    ∧ (∀ u1 v1 u v, s.me.xseq = none → 4 ≤ s.anchor.stage → x % 64 = 0 → block 32 = .ok u1 v1 → 0 < rfld v1 2 0 16 → rfld v1 2 0 16 ≤ 144 →
        u1.readBlock { u1.walker with own := true } true x (32 + 8 * rfld v1 2 0 16) = .ok u v →
        let g := rfld v 0 0 8
        let order := rfld v 1 0 8
        let n := rfld v 2 0 16
        let tmo := rfld v 4 0 32
        let base := rfld v 8 0 64
        let rank := rfld v 16 0 16
        let members := (List.range n).map (fun i => BitVec.ofNat 64 (rfld v (32 + 8 * i) 0 64))
        let ok := g ≤ 63 ∧ order ≤ 1 ∧ n ≤ 144 ∧ 10 ≤ tmo ∧ tmo ≤ 1000000 ∧ base < 2 ^ 56 ∧ rank < n
          ∧ u.group? u.me.part g = none
        (¬ok → gives (.grpopen d a t) u 3)
        ∧ (ok → (∀ j, j ∈ (u.part u.me.part).joins → j.1 ≠ g) →
            let new : Group := { vf := u.me.vf, order := order, tmo := tmo, logBase := BitVec.ofNat 64 base, rank := rank, members := members,
                                 gstate := 2, gen := 0, seq := 0, liveSet := [], openedBy := [rank] }
            (1 < n → ∃ z : State, exec (.grpopen d a t) s = .next { z with waiting := true } ∧ z.me = { u.me with xseq := some g }
              ∧ z.mem = u.mem ∧ z.group? u.me.part g = some new
              ∧ z.outbox = u.outbox ++ [.member u.me.part g (.opened rank order tmo members)])
            ∧ (n = 1 → ∃ z : State, gives (.grpopen d a t) z 0 ∧ z.mem = u.mem
                ∧ z.group? u.me.part g = some { new with gstate := 1, gen := 1, liveSet := [0] })))
    ∧ (∀ u v, s.me.xseq = none → 4 ≤ s.anchor.stage → x % 64 = 0 → block 3 = .ok u v →
        let g := rfld v 0 0 8
        let donor := rfld v 1 0 8
        let rank := rfld v 2 0 8
        let ok := g ≤ 63 ∧ donor ≤ 143 ∧ rank ≤ 143 ∧ donor ≠ rank
          ∧ ∀ y, u.group? u.me.part g = some y → y.gstate ≠ 2
            ∧ (y.gstate = 1 → y.rank ∉ y.liveSet ∧ donor ∈ y.liveSet ∧ rank ∉ y.liveSet)
        (¬ok → gives (.grpspare d a t) u 3)
        ∧ (ok → ∃ (z : State) (y : Group), exec (.grpspare d a t) s = .next { z with waiting := true }
            ∧ z.me = { u.me with xseq := some g } ∧ z.mem = u.mem ∧ z.group? u.me.part g = some y ∧ y.gstate = 2 ∧ y.rank = rank
            ∧ y.openedBy = [donor] ∧ z.outbox = u.outbox ++ [.member u.me.part g (.spareWanted rank donor)])))
  ∧ (∀ (s : State) (v o b : BitVec 5) (k : BitVec 3) (m t : BitVec 2), s.ready t false = true → s.me.configured = true →
      s.me.vtypeIll [v] = false →
    let w := s.takeToken t
    let x := w.capB b
    let i := x.toNat
    let q : Option Group := if i < 64 then w.group? w.me.part i else none
    let p := w.performAll.release 4
    let misuse (n r : Nat) (val : Word) : TrapReq := { cause := 0x0E, val := queueVal n r 3 val }
    let rows := List.range s.me.rc
    (q = none → exec (.xred v o b k m t) s = w.takeTrap (misuse 7 4 x))
    ∧ (∀ g, q = some g → s.me.xseq = none →
        let own := { p.contribution g v.toNat o.toNat with seq := g.seq }
        let g' : Group := { g with seq := g.seq + 1, own := some own, startSet := g.liveSet }
        (g.gstate ≠ 1 ∨ g.own.isSome = true ∨ ((w.part w.me.part).logToCopy i).isSome = true → exec (.xred v o b k m t) s = .next { w with waiting := true })
        ∧ (g.gstate = 1 → g.own = none → (w.part w.me.part).logToCopy i = none → g'.gather own g.seq g.liveSet = none → ∃ z : State,
            exec (.xred v o b k m t) s = .next { z with waiting := true } ∧ z.me = { p.me with xseq := some g.seq } ∧ z.mem = p.mem
            ∧ z.group? p.me.part i = some g' ∧ ∃ ls, z.outbox = p.outbox ++ .xred p.me.part i own :: ls))
    ∧ (∀ g own n live, q = some g → s.me.xseq = some n → g.own = some own → (∀ r, r ∈ g.startSet → r ∈ g.liveSet) →
        g.gather own n g.startSet = some live →
        (live.any (fun c => !sameShape c own) = true → ∃ z : State,
            exec (.xred v o b k m t) s = z.takeTrap (misuse 7 5 (BitVec.ofNat 64 i)) ∧ z.me = { w.me with xseq := none } ∧ (g.wanted = [] → z.mem = s.mem))
        ∧ (live.all (fun c => sameShape c own) = true → ∀ tags : Nat → Tag,
            (∀ r, r < s.me.rc → rowJoin w (live.headD own).osc (live.map (fun c => (c.rows.getD r (0, zeroTag)).2)) = .ok (tags r)) →
            let base := g.logBase.toNat + 2 ^ 14 * (own.seq % 64)
            let missed := segsMiss base (if base / 2 ^ 18 = (base + 2 ^ 14 - 1) / 2 ^ 18 then 1 else 2) w
            (∀ va j u, missed = (some (va, j), u) → s.me.issued.isSome = true → ∃ z : State,
                exec (.xred v o b k m t) s = .next { z with waiting := false } ∧ z.me.issued = none ∧ z.me.rows = s.me.rows
                ∧ ∃ h, h ∈ z.me.parked ∧ h.pending = [⟨0, va, va, j⟩])
            ∧ (missed.1 = none →
              ∃ u : State, exec (.xred v o b k m t) s = .next (u.retires t) ∧ u.me.xseq = none ∧ u.me.regs = s.me.regs
                ∧ u.me.vstart = 0 ∧ u.me.rstart = 0 ∧ s.rowsKept u v.toNat s.me.rc
                ∧ ∀ r e, r < s.me.rc → e < s.me.vl → ∃ n, s.slot u v.toNat (r * s.me.vl + e) =
                    (xredElem { w with freeCtr := n } m o.toNat (live.headD own).dice (tags r) live r e).1.1 % 2 ^ s.me.sewBits)))
    ∧ (w.peerOf x = none → exec (.xsend v b k t) s = w.takeTrap (misuse 6 5 x) ∧ exec (.xrecv v b k t) s = w.takeTrap (misuse 6 5 x))
    ∧ (∀ gi g rank mtag, w.peerOf x = some (gi, g, rank, mtag) → s.me.tePsn = false →
        let es := rows.map (fun r => p.me.queueEntry v.toNat r k)
        (rank ∉ g.liveSet → exec (.xsend v b k t) s = w.takeTrap (misuse 6 2 0))
        ∧ (rank ∈ g.liveSet → look g.credits rank 8 < s.me.rc → exec (.xsend v b k t) s = .next { p with waiting := true })
        ∧ (rank ∈ g.liveSet → s.me.rc ≤ look g.credits rank 8 → ∃ u : State, exec (.xsend v b k t) s = .next (u.retires t)
            ∧ u.me.regs = s.me.regs ∧ u.me.rows = s.me.rows ∧ u.mem = p.mem
            ∧ u.group? s.me.part gi = some { g with
                credits := upd g.credits rank 8 (fun n => n - s.me.rc)
                inbox := if rank = g.rank then g.inbox ++ [⟨rank, mtag, es⟩] else g.inbox }
            ∧ ∃ ls, u.outbox = if rank = g.rank then p.outbox else p.outbox ++ .xsend s.me.part gi
                (.rows g.rank g.gen mtag s.me.sew s.me.vl (es.map (fun e => (e.row.bits, e.row.tag)))) rank :: ls)
        ∧ (takeMsg rank mtag g.inbox = none → exec (.xrecv v b k t) s
            = if g.liveSet.contains rank then .next { w with waiting := true } else w.takeTrap (misuse 6 2 0))
        ∧ ∀ y rest, takeMsg rank mtag g.inbox = some (y, rest) →
          let good := y.rows.length = s.me.rc ∧ ∀ e, e ∈ y.rows → e.sew = s.me.sew
          (¬good → exec (.xrecv v b k t) s = w.takeTrap (misuse 6 3 0))
          ∧ (good → ∃ z : State, exec (.xrecv v b k t) s
              = .next (((y.rows.zipIdx.foldl (fun r e => r.popRow v.toNat e.2 k e.1) z).acquire 4).clearStart.retires t)
              ∧ z.me.rows = s.me.rows ∧ z.me.regs = s.me.regs ∧ z.mem = s.mem
              ∧ z.group? s.me.part gi = some { g with
                  inbox := rest, credits := if rank = g.rank then upd g.credits rank 8 (fun n => n + s.me.rc) else g.credits }
              ∧ z.outbox = if rank = g.rank then s.outbox else s.outbox ++ [.xsend s.me.part gi (.credit g.rank s.me.rc) rank])))
  ∧ (∀ (s : State) (d a b : BitVec 5) (t : BitVec 2), s.ready t false = true →
    let w := s.takeToken t
    let x := s.reg a
    let n := (s.reg b).toNat
    let reads (f : Group → Nat) : Prop := ∀ g, w.group? w.me.part x.toNat = some g →
      exec (.xmemb d a b t) s = .next ((w.setReg d (BitVec.ofNat 64 (f g))).retires t)
    (63 < x.toNat → exec (.xmemb d a b t) s = w.takeTrap { cause := 0x0E, val := queueVal 7 4 3 x })
    ∧ (x.toNat ≤ 63 →
        ((n = 6 ∨ n = 7 ∨ 10 < n) → exec (.xmemb d a b t) s = w.takeTrap { cause := 0x0E, val := queueVal 7 5 3 (s.reg b) })
        ∧ (n ≤ 5 ∨ (8 ≤ n ∧ n ≤ 10) → w.group? w.me.part x.toNat = none →
            exec (.xmemb d a b t) s = .next ((w.setReg d 0).retires t))
        ∧ (n = 0 → reads (fun g => g.gen)) ∧ (n = 1 → reads (fun g => g.rank)) ∧ (n = 2 → reads (fun g => g.liveSet.length))
        ∧ (n = 3 → reads (fun g => g.seq)) ∧ (n = 4 → reads (fun g => g.gstate)) ∧ (n = 5 → reads (fun g => g.order))
        ∧ (8 ≤ n → n ≤ 10 → reads (fun g => liveBits g.liveSet (64 * (n - 8))))))
  ∧ (∀ (s : State) (part gi : Nat) (g : Group), s.group? part gi = some g →
    let gives (i : Instr) (y : Group) : Prop := ∃ u : State, exec i s = .next u ∧ u.group? part gi = some y ∧ u.me = s.me ∧ u.mem = s.mem
    (∀ c : Contribution,
      let takes := g.gstate = 1 ∧ c.rank ≠ g.rank ∧ c.rank ∈ g.liveSet
        ∧ (g.gen ≤ c.gen ∨ ∃ o, g.own = some o ∧ o.seq = c.seq ∧ o.gen = c.gen)
        ∧ ∀ y, y ∈ g.contrib → ¬(y.rank = c.rank ∧ y.seq = c.seq)
      (takes → gives (.xredContributionReceive part gi c) { g with contrib := g.contrib ++ [c] })
      ∧ (¬takes → gives (.xredContributionReceive part gi c) g))
    ∧ (∀ rank gen mtag sew vl rows,
        let takes := rank ≠ g.rank ∧ g.gen ≤ gen ∧ rank ∈ g.liveSet ∧ rows.length ≤ 8
        (takes → gives (.xmessageReceive part gi (.rows rank gen mtag sew vl rows))
          { g with inbox := g.inbox ++ [⟨rank, mtag, rows.map (fun r => ⟨⟨r.1, r.2⟩, sew, vl⟩)⟩] })
        ∧ (¬takes → gives (.xmessageReceive part gi (.rows rank gen mtag sew vl rows)) g))
    ∧ (∀ rank n, gives (.xmessageReceive part gi (.credit rank n))
        { g with credits := upd g.credits rank 8 (fun k => Nat.min 8 (k + n)) })
    ∧ (∀ rank,
        let after : Group := if g.gstate = 1 ∧ rank ≠ g.rank ∧ rank ∈ g.liveSet then
          { g with gen := g.gen + 1, liveSet := g.liveSet.erase rank } else g
        gives (.memberFail part gi rank) after ∧ gives (.groupMembershipMessage part gi (.failed rank)) after
        ∧ (s.awaited part gi g rank = true → gives (.collectiveTimeout part gi rank) after)
        ∧ (s.awaited part gi g rank = false → exec (.collectiveTimeout part gi rank) s = .next s))
    ∧ (∀ rank order tmo members, gi < 64 → g.gstate = 2 →
        (g.order = order ∧ g.tmo = tmo ∧ g.members = members ∧ rank < members.length →
          let by_ := if rank ∈ g.openedBy then g.openedBy else rank :: g.openedBy
          gives (.groupMembershipMessage part gi (.opened rank order tmo members))
            (if (List.range members.length).all (fun r => by_.contains r) then
              { g with openedBy := by_, gstate := 1, gen := 1, seq := 0, liveSet := List.range members.length }
             else { g with openedBy := by_ }))
        ∧ (¬(g.order = order ∧ g.tmo = tmo ∧ g.members = members ∧ rank < members.length) → ∃ u : State,
            exec (.groupMembershipMessage part gi (.opened rank order tmo members)) s = .next u ∧ u.group? part gi = none))
    ∧ (∀ rank seq gen order tmo base members live log, g.gstate = 1 → rank ∉ g.liveSet →
        gives (.groupMembershipMessage part gi (.spareJoined rank seq gen order tmo base members live log))
          { g with gen := g.gen + 1, liveSet := rank :: g.liveSet })
    ∧ (∀ rank donor,
        let asks := Instr.groupMembershipMessage part gi (.spareWanted rank donor)
        (g.rank ≠ donor → gives asks g)
        ∧ (g.rank = donor → g.own.isSome = true → gives asks { g with wanted := g.wanted ++ [rank] })
        ∧ (g.rank = donor → g.own = none → g.gstate = 1 → rank ∉ g.liveSet →
            ∃ u : State, exec asks s = .next u ∧ u.me = s.me
              ∧ u.group? part gi = some { g with gen := g.gen + 1, liveSet := rank :: g.liveSet }
              ∧ (s.banksQuiet → Memory.wf s.mem = true → ∀ e, memGet u.mem e = memGet s.mem e)
              ∧ u.outbox.getLast? = some (.member part gi (.spareJoined rank g.seq (g.gen + 1) g.order g.tmo g.logBase.toNat g.members
                  (rank :: g.liveSet) (s.readLog part g).1)))))

/-- Packed lines, references, retries, retraining, host links, start-up, temperatures and sweeps (R316, R319, R321, R322,
R323, R409, R425, R427, R428, R429, R431). A line for a port that is up is delivered in the order of its number and,
where references are in use, enters its mirror at HEAD; a reference delivers the slot's line and enters nothing;
retraining, once stage 2 begins, clears the plane's mirrors and sets the port; a CXL.mem access to a shared window
reads or writes the host bytes there, or the device line that a descriptor maps there (log entry 77), a capable peer
gets packed lines, and any other access aborts; a trained host port enables what it may; power-good starts stage 0
with every part at reset, each stage follows the one before, stage 1 ends with every channel scrubbed, and stage 2
clears the mirrors; a hank is throttled from 105 degrees and released once each of its sensors last read less than
100, and 115 shuts the device down; a sweep samples the rails, forecasts each coil and stack, and slows or restores
the coils blamed for a bank. That a host port's PKCAP is 5 or 0 once trained is the model's choice (log entry 27; R322
gives it to the hop), that line numbers run on per peer likewise (log entry 81). A retry's gathering is a free choice
(log entry 25). -/
def Obligations.LinksAndStart : Prop :=
  (∀ (s : State) (peer plane seq slot : Nat) (l : PackedLine),
    let up := peer < 144 ∧ s.portUp plane = true
    let no := mirrorNo peer plane
    let m := look s.mirrors no {}
    let next := look s.recvNos peer 0
    let brings (i : Instr) (x : PackedLine) : Prop :=
      ((∀ e, e ∈ s.early → e.1 = peer → next < e.2.1) →
        (seq = next → ∃ (u : State) (more : List (Nat × Nat × PackedLine)), exec i s = .next u
          ∧ u.arrivals = s.arrivals ++ (peer, plane, x) :: more
          ∧ (∀ e, e ∈ more → e.1 = peer) ∧ next < look u.recvNos peer 0 ∧ u.me = s.me ∧ u.mem = s.mem)
        ∧ (next < seq → (∀ e, e ∈ s.early → ¬(e.1 = peer ∧ e.2.1 = seq)) → ∃ u : State, exec i s = .next u
          ∧ u.arrivals = s.arrivals ∧ u.early = s.early ++ [(peer, seq, plane, x)] ∧ u.me = s.me ∧ u.mem = s.mem)
        ∧ (seq < next → ∃ u : State, exec i s = .next u ∧ u.arrivals = s.arrivals ∧ u.early = s.early))
      ∧ ∀ p y, seq = next → s.early = [(peer, seq + 1, p, y)] → ∃ u : State, exec i s = .next u
          ∧ u.arrivals = s.arrivals ++ [(peer, plane, x), (peer, p, y)] ∧ u.early = []
    (up → brings (.packedLineReceive peer plane ⟨seq, l⟩) l)
    ∧ (up → s.refs plane = true → ∃ u : State, exec (.packedLineReceive peer plane ⟨seq, l⟩) s = .next u
        ∧ (look u.mirrors no {}).head = m.head + 1 ∧ (look u.mirrors no {}).ring.lookup (m.head % 4096) = some l
        ∧ ∀ j, j ≠ m.head % 4096 → (look u.mirrors no {}).ring.lookup j = m.ring.lookup j)
    ∧ (up → s.refs plane = true → ∀ x, m.ring.lookup (slot % 4096) = some x → brings (.mirrorReference peer plane ⟨seq, slot⟩) x
        ∧ ∃ u : State, exec (.mirrorReference peer plane ⟨seq, slot⟩) s = .next u ∧ u.mirrors = s.mirrors)
    ∧ (¬up → exec (.packedLineReceive peer plane ⟨seq, l⟩) s = .next s ∧ exec (.mirrorReference peer plane ⟨seq, slot⟩) s = .next s))
  ∧ (∀ (s : State) (link : Nat) (ok : Bool),
    (18 ≤ link → exec (.linkRetry link) s = .next s)
    ∧ (18 ≤ link ∨ s.anchor.stage < 3 → exec (.linkRetrain link ok) s = .next s)
    ∧ (link < 18 → (∃ u : State, exec (.linkRetry link) s = .next u ∧ u.me = s.me ∧ u.mem = s.mem ∧ u.others = s.others
          ∧ ((look u.ports link {}).retries = 0 ∨ (look u.ports link {}).retries = (look s.ports link {}).retries + 1)
          ∧ (look u.ports link {}).up = (look s.ports link {}).up)
        ∧ (3 ≤ s.anchor.stage → ∃ u : State, exec (.linkRetrain link ok) s = .next u ∧ u.me = s.me ∧ u.mem = s.mem
          ∧ (look u.ports link {}).up = ok ∧ (∀ e, e ∈ u.mirrors ++ u.sentMirrors → e.1 % 18 ≠ link)
          ∧ ∀ e, e ∈ s.mirrors → e.1 % 18 ≠ link → e ∈ u.mirrors)))
  ∧ (∀ (s : State) (vf addr : Nat) (bs : List (BitVec 8)),
    let within (n : Nat) : Prop := ∃ v w, s.vfs.lookup vf = some v ∧ v.window? addr = some w ∧ w.shared = true
      ∧ v.st ≠ .resetting ∧ (s.part v.part).resetTag = none ∧ addr + n ≤ w.base.toNat + w.size.toNat
    let l := s.windowLine vf addr
    (within bs.length → (∀ i, i < bs.length → (s.windowLine vf (addr + i)).device = false) →
      ∃ u : State, exec (.cxlMemAccess vf addr (some bs)) s = .next u ∧ s.writesOnly u ∧ u.tags = s.tags
        ∧ (Memory.wf s.mem = true → ∀ i x, bs[i]? = some x → memGet u.mem (hostByte (addr + i)) = x)
        ∧ ∀ x, x < hostByte addr ∨ hostByte (addr + bs.length) ≤ x → memGet u.mem x = memGet s.mem x)
    ∧ (within 1 → l.device = false → exec (.cxlMemAccess vf addr none) s = .next (s.emit [.memRead addr (memGet s.mem (hostByte addr))]))
    ∧ (within 1 → l.device = true →
        (∀ b, let x := s.homeWrite l (untyped b.toNat (addr % 128) 1) none false {} 0
          exec (.cxlMemAccess vf addr (some [b])) s = .next (x.1.getD x.2))
        ∧ let x := s.readHome l {}
          exec (.cxlMemAccess vf addr none) s = .next (x.2.2.emit [if s.chroalePeer addr = true then .memLine (addr / 128 * 128) (l.pack x.1 x.2.1)
            else .memRead addr (lineByte x.1 (addr % 128))]))
    ∧ (¬within bs.length → exec (.cxlMemAccess vf addr (some bs)) s = .next (s.send (.abort vf)))
    ∧ (¬within 1 → exec (.cxlMemAccess vf addr none) s = .next (s.send (.abort vf))))
  ∧ (∀ (s : State) (port : Nat) (f : LinkFeatures),
    (2 ≤ port → exec (.hostLinkTraining port f) s = .next s)
    ∧ (port < 2 → ∃ u : State, exec (.hostLinkTraining port f) s = .next u ∧ u.me = s.me ∧ u.mem = s.mem
        ∧ (look u.hostPorts port {}).up = true ∧ (look u.hostPorts port {}).feats
          = some { f with flit68 := false, latencyOpt := false, atsPri := false, backInval := false }
        ∧ look u.anchor.pkcap (19 + port) 0 = if f.chroale then 5 else 0))
  ∧ (∀ (s : State) (bad : List Nat),
    let moves (i : Instr) (n m : Nat) : Prop := (s.anchor.stage ≠ n → exec i s = .next s)
      ∧ (s.anchor.stage = n → ∃ u : State, exec i s = .next u ∧ u.anchor.stage = m ∧ u.mem = s.mem ∧ u.me = s.me)
    (s.anchor.stage = 0 ∨ s.anchor.powered = false → ∃ u : State, exec .powerGood s = .next u ∧ u.anchor.stage = 1
      ∧ u.anchor.powered = true ∧ u.anchor.nvLog = s.anchor.nvLog ∧ u.me = State.reset.me ∧ u.others = [] ∧ u.vfs = State.reset.vfs
      ∧ u.parts = State.reset.parts ∧ u.cores = State.reset.cores ∧ u.tags = State.reset.tags
      ∧ ∀ a, memGet u.mem a = if 2 ^ 47 ≤ a then memGet s.mem a else 0)
    ∧ (s.anchor.stage ≠ 0 → s.anchor.powered = true → exec .powerGood s = .next s)
    ∧ moves .stage0Complete 1 2 ∧ moves (.stage2Complete bad) 3 4 ∧ (s.anchor.stage ≠ 2 → exec (.stage1Complete bad) s = .next s)
    ∧ (s.anchor.stage = 2 → ∃ u : State, exec (.stage1Complete bad) s = .next u ∧ u.anchor.stage = 3 ∧ u.me = s.me
        ∧ (∀ p, p < 2 ^ 35 → p % 2 ^ 25 < userLines → u.tagAt p = zeroTag)
        ∧ (∀ g, (u.chan g).scrub = [] ∧ (u.chan g).queue = [] ∧ (u.chan g).act = [] ∧ (u.chan g).backoff = [])
        ∧ (Memory.wf s.mem = true → ∀ e, memGet u.mem e = if e < 2 ^ 42 ∧ e / 128 % 2 ^ 25 < userLines then 0 else memGet s.mem e)
        ∧ (∀ g, g ∈ bad → g < 1024 → (u.chan g).trained = false) ∧ (∀ g, g ∉ bad → (u.chan g).trained = (s.chan g).trained)
        ∧ 512 ≤ u.anchor.actThreshold ∧ u.anchor.actThreshold ≤ 8192 ∧ ∀ h, h ∈ u.hanks → h.2.cycle = 0)
    ∧ (s.anchor.stage = 3 → ∃ u : State, exec (.stage2Complete bad) s = .next u ∧ u.mirrors = [] ∧ u.sentMirrors = []
        ∧ ∀ p, p < 18 → (look u.ports p {}).up = !bad.contains p))
  ∧ (∀ (s : State) (x : Sensor) (n : Nat),
    (s.anchor.stage = 0 → exec (.measuredTemperature x n) s = .next s)
    ∧ (s.anchor.stage ≠ 0 → 115000 ≤ n → ∃ u : State, exec (.measuredTemperature x n) s = .next u ∧ u.anchor.powered = false
        ∧ u.anchor.nvLog = s.anchor.nvLog ++ [n] ∧ u.me = s.me ∧ u.mem = s.mem)
    ∧ (∀ h k, s.anchor.stage ≠ 0 → n < 115000 → h < 8 → ∃ u : State, exec (.measuredTemperature (.hank h k) n) s = .next u
        ∧ u.me = s.me ∧ u.mem = s.mem ∧ u.anchor.powered = s.anchor.powered ∧ look (u.hank h).temps k 0 = n
        ∧ (∀ j, j ≠ k → look (u.hank h).temps j 0 = look (s.hank h).temps j 0)
        ∧ (u.hank h).throttled = (decide (105000 ≤ n)
            || ((s.hank h).throttled && (put (s.hank h).temps k n).any (fun y => decide (100000 ≤ y.2))))))
  ∧ (∀ (s : State) (r : SweepReport),
    (s.anchor.stage = 0 → exec (.sensorSweep r) s = .next s)
    ∧ (s.anchor.stage ≠ 0 → ∃ u : State, exec (.sensorSweep r) s = .next u ∧ u.anchor.rails = r.rails ∧ u.me = s.me ∧ u.mem = s.mem
        ∧ (2 ≤ s.anchor.stage → u.anchor.sweeps = s.anchor.sweeps + 1 ∧ u.anchor.stackPeaks = r.stackPeaks ∧ ∀ c f, r.coils[c]? = some f →
            let top := if f.logic.toNat < f.cache.toNat then f.cache else f.logic
            let old := s.coil c
            let hot := r.banks.any (fun b => b.hot && (s.blamed b).contains c)
            (u.coil c).temp = top ∧ (u.coil c).overLimit = decide (95 * 16 < top.toNat)
              ∧ (u.coil c).sweep = BitVec.ofNat 32 u.anchor.sweeps
              ∧ (u.coil c).rate = if hot = true then Nat.max 2 (old.rate - 1)
                  else if old.rate < 8 ∧ old.lowered.all (fun k => !r.banks.any (fun b => b.chan == k)) = true then old.rate + 1
                  else old.rate)))

/-- Host commands take effect on the partition or function they name, and answer their capsule (R118, R120, R400, R401,
R402, R403, R404, R405, R406, R407, R408). With a capsule number below 2^16, after start-up, an idle mailbox, a policy
that permits the command and no reset in the way, each command whose own checks pass answers status 0 and has its
effect: CREATE_VF binds a function under its policy, ASSIGN adds coils and channels and scrubs the channels, SCHEDULE
makes a function resident, PAUSE and RESUME stop and resume it, telling its groups' members, EVICT and RESTORE move
its contexts or a segment out under ciphertext and tag and back (a command whose swap would save a strand with an XRED
in flight, or whose segment is locked, waits), RESIZE changes coils and channels, RESET removes the strands and starts
the scrub of each channel, and is answered at once where there is none, page replies grant or refuse, queries answer,
RESET_VF stops a function; SPDM messages register tenants and bind functions. A mailbox executes one capsule at a
time: one behind another, or behind a reset, waits. A query or capsule for a function that is not bound answers as its
table says. Statuses of failing checks are stated for the general ones. The model's readings and choices: the chunks
chosen (assumption 9), swaps and PREEMPT bits (assumption 44), statuses of RESUME and RESTORE, ASSIGN to a partition
in use, mailboxes and waiting swaps (assumption 45), and those of CREATE_VF (assumption 46). -/
def Obligations.HostCommands : Prop :=
  (∀ (s : State) (tag vf n : Nat) (v : Vf), s.vfs.lookup vf = some v → 2 ≤ s.anchor.stage → tag < 2 ^ 16 →
      s.boxQueue (some vf) = [] →
    let open_ := s.partResetting v.part = false ∧ v.mailboxOpen = true
    let p := ofVf vf
    let mail (st : Nat) (r : Word) : BitVec 128 := BitVec.ofNat 128 (tag + st % 256 * 2 ^ 16 + r.toNat * 2 ^ 64)
    let answers (i : Instr) (u : State) (st : Nat) (r : Word) : Prop := exec i s = .next (u.answerVf vf tag st r)
    let may (c : Nat) : Prop := v.policy.hostOps.getLsbD c = true
    let waits (i : Instr) (c : Capsule) : Prop := exec i s = .next (s.holdCapsule (some vf) c)
    let fits := n + 8 ≤ 2 ^ 64
    (∀ (st : Nat) (r : Word), ((s.answerVf vf tag st r).vfs.lookup vf).map (fun x => x.mailbox) = some (v.mailbox ++ [mail st r])
      ∧ (s.answerVf vf tag st r).me = s.me)
    ∧ (open_ → fits → s.swapWaits p = true → (v.st = .resident ∨ v.st = .bound → may 4 → waits (.pause tag vf n 8) (.pause tag vf n 8))
        ∧ (v.st ≠ .resetting → may 6 → waits (.evictContext tag vf ⟨n, n, 8⟩) (.evictContext tag vf ⟨n, n, 8⟩)))
    ∧ (¬open_ → (fits → answers (.pause tag vf n 8) s 0x13 0) ∧ answers (.resume tag vf) s 0x13 0)
    ∧ (¬fits → answers (.pause tag vf n 8) s 0x10 0)
    ∧ (open_ → v.st = .paused → ¬may 5 → answers (.resume tag vf) s 0x11 0)
    ∧ (open_ → v.st ≠ .paused → answers (.resume tag vf) s 0x13 0)
    ∧ (open_ → v.st = .paused → may 5 →
        let away := (s.part v.part).tenant ≠ some v.tenant ∨ s.foreigners v.part v.tenant ≠ []
        (away → ∃ u : State, answers (.resume tag vf) u 0 0 ∧ u.me = s.me ∧ u.vfs.lookup vf = some { v with st := .bound })
        ∧ (¬away → s.canReturn v.part p = false → answers (.resume tag vf) s 0x13 0)
        ∧ (¬away → s.canReturn v.part p = true → ∃ u : State, answers (.resume tag vf) u 0 0
            ∧ ((u.vfs.lookup vf).map (fun x => x.st)) = some .resident ∧ ∀ y, y ∈ u.strands → y.vf = vf → y.run ≠ .paused))
    ∧ (open_ → v.st = .resident ∨ v.st = .bound → may 3 → n < 2 ^ 32 → s.foreigners v.part v.tenant = [] →
        (s.part v.part).tenant = some v.tenant → s.canReturn v.part p = true → ∃ u : State, answers (.schedule tag vf n 0) u 0 0
          ∧ (u.vfs.lookup vf).map (fun x => (x.st, x.slice)) = some (.resident, n))
    ∧ (open_ → v.st = .resident ∨ v.st = .bound → may 4 → fits → (s.strands.filter p) = [] → ∃ u : State, answers (.pause tag vf n 8) u 0 0
          ∧ (u.vfs.lookup vf).map (fun x => x.st) = some .paused ∧ u.me.regs = s.me.regs
          ∧ ∀ g, g ∈ (s.part v.part).groups → g.2.vf = vf → (∃ r, r ∈ g.2.liveSet ∧ r ≠ g.2.rank) →
              Sent.member v.part g.1 (.failed g.2.rank) ∈ u.outbox)
    ∧ (open_ → v.st ≠ .resetting → may 6 → fits → s.permits vf 3 = true → s.swapBlocked v.part p false = false → s.swapWaits p = false →
        ∃ u : State, answers (.evictContext tag vf ⟨n, n, 8⟩) u 0 0 ∧ (u.vfs.lookup vf).map (fun x => x.st) = some .paused
          ∧ (∃ e l, u.anchor.evicted = e :: l ∧ e.handle = n ∧ e.vf = vf ∧ e.tenant = v.tenant ∧ e.seg = none
            ∧ u.outbox.getLast? = some (.image n e.cipher e.mac))
          ∧ ∀ c, c ∈ (s.part v.part).cores → ∀ y, (u.core c).saved = some y → ∀ z, z ∈ y.strands → z.vf ≠ vf)
    ∧ (∀ handle seg g, open_ → v.st ≠ .resetting → may 6 → n < 2 ^ 64 → handle < 2 ^ 32 → v.segOfHandle vf handle = some (seg, g) →
        let lines := (s.part v.part).chunkLines g.chunks
        (s.segLocked vf seg = true → waits (.evictSegment tag vf handle n) (.evictSegment tag vf handle n))
        ∧ (s.segLocked vf seg = false → s.permits vf 3 = true → (v.segs.lookup seg).isSome = true →
          ∃ u : State, answers (.evictSegment tag vf handle n) u 0 0
            ∧ (u.vfs.lookup vf).map (fun x => x.segs.lookup seg) = some none
            ∧ ∃ e l, u.anchor.evicted = e :: l ∧ e.handle = n ∧ e.vf = vf
              ∧ e.seg = some (seg, g, lines.map ((s.writeBackSeg vf seg).settleLines lines).bankLine)
              ∧ u.outbox.getLast? = some (.image n e.cipher e.mac)))
    ∧ (∀ seg c m, open_ → v.st ≠ .resetting → may 7 → 3 ≤ s.anchor.stage → n < 2 ^ 64 → (∀ x, seg = some x → x < 2 ^ 32) →
        let restore := Instr.restore tag vf ⟨n, seg⟩ ⟨c, m⟩
        (s.evictedTo v vf n seg = none → answers restore s 0x12 0)
        ∧ ∀ e, s.evictedTo v vf n seg = some e →
          (e.cipher ≠ c ∨ e.mac ≠ m → answers restore s 0x14 0)
          ∧ (∀ k g ls, e.cipher = c → e.mac = m → e.seg = some (k, g, ls) → v.segs.lookup k = none →
              g.chunks.length ≤ (s.part v.part).freeCount → ∃ u : State, answers restore u 0 0 ∧ s.writesOnly u
                ∧ u.seg? vf k = some { g with chunks := (s.part v.part).chooseChunks g.chunks.length, map := v.maps + 1 })
          ∧ (e.cipher = c → e.mac = m → e.seg = none → v.st ≠ .resident → e.contexts.all (fun x => (s.core x.1).saved.isNone) = true →
              (e.contexts.map (fun x => x.1)).Nodup → ∃ u : State, answers restore u 0 0 ∧ u.me = s.me ∧ u.mem = s.mem
                ∧ ∀ x, x ∈ e.contexts → (u.core x.1).saved = some x.2))
    ∧ (∀ handles q, open_ → may 10 → n < 2 ^ 16 → handles.length ≤ 16 → v.request? n = some q →
        let k := grantCheck (s.part v.part) v.tenant (some q.nchunk) handles
        (k ≠ 0 → answers (.pageReplyGrant tag vf n handles) s k 0)
        ∧ (k = 0 → ∃ u : State, answers (.pageReplyGrant tag vf n handles) u 0 0 ∧ s.writesOnly u
            ∧ (u.seg? vf q.iseg).map (fun g => g.chunks) = some handles)
        ∧ ∃ u : State, answers (.pageReplyRefuse tag vf n) u 0 0 ∧ u.mem = s.mem ∧ u.me.regs = s.me.regs
          ∧ ∀ v', u.vfs.lookup vf = some v' →
              let left := v.pgq.filter (fun r => r.id != q.id)
              ∃ more, v'.pgq = left ++ more ∧ more.map (fun r => r.iseg) = (v.late.take (64 - left.length)).map (fun m => m.1))
    ∧ (open_ → may 11 → answers (.queryIdentifier tag (some vf)) s 0 Config.deviceId
        ∧ (v.part ≤ 15 → ∀ k, answers (.queryFreeChunks tag (some vf) k) s 0 (BitVec.ofNat 64 (s.part v.part).freeCount)))
    ∧ (may 11 → vf < 192 → answers (.queryVfState tag vf) s 0
        (BitVec.ofNat 64 (if s.partResetting v.part then VfState.resetting else v.st).code))
    ∧ (s.boxQueue none = [] → s.boxBusy none = false → may 12 → ∃ u : State,
        exec (.resetVf tag vf) s = .next u ∧ (u.vfs.lookup vf).map (fun x => (x.segs, x.pgq, x.mailboxOpen, x.resetTag))
          = some ([], [], false, some tag) ∧ ∀ b, b ∈ (u.part v.part).bufs → b.2.vf ≠ vf))
  ∧ (∀ (s : State) (tag vf : Nat) (j : Capsule) (l : List Capsule), s.anchor.stage ≠ 0 →
    (s.boxQueue (some vf) = j :: l → j ≠ .resume tag vf → .resume tag vf ∉ l →
      exec (.resume tag vf) s = .next (s.holdCapsule (some vf) (.resume tag vf)))
    ∧ (s.boxQueue none = [] → s.boxBusy none = true →
      exec (.queryIdentifier tag none) s = .next (s.holdCapsule none (.queryIdentifier tag none))))
  ∧ (∀ (s : State) (tag k tenant vf : Nat) (pol : Policy) (coils chans : List Nat), tag < 2 ^ 16 →
    let answers (i : Instr) (u : State) (st : Nat) (r : Word) : Prop := exec i s = .next (u.answerPf tag st r)
    let may (c : Nat) : Prop := ∀ v, v ∈ s.policies k → v.policy.hostOps.getLsbD c = true
    let p := s.part k
    (∀ (st : Nat) (r : Word), (s.answerPf tag st r).outbox = s.outbox ++ [.completion tag st r] ∧ (s.answerPf tag st r).me = s.me)
    ∧ (s.boxQueue none = [] → s.boxBusy none = false →
      (s.anchor.stage = 2 → answers (.assign tag k coils chans) s 0x13 0)
      ∧ (3 ≤ s.anchor.stage →
        (16 ≤ k → answers (.assign tag k coils chans) s 0x12 0 ∧ answers (.resize tag k coils chans) s 0x12 0)
        ∧ (k < 16 → may 2 →
            let ok := s.grantable {} coils chans
            let allCoils := merged p.coils coils 128
            let allChans := merged p.chans chans 1024
            let loads := (s.endow k allCoils allChans).overloads k
            let held := !p.used.isEmpty && s.chansHeld k allChans
            (ok = false ∨ allCoils = [] ∨ allChans.length < 8 → answers (.assign tag k coils chans) s 0x12 0)
            ∧ (ok = true → allCoils ≠ [] → 8 ≤ allChans.length →
                (held = true → answers (.assign tag k coils chans) s 0x13 0)
                ∧ (held = false → loads = true → answers (.assign tag k coils chans) s 0x11 0)
                ∧ (held = false → loads = false → ∃ u : State, answers (.assign tag k coils chans) u 0 0 ∧ u.me = s.me
                    ∧ (u.part k).coils = allCoils ∧ (u.part k).chans = allChans
                    ∧ (p.used = [] → (∀ h, (s.hank h).keys.length < 32) → ∀ g, g ∈ chans → (u.chan g).scrub = List.range 64))))
        ∧ (k < 16 → p.coils ≠ [] → may 8 →
            let ok := s.grantable p coils chans
            (ok = false ∨ coils = [] ∨ chans.length < 8 → answers (.resize tag k coils chans) s 0x12 0)
            ∧ (ok = true → coils ≠ [] → 8 ≤ chans.length →
                (s.chansHeld k chans = true → answers (.resize tag k coils chans) s 0x13 0)
                ∧ (s.chansHeld k chans = false → ∃ u : State, answers (.resize tag k coils chans) u 0 0 ∧ (u.part k).coils = coils
                    ∧ (u.part k).chans = chans)))
        ∧ (vf < 192 → k < 16 → s.vfs.lookup vf = none →
            (∀ v, v ∈ s.policies k → v.tenant = tenant → v.wasReset = false → v.policy.hostOps.getLsbD 1 = true) →
            let known := s.anchor.tenants.any (fun x => x.num == tenant)
            let made := (({ s with vfs := put s.vfs vf { st := .bound, part := k, tenant := tenant, policy := pol, trapVec := pol.trapVec } }
              : State).updPart k (fun p => { p with
                tenant := some (p.tenant.getD tenant), reserve := if pol.reserve = 0 then none else some pol.reserve })).updTenant tenant
                  (fun x => { x with keyLoaded := true })
            (known = false → answers (.createVf tag vf k tenant pol true) s 0x14 0)
            ∧ (known = true → pol.version = 1 → pol.reservedSet = false →
                (made.overloads k = true → answers (.createVf tag vf k tenant pol true) s 0x11 0)
                ∧ (made.overloads k = false → ∃ (u : State) (v : Vf), answers (.createVf tag vf k tenant pol true) u 0 0
                  ∧ u.vfs.lookup vf = some v ∧ v.st = .bound ∧ v.part = k ∧ v.tenant = tenant ∧ v.policy = pol
                  ∧ v.trapVec = pol.trapVec ∧ v.segs = [] ∧ v.gen = 0 ∧ (u.part k).tenant = some (p.tenant.getD tenant)
                  ∧ (u.part k).reserve = (if pol.reserve = 0 then none else some pol.reserve) ∧ u.me = s.me))))
      ∧ (2 ≤ s.anchor.stage →
        answers (.queryIdentifier tag none) s 0 Config.deviceId
        ∧ (k ≤ 15 → answers (.queryFreeChunks tag none k) s 0 (BitVec.ofNat 64 p.freeCount))
        ∧ (15 < k → answers (.queryFreeChunks tag none k) s 0x12 0)
        ∧ (s.vfs.lookup vf = none → answers (.resetVf tag vf) s 0x12 0
            ∧ (s.boxQueue (some vf) = [] → answers (.resume tag vf) s 0x12 0 ∧ (vf < 192 → answers (.queryVfState tag vf) s 0 0)))
        ∧ (16 ≤ k → answers (.reset tag k) s 0x12 0)
        ∧ (k < 16 → may 9 → ∃ u : State, exec (.reset tag k) s = .next u
            ∧ (∀ y, y ∈ u.strands → y.part ≠ k) ∧ (∀ g, g ∈ p.chans → (u.chan g).scrub = List.range 64)
            ∧ (p.chans ≠ [] → (u.part k).resetTag = some tag)
            ∧ (p.chans = [] → u.outbox.getLast? = some (.completion tag 0 0))))))
  ∧ (∀ (s : State) (n key vf : Nat),
    (s.anchor.stage = 0 → ∀ m, exec (.spdmMessage m) s = .next s)
    ∧ (s.anchor.stage ≠ 0 → n < 2 ^ 16 → ∃ u : State, exec (.spdmMessage (.authenticate n key)) s = .next u ∧ u.me = s.me
        ∧ u.mem = s.mem ∧ u.vfs = s.vfs ∧ ∃ x, x ∈ u.anchor.tenants ∧ x.num = n ∧ x.key = key)
    ∧ (∀ v, s.anchor.stage ≠ 0 → s.vfs.lookup vf = some v →
        let sets (m : SpdmMsg) (x : Vf) : Prop := ∃ u : State, exec (.spdmMessage m) s = .next u ∧ u.vfs.lookup vf = some x
          ∧ u.me = s.me ∧ u.mem = s.mem
        sets (.bindTdi vf) { v with tdiBound := true } ∧ sets (.startTdi vf) { v with tdiRun := v.tdiBound }
        ∧ sets (.stopTdi vf) { v with tdiRun := false, ideKeyed := false } ∧ sets (.keyIde vf) { v with ideKeyed := v.tdiRun }))
end

