-- ==== Sys2Proof/Laws/Dispatch.lean ====
section
/-!
SUPPORT. One equation per instruction: `exec` is its meaning.
-/
namespace Sys2Proof.Machine

@[simp] theorem exec_thalt (s : State) : exec (.thalt) s = execThalt s := rfl
@[simp] theorem exec_tloopImm l n (s : State) : exec (.tloopImm l n) s = execTloopImm l n s := rfl
@[simp] theorem exec_tloopParam l k (s : State) : exec (.tloopParam l k) s = execTloopParam l k s := rfl
@[simp] theorem exec_tnext l o (s : State) : exec (.tnext l o) s = execTnext l o s := rfl
@[simp] theorem exec_tjmp o (s : State) : exec (.tjmp o) s = execTjmp o s := rfl
@[simp] theorem exec_tagsetImm g fsel imm (s : State) : exec (.tagsetImm g fsel imm) s = execTagsetImm g fsel imm s := rfl
@[simp] theorem exec_tagsetParam g fsel k (s : State) : exec (.tagsetParam g fsel k) s = execTagsetParam g fsel k s := rfl
@[simp] theorem exec_trd b g (s : State) : exec (.trd b g) s = execTrd b g s := rfl
@[simp] theorem exec_twr b g (s : State) : exec (.twr b g) s = execTwr b g s := rfl
@[simp] theorem exec_tcvt d src f r x p (s : State) : exec (.tcvt d src f r x p) s = execTcvt d src f r x p s := rfl
@[simp] theorem exec_tpack d src w v p (s : State) : exec (.tpack d src w v p) s = execTpack d src w v p s := rfl
@[simp] theorem exec_tunpk d src w v p (s : State) : exec (.tunpk d src w v p) s = execTunpk d src w v p s := rfl
@[simp] theorem exec_ttrn w (s : State) : exec (.ttrn w) s = execTtrn w s := rfl
@[simp] theorem exec_tscl b f (s : State) : exec (.tscl b f) s = execTscl b f s := rfl
@[simp] theorem exec_tbsc b (s : State) : exec (.tbsc b) s = execTbsc b s := rfl
@[simp] theorem exec_tsig r (s : State) : exec (.tsig r) s = execTsig r s := rfl
@[simp] theorem exec_twt r (s : State) : exec (.twt r) s = execTwt r s := rfl
@[simp] theorem exec_nop t (s : State) : exec (.nop t) s = execNop t s := rfl
@[simp] theorem exec_add d a b u m t (s : State) : exec (.add d a b u m t) s = execAdd d a b u m t s := rfl
@[simp] theorem exec_sub d a b u m t (s : State) : exec (.sub d a b u m t) s = execSub d a b u m t s := rfl
@[simp] theorem exec_mul d a b u m t (s : State) : exec (.mul d a b u m t) s = execMul d a b u m t s := rfl
@[simp] theorem exec_mulh d a b u t (s : State) : exec (.mulh d a b u t) s = execMulh d a b u t s := rfl
@[simp] theorem exec_div d a b u t (s : State) : exec (.div d a b u t) s = execDiv d a b u t s := rfl
@[simp] theorem exec_rem d a b u t (s : State) : exec (.rem d a b u t) s = execRem d a b u t s := rfl
@[simp] theorem exec_and d a b t (s : State) : exec (.and d a b t) s = execAnd d a b t s := rfl
@[simp] theorem exec_or d a b t (s : State) : exec (.or d a b t) s = execOr d a b t s := rfl
@[simp] theorem exec_xor d a b t (s : State) : exec (.xor d a b t) s = execXor d a b t s := rfl
@[simp] theorem exec_shl d a b t (s : State) : exec (.shl d a b t) s = execShl d a b t s := rfl
@[simp] theorem exec_shr d a b t (s : State) : exec (.shr d a b t) s = execShr d a b t s := rfl
@[simp] theorem exec_sra d a b t (s : State) : exec (.sra d a b t) s = execSra d a b t s := rfl
@[simp] theorem exec_min d a b u t (s : State) : exec (.min d a b u t) s = execMin d a b u t s := rfl
@[simp] theorem exec_max d a b u t (s : State) : exec (.max d a b u t) s = execMax d a b u t s := rfl
@[simp] theorem exec_slt d a b u t (s : State) : exec (.slt d a b u t) s = execSlt d a b u t s := rfl
@[simp] theorem exec_addi d a imm t (s : State) : exec (.addi d a imm t) s = execAddi d a imm t s := rfl
@[simp] theorem exec_andi d a imm t (s : State) : exec (.andi d a imm t) s = execAndi d a imm t s := rfl
@[simp] theorem exec_ori d a imm t (s : State) : exec (.ori d a imm t) s = execOri d a imm t s := rfl
@[simp] theorem exec_xori d a imm t (s : State) : exec (.xori d a imm t) s = execXori d a imm t s := rfl
@[simp] theorem exec_shli d a imm t (s : State) : exec (.shli d a imm t) s = execShli d a imm t s := rfl
@[simp] theorem exec_shri d a imm t (s : State) : exec (.shri d a imm t) s = execShri d a imm t s := rfl
@[simp] theorem exec_srai d a imm t (s : State) : exec (.srai d a imm t) s = execSrai d a imm t s := rfl
@[simp] theorem exec_slti d a imm t (s : State) : exec (.slti d a imm t) s = execSlti d a imm t s := rfl
@[simp] theorem exec_movhi d a imm t (s : State) : exec (.movhi d a imm t) s = execMovhi d a imm t s := rfl
@[simp] theorem exec_limm imm (s : State) : exec (.limm imm) s = execLimm imm s := rfl
@[simp] theorem exec_clz d a t (s : State) : exec (.clz d a t) s = execClz d a t s := rfl
@[simp] theorem exec_ctz d a t (s : State) : exec (.ctz d a t) s = execCtz d a t s := rfl
@[simp] theorem exec_popc d a t (s : State) : exec (.popc d a t) s = execPopc d a t s := rfl
@[simp] theorem exec_bfx d a b c t (s : State) : exec (.bfx d a b c t) s = execBfx d a b c t s := rfl
@[simp] theorem exec_bfi d a b c t (s : State) : exec (.bfi d a b c t) s = execBfi d a b c t s := rfl
@[simp] theorem exec_sel d a b c t (s : State) : exec (.sel d a b c t) s = execSel d a b c t s := rfl
@[simp] theorem exec_sfadd d a b f m t (s : State) : exec (.sfadd d a b f m t) s = execSfadd d a b f m t s := rfl
@[simp] theorem exec_sfsub d a b f m t (s : State) : exec (.sfsub d a b f m t) s = execSfsub d a b f m t s := rfl
@[simp] theorem exec_sfmul d a b f m t (s : State) : exec (.sfmul d a b f m t) s = execSfmul d a b f m t s := rfl
@[simp] theorem exec_sfdiv d a b f m t (s : State) : exec (.sfdiv d a b f m t) s = execSfdiv d a b f m t s := rfl
@[simp] theorem exec_sfma d a b f m t (s : State) : exec (.sfma d a b f m t) s = execSfma d a b f m t s := rfl
@[simp] theorem exec_sfmin d a b f t (s : State) : exec (.sfmin d a b f t) s = execSfmin d a b f t s := rfl
@[simp] theorem exec_sfmax d a b f t (s : State) : exec (.sfmax d a b f t) s = execSfmax d a b f t s := rfl
@[simp] theorem exec_sfcmp d a b r f t (s : State) : exec (.sfcmp d a b r f t) s = execSfcmp d a b r f t s := rfl
@[simp] theorem exec_sfcvt d a v f m t (s : State) : exec (.sfcvt d a v f m t) s = execSfcvt d a v f m t s := rfl
@[simp] theorem exec_sfsqrt d a f m t (s : State) : exec (.sfsqrt d a f m t) s = execSfsqrt d a f m t s := rfl
@[simp] theorem exec_sfclass d a f t (s : State) : exec (.sfclass d a f t) s = execSfclass d a f t s := rfl
@[simp] theorem exec_sext d a w t (s : State) : exec (.sext d a w t) s = execSext d a w t s := rfl
@[simp] theorem exec_beq a b o slot t (s : State) : exec (.beq a b o slot t) s = execBeq a b o slot t s := rfl
@[simp] theorem exec_bne a b o slot t (s : State) : exec (.bne a b o slot t) s = execBne a b o slot t s := rfl
@[simp] theorem exec_blt a b o slot t (s : State) : exec (.blt a b o slot t) s = execBlt a b o slot t s := rfl
@[simp] theorem exec_bge a b o slot t (s : State) : exec (.bge a b o slot t) s = execBge a b o slot t s := rfl
@[simp] theorem exec_jmp o slot t (s : State) : exec (.jmp o slot t) s = execJmp o slot t s := rfl
@[simp] theorem exec_call o slot t (s : State) : exec (.call o slot t) s = execCall o slot t s := rfl
@[simp] theorem exec_jr d a t (s : State) : exec (.jr d a t) s = execJr d a t s := rfl
@[simp] theorem exec_bnzd a o slot t (s : State) : exec (.bnzd a o slot t) s = execBnzd a o slot t s := rfl
@[simp] theorem exec_brk imm t (s : State) : exec (.brk imm t) s = execBrk imm t s := rfl
@[simp] theorem exec_trap imm t (s : State) : exec (.trap imm t) s = execTrap imm t s := rfl
@[simp] theorem exec_rett t (s : State) : exec (.rett t) s = execRett t s := rfl
@[simp] theorem exec_exit t (s : State) : exec (.exit t) s = execExit t s := rfl
@[simp] theorem exec_yield t (s : State) : exec (.yield t) s = execYield t s := rfl
@[simp] theorem exec_park d t (s : State) : exec (.park d t) s = execPark d t s := rfl
@[simp] theorem exec_wake d a t (s : State) : exec (.wake d a t) s = execWake d a t s := rfl
@[simp] theorem exec_ancallBufdef d a t (s : State) : exec (.ancallBufdef d a t) s = execAncallBufdef d a t s := rfl
@[simp] theorem exec_ancallBufdrop d a t (s : State) : exec (.ancallBufdrop d a t) s = execAncallBufdrop d a t s := rfl
@[simp] theorem exec_grpopen d a t (s : State) : exec (.grpopen d a t) s = execGrpopen d a t s := rfl
@[simp] theorem exec_grpleave d a t (s : State) : exec (.grpleave d a t) s = execGrpleave d a t s := rfl
@[simp] theorem exec_grpspare d a t (s : State) : exec (.grpspare d a t) s = execGrpspare d a t s := rfl
@[simp] theorem exec_ancallOther d a imm t (s : State) : exec (.ancallOther d a imm t) s = execAncallOther d a imm t s := rfl
@[simp] theorem exec_sld8 d a imm t (s : State) : exec (.sld8 d a imm t) s = execSld8 d a imm t s := rfl
@[simp] theorem exec_sld16 d a imm t (s : State) : exec (.sld16 d a imm t) s = execSld16 d a imm t s := rfl
@[simp] theorem exec_sld32 d a imm t (s : State) : exec (.sld32 d a imm t) s = execSld32 d a imm t s := rfl
@[simp] theorem exec_sld64 d a imm t (s : State) : exec (.sld64 d a imm t) s = execSld64 d a imm t s := rfl
@[simp] theorem exec_sst8 d a imm t (s : State) : exec (.sst8 d a imm t) s = execSst8 d a imm t s := rfl
@[simp] theorem exec_sst16 d a imm t (s : State) : exec (.sst16 d a imm t) s = execSst16 d a imm t s := rfl
@[simp] theorem exec_sst32 d a imm t (s : State) : exec (.sst32 d a imm t) s = execSst32 d a imm t s := rfl
@[simp] theorem exec_sst64 d a imm t (s : State) : exec (.sst64 d a imm t) s = execSst64 d a imm t s := rfl
@[simp] theorem exec_samo32 d a b o t (s : State) : exec (.samo32 d a b o t) s = execSamo32 d a b o t s := rfl
@[simp] theorem exec_samo64 d a b o t (s : State) : exec (.samo64 d a b o t) s = execSamo64 d a b o t s := rfl
@[simp] theorem exec_scas32 d a b c t (s : State) : exec (.scas32 d a b c t) s = execScas32 d a b c t s := rfl
@[simp] theorem exec_scas64 d a b c t (s : State) : exec (.scas64 d a b c t) s = execScas64 d a b c t s := rfl
@[simp] theorem exec_csrr d imm t (s : State) : exec (.csrr d imm t) s = execCsrr d imm t s := rfl
@[simp] theorem exec_csrw a imm t (s : State) : exec (.csrw a imm t) s = execCsrw a imm t s := rfl
@[simp] theorem exec_csrx d a imm t (s : State) : exec (.csrx d a imm t) s = execCsrx d a imm t s := rfl
@[simp] theorem exec_jrnlbaseWrite v (s : State) : exec (.jrnlbaseWrite v) s = execJrnlbaseWrite v s := rfl
@[simp] theorem exec_qcfgWrite v (s : State) : exec (.qcfgWrite v) s = execQcfgWrite v s := rfl
@[simp] theorem exec_tkselWrite v (s : State) : exec (.tkselWrite v) s = execTkselWrite v s := rfl
@[simp] theorem exec_scopestWrite v (s : State) : exec (.scopestWrite v) s = execScopestWrite v s := rfl
@[simp] theorem exec_sqendWrite v (s : State) : exec (.sqendWrite v) s = execSqendWrite v s := rfl
@[simp] theorem exec_trapstatusWrite v (s : State) : exec (.trapstatusWrite v) s = execTrapstatusWrite v s := rfl
@[simp] theorem exec_s1rootWrite v (s : State) : exec (.s1rootWrite v) s = execS1rootWrite v s := rfl
@[simp] theorem exec_spf h a imm t (s : State) : exec (.spf h a imm t) s = execSpf h a imm t s := rfl
@[simp] theorem exec_tkcfgQuery d a b t (s : State) : exec (.tkcfgQuery d a b t) s = execTkcfgQuery d a b t s := rfl
@[simp] theorem exec_tkcfgDrain d a b t (s : State) : exec (.tkcfgDrain d a b t) s = execTkcfgDrain d a b t s := rfl
@[simp] theorem exec_tkwait d a b t (s : State) : exec (.tkwait d a b t) s = execTkwait d a b t s := rfl
@[simp] theorem exec_tksend a b t (s : State) : exec (.tksend a b t) s = execTksend a b t s := rfl
@[simp] theorem exec_qpush q v k t (s : State) : exec (.qpush q v k t) s = execQpush q v k t s := rfl
@[simp] theorem exec_qpop v q k t (s : State) : exec (.qpop v q k t) s = execQpop v q k t s := rfl
@[simp] theorem exec_qpushs a q t (s : State) : exec (.qpushs a q t) s = execQpushs a q t s := rfl
@[simp] theorem exec_qpops d q t (s : State) : exec (.qpops d q t) s = execQpops d q t s := rfl
@[simp] theorem exec_qstat d q t (s : State) : exec (.qstat d q t) s = execQstat d q t s := rfl
@[simp] theorem exec_fenceSv t (s : State) : exec (.fenceSv t) s = execFenceSv t s := rfl
@[simp] theorem exec_fenceVs t (s : State) : exec (.fenceVs t) s = execFenceVs t s := rfl
@[simp] theorem exec_fenceVv t (s : State) : exec (.fenceVv t) s = execFenceVv t s := rfl
@[simp] theorem exec_rel scope t (s : State) : exec (.rel scope t) s = execRel scope t s := rfl
@[simp] theorem exec_acq scope t (s : State) : exec (.acq scope t) s = execAcq scope t s := rfl
@[simp] theorem exec_bar imm t (s : State) : exec (.bar imm t) s = execBar imm t s := rfl
@[simp] theorem exec_wmpub a b t (s : State) : exec (.wmpub a b t) s = execWmpub a b t s := rfl
@[simp] theorem exec_wmwait a b t (s : State) : exec (.wmwait a b t) s = execWmwait a b t s := rfl
@[simp] theorem exec_claim d a b t (s : State) : exec (.claim d a b t) s = execClaim d a b t s := rfl
@[simp] theorem exec_launch d a t (s : State) : exec (.launch d a t) s = execLaunch d a t s := rfl
@[simp] theorem exec_sqpush a b c t (s : State) : exec (.sqpush a b c t) s = execSqpush a b c t s := rfl
@[simp] theorem exec_sqpop d c t (s : State) : exec (.sqpop d c t) s = execSqpop d c t s := rfl
@[simp] theorem exec_sqstat d c t (s : State) : exec (.sqstat d c t) s = execSqstat d c t s := rfl
@[simp] theorem exec_fmtset d a b t (s : State) : exec (.fmtset d a b t) s = execFmtset d a b t s := rfl
@[simp] theorem exec_fmtget d a t (s : State) : exec (.fmtget d a t) s = execFmtget d a t s := rfl
@[simp] theorem exec_pltset d a b c t (s : State) : exec (.pltset d a b c t) s = execPltset d a b c t s := rfl
@[simp] theorem exec_pltget d a b t (s : State) : exec (.pltget d a b t) s = execPltget d a b t s := rfl
@[simp] theorem exec_tlbinv a b t (s : State) : exec (.tlbinv a b t) s = execTlbinv a b t s := rfl
@[simp] theorem exec_rcreq d a b c t (s : State) : exec (.rcreq d a b c t) s = execRcreq d a b c t s := rfl
@[simp] theorem exec_wmread d a t (s : State) : exec (.wmread d a t) s = execWmread d a t s := rfl
@[simp] theorem exec_xred v o b k m t (s : State) : exec (.xred v o b k m t) s = execXred v o b k m t s := rfl
@[simp] theorem exec_xsend v b k t (s : State) : exec (.xsend v b k t) s = execXsend v b k t s := rfl
@[simp] theorem exec_xrecv v b k t (s : State) : exec (.xrecv v b k t) s = execXrecv v b k t s := rfl
@[simp] theorem exec_xmemb d a b t (s : State) : exec (.xmemb d a b t) s = execXmemb d a b t s := rfl
@[simp] theorem exec_ecfg e r a t (s : State) : exec (.ecfg e r a t) s = execEcfg e r a t s := rfl
@[simp] theorem exec_ecfgr e r a t (s : State) : exec (.ecfgr e r a t) s = execEcfgr e r a t s := rfl
@[simp] theorem exec_ego e a t (s : State) : exec (.ego e a t) s = execEgo e a t s := rfl
@[simp] theorem exec_ewait e a t (s : State) : exec (.ewait e a t) s = execEwait e a t s := rfl
@[simp] theorem exec_estat e r a t (s : State) : exec (.estat e r a t) s = execEstat e r a t s := rfl
@[simp] theorem exec_ecancel e a t (s : State) : exec (.ecancel e a t) s = execEcancel e a t s := rfl
@[simp] theorem exec_publish a scope t (s : State) : exec (.publish a scope t) s = execPublish a scope t s := rfl
@[simp] theorem exec_mxzero x t (s : State) : exec (.mxzero x t) s = execMxzero x t s := rfl
@[simp] theorem exec_vaccrd v x b k t (s : State) : exec (.vaccrd v x b k t) s = execVaccrd v x b k t s := rfl
@[simp] theorem exec_vaccwr x v b k t (s : State) : exec (.vaccwr x v b k t) s = execVaccwr x v b k t s := rfl
@[simp] theorem exec_tsqld r a t (s : State) : exec (.tsqld r a t) s = execTsqld r a t s := rfl
@[simp] theorem exec_tsqgo r a t (s : State) : exec (.tsqgo r a t) s = execTsqgo r a t s := rfl
@[simp] theorem exec_ejrnl e a t (s : State) : exec (.ejrnl e a t) s = execEjrnl e a t s := rfl
@[simp] theorem exec_tsqstat r a t (s : State) : exec (.tsqstat r a t) s = execTsqstat r a t s := rfl
@[simp] theorem exec_vsetl d a sew c p r z t (s : State) : exec (.vsetl d a sew c p r z t) s = execVsetl d a sew c p r z t s := rfl
@[simp] theorem exec_vmvVv d b k t (s : State) : exec (.vmvVv d b k t) s = execVmvVv d b k t s := rfl
@[simp] theorem exec_vmvVs d sb k t (s : State) : exec (.vmvVs d sb k t) s = execVmvVs d sb k t s := rfl
@[simp] theorem exec_vmvVi d imm k t (s : State) : exec (.vmvVi d imm k t) s = execVmvVi d imm k t s := rfl
@[simp] theorem exec_vmvx d a b t (s : State) : exec (.vmvx d a b t) s = execVmvx d a b t s := rfl
@[simp] theorem exec_vmvs d a b t (s : State) : exec (.vmvs d a b t) s = execVmvs d a b t s := rfl
@[simp] theorem exec_vtag d a b k t (s : State) : exec (.vtag d a b k t) s = execVtag d a b k t s := rfl
@[simp] theorem exec_vcvt d a b k m t (s : State) : exec (.vcvt d a b k m t) s = execVcvt d a b k m t s := rfl
@[simp] theorem exec_vid d k t (s : State) : exec (.vid d k t) s = execVid d k t s := rfl
@[simp] theorem exec_vscale d a b k m t (s : State) : exec (.vscale d a b k m t) s = execVscale d a b k m t s := rfl
@[simp] theorem exec_vclass d a k t (s : State) : exec (.vclass d a k t) s = execVclass d a k t s := rfl
@[simp] theorem exec_vmergeVv d a b k t (s : State) : exec (.vmergeVv d a b k t) s = execVmergeVv d a b k t s := rfl
@[simp] theorem exec_vmergeVs d a sb k t (s : State) : exec (.vmergeVs d a sb k t) s = execVmergeVs d a sb k t s := rfl
@[simp] theorem exec_vmergeVi d a imm k t (s : State) : exec (.vmergeVi d a imm k t) s = execVmergeVi d a imm k t s := rfl
@[simp] theorem exec_vcompress d a k t (s : State) : exec (.vcompress d a k t) s = execVcompress d a k t s := rfl
@[simp] theorem exec_vexpand d a k t (s : State) : exec (.vexpand d a k t) s = execVexpand d a k t s := rfl
@[simp] theorem exec_vslupVs d a sb k t (s : State) : exec (.vslupVs d a sb k t) s = execVslupVs d a sb k t s := rfl
@[simp] theorem exec_vslupVi d a imm k t (s : State) : exec (.vslupVi d a imm k t) s = execVslupVi d a imm k t s := rfl
@[simp] theorem exec_vsldnVs d a sb k t (s : State) : exec (.vsldnVs d a sb k t) s = execVsldnVs d a sb k t s := rfl
@[simp] theorem exec_vsldnVi d a imm k t (s : State) : exec (.vsldnVi d a imm k t) s = execVsldnVi d a imm k t s := rfl
@[simp] theorem exec_vrgath d a b k t (s : State) : exec (.vrgath d a b k t) s = execVrgath d a b k t s := rfl
@[simp] theorem exec_vtrn d a t (s : State) : exec (.vtrn d a t) s = execVtrn d a t s := rfl
@[simp] theorem exec_vaddVv d a b k m t (s : State) : exec (.vaddVv d a b k m t) s = execVaddVv d a b k m t s := rfl
@[simp] theorem exec_vaddVs d a sb k m t (s : State) : exec (.vaddVs d a sb k m t) s = execVaddVs d a sb k m t s := rfl
@[simp] theorem exec_vaddVi d a imm k m t (s : State) : exec (.vaddVi d a imm k m t) s = execVaddVi d a imm k m t s := rfl
@[simp] theorem exec_vsubVv d a b k m t (s : State) : exec (.vsubVv d a b k m t) s = execVsubVv d a b k m t s := rfl
@[simp] theorem exec_vsubVs d a sb k m t (s : State) : exec (.vsubVs d a sb k m t) s = execVsubVs d a sb k m t s := rfl
@[simp] theorem exec_vsubVi d a imm k m t (s : State) : exec (.vsubVi d a imm k m t) s = execVsubVi d a imm k m t s := rfl
@[simp] theorem exec_vmulVv d a b k m t (s : State) : exec (.vmulVv d a b k m t) s = execVmulVv d a b k m t s := rfl
@[simp] theorem exec_vmulVs d a sb k m t (s : State) : exec (.vmulVs d a sb k m t) s = execVmulVs d a sb k m t s := rfl
@[simp] theorem exec_vmulVi d a imm k m t (s : State) : exec (.vmulVi d a imm k m t) s = execVmulVi d a imm k m t s := rfl
@[simp] theorem exec_vfmaVv d a b k m t (s : State) : exec (.vfmaVv d a b k m t) s = execVfmaVv d a b k m t s := rfl
@[simp] theorem exec_vfmaVs d a sb k m t (s : State) : exec (.vfmaVs d a sb k m t) s = execVfmaVs d a sb k m t s := rfl
@[simp] theorem exec_vfmaVi d a imm k m t (s : State) : exec (.vfmaVi d a imm k m t) s = execVfmaVi d a imm k m t s := rfl
@[simp] theorem exec_vfmsVv d a b k m t (s : State) : exec (.vfmsVv d a b k m t) s = execVfmsVv d a b k m t s := rfl
@[simp] theorem exec_vfmsVs d a sb k m t (s : State) : exec (.vfmsVs d a sb k m t) s = execVfmsVs d a sb k m t s := rfl
@[simp] theorem exec_vfmsVi d a imm k m t (s : State) : exec (.vfmsVi d a imm k m t) s = execVfmsVi d a imm k m t s := rfl
@[simp] theorem exec_vfnmaVv d a b k m t (s : State) : exec (.vfnmaVv d a b k m t) s = execVfnmaVv d a b k m t s := rfl
@[simp] theorem exec_vfnmaVs d a sb k m t (s : State) : exec (.vfnmaVs d a sb k m t) s = execVfnmaVs d a sb k m t s := rfl
@[simp] theorem exec_vfnmaVi d a imm k m t (s : State) : exec (.vfnmaVi d a imm k m t) s = execVfnmaVi d a imm k m t s := rfl
@[simp] theorem exec_vdivVv d a b k m t (s : State) : exec (.vdivVv d a b k m t) s = execVdivVv d a b k m t s := rfl
@[simp] theorem exec_vdivVs d a sb k m t (s : State) : exec (.vdivVs d a sb k m t) s = execVdivVs d a sb k m t s := rfl
@[simp] theorem exec_vdivVi d a imm k m t (s : State) : exec (.vdivVi d a imm k m t) s = execVdivVi d a imm k m t s := rfl
@[simp] theorem exec_vsqrt d a k m t (s : State) : exec (.vsqrt d a k m t) s = execVsqrt d a k m t s := rfl
@[simp] theorem exec_vminVv d a b k m t (s : State) : exec (.vminVv d a b k m t) s = execVminVv d a b k m t s := rfl
@[simp] theorem exec_vminVs d a sb k m t (s : State) : exec (.vminVs d a sb k m t) s = execVminVs d a sb k m t s := rfl
@[simp] theorem exec_vminVi d a imm k m t (s : State) : exec (.vminVi d a imm k m t) s = execVminVi d a imm k m t s := rfl
@[simp] theorem exec_vmaxVv d a b k m t (s : State) : exec (.vmaxVv d a b k m t) s = execVmaxVv d a b k m t s := rfl
@[simp] theorem exec_vmaxVs d a sb k m t (s : State) : exec (.vmaxVs d a sb k m t) s = execVmaxVs d a sb k m t s := rfl
@[simp] theorem exec_vmaxVi d a imm k m t (s : State) : exec (.vmaxVi d a imm k m t) s = execVmaxVi d a imm k m t s := rfl
@[simp] theorem exec_vabs d a k m t (s : State) : exec (.vabs d a k m t) s = execVabs d a k m t s := rfl
@[simp] theorem exec_vneg d a k m t (s : State) : exec (.vneg d a k m t) s = execVneg d a k m t s := rfl
@[simp] theorem exec_vrsqrt d a k m t (s : State) : exec (.vrsqrt d a k m t) s = execVrsqrt d a k m t s := rfl
@[simp] theorem exec_vexp2 d a k m t (s : State) : exec (.vexp2 d a k m t) s = execVexp2 d a k m t s := rfl
@[simp] theorem exec_vlog2 d a k m t (s : State) : exec (.vlog2 d a k m t) s = execVlog2 d a k m t s := rfl
@[simp] theorem exec_vmulhVv d a b k m t (s : State) : exec (.vmulhVv d a b k m t) s = execVmulhVv d a b k m t s := rfl
@[simp] theorem exec_vmulhVs d a sb k m t (s : State) : exec (.vmulhVs d a sb k m t) s = execVmulhVs d a sb k m t s := rfl
@[simp] theorem exec_vmulhVi d a imm k m t (s : State) : exec (.vmulhVi d a imm k m t) s = execVmulhVi d a imm k m t s := rfl
@[simp] theorem exec_vandVv d a b k t (s : State) : exec (.vandVv d a b k t) s = execVandVv d a b k t s := rfl
@[simp] theorem exec_vandVs d a sb k t (s : State) : exec (.vandVs d a sb k t) s = execVandVs d a sb k t s := rfl
@[simp] theorem exec_vandVi d a imm k t (s : State) : exec (.vandVi d a imm k t) s = execVandVi d a imm k t s := rfl
@[simp] theorem exec_vorVv d a b k t (s : State) : exec (.vorVv d a b k t) s = execVorVv d a b k t s := rfl
@[simp] theorem exec_vorVs d a sb k t (s : State) : exec (.vorVs d a sb k t) s = execVorVs d a sb k t s := rfl
@[simp] theorem exec_vorVi d a imm k t (s : State) : exec (.vorVi d a imm k t) s = execVorVi d a imm k t s := rfl
@[simp] theorem exec_vxorVv d a b k t (s : State) : exec (.vxorVv d a b k t) s = execVxorVv d a b k t s := rfl
@[simp] theorem exec_vxorVs d a sb k t (s : State) : exec (.vxorVs d a sb k t) s = execVxorVs d a sb k t s := rfl
@[simp] theorem exec_vxorVi d a imm k t (s : State) : exec (.vxorVi d a imm k t) s = execVxorVi d a imm k t s := rfl
@[simp] theorem exec_vnot d a k t (s : State) : exec (.vnot d a k t) s = execVnot d a k t s := rfl
@[simp] theorem exec_vshlVv d a b k t (s : State) : exec (.vshlVv d a b k t) s = execVshlVv d a b k t s := rfl
@[simp] theorem exec_vshlVs d a sb k t (s : State) : exec (.vshlVs d a sb k t) s = execVshlVs d a sb k t s := rfl
@[simp] theorem exec_vshlVi d a imm k t (s : State) : exec (.vshlVi d a imm k t) s = execVshlVi d a imm k t s := rfl
@[simp] theorem exec_vshrVv d a b k t (s : State) : exec (.vshrVv d a b k t) s = execVshrVv d a b k t s := rfl
@[simp] theorem exec_vshrVs d a sb k t (s : State) : exec (.vshrVs d a sb k t) s = execVshrVs d a sb k t s := rfl
@[simp] theorem exec_vshrVi d a imm k t (s : State) : exec (.vshrVi d a imm k t) s = execVshrVi d a imm k t s := rfl
@[simp] theorem exec_vsraVv d a b k t (s : State) : exec (.vsraVv d a b k t) s = execVsraVv d a b k t s := rfl
@[simp] theorem exec_vsraVs d a sb k t (s : State) : exec (.vsraVs d a sb k t) s = execVsraVs d a sb k t s := rfl
@[simp] theorem exec_vsraVi d a imm k t (s : State) : exec (.vsraVi d a imm k t) s = execVsraVi d a imm k t s := rfl
@[simp] theorem exec_vcmpeqVv d a b k t (s : State) : exec (.vcmpeqVv d a b k t) s = execVcmpeqVv d a b k t s := rfl
@[simp] theorem exec_vcmpeqVs d a sb k t (s : State) : exec (.vcmpeqVs d a sb k t) s = execVcmpeqVs d a sb k t s := rfl
@[simp] theorem exec_vcmpeqVi d a imm k t (s : State) : exec (.vcmpeqVi d a imm k t) s = execVcmpeqVi d a imm k t s := rfl
@[simp] theorem exec_vcmpltVv d a b k t (s : State) : exec (.vcmpltVv d a b k t) s = execVcmpltVv d a b k t s := rfl
@[simp] theorem exec_vcmpltVs d a sb k t (s : State) : exec (.vcmpltVs d a sb k t) s = execVcmpltVs d a sb k t s := rfl
@[simp] theorem exec_vcmpltVi d a imm k t (s : State) : exec (.vcmpltVi d a imm k t) s = execVcmpltVi d a imm k t s := rfl
@[simp] theorem exec_vcmpleVv d a b k t (s : State) : exec (.vcmpleVv d a b k t) s = execVcmpleVv d a b k t s := rfl
@[simp] theorem exec_vcmpleVs d a sb k t (s : State) : exec (.vcmpleVs d a sb k t) s = execVcmpleVs d a sb k t s := rfl
@[simp] theorem exec_vcmpleVi d a imm k t (s : State) : exec (.vcmpleVi d a imm k t) s = execVcmpleVi d a imm k t s := rfl
@[simp] theorem exec_kand d a b t (s : State) : exec (.kand d a b t) s = execKand d a b t s := rfl
@[simp] theorem exec_kor d a b t (s : State) : exec (.kor d a b t) s = execKor d a b t s := rfl
@[simp] theorem exec_kxor d a b t (s : State) : exec (.kxor d a b t) s = execKxor d a b t s := rfl
@[simp] theorem exec_knot d a t (s : State) : exec (.knot d a t) s = execKnot d a t s := rfl
@[simp] theorem exec_kffs d a t (s : State) : exec (.kffs d a t) s = execKffs d a t s := rfl
@[simp] theorem exec_kpopc d a t (s : State) : exec (.kpopc d a t) s = execKpopc d a t s := rfl
@[simp] theorem exec_vredsum d a k m t (s : State) : exec (.vredsum d a k m t) s = execVredsum d a k m t s := rfl
@[simp] theorem exec_vredmin d a k m t (s : State) : exec (.vredmin d a k m t) s = execVredmin d a k m t s := rfl
@[simp] theorem exec_vredmax d a k m t (s : State) : exec (.vredmax d a k m t) s = execVredmax d a k m t s := rfl
@[simp] theorem exec_vredxor d a k t (s : State) : exec (.vredxor d a k t) s = execVredxor d a k t s := rfl
@[simp] theorem exec_vredarg d a k t (s : State) : exec (.vredarg d a k t) s = execVredarg d a k t s := rfl
@[simp] theorem exec_vscan d a k m t (s : State) : exec (.vscan d a k m t) s = execVscan d a k m t s := rfl
@[simp] theorem exec_vscanx d a k m t (s : State) : exec (.vscanx d a k m t) s = execVscanx d a k m t s := rfl
@[simp] theorem exec_vdot d a b k m t (s : State) : exec (.vdot d a b k m t) s = execVdot d a b k m t s := rfl
@[simp] theorem exec_kset d a b t (s : State) : exec (.kset d a b t) s = execKset d a b t s := rfl
@[simp] theorem exec_kmv d a t (s : State) : exec (.kmv d a t) s = execKmv d a t s := rfl
@[simp] theorem exec_vround d a k m t (s : State) : exec (.vround d a k m t) s = execVround d a k m t s := rfl
@[simp] theorem exec_vld v a b k f g h t (s : State) : exec (.vld v a b k f g h t) s = execVld v a b k f g h t s := rfl
@[simp] theorem exec_vlds v a b k f g h t (s : State) : exec (.vlds v a b k f g h t) s = execVlds v a b k f g h t s := rfl
@[simp] theorem exec_vldx v a b k f g h t (s : State) : exec (.vldx v a b k f g h t) s = execVldx v a b k f g h t s := rfl
@[simp] theorem exec_vldq q a b k f g h t (s : State) : exec (.vldq q a b k f g h t) s = execVldq q a b k f g h t s := rfl
@[simp] theorem exec_vst v a b k h t (s : State) : exec (.vst v a b k h t) s = execVst v a b k h t s := rfl
@[simp] theorem exec_vsts v a b k h t (s : State) : exec (.vsts v a b k h t) s = execVsts v a b k h t s := rfl
@[simp] theorem exec_vstx v a b k h t (s : State) : exec (.vstx v a b k h t) s = execVstx v a b k h t s := rfl
@[simp] theorem exec_vstq q a b k h t (s : State) : exec (.vstq q a b k h t) s = execVstq q a b k h t s := rfl
@[simp] theorem exec_vlda v a b k f scope t (s : State) : exec (.vlda v a b k f scope t) s = execVlda v a b k f scope t s := rfl
@[simp] theorem exec_vstr v a b k scope t (s : State) : exec (.vstr v a b k scope t) s = execVstr v a b k scope t s := rfl
@[simp] theorem exec_vpf a b k h t (s : State) : exec (.vpf a b k h t) s = execVpf a b k h t s := rfl
@[simp] theorem exec_vzero a b k h t (s : State) : exec (.vzero a b k h t) s = execVzero a b k h t s := rfl
@[simp] theorem exec_vldtag v a b k f g h t (s : State) : exec (.vldtag v a b k f g h t) s = execVldtag v a b k f g h t s := rfl
@[simp] theorem exec_vflush a b k scope t (s : State) : exec (.vflush a b k scope t) s = execVflush a b k scope t s := rfl
@[simp] theorem exec_vinvl a b k scope t (s : State) : exec (.vinvl a b k scope t) s = execVinvl a b k scope t s := rfl
@[simp] theorem exec_vamoadd v a b k t (s : State) : exec (.vamoadd v a b k t) s = execVamoadd v a b k t s := rfl
@[simp] theorem exec_vamomin v a b k t (s : State) : exec (.vamomin v a b k t) s = execVamomin v a b k t s := rfl
@[simp] theorem exec_vamomax v a b k t (s : State) : exec (.vamomax v a b k t) s = execVamomax v a b k t s := rfl
@[simp] theorem exec_vamoswp v a b k t (s : State) : exec (.vamoswp v a b k t) s = execVamoswp v a b k t s := rfl
@[simp] theorem exec_vamoand v a b k t (s : State) : exec (.vamoand v a b k t) s = execVamoand v a b k t s := rfl
@[simp] theorem exec_vamoor v a b k t (s : State) : exec (.vamoor v a b k t) s = execVamoor v a b k t s := rfl
@[simp] theorem exec_vcas v a b k t (s : State) : exec (.vcas v a b k t) s = execVcas v a b k t s := rfl
@[simp] theorem exec_vgll v a b k t (s : State) : exec (.vgll v a b k t) s = execVgll v a b k t s := rfl
@[simp] theorem exec_vsc v a b k t (s : State) : exec (.vsc v a b k t) s = execVsc v a b k t s := rfl
@[simp] theorem exec_vgnm v a b k f g t (s : State) : exec (.vgnm v a b k f g t) s = execVgnm v a b k f g t s := rfl
@[simp] theorem exec_vsnm v a b k t (s : State) : exec (.vsnm v a b k t) s = execVsnm v a b k t s := rfl
@[simp] theorem exec_vsanm v a b k t (s : State) : exec (.vsanm v a b k t) s = execVsanm v a b k t s := rfl
@[simp] theorem exec_vsxnm v a b k t (s : State) : exec (.vsxnm v a b k t) s = execVsxnm v a b k t s := rfl
@[simp] theorem exec_trapset d a b t (s : State) : exec (.trapset d a b t) s = execTrapset d a b t s := rfl
@[simp] theorem exec_mapsetUnmap d a b c t (s : State) : exec (.mapsetUnmap d a b c t) s = execMapsetUnmap d a b c t s := rfl
@[simp] theorem exec_mapsetPerm d a b c t (s : State) : exec (.mapsetPerm d a b c t) s = execMapsetPerm d a b c t s := rfl
@[simp] theorem exec_mapsetAlloc d a b c t (s : State) : exec (.mapsetAlloc d a b c t) s = execMapsetAlloc d a b c t s := rfl
@[simp] theorem exec_mapsetQuery d a b c t (s : State) : exec (.mapsetQuery d a b c t) s = execMapsetQuery d a b c t s := rfl
@[simp] theorem exec_tlbinva a b t (s : State) : exec (.tlbinva a b t) s = execTlbinva a b t s := rfl
@[simp] theorem exec_ctxsave d a b t (s : State) : exec (.ctxsave d a b t) s = execCtxsave d a b t s := rfl
@[simp] theorem exec_ctxload d a b t (s : State) : exec (.ctxload d a b t) s = execCtxload d a b t s := rfl
@[simp] theorem exec_pgqrd d a t (s : State) : exec (.pgqrd d a t) s = execPgqrd d a t s := rfl
@[simp] theorem exec_pgqackGrant d a b t (s : State) : exec (.pgqackGrant d a b t) s = execPgqackGrant d a b t s := rfl
@[simp] theorem exec_pgqackRefuse d a b t (s : State) : exec (.pgqackRefuse d a b t) s = execPgqackRefuse d a b t s := rfl
@[simp] theorem exec_errrd d a t (s : State) : exec (.errrd d a t) s = execErrrd d a t s := rfl
@[simp] theorem exec_errack d a t (s : State) : exec (.errack d a t) s = execErrack d a t s := rfl
@[simp] theorem exec_grant d a b t (s : State) : exec (.grant d a b t) s = execGrant d a b t s := rfl
@[simp] theorem exec_strandctlStatus d a b t (s : State) : exec (.strandctlStatus d a b t) s = execStrandctlStatus d a b t s := rfl
@[simp] theorem exec_strandctlHalt d a b t (s : State) : exec (.strandctlHalt d a b t) s = execStrandctlHalt d a b t s := rfl
@[simp] theorem exec_strandctlResume d a b t (s : State) : exec (.strandctlResume d a b t) s = execStrandctlResume d a b t s := rfl
@[simp] theorem exec_strandctlKill d a b t (s : State) : exec (.strandctlKill d a b t) s = execStrandctlKill d a b t s := rfl
@[simp] theorem exec_engineFaultTrap (s : State) : exec (.engineFaultTrap) s = execEngineFaultTrap s := rfl
@[simp] theorem exec_commandStart core eng (s : State) : exec (.commandStart core eng) s = execCommandStart core eng s := rfl
@[simp] theorem exec_commandComplete core eng (s : State) : exec (.commandComplete core eng) s = execCommandComplete core eng s := rfl
@[simp] theorem exec_cpeUnit core eng (s : State) : exec (.cpeUnit core eng) s = execCpeUnit core eng s := rfl
@[simp] theorem exec_mxeStep core (s : State) : exec (.mxeStep core) s = execMxeStep core s := rfl
@[simp] theorem exec_multicastForm coil grp (s : State) : exec (.multicastForm coil grp) s = execMulticastForm coil grp s := rfl
@[simp] theorem exec_rowRelease core g (s : State) : exec (.rowRelease core g) s = execRowRelease core g s := rfl
@[simp] theorem exec_mxeOutputRow core (s : State) : exec (.mxeOutputRow core) s = execMxeOutputRow core s := rfl
@[simp] theorem exec_tsqInstructionIssue core (s : State) : exec (.tsqInstructionIssue core) s = execTsqInstructionIssue core s := rfl
@[simp] theorem exec_rceLineRecode hank (s : State) : exec (.rceLineRecode hank) s = execRceLineRecode hank s := rfl
@[simp] theorem exec_rcePack hank (s : State) : exec (.rcePack hank) s = execRcePack hank s := rfl
@[simp] theorem exec_fitCheckedWrite w (s : State) : exec (.fitCheckedWrite w) s = execFitCheckedWrite w s := rfl
@[simp] theorem exec_segmentSwitch vf seg (s : State) : exec (.segmentSwitch vf seg) s = execSegmentSwitch vf seg s := rfl
@[simp] theorem exec_writebackMerge core line (s : State) : exec (.writebackMerge core line) s = execWritebackMerge core line s := rfl
@[simp] theorem exec_l1Eviction core line (s : State) : exec (.l1Eviction core line) s = execL1Eviction core line s := rfl
@[simp] theorem exec_dirtyAgeSweep core (s : State) : exec (.dirtyAgeSweep core) s = execDirtyAgeSweep core s := rfl
@[simp] theorem exec_hostSnoop line (s : State) : exec (.hostSnoop line) s = execHostSnoop line s := rfl
@[simp] theorem exec_lineReadComplete p r (s : State) : exec (.lineReadComplete p r) s = execLineReadComplete p r s := rfl
@[simp] theorem exec_patrolRead p o (s : State) : exec (.patrolRead p o) s = execPatrolRead p o s := rfl
@[simp] theorem exec_activationAlert chan bank row (s : State) : exec (.activationAlert chan bank row) s = execActivationAlert chan bank row s := rfl
@[simp] theorem exec_backoffEnd chan bank (s : State) : exec (.backoffEnd chan bank) s = execBackoffEnd chan bank s := rfl
@[simp] theorem exec_scrubBank chan (s : State) : exec (.scrubBank chan) s = execScrubBank chan s := rfl
@[simp] theorem exec_walkComplete core ctx va acc (s : State) : exec (.walkComplete core ctx va acc) s = execWalkComplete core ctx va acc s := rfl
@[simp] theorem exec_pageRequestDeliver vf (s : State) : exec (.pageRequestDeliver vf) s = execPageRequestDeliver vf s := rfl
@[simp] theorem exec_elementReplay core ctx (s : State) : exec (.elementReplay core ctx) s = execElementReplay core ctx s := rfl
@[simp] theorem exec_longStallTimeout core ctx (s : State) : exec (.longStallTimeout core ctx) s = execLongStallTimeout core ctx s := rfl
@[simp] theorem exec_unmapChunkReturn part (s : State) : exec (.unmapChunkReturn part) s = execUnmapChunkReturn part s := rfl
@[simp] theorem exec_scalarStorePerform core ctx (s : State) : exec (.scalarStorePerform core ctx) s = execScalarStorePerform core ctx s := rfl
@[simp] theorem exec_issueRound core vlsu (s : State) : exec (.issueRound core vlsu) s = execIssueRound core vlsu s := rfl
@[simp] theorem exec_queueSquash core ctx (s : State) : exec (.queueSquash core ctx) s = execQueueSquash core ctx s := rfl
@[simp] theorem exec_sliceEnd core ctx (s : State) : exec (.sliceEnd core ctx) s = execSliceEnd core ctx s := rfl
@[simp] theorem exec_partitionContextSwap part (s : State) : exec (.partitionContextSwap part) s = execPartitionContextSwap part s := rfl
@[simp] theorem exec_partitionContextRestore part (s : State) : exec (.partitionContextRestore part) s = execPartitionContextRestore part s := rfl
@[simp] theorem exec_braidStart part slot (s : State) : exec (.braidStart part slot) s = execBraidStart part slot s := rfl
@[simp] theorem exec_plyPlacement part at_ (s : State) : exec (.plyPlacement part at_) s = execPlyPlacement part at_ s := rfl
@[simp] theorem exec_stageEnd part slot stage (s : State) : exec (.stageEnd part slot stage) s = execStageEnd part slot stage s := rfl
@[simp] theorem exec_braidComplete part slot (s : State) : exec (.braidComplete part slot) s = execBraidComplete part slot s := rfl
@[simp] theorem exec_rebalanceRise part slot q (s : State) : exec (.rebalanceRise part slot q) s = execRebalanceRise part slot q s := rfl
@[simp] theorem exec_rebalanceFull part slot q (s : State) : exec (.rebalanceFull part slot q) s = execRebalanceFull part slot q s := rfl
@[simp] theorem exec_rebalanceDrain part slot q (s : State) : exec (.rebalanceDrain part slot q) s = execRebalanceDrain part slot q s := rfl
@[simp] theorem exec_plyReplace part src dst (s : State) : exec (.plyReplace part src dst) s = execPlyReplace part src dst s := rfl
@[simp] theorem exec_coilFusionChange coil fuse (s : State) : exec (.coilFusionChange coil fuse) s = execCoilFusionChange coil fuse s := rfl
@[simp] theorem exec_barrierComplete part slot stage ply n (s : State) : exec (.barrierComplete part slot stage ply n) s = execBarrierComplete part slot stage ply n s := rfl
@[simp] theorem exec_xmessageReceive part grp msg (s : State) : exec (.xmessageReceive part grp msg) s = execXmessageReceive part grp msg s := rfl
@[simp] theorem exec_memberFail part grp rank (s : State) : exec (.memberFail part grp rank) s = execMemberFail part grp rank s := rfl
@[simp] theorem exec_collectiveTimeout part grp rank (s : State) : exec (.collectiveTimeout part grp rank) s = execCollectiveTimeout part grp rank s := rfl
@[simp] theorem exec_mirrorReference peer plane x (s : State) : exec (.mirrorReference peer plane x) s = execMirrorReference peer plane x s := rfl
@[simp] theorem exec_packedLineReceive peer plane x (s : State) : exec (.packedLineReceive peer plane x) s = execPackedLineReceive peer plane x s := rfl
@[simp] theorem exec_linkRetry link (s : State) : exec (.linkRetry link) s = execLinkRetry link s := rfl
@[simp] theorem exec_linkRetrain plane ok (s : State) : exec (.linkRetrain plane ok) s = execLinkRetrain plane ok s := rfl
@[simp] theorem exec_createVf tag vf part tenant pol sigOk (s : State) : exec (.createVf tag vf part tenant pol sigOk) s = execCreateVf tag vf part tenant pol sigOk s := rfl
@[simp] theorem exec_assign tag part coils chans (s : State) : exec (.assign tag part coils chans) s = execAssign tag part coils chans s := rfl
@[simp] theorem exec_schedule tag vf slice rec_ (s : State) : exec (.schedule tag vf slice rec_) s = execSchedule tag vf slice rec_ s := rfl
@[simp] theorem exec_pause tag vf buf size (s : State) : exec (.pause tag vf buf size) s = execPause tag vf buf size s := rfl
@[simp] theorem exec_resume tag vf (s : State) : exec (.resume tag vf) s = execResume tag vf s := rfl
@[simp] theorem exec_evictContext tag vf dest (s : State) : exec (.evictContext tag vf dest) s = execEvictContext tag vf dest s := rfl
@[simp] theorem exec_evictSegment tag vf seg handle (s : State) : exec (.evictSegment tag vf seg handle) s = execEvictSegment tag vf seg handle s := rfl
@[simp] theorem exec_restore tag vf from_ image (s : State) : exec (.restore tag vf from_ image) s = execRestore tag vf from_ image s := rfl
@[simp] theorem exec_resize tag part coils chans (s : State) : exec (.resize tag part coils chans) s = execResize tag part coils chans s := rfl
@[simp] theorem exec_reset tag part (s : State) : exec (.reset tag part) s = execReset tag part s := rfl
@[simp] theorem exec_pageReplyGrant tag vf reqid handles (s : State) : exec (.pageReplyGrant tag vf reqid handles) s = execPageReplyGrant tag vf reqid handles s := rfl
@[simp] theorem exec_pageReplyRefuse tag vf reqid (s : State) : exec (.pageReplyRefuse tag vf reqid) s = execPageReplyRefuse tag vf reqid s := rfl
@[simp] theorem exec_queryIdentifier tag vf (s : State) : exec (.queryIdentifier tag vf) s = execQueryIdentifier tag vf s := rfl
@[simp] theorem exec_queryVfState tag vf (s : State) : exec (.queryVfState tag vf) s = execQueryVfState tag vf s := rfl
@[simp] theorem exec_queryFreeChunks tag vf part (s : State) : exec (.queryFreeChunks tag vf part) s = execQueryFreeChunks tag vf part s := rfl
@[simp] theorem exec_resetVf tag vf (s : State) : exec (.resetVf tag vf) s = execResetVf tag vf s := rfl
@[simp] theorem exec_powerGood (s : State) : exec (.powerGood) s = execPowerGood s := rfl
@[simp] theorem exec_stage0Complete (s : State) : exec (.stage0Complete) s = execStage0Complete s := rfl
@[simp] theorem exec_stage1Complete badChans (s : State) : exec (.stage1Complete badChans) s = execStage1Complete badChans s := rfl
@[simp] theorem exec_stage2Complete badPorts (s : State) : exec (.stage2Complete badPorts) s = execStage2Complete badPorts s := rfl
@[simp] theorem exec_sensorSweep r (s : State) : exec (.sensorSweep r) s = execSensorSweep r s := rfl
@[simp] theorem exec_illegalInstructionWord w (s : State) : exec (.illegalInstructionWord w) s = execIllegalInstructionWord w s := rfl
@[simp] theorem exec_fetchFault (s : State) : exec (.fetchFault) s = execFetchFault s := rfl
@[simp] theorem exec_cxlMemAccess vf addr wr (s : State) : exec (.cxlMemAccess vf addr wr) s = execCxlMemAccess vf addr wr s := rfl
@[simp] theorem exec_hostLinkTraining port req (s : State) : exec (.hostLinkTraining port req) s = execHostLinkTraining port req s := rfl
@[simp] theorem exec_spdmMessage msg (s : State) : exec (.spdmMessage msg) s = execSpdmMessage msg s := rfl
@[simp] theorem exec_xredContributionReceive part grp c (s : State) : exec (.xredContributionReceive part grp c) s = execXredContributionReceive part grp c s := rfl
@[simp] theorem exec_groupMembershipMessage part grp msg (s : State) : exec (.groupMembershipMessage part grp msg) s = execGroupMembershipMessage part grp msg s := rfl
@[simp] theorem exec_measuredTemperature sensor milliC (s : State) : exec (.measuredTemperature sensor milliC) s = execMeasuredTemperature sensor milliC s := rfl

end Sys2Proof.Machine
end

