-- ==== Sys2Proof/Laws/Memory.lean ====
section
/-!
SUPPORT. The canonical form of memory (Memory.wf of Machine/Ops.lean): every memory operation keeps it, and what a byte reads as
after a write.
-/
namespace Sys2Proof.Machine

/-- The form by cases: no zero listed, the head below every later address, the tail canonical. -/
theorem wf_cons (a : Nat) (x : BitVec 8) (t : List Host.Cell) :
    Memory.wf ((a, x) :: t) = true ↔ x ≠ 0 ∧ (∀ c ∈ t, a < c.1) ∧ Memory.wf t = true := by
  induction t generalizing a x with
  | nil => simp [Memory.wf]
  | cons c t ih =>
    obtain ⟨b, y⟩ := c
    simp only [Memory.wf, Bool.and_eq_true, decide_eq_true_eq, bne_iff_ne, ne_eq, List.mem_cons]
    constructor
    · rintro ⟨⟨hab, hx⟩, hw⟩
      refine ⟨hx, ?_, hw⟩
      rintro c (rfl | hc)
      · exact hab
      · exact Nat.lt_trans hab (((ih b y).1 hw).2.1 c hc)
    · rintro ⟨hx, hall, hw⟩
      exact ⟨⟨hall (b, y) (.inl rfl), hx⟩, hw⟩

/-- The addresses that a write can list: those listed, and its own. -/
theorem mem_memPut (m : List Host.Cell) (a : Nat) (b : BitVec 8) (c : Host.Cell) (h : c ∈ memPut m a b) : c ∈ m ∨ c.1 = a := by
  induction m with
  | nil => unfold memPut at h; split at h <;> simp_all
  | cons e t ih =>
    obtain ⟨x, y⟩ := e
    unfold memPut at h
    split at h
    · split at h
      · exact .inl h
      · rcases List.mem_cons.1 h with rfl | h
        · exact .inr rfl
        · exact .inl h
    · split at h
      · split at h
        · exact .inl (List.mem_cons_of_mem _ h)
        · rcases List.mem_cons.1 h with rfl | h
          · exact .inr rfl
          · exact .inl (List.mem_cons_of_mem _ h)
      · rcases List.mem_cons.1 h with rfl | h
        · exact .inl (List.mem_cons_self ..)
        · exact (ih h).imp_left (List.mem_cons_of_mem _)

/-- A write of one byte keeps the form. -/
theorem memPut_wf (m : List Host.Cell) (a : Nat) (b : BitVec 8) (h : Memory.wf m = true) : Memory.wf (memPut m a b) = true := by
  induction m with
  | nil =>
    unfold memPut
    split
    · rfl
    · rename_i hb; simpa [Memory.wf] using hb
  | cons e t ih =>
    obtain ⟨x, y⟩ := e
    have hc := (wf_cons x y t).1 h
    unfold memPut
    split
    · rename_i hax
      split
      · exact h
      · rename_i hb
        refine (wf_cons ..).2 ⟨hb, ?_, h⟩
        intro c hcm
        rcases List.mem_cons.1 hcm with rfl | hcm
        · exact hax
        · exact Nat.lt_trans hax (hc.2.1 c hcm)
    · split
      · split
        · exact hc.2.2
        · rename_i hax hb
          subst hax
          exact (wf_cons ..).2 ⟨hb, hc.2.1, hc.2.2⟩
      · rename_i h1 h2
        refine (wf_cons ..).2 ⟨hc.1, ?_, ih hc.2.2⟩
        intro c hcm
        rcases mem_memPut t a b c hcm with hcm | hcm
        · exact hc.2.1 c hcm
        · omega

/-- A write leaves every other byte. -/
theorem memGet_memPut_other (m : List Host.Cell) (a x : Nat) (b : BitVec 8) (h : x ≠ a) : memGet (memPut m a b) x = memGet m x := by
  induction m with
  | nil =>
    unfold memPut
    split
    · rfl
    · simp [memGet, List.lookup, beq_eq_false_iff_ne.2 h]
  | cons e t ih =>
    obtain ⟨c, y⟩ := e
    have step (l l' : List Host.Cell) (hl : memGet l x = memGet l' x) : memGet ((c, y) :: l) x = memGet ((c, y) :: l') x := by
      simp only [memGet, List.lookup] at hl ⊢
      split
      · rfl
      · exact hl
    have skip (l : List Host.Cell) : memGet ((a, b) :: l) x = memGet l x := by
      simp [memGet, List.lookup, beq_eq_false_iff_ne.2 h]
    unfold memPut
    split
    · split
      · rfl
      · exact skip _
    · split
      · rename_i hac
        have : memGet ((c, y) :: t) x = memGet t x := by
          simp [memGet, List.lookup, beq_eq_false_iff_ne.2 (hac ▸ h)]
        split
        · exact this.symm
        · rw [skip, this]
      · exact step _ _ ih

/-- In canonical memory a written byte reads back. -/
theorem memGet_memPut_same (m : List Host.Cell) (a : Nat) (b : BitVec 8) (h : Memory.wf m = true) : memGet (memPut m a b) a = b := by
  induction m with
  | nil =>
    unfold memPut
    split <;> simp_all [memGet, List.lookup]
  | cons e t ih =>
    obtain ⟨c, y⟩ := e
    have hc := (wf_cons c y t).1 h
    have gone (l : List Host.Cell) (hl : ∀ e ∈ l, a < e.1) : memGet l a = 0 := by
      have : l.lookup a = none := by
        rw [List.lookup_eq_none_iff]
        intro e he
        have := hl e he
        simp; omega
      simp [memGet, this]
    have self (l : List Host.Cell) : memGet ((a, b) :: l) a = b := by simp [memGet, List.lookup]
    unfold memPut
    split
    · rename_i hac
      split
      · rename_i hb
        rw [hb]
        refine gone _ ?_
        intro e he
        rcases List.mem_cons.1 he with rfl | he
        · exact hac
        · exact Nat.lt_trans hac (hc.2.1 e he)
      · exact self _
    · split
      · rename_i hac
        split
        · rename_i hb
          rw [hb]
          exact gone _ (fun e he => hac ▸ hc.2.1 e he)
        · exact self _
      · rename_i h1 h2
        have : memGet ((c, y) :: memPut t a b) a = memGet (memPut t a b) a := by
          simp [memGet, List.lookup, beq_eq_false_iff_ne.2 h2]
        rw [this, ih hc.2.2]

/-- A write of several bytes keeps the form. -/
theorem memPutNat_wf (m : List Host.Cell) (a v n : Nat) (h : Memory.wf m = true) : Memory.wf (memPutNat m a v n) = true := by
  induction n generalizing m a v with
  | zero => exact h
  | succ n ih => exact ih _ _ _ (memPut_wf m a _ h)

/-- It leaves the bytes outside. -/
theorem memGet_memPutNat_other (m : List Host.Cell) (a v n x : Nat) (h : x < a ∨ a + n ≤ x) :
    memGet (memPutNat m a v n) x = memGet m x := by
  induction n generalizing m a v with
  | zero => rfl
  | succ n ih =>
    rw [memPutNat, ih _ _ _ (by omega), memGet_memPut_other _ _ _ _ (by omega)]

/-- A masked write of a line keeps the form. -/
theorem memPutLineFrom_wf (m : List Host.Cell) (a : Nat) (l : Line) (mask : ByteMask) (n : Nat) (h : Memory.wf m = true) :
    Memory.wf (memPutLineFrom m a l mask n) = true := by
  induction n generalizing m with
  | zero => exact h
  | succ n ih =>
    refine ih _ ?_
    split
    · exact memPut_wf _ _ _ h
    · exact h

theorem memPutLine_wf (m : List Host.Cell) (a : Nat) (l : Line) (mask : ByteMask) (h : Memory.wf m = true) :
    Memory.wf (memPutLine m a l mask) = true := memPutLineFrom_wf m a l mask 128 h

/-- It leaves the bytes outside the line. -/
theorem memGet_memPutLineFrom_other (m : List Host.Cell) (a : Nat) (l : Line) (mask : ByteMask) (n x : Nat) (hn : n ≤ 128)
    (h : x < a ∨ a + 128 ≤ x) : memGet (memPutLineFrom m a l mask n) x = memGet m x := by
  induction n generalizing m with
  | zero => rfl
  | succ n ih =>
    rw [memPutLineFrom, ih _ (by omega)]
    split
    · exact memGet_memPut_other _ _ _ _ (by omega)
    · rfl

theorem memGet_memPutLine_other (m : List Host.Cell) (a : Nat) (l : Line) (mask : ByteMask) (x : Nat) (h : x < a ∨ a + 128 ≤ x) :
    memGet (memPutLine m a l mask) x = memGet m x := memGet_memPutLineFrom_other m a l mask 128 x (Nat.le_refl _) h

/-- Forgetting bytes keeps the form. -/
theorem filter_wf (m : List Host.Cell) (p : Host.Cell → Bool) (h : Memory.wf m = true) : Memory.wf (m.filter p) = true := by
  induction m with
  | nil => rfl
  | cons e t ih =>
    obtain ⟨a, x⟩ := e
    have hc := (wf_cons a x t).1 h
    rw [List.filter_cons]
    split
    · exact (wf_cons ..).2 ⟨hc.1, fun c hcm => hc.2.1 c (List.mem_filter.1 hcm).1, ih hc.2.2⟩
    · exact ih hc.2.2

/-- A fold of steps that keep the form keeps it. -/
theorem foldl_wf {α : Type} (f : List Host.Cell → α → List Host.Cell) (hf : ∀ m x, Memory.wf m = true → Memory.wf (f m x) = true)
    (l : List α) (m : List Host.Cell) (h : Memory.wf m = true) : Memory.wf (l.foldl f m) = true := by
  induction l generalizing m with
  | nil => exact h
  | cons x t ih => exact ih _ (hf m x h)

/-- A tag is written without a change of memory. -/
@[simp] theorem setTag_mem (s : State) (k : Nat) (t : Tag) : (s.setTag k t).mem = s.mem := rfl

/-- Memory after reset lists nothing, and has the form. -/
theorem reset_mem : State.reset.mem = [] := rfl

theorem reset_mem_wf : Memory.wf State.reset.mem = true := rfl

end Sys2Proof.Machine
end

