-- ==== Sys2Proof/Laws/State.lean ====
section
/-!
SUPPORT. Each update of the state, field by field: what it writes, and that every other field stays.
-/
namespace Sys2Proof.Machine

/-! ### setPair -/

@[simp] theorem setPair_me (s : State) (n : Nat) (p : Pair) : (s.setPair n p).me = s.me := rfl
@[simp] theorem setPair_others (s : State) (n : Nat) (p : Pair) : (s.setPair n p).others = s.others := rfl
@[simp] theorem setPair_pairs (s : State) (n : Nat) (p : Pair) : (s.setPair n p).pairs = put s.pairs n p := rfl
@[simp] theorem setPair_cores (s : State) (n : Nat) (p : Pair) : (s.setPair n p).cores = s.cores := rfl
@[simp] theorem setPair_coils (s : State) (n : Nat) (p : Pair) : (s.setPair n p).coils = s.coils := rfl
@[simp] theorem setPair_hanks (s : State) (n : Nat) (p : Pair) : (s.setPair n p).hanks = s.hanks := rfl
@[simp] theorem setPair_chans (s : State) (n : Nat) (p : Pair) : (s.setPair n p).chans = s.chans := rfl
@[simp] theorem setPair_parts (s : State) (n : Nat) (p : Pair) : (s.setPair n p).parts = s.parts := rfl
@[simp] theorem setPair_vfs (s : State) (n : Nat) (p : Pair) : (s.setPair n p).vfs = s.vfs := rfl
@[simp] theorem setPair_mem (s : State) (n : Nat) (p : Pair) : (s.setPair n p).mem = s.mem := rfl
@[simp] theorem setPair_tags (s : State) (n : Nat) (p : Pair) : (s.setPair n p).tags = s.tags := rfl
@[simp] theorem setPair_anchor (s : State) (n : Nat) (p : Pair) : (s.setPair n p).anchor = s.anchor := rfl
@[simp] theorem setPair_ports (s : State) (n : Nat) (p : Pair) : (s.setPair n p).ports = s.ports := rfl
@[simp] theorem setPair_hostPorts (s : State) (n : Nat) (p : Pair) : (s.setPair n p).hostPorts = s.hostPorts := rfl
@[simp] theorem setPair_mirrors (s : State) (n : Nat) (p : Pair) : (s.setPair n p).mirrors = s.mirrors := rfl
@[simp] theorem setPair_sentMirrors (s : State) (n : Nat) (p : Pair) : (s.setPair n p).sentMirrors = s.sentMirrors := rfl
@[simp] theorem setPair_outbox (s : State) (n : Nat) (p : Pair) : (s.setPair n p).outbox = s.outbox := rfl
@[simp] theorem setPair_sendNos (s : State) (n : Nat) (p : Pair) : (s.setPair n p).sendNos = s.sendNos := rfl
@[simp] theorem setPair_recvNos (s : State) (n : Nat) (p : Pair) : (s.setPair n p).recvNos = s.recvNos := rfl
@[simp] theorem setPair_early (s : State) (n : Nat) (p : Pair) : (s.setPair n p).early = s.early := rfl
@[simp] theorem setPair_arrivals (s : State) (n : Nat) (p : Pair) : (s.setPair n p).arrivals = s.arrivals := rfl
@[simp] theorem setPair_agenda (s : State) (n : Nat) (p : Pair) : (s.setPair n p).agenda = s.agenda := rfl
@[simp] theorem setPair_waiting (s : State) (n : Nat) (p : Pair) : (s.setPair n p).waiting = s.waiting := rfl
@[simp] theorem setPair_turns (s : State) (n : Nat) (p : Pair) : (s.setPair n p).turns = s.turns := rfl
@[simp] theorem setPair_picks (s : State) (n : Nat) (p : Pair) : (s.setPair n p).picks = s.picks := rfl
@[simp] theorem setPair_freeCtr (s : State) (n : Nat) (p : Pair) : (s.setPair n p).freeCtr = s.freeCtr := rfl

/-! ### updCore -/

@[simp] theorem updCore_me (s : State) (c : Nat) (f : Core → Core) : (s.updCore c f).me = s.me := rfl
@[simp] theorem updCore_others (s : State) (c : Nat) (f : Core → Core) : (s.updCore c f).others = s.others := rfl
@[simp] theorem updCore_pairs (s : State) (c : Nat) (f : Core → Core) : (s.updCore c f).pairs = s.pairs := rfl
@[simp] theorem updCore_cores (s : State) (c : Nat) (f : Core → Core) : (s.updCore c f).cores = upd s.cores c {} f := rfl
@[simp] theorem updCore_coils (s : State) (c : Nat) (f : Core → Core) : (s.updCore c f).coils = s.coils := rfl
@[simp] theorem updCore_hanks (s : State) (c : Nat) (f : Core → Core) : (s.updCore c f).hanks = s.hanks := rfl
@[simp] theorem updCore_chans (s : State) (c : Nat) (f : Core → Core) : (s.updCore c f).chans = s.chans := rfl
@[simp] theorem updCore_parts (s : State) (c : Nat) (f : Core → Core) : (s.updCore c f).parts = s.parts := rfl
@[simp] theorem updCore_vfs (s : State) (c : Nat) (f : Core → Core) : (s.updCore c f).vfs = s.vfs := rfl
@[simp] theorem updCore_mem (s : State) (c : Nat) (f : Core → Core) : (s.updCore c f).mem = s.mem := rfl
@[simp] theorem updCore_tags (s : State) (c : Nat) (f : Core → Core) : (s.updCore c f).tags = s.tags := rfl
@[simp] theorem updCore_anchor (s : State) (c : Nat) (f : Core → Core) : (s.updCore c f).anchor = s.anchor := rfl
@[simp] theorem updCore_ports (s : State) (c : Nat) (f : Core → Core) : (s.updCore c f).ports = s.ports := rfl
@[simp] theorem updCore_hostPorts (s : State) (c : Nat) (f : Core → Core) : (s.updCore c f).hostPorts = s.hostPorts := rfl
@[simp] theorem updCore_mirrors (s : State) (c : Nat) (f : Core → Core) : (s.updCore c f).mirrors = s.mirrors := rfl
@[simp] theorem updCore_sentMirrors (s : State) (c : Nat) (f : Core → Core) : (s.updCore c f).sentMirrors = s.sentMirrors := rfl
@[simp] theorem updCore_outbox (s : State) (c : Nat) (f : Core → Core) : (s.updCore c f).outbox = s.outbox := rfl
@[simp] theorem updCore_sendNos (s : State) (c : Nat) (f : Core → Core) : (s.updCore c f).sendNos = s.sendNos := rfl
@[simp] theorem updCore_recvNos (s : State) (c : Nat) (f : Core → Core) : (s.updCore c f).recvNos = s.recvNos := rfl
@[simp] theorem updCore_early (s : State) (c : Nat) (f : Core → Core) : (s.updCore c f).early = s.early := rfl
@[simp] theorem updCore_arrivals (s : State) (c : Nat) (f : Core → Core) : (s.updCore c f).arrivals = s.arrivals := rfl
@[simp] theorem updCore_agenda (s : State) (c : Nat) (f : Core → Core) : (s.updCore c f).agenda = s.agenda := rfl
@[simp] theorem updCore_waiting (s : State) (c : Nat) (f : Core → Core) : (s.updCore c f).waiting = s.waiting := rfl
@[simp] theorem updCore_turns (s : State) (c : Nat) (f : Core → Core) : (s.updCore c f).turns = s.turns := rfl
@[simp] theorem updCore_picks (s : State) (c : Nat) (f : Core → Core) : (s.updCore c f).picks = s.picks := rfl
@[simp] theorem updCore_freeCtr (s : State) (c : Nat) (f : Core → Core) : (s.updCore c f).freeCtr = s.freeCtr := rfl

/-! ### updHank -/

@[simp] theorem updHank_me (s : State) (h : Nat) (f : Hank → Hank) : (s.updHank h f).me = s.me := rfl
@[simp] theorem updHank_others (s : State) (h : Nat) (f : Hank → Hank) : (s.updHank h f).others = s.others := rfl
@[simp] theorem updHank_pairs (s : State) (h : Nat) (f : Hank → Hank) : (s.updHank h f).pairs = s.pairs := rfl
@[simp] theorem updHank_cores (s : State) (h : Nat) (f : Hank → Hank) : (s.updHank h f).cores = s.cores := rfl
@[simp] theorem updHank_coils (s : State) (h : Nat) (f : Hank → Hank) : (s.updHank h f).coils = s.coils := rfl
@[simp] theorem updHank_hanks (s : State) (h : Nat) (f : Hank → Hank) : (s.updHank h f).hanks = upd s.hanks h {} f := rfl
@[simp] theorem updHank_chans (s : State) (h : Nat) (f : Hank → Hank) : (s.updHank h f).chans = s.chans := rfl
@[simp] theorem updHank_parts (s : State) (h : Nat) (f : Hank → Hank) : (s.updHank h f).parts = s.parts := rfl
@[simp] theorem updHank_vfs (s : State) (h : Nat) (f : Hank → Hank) : (s.updHank h f).vfs = s.vfs := rfl
@[simp] theorem updHank_mem (s : State) (h : Nat) (f : Hank → Hank) : (s.updHank h f).mem = s.mem := rfl
@[simp] theorem updHank_tags (s : State) (h : Nat) (f : Hank → Hank) : (s.updHank h f).tags = s.tags := rfl
@[simp] theorem updHank_anchor (s : State) (h : Nat) (f : Hank → Hank) : (s.updHank h f).anchor = s.anchor := rfl
@[simp] theorem updHank_ports (s : State) (h : Nat) (f : Hank → Hank) : (s.updHank h f).ports = s.ports := rfl
@[simp] theorem updHank_hostPorts (s : State) (h : Nat) (f : Hank → Hank) : (s.updHank h f).hostPorts = s.hostPorts := rfl
@[simp] theorem updHank_mirrors (s : State) (h : Nat) (f : Hank → Hank) : (s.updHank h f).mirrors = s.mirrors := rfl
@[simp] theorem updHank_sentMirrors (s : State) (h : Nat) (f : Hank → Hank) : (s.updHank h f).sentMirrors = s.sentMirrors := rfl
@[simp] theorem updHank_outbox (s : State) (h : Nat) (f : Hank → Hank) : (s.updHank h f).outbox = s.outbox := rfl
@[simp] theorem updHank_sendNos (s : State) (h : Nat) (f : Hank → Hank) : (s.updHank h f).sendNos = s.sendNos := rfl
@[simp] theorem updHank_recvNos (s : State) (h : Nat) (f : Hank → Hank) : (s.updHank h f).recvNos = s.recvNos := rfl
@[simp] theorem updHank_early (s : State) (h : Nat) (f : Hank → Hank) : (s.updHank h f).early = s.early := rfl
@[simp] theorem updHank_arrivals (s : State) (h : Nat) (f : Hank → Hank) : (s.updHank h f).arrivals = s.arrivals := rfl
@[simp] theorem updHank_agenda (s : State) (h : Nat) (f : Hank → Hank) : (s.updHank h f).agenda = s.agenda := rfl
@[simp] theorem updHank_waiting (s : State) (h : Nat) (f : Hank → Hank) : (s.updHank h f).waiting = s.waiting := rfl
@[simp] theorem updHank_turns (s : State) (h : Nat) (f : Hank → Hank) : (s.updHank h f).turns = s.turns := rfl
@[simp] theorem updHank_picks (s : State) (h : Nat) (f : Hank → Hank) : (s.updHank h f).picks = s.picks := rfl
@[simp] theorem updHank_freeCtr (s : State) (h : Nat) (f : Hank → Hank) : (s.updHank h f).freeCtr = s.freeCtr := rfl

/-! ### updPart -/

@[simp] theorem updPart_me (s : State) (p : Nat) (f : Part → Part) : (s.updPart p f).me = s.me := rfl
@[simp] theorem updPart_others (s : State) (p : Nat) (f : Part → Part) : (s.updPart p f).others = s.others := rfl
@[simp] theorem updPart_pairs (s : State) (p : Nat) (f : Part → Part) : (s.updPart p f).pairs = s.pairs := rfl
@[simp] theorem updPart_cores (s : State) (p : Nat) (f : Part → Part) : (s.updPart p f).cores = s.cores := rfl
@[simp] theorem updPart_coils (s : State) (p : Nat) (f : Part → Part) : (s.updPart p f).coils = s.coils := rfl
@[simp] theorem updPart_hanks (s : State) (p : Nat) (f : Part → Part) : (s.updPart p f).hanks = s.hanks := rfl
@[simp] theorem updPart_chans (s : State) (p : Nat) (f : Part → Part) : (s.updPart p f).chans = s.chans := rfl
@[simp] theorem updPart_parts (s : State) (p : Nat) (f : Part → Part) : (s.updPart p f).parts = upd s.parts p {} f := rfl
@[simp] theorem updPart_vfs (s : State) (p : Nat) (f : Part → Part) : (s.updPart p f).vfs = s.vfs := rfl
@[simp] theorem updPart_mem (s : State) (p : Nat) (f : Part → Part) : (s.updPart p f).mem = s.mem := rfl
@[simp] theorem updPart_tags (s : State) (p : Nat) (f : Part → Part) : (s.updPart p f).tags = s.tags := rfl
@[simp] theorem updPart_anchor (s : State) (p : Nat) (f : Part → Part) : (s.updPart p f).anchor = s.anchor := rfl
@[simp] theorem updPart_ports (s : State) (p : Nat) (f : Part → Part) : (s.updPart p f).ports = s.ports := rfl
@[simp] theorem updPart_hostPorts (s : State) (p : Nat) (f : Part → Part) : (s.updPart p f).hostPorts = s.hostPorts := rfl
@[simp] theorem updPart_mirrors (s : State) (p : Nat) (f : Part → Part) : (s.updPart p f).mirrors = s.mirrors := rfl
@[simp] theorem updPart_sentMirrors (s : State) (p : Nat) (f : Part → Part) : (s.updPart p f).sentMirrors = s.sentMirrors := rfl
@[simp] theorem updPart_outbox (s : State) (p : Nat) (f : Part → Part) : (s.updPart p f).outbox = s.outbox := rfl
@[simp] theorem updPart_sendNos (s : State) (p : Nat) (f : Part → Part) : (s.updPart p f).sendNos = s.sendNos := rfl
@[simp] theorem updPart_recvNos (s : State) (p : Nat) (f : Part → Part) : (s.updPart p f).recvNos = s.recvNos := rfl
@[simp] theorem updPart_early (s : State) (p : Nat) (f : Part → Part) : (s.updPart p f).early = s.early := rfl
@[simp] theorem updPart_arrivals (s : State) (p : Nat) (f : Part → Part) : (s.updPart p f).arrivals = s.arrivals := rfl
@[simp] theorem updPart_agenda (s : State) (p : Nat) (f : Part → Part) : (s.updPart p f).agenda = s.agenda := rfl
@[simp] theorem updPart_waiting (s : State) (p : Nat) (f : Part → Part) : (s.updPart p f).waiting = s.waiting := rfl
@[simp] theorem updPart_turns (s : State) (p : Nat) (f : Part → Part) : (s.updPart p f).turns = s.turns := rfl
@[simp] theorem updPart_picks (s : State) (p : Nat) (f : Part → Part) : (s.updPart p f).picks = s.picks := rfl
@[simp] theorem updPart_freeCtr (s : State) (p : Nat) (f : Part → Part) : (s.updPart p f).freeCtr = s.freeCtr := rfl

/-! ### updChan -/

@[simp] theorem updChan_me (s : State) (g : Nat) (f : Channel → Channel) : (s.updChan g f).me = s.me := rfl
@[simp] theorem updChan_others (s : State) (g : Nat) (f : Channel → Channel) : (s.updChan g f).others = s.others := rfl
@[simp] theorem updChan_pairs (s : State) (g : Nat) (f : Channel → Channel) : (s.updChan g f).pairs = s.pairs := rfl
@[simp] theorem updChan_cores (s : State) (g : Nat) (f : Channel → Channel) : (s.updChan g f).cores = s.cores := rfl
@[simp] theorem updChan_coils (s : State) (g : Nat) (f : Channel → Channel) : (s.updChan g f).coils = s.coils := rfl
@[simp] theorem updChan_hanks (s : State) (g : Nat) (f : Channel → Channel) : (s.updChan g f).hanks = s.hanks := rfl
@[simp] theorem updChan_chans (s : State) (g : Nat) (f : Channel → Channel) : (s.updChan g f).chans = upd s.chans g {} f := rfl
@[simp] theorem updChan_parts (s : State) (g : Nat) (f : Channel → Channel) : (s.updChan g f).parts = s.parts := rfl
@[simp] theorem updChan_vfs (s : State) (g : Nat) (f : Channel → Channel) : (s.updChan g f).vfs = s.vfs := rfl
@[simp] theorem updChan_mem (s : State) (g : Nat) (f : Channel → Channel) : (s.updChan g f).mem = s.mem := rfl
@[simp] theorem updChan_tags (s : State) (g : Nat) (f : Channel → Channel) : (s.updChan g f).tags = s.tags := rfl
@[simp] theorem updChan_anchor (s : State) (g : Nat) (f : Channel → Channel) : (s.updChan g f).anchor = s.anchor := rfl
@[simp] theorem updChan_ports (s : State) (g : Nat) (f : Channel → Channel) : (s.updChan g f).ports = s.ports := rfl
@[simp] theorem updChan_hostPorts (s : State) (g : Nat) (f : Channel → Channel) : (s.updChan g f).hostPorts = s.hostPorts := rfl
@[simp] theorem updChan_mirrors (s : State) (g : Nat) (f : Channel → Channel) : (s.updChan g f).mirrors = s.mirrors := rfl
@[simp] theorem updChan_sentMirrors (s : State) (g : Nat) (f : Channel → Channel) : (s.updChan g f).sentMirrors = s.sentMirrors := rfl
@[simp] theorem updChan_outbox (s : State) (g : Nat) (f : Channel → Channel) : (s.updChan g f).outbox = s.outbox := rfl
@[simp] theorem updChan_sendNos (s : State) (g : Nat) (f : Channel → Channel) : (s.updChan g f).sendNos = s.sendNos := rfl
@[simp] theorem updChan_recvNos (s : State) (g : Nat) (f : Channel → Channel) : (s.updChan g f).recvNos = s.recvNos := rfl
@[simp] theorem updChan_early (s : State) (g : Nat) (f : Channel → Channel) : (s.updChan g f).early = s.early := rfl
@[simp] theorem updChan_arrivals (s : State) (g : Nat) (f : Channel → Channel) : (s.updChan g f).arrivals = s.arrivals := rfl
@[simp] theorem updChan_agenda (s : State) (g : Nat) (f : Channel → Channel) : (s.updChan g f).agenda = s.agenda := rfl
@[simp] theorem updChan_waiting (s : State) (g : Nat) (f : Channel → Channel) : (s.updChan g f).waiting = s.waiting := rfl
@[simp] theorem updChan_turns (s : State) (g : Nat) (f : Channel → Channel) : (s.updChan g f).turns = s.turns := rfl
@[simp] theorem updChan_picks (s : State) (g : Nat) (f : Channel → Channel) : (s.updChan g f).picks = s.picks := rfl
@[simp] theorem updChan_freeCtr (s : State) (g : Nat) (f : Channel → Channel) : (s.updChan g f).freeCtr = s.freeCtr := rfl

/-! ### setTag -/

@[simp] theorem setTag_me (s : State) (k : Nat) (t : Tag) : (s.setTag k t).me = s.me := rfl
@[simp] theorem setTag_others (s : State) (k : Nat) (t : Tag) : (s.setTag k t).others = s.others := rfl
@[simp] theorem setTag_pairs (s : State) (k : Nat) (t : Tag) : (s.setTag k t).pairs = s.pairs := rfl
@[simp] theorem setTag_cores (s : State) (k : Nat) (t : Tag) : (s.setTag k t).cores = s.cores := rfl
@[simp] theorem setTag_coils (s : State) (k : Nat) (t : Tag) : (s.setTag k t).coils = s.coils := rfl
@[simp] theorem setTag_hanks (s : State) (k : Nat) (t : Tag) : (s.setTag k t).hanks = s.hanks := rfl
@[simp] theorem setTag_chans (s : State) (k : Nat) (t : Tag) : (s.setTag k t).chans = s.chans := rfl
@[simp] theorem setTag_parts (s : State) (k : Nat) (t : Tag) : (s.setTag k t).parts = s.parts := rfl
@[simp] theorem setTag_vfs (s : State) (k : Nat) (t : Tag) : (s.setTag k t).vfs = s.vfs := rfl
@[simp] theorem setTag_tags (s : State) (k : Nat) (t : Tag) : (s.setTag k t).tags = if t = zeroTag then del s.tags k else put s.tags k t := rfl
@[simp] theorem setTag_anchor (s : State) (k : Nat) (t : Tag) : (s.setTag k t).anchor = s.anchor := rfl
@[simp] theorem setTag_ports (s : State) (k : Nat) (t : Tag) : (s.setTag k t).ports = s.ports := rfl
@[simp] theorem setTag_hostPorts (s : State) (k : Nat) (t : Tag) : (s.setTag k t).hostPorts = s.hostPorts := rfl
@[simp] theorem setTag_mirrors (s : State) (k : Nat) (t : Tag) : (s.setTag k t).mirrors = s.mirrors := rfl
@[simp] theorem setTag_sentMirrors (s : State) (k : Nat) (t : Tag) : (s.setTag k t).sentMirrors = s.sentMirrors := rfl
@[simp] theorem setTag_outbox (s : State) (k : Nat) (t : Tag) : (s.setTag k t).outbox = s.outbox := rfl
@[simp] theorem setTag_sendNos (s : State) (k : Nat) (t : Tag) : (s.setTag k t).sendNos = s.sendNos := rfl
@[simp] theorem setTag_recvNos (s : State) (k : Nat) (t : Tag) : (s.setTag k t).recvNos = s.recvNos := rfl
@[simp] theorem setTag_early (s : State) (k : Nat) (t : Tag) : (s.setTag k t).early = s.early := rfl
@[simp] theorem setTag_arrivals (s : State) (k : Nat) (t : Tag) : (s.setTag k t).arrivals = s.arrivals := rfl
@[simp] theorem setTag_agenda (s : State) (k : Nat) (t : Tag) : (s.setTag k t).agenda = s.agenda := rfl
@[simp] theorem setTag_waiting (s : State) (k : Nat) (t : Tag) : (s.setTag k t).waiting = s.waiting := rfl
@[simp] theorem setTag_turns (s : State) (k : Nat) (t : Tag) : (s.setTag k t).turns = s.turns := rfl
@[simp] theorem setTag_picks (s : State) (k : Nat) (t : Tag) : (s.setTag k t).picks = s.picks := rfl
@[simp] theorem setTag_freeCtr (s : State) (k : Nat) (t : Tag) : (s.setTag k t).freeCtr = s.freeCtr := rfl

/-! ### setReg -/

@[simp] theorem setReg_me (s : State) (r : BitVec 5) (v : Word) : (s.setReg r v).me = (s.me.record r.toNat (s.me.reg r)).setReg r v := rfl
@[simp] theorem setReg_others (s : State) (r : BitVec 5) (v : Word) : (s.setReg r v).others = s.others := rfl
@[simp] theorem setReg_pairs (s : State) (r : BitVec 5) (v : Word) : (s.setReg r v).pairs = s.pairs := rfl
@[simp] theorem setReg_cores (s : State) (r : BitVec 5) (v : Word) : (s.setReg r v).cores = s.cores := rfl
@[simp] theorem setReg_coils (s : State) (r : BitVec 5) (v : Word) : (s.setReg r v).coils = s.coils := rfl
@[simp] theorem setReg_hanks (s : State) (r : BitVec 5) (v : Word) : (s.setReg r v).hanks = s.hanks := rfl
@[simp] theorem setReg_chans (s : State) (r : BitVec 5) (v : Word) : (s.setReg r v).chans = s.chans := rfl
@[simp] theorem setReg_parts (s : State) (r : BitVec 5) (v : Word) : (s.setReg r v).parts = s.parts := rfl
@[simp] theorem setReg_vfs (s : State) (r : BitVec 5) (v : Word) : (s.setReg r v).vfs = s.vfs := rfl
@[simp] theorem setReg_mem (s : State) (r : BitVec 5) (v : Word) : (s.setReg r v).mem = s.mem := rfl
@[simp] theorem setReg_tags (s : State) (r : BitVec 5) (v : Word) : (s.setReg r v).tags = s.tags := rfl
@[simp] theorem setReg_anchor (s : State) (r : BitVec 5) (v : Word) : (s.setReg r v).anchor = s.anchor := rfl
@[simp] theorem setReg_ports (s : State) (r : BitVec 5) (v : Word) : (s.setReg r v).ports = s.ports := rfl
@[simp] theorem setReg_hostPorts (s : State) (r : BitVec 5) (v : Word) : (s.setReg r v).hostPorts = s.hostPorts := rfl
@[simp] theorem setReg_mirrors (s : State) (r : BitVec 5) (v : Word) : (s.setReg r v).mirrors = s.mirrors := rfl
@[simp] theorem setReg_sentMirrors (s : State) (r : BitVec 5) (v : Word) : (s.setReg r v).sentMirrors = s.sentMirrors := rfl
@[simp] theorem setReg_outbox (s : State) (r : BitVec 5) (v : Word) : (s.setReg r v).outbox = s.outbox := rfl
@[simp] theorem setReg_sendNos (s : State) (r : BitVec 5) (v : Word) : (s.setReg r v).sendNos = s.sendNos := rfl
@[simp] theorem setReg_recvNos (s : State) (r : BitVec 5) (v : Word) : (s.setReg r v).recvNos = s.recvNos := rfl
@[simp] theorem setReg_early (s : State) (r : BitVec 5) (v : Word) : (s.setReg r v).early = s.early := rfl
@[simp] theorem setReg_arrivals (s : State) (r : BitVec 5) (v : Word) : (s.setReg r v).arrivals = s.arrivals := rfl
@[simp] theorem setReg_agenda (s : State) (r : BitVec 5) (v : Word) : (s.setReg r v).agenda = s.agenda := rfl
@[simp] theorem setReg_waiting (s : State) (r : BitVec 5) (v : Word) : (s.setReg r v).waiting = s.waiting := rfl
@[simp] theorem setReg_turns (s : State) (r : BitVec 5) (v : Word) : (s.setReg r v).turns = s.turns := rfl
@[simp] theorem setReg_picks (s : State) (r : BitVec 5) (v : Word) : (s.setReg r v).picks = s.picks := rfl
@[simp] theorem setReg_freeCtr (s : State) (r : BitVec 5) (v : Word) : (s.setReg r v).freeCtr = s.freeCtr := rfl

/-! ### setRegV -/

@[simp] theorem setRegV_me (s : State) (r : BitVec 5) (v : Word) : (s.setRegV r v).me = s.me.setReg r v := rfl
@[simp] theorem setRegV_others (s : State) (r : BitVec 5) (v : Word) : (s.setRegV r v).others = s.others := rfl
@[simp] theorem setRegV_pairs (s : State) (r : BitVec 5) (v : Word) : (s.setRegV r v).pairs = s.pairs := rfl
@[simp] theorem setRegV_cores (s : State) (r : BitVec 5) (v : Word) : (s.setRegV r v).cores = s.cores := rfl
@[simp] theorem setRegV_coils (s : State) (r : BitVec 5) (v : Word) : (s.setRegV r v).coils = s.coils := rfl
@[simp] theorem setRegV_hanks (s : State) (r : BitVec 5) (v : Word) : (s.setRegV r v).hanks = s.hanks := rfl
@[simp] theorem setRegV_chans (s : State) (r : BitVec 5) (v : Word) : (s.setRegV r v).chans = s.chans := rfl
@[simp] theorem setRegV_parts (s : State) (r : BitVec 5) (v : Word) : (s.setRegV r v).parts = s.parts := rfl
@[simp] theorem setRegV_vfs (s : State) (r : BitVec 5) (v : Word) : (s.setRegV r v).vfs = s.vfs := rfl
@[simp] theorem setRegV_mem (s : State) (r : BitVec 5) (v : Word) : (s.setRegV r v).mem = s.mem := rfl
@[simp] theorem setRegV_tags (s : State) (r : BitVec 5) (v : Word) : (s.setRegV r v).tags = s.tags := rfl
@[simp] theorem setRegV_anchor (s : State) (r : BitVec 5) (v : Word) : (s.setRegV r v).anchor = s.anchor := rfl
@[simp] theorem setRegV_ports (s : State) (r : BitVec 5) (v : Word) : (s.setRegV r v).ports = s.ports := rfl
@[simp] theorem setRegV_hostPorts (s : State) (r : BitVec 5) (v : Word) : (s.setRegV r v).hostPorts = s.hostPorts := rfl
@[simp] theorem setRegV_mirrors (s : State) (r : BitVec 5) (v : Word) : (s.setRegV r v).mirrors = s.mirrors := rfl
@[simp] theorem setRegV_sentMirrors (s : State) (r : BitVec 5) (v : Word) : (s.setRegV r v).sentMirrors = s.sentMirrors := rfl
@[simp] theorem setRegV_outbox (s : State) (r : BitVec 5) (v : Word) : (s.setRegV r v).outbox = s.outbox := rfl
@[simp] theorem setRegV_sendNos (s : State) (r : BitVec 5) (v : Word) : (s.setRegV r v).sendNos = s.sendNos := rfl
@[simp] theorem setRegV_recvNos (s : State) (r : BitVec 5) (v : Word) : (s.setRegV r v).recvNos = s.recvNos := rfl
@[simp] theorem setRegV_early (s : State) (r : BitVec 5) (v : Word) : (s.setRegV r v).early = s.early := rfl
@[simp] theorem setRegV_arrivals (s : State) (r : BitVec 5) (v : Word) : (s.setRegV r v).arrivals = s.arrivals := rfl
@[simp] theorem setRegV_agenda (s : State) (r : BitVec 5) (v : Word) : (s.setRegV r v).agenda = s.agenda := rfl
@[simp] theorem setRegV_waiting (s : State) (r : BitVec 5) (v : Word) : (s.setRegV r v).waiting = s.waiting := rfl
@[simp] theorem setRegV_turns (s : State) (r : BitVec 5) (v : Word) : (s.setRegV r v).turns = s.turns := rfl
@[simp] theorem setRegV_picks (s : State) (r : BitVec 5) (v : Word) : (s.setRegV r v).picks = s.picks := rfl
@[simp] theorem setRegV_freeCtr (s : State) (r : BitVec 5) (v : Word) : (s.setRegV r v).freeCtr = s.freeCtr := rfl

/-! ### clearStart -/

@[simp] theorem clearStart_me (s : State) : (s.clearStart).me = { s.me with vstart := 0, rstart := 0 } := rfl
@[simp] theorem clearStart_others (s : State) : (s.clearStart).others = s.others := rfl
@[simp] theorem clearStart_pairs (s : State) : (s.clearStart).pairs = s.pairs := rfl
@[simp] theorem clearStart_cores (s : State) : (s.clearStart).cores = s.cores := rfl
@[simp] theorem clearStart_coils (s : State) : (s.clearStart).coils = s.coils := rfl
@[simp] theorem clearStart_hanks (s : State) : (s.clearStart).hanks = s.hanks := rfl
@[simp] theorem clearStart_chans (s : State) : (s.clearStart).chans = s.chans := rfl
@[simp] theorem clearStart_parts (s : State) : (s.clearStart).parts = s.parts := rfl
@[simp] theorem clearStart_vfs (s : State) : (s.clearStart).vfs = s.vfs := rfl
@[simp] theorem clearStart_mem (s : State) : (s.clearStart).mem = s.mem := rfl
@[simp] theorem clearStart_tags (s : State) : (s.clearStart).tags = s.tags := rfl
@[simp] theorem clearStart_anchor (s : State) : (s.clearStart).anchor = s.anchor := rfl
@[simp] theorem clearStart_ports (s : State) : (s.clearStart).ports = s.ports := rfl
@[simp] theorem clearStart_hostPorts (s : State) : (s.clearStart).hostPorts = s.hostPorts := rfl
@[simp] theorem clearStart_mirrors (s : State) : (s.clearStart).mirrors = s.mirrors := rfl
@[simp] theorem clearStart_sentMirrors (s : State) : (s.clearStart).sentMirrors = s.sentMirrors := rfl
@[simp] theorem clearStart_outbox (s : State) : (s.clearStart).outbox = s.outbox := rfl
@[simp] theorem clearStart_sendNos (s : State) : (s.clearStart).sendNos = s.sendNos := rfl
@[simp] theorem clearStart_recvNos (s : State) : (s.clearStart).recvNos = s.recvNos := rfl
@[simp] theorem clearStart_early (s : State) : (s.clearStart).early = s.early := rfl
@[simp] theorem clearStart_arrivals (s : State) : (s.clearStart).arrivals = s.arrivals := rfl
@[simp] theorem clearStart_agenda (s : State) : (s.clearStart).agenda = s.agenda := rfl
@[simp] theorem clearStart_waiting (s : State) : (s.clearStart).waiting = s.waiting := rfl
@[simp] theorem clearStart_turns (s : State) : (s.clearStart).turns = s.turns := rfl
@[simp] theorem clearStart_picks (s : State) : (s.clearStart).picks = s.picks := rfl
@[simp] theorem clearStart_freeCtr (s : State) : (s.clearStart).freeCtr = s.freeCtr := rfl

/-! ### send -/

@[simp] theorem send_me (s : State) (m : Sent) : (s.send m).me = s.me := rfl
@[simp] theorem send_others (s : State) (m : Sent) : (s.send m).others = s.others := rfl
@[simp] theorem send_pairs (s : State) (m : Sent) : (s.send m).pairs = s.pairs := rfl
@[simp] theorem send_cores (s : State) (m : Sent) : (s.send m).cores = s.cores := rfl
@[simp] theorem send_coils (s : State) (m : Sent) : (s.send m).coils = s.coils := rfl
@[simp] theorem send_hanks (s : State) (m : Sent) : (s.send m).hanks = s.hanks := rfl
@[simp] theorem send_chans (s : State) (m : Sent) : (s.send m).chans = s.chans := rfl
@[simp] theorem send_parts (s : State) (m : Sent) : (s.send m).parts = s.parts := rfl
@[simp] theorem send_vfs (s : State) (m : Sent) : (s.send m).vfs = s.vfs := rfl
@[simp] theorem send_mem (s : State) (m : Sent) : (s.send m).mem = s.mem := rfl
@[simp] theorem send_tags (s : State) (m : Sent) : (s.send m).tags = s.tags := rfl
@[simp] theorem send_anchor (s : State) (m : Sent) : (s.send m).anchor = s.anchor := rfl
@[simp] theorem send_ports (s : State) (m : Sent) : (s.send m).ports = s.ports := rfl
@[simp] theorem send_hostPorts (s : State) (m : Sent) : (s.send m).hostPorts = s.hostPorts := rfl
@[simp] theorem send_mirrors (s : State) (m : Sent) : (s.send m).mirrors = s.mirrors := rfl
@[simp] theorem send_sentMirrors (s : State) (m : Sent) : (s.send m).sentMirrors = s.sentMirrors := rfl
@[simp] theorem send_sendNos (s : State) (m : Sent) : (s.send m).sendNos = s.sendNos := rfl
@[simp] theorem send_recvNos (s : State) (m : Sent) : (s.send m).recvNos = s.recvNos := rfl
@[simp] theorem send_early (s : State) (m : Sent) : (s.send m).early = s.early := rfl
@[simp] theorem send_outbox (s : State) (m : Sent) : (s.send m).outbox = s.outbox ++ [m] := rfl
@[simp] theorem send_arrivals (s : State) (m : Sent) : (s.send m).arrivals = s.arrivals := rfl
@[simp] theorem send_agenda (s : State) (m : Sent) : (s.send m).agenda = s.agenda := rfl
@[simp] theorem send_waiting (s : State) (m : Sent) : (s.send m).waiting = s.waiting := rfl
@[simp] theorem send_turns (s : State) (m : Sent) : (s.send m).turns = s.turns := rfl
@[simp] theorem send_picks (s : State) (m : Sent) : (s.send m).picks = s.picks := rfl
@[simp] theorem send_freeCtr (s : State) (m : Sent) : (s.send m).freeCtr = s.freeCtr := rfl

/-! ### updVf -/

@[simp] theorem updVf_me (s : State) (v : Nat) (f : Vf → Vf) : (s.updVf v f).me = s.me := by unfold State.updVf; split <;> rfl
@[simp] theorem updVf_others (s : State) (v : Nat) (f : Vf → Vf) : (s.updVf v f).others = s.others := by unfold State.updVf; split <;> rfl
@[simp] theorem updVf_pairs (s : State) (v : Nat) (f : Vf → Vf) : (s.updVf v f).pairs = s.pairs := by unfold State.updVf; split <;> rfl
@[simp] theorem updVf_cores (s : State) (v : Nat) (f : Vf → Vf) : (s.updVf v f).cores = s.cores := by unfold State.updVf; split <;> rfl
@[simp] theorem updVf_coils (s : State) (v : Nat) (f : Vf → Vf) : (s.updVf v f).coils = s.coils := by unfold State.updVf; split <;> rfl
@[simp] theorem updVf_hanks (s : State) (v : Nat) (f : Vf → Vf) : (s.updVf v f).hanks = s.hanks := by unfold State.updVf; split <;> rfl
@[simp] theorem updVf_chans (s : State) (v : Nat) (f : Vf → Vf) : (s.updVf v f).chans = s.chans := by unfold State.updVf; split <;> rfl
@[simp] theorem updVf_parts (s : State) (v : Nat) (f : Vf → Vf) : (s.updVf v f).parts = s.parts := by unfold State.updVf; split <;> rfl
@[simp] theorem updVf_mem (s : State) (v : Nat) (f : Vf → Vf) : (s.updVf v f).mem = s.mem := by unfold State.updVf; split <;> rfl
@[simp] theorem updVf_tags (s : State) (v : Nat) (f : Vf → Vf) : (s.updVf v f).tags = s.tags := by unfold State.updVf; split <;> rfl
@[simp] theorem updVf_anchor (s : State) (v : Nat) (f : Vf → Vf) : (s.updVf v f).anchor = s.anchor := by unfold State.updVf; split <;> rfl
@[simp] theorem updVf_ports (s : State) (v : Nat) (f : Vf → Vf) : (s.updVf v f).ports = s.ports := by unfold State.updVf; split <;> rfl
@[simp] theorem updVf_hostPorts (s : State) (v : Nat) (f : Vf → Vf) : (s.updVf v f).hostPorts = s.hostPorts := by unfold State.updVf; split <;> rfl
@[simp] theorem updVf_mirrors (s : State) (v : Nat) (f : Vf → Vf) : (s.updVf v f).mirrors = s.mirrors := by unfold State.updVf; split <;> rfl
@[simp] theorem updVf_sentMirrors (s : State) (v : Nat) (f : Vf → Vf) : (s.updVf v f).sentMirrors = s.sentMirrors := by unfold State.updVf; split <;> rfl
@[simp] theorem updVf_sendNos (s : State) (v : Nat) (f : Vf → Vf) : (s.updVf v f).sendNos = s.sendNos := by unfold State.updVf; split <;> rfl
@[simp] theorem updVf_recvNos (s : State) (v : Nat) (f : Vf → Vf) : (s.updVf v f).recvNos = s.recvNos := by unfold State.updVf; split <;> rfl
@[simp] theorem updVf_early (s : State) (v : Nat) (f : Vf → Vf) : (s.updVf v f).early = s.early := by unfold State.updVf; split <;> rfl
@[simp] theorem updVf_outbox (s : State) (v : Nat) (f : Vf → Vf) : (s.updVf v f).outbox = s.outbox := by unfold State.updVf; split <;> rfl
@[simp] theorem updVf_arrivals (s : State) (v : Nat) (f : Vf → Vf) : (s.updVf v f).arrivals = s.arrivals := by unfold State.updVf; split <;> rfl
@[simp] theorem updVf_agenda (s : State) (v : Nat) (f : Vf → Vf) : (s.updVf v f).agenda = s.agenda := by unfold State.updVf; split <;> rfl
@[simp] theorem updVf_waiting (s : State) (v : Nat) (f : Vf → Vf) : (s.updVf v f).waiting = s.waiting := by unfold State.updVf; split <;> rfl
@[simp] theorem updVf_turns (s : State) (v : Nat) (f : Vf → Vf) : (s.updVf v f).turns = s.turns := by unfold State.updVf; split <;> rfl
@[simp] theorem updVf_picks (s : State) (v : Nat) (f : Vf → Vf) : (s.updVf v f).picks = s.picks := by unfold State.updVf; split <;> rfl
@[simp] theorem updVf_freeCtr (s : State) (v : Nat) (f : Vf → Vf) : (s.updVf v f).freeCtr = s.freeCtr := by unfold State.updVf; split <;> rfl

/-! ### updBraid -/

@[simp] theorem updBraid_me (s : State) (p q : Nat) (f : Braid → Braid) : (s.updBraid p q f).me = s.me := by unfold State.updBraid; split <;> rfl
@[simp] theorem updBraid_others (s : State) (p q : Nat) (f : Braid → Braid) : (s.updBraid p q f).others = s.others := by unfold State.updBraid; split <;> rfl
@[simp] theorem updBraid_pairs (s : State) (p q : Nat) (f : Braid → Braid) : (s.updBraid p q f).pairs = s.pairs := by unfold State.updBraid; split <;> rfl
@[simp] theorem updBraid_cores (s : State) (p q : Nat) (f : Braid → Braid) : (s.updBraid p q f).cores = s.cores := by unfold State.updBraid; split <;> rfl
@[simp] theorem updBraid_coils (s : State) (p q : Nat) (f : Braid → Braid) : (s.updBraid p q f).coils = s.coils := by unfold State.updBraid; split <;> rfl
@[simp] theorem updBraid_hanks (s : State) (p q : Nat) (f : Braid → Braid) : (s.updBraid p q f).hanks = s.hanks := by unfold State.updBraid; split <;> rfl
@[simp] theorem updBraid_chans (s : State) (p q : Nat) (f : Braid → Braid) : (s.updBraid p q f).chans = s.chans := by unfold State.updBraid; split <;> rfl
@[simp] theorem updBraid_vfs (s : State) (p q : Nat) (f : Braid → Braid) : (s.updBraid p q f).vfs = s.vfs := by unfold State.updBraid; split <;> rfl
@[simp] theorem updBraid_mem (s : State) (p q : Nat) (f : Braid → Braid) : (s.updBraid p q f).mem = s.mem := by unfold State.updBraid; split <;> rfl
@[simp] theorem updBraid_tags (s : State) (p q : Nat) (f : Braid → Braid) : (s.updBraid p q f).tags = s.tags := by unfold State.updBraid; split <;> rfl
@[simp] theorem updBraid_anchor (s : State) (p q : Nat) (f : Braid → Braid) : (s.updBraid p q f).anchor = s.anchor := by unfold State.updBraid; split <;> rfl
@[simp] theorem updBraid_ports (s : State) (p q : Nat) (f : Braid → Braid) : (s.updBraid p q f).ports = s.ports := by unfold State.updBraid; split <;> rfl
@[simp] theorem updBraid_hostPorts (s : State) (p q : Nat) (f : Braid → Braid) : (s.updBraid p q f).hostPorts = s.hostPorts := by unfold State.updBraid; split <;> rfl
@[simp] theorem updBraid_mirrors (s : State) (p q : Nat) (f : Braid → Braid) : (s.updBraid p q f).mirrors = s.mirrors := by unfold State.updBraid; split <;> rfl
@[simp] theorem updBraid_sentMirrors (s : State) (p q : Nat) (f : Braid → Braid) : (s.updBraid p q f).sentMirrors = s.sentMirrors := by unfold State.updBraid; split <;> rfl
@[simp] theorem updBraid_sendNos (s : State) (p q : Nat) (f : Braid → Braid) : (s.updBraid p q f).sendNos = s.sendNos := by unfold State.updBraid; split <;> rfl
@[simp] theorem updBraid_recvNos (s : State) (p q : Nat) (f : Braid → Braid) : (s.updBraid p q f).recvNos = s.recvNos := by unfold State.updBraid; split <;> rfl
@[simp] theorem updBraid_early (s : State) (p q : Nat) (f : Braid → Braid) : (s.updBraid p q f).early = s.early := by unfold State.updBraid; split <;> rfl
@[simp] theorem updBraid_outbox (s : State) (p q : Nat) (f : Braid → Braid) : (s.updBraid p q f).outbox = s.outbox := by unfold State.updBraid; split <;> rfl
@[simp] theorem updBraid_arrivals (s : State) (p q : Nat) (f : Braid → Braid) : (s.updBraid p q f).arrivals = s.arrivals := by unfold State.updBraid; split <;> rfl
@[simp] theorem updBraid_agenda (s : State) (p q : Nat) (f : Braid → Braid) : (s.updBraid p q f).agenda = s.agenda := by unfold State.updBraid; split <;> rfl
@[simp] theorem updBraid_waiting (s : State) (p q : Nat) (f : Braid → Braid) : (s.updBraid p q f).waiting = s.waiting := by unfold State.updBraid; split <;> rfl
@[simp] theorem updBraid_turns (s : State) (p q : Nat) (f : Braid → Braid) : (s.updBraid p q f).turns = s.turns := by unfold State.updBraid; split <;> rfl
@[simp] theorem updBraid_picks (s : State) (p q : Nat) (f : Braid → Braid) : (s.updBraid p q f).picks = s.picks := by unfold State.updBraid; split <;> rfl
@[simp] theorem updBraid_freeCtr (s : State) (p q : Nat) (f : Braid → Braid) : (s.updBraid p q f).freeCtr = s.freeCtr := by unfold State.updBraid; split <;> rfl

/-! ### free -/

@[simp] theorem free_me (s : State) : (s.free).2.me = s.me := rfl
@[simp] theorem free_others (s : State) : (s.free).2.others = s.others := rfl
@[simp] theorem free_pairs (s : State) : (s.free).2.pairs = s.pairs := rfl
@[simp] theorem free_cores (s : State) : (s.free).2.cores = s.cores := rfl
@[simp] theorem free_coils (s : State) : (s.free).2.coils = s.coils := rfl
@[simp] theorem free_hanks (s : State) : (s.free).2.hanks = s.hanks := rfl
@[simp] theorem free_chans (s : State) : (s.free).2.chans = s.chans := rfl
@[simp] theorem free_parts (s : State) : (s.free).2.parts = s.parts := rfl
@[simp] theorem free_vfs (s : State) : (s.free).2.vfs = s.vfs := rfl
@[simp] theorem free_mem (s : State) : (s.free).2.mem = s.mem := rfl
@[simp] theorem free_tags (s : State) : (s.free).2.tags = s.tags := rfl
@[simp] theorem free_anchor (s : State) : (s.free).2.anchor = s.anchor := rfl
@[simp] theorem free_ports (s : State) : (s.free).2.ports = s.ports := rfl
@[simp] theorem free_hostPorts (s : State) : (s.free).2.hostPorts = s.hostPorts := rfl
@[simp] theorem free_mirrors (s : State) : (s.free).2.mirrors = s.mirrors := rfl
@[simp] theorem free_sentMirrors (s : State) : (s.free).2.sentMirrors = s.sentMirrors := rfl
@[simp] theorem free_outbox (s : State) : (s.free).2.outbox = s.outbox := rfl
@[simp] theorem free_sendNos (s : State) : (s.free).2.sendNos = s.sendNos := rfl
@[simp] theorem free_recvNos (s : State) : (s.free).2.recvNos = s.recvNos := rfl
@[simp] theorem free_early (s : State) : (s.free).2.early = s.early := rfl
@[simp] theorem free_arrivals (s : State) : (s.free).2.arrivals = s.arrivals := rfl
@[simp] theorem free_agenda (s : State) : (s.free).2.agenda = s.agenda := rfl
@[simp] theorem free_waiting (s : State) : (s.free).2.waiting = s.waiting := rfl
@[simp] theorem free_turns (s : State) : (s.free).2.turns = s.turns := rfl
@[simp] theorem free_picks (s : State) : (s.free).2.picks = s.picks := rfl
@[simp] theorem free_freeCtr (s : State) : (s.free).2.freeCtr = s.freeCtr + 1 := rfl

/-! ### pick -/

@[simp] theorem pick_me (s : State) (n : Nat) : (s.pick n).2.me = s.me := rfl
@[simp] theorem pick_others (s : State) (n : Nat) : (s.pick n).2.others = s.others := rfl
@[simp] theorem pick_pairs (s : State) (n : Nat) : (s.pick n).2.pairs = s.pairs := rfl
@[simp] theorem pick_cores (s : State) (n : Nat) : (s.pick n).2.cores = s.cores := rfl
@[simp] theorem pick_coils (s : State) (n : Nat) : (s.pick n).2.coils = s.coils := rfl
@[simp] theorem pick_hanks (s : State) (n : Nat) : (s.pick n).2.hanks = s.hanks := rfl
@[simp] theorem pick_chans (s : State) (n : Nat) : (s.pick n).2.chans = s.chans := rfl
@[simp] theorem pick_parts (s : State) (n : Nat) : (s.pick n).2.parts = s.parts := rfl
@[simp] theorem pick_vfs (s : State) (n : Nat) : (s.pick n).2.vfs = s.vfs := rfl
@[simp] theorem pick_mem (s : State) (n : Nat) : (s.pick n).2.mem = s.mem := rfl
@[simp] theorem pick_tags (s : State) (n : Nat) : (s.pick n).2.tags = s.tags := rfl
@[simp] theorem pick_anchor (s : State) (n : Nat) : (s.pick n).2.anchor = s.anchor := rfl
@[simp] theorem pick_ports (s : State) (n : Nat) : (s.pick n).2.ports = s.ports := rfl
@[simp] theorem pick_hostPorts (s : State) (n : Nat) : (s.pick n).2.hostPorts = s.hostPorts := rfl
@[simp] theorem pick_mirrors (s : State) (n : Nat) : (s.pick n).2.mirrors = s.mirrors := rfl
@[simp] theorem pick_sentMirrors (s : State) (n : Nat) : (s.pick n).2.sentMirrors = s.sentMirrors := rfl
@[simp] theorem pick_outbox (s : State) (n : Nat) : (s.pick n).2.outbox = s.outbox := rfl
@[simp] theorem pick_sendNos (s : State) (n : Nat) : (s.pick n).2.sendNos = s.sendNos := rfl
@[simp] theorem pick_recvNos (s : State) (n : Nat) : (s.pick n).2.recvNos = s.recvNos := rfl
@[simp] theorem pick_early (s : State) (n : Nat) : (s.pick n).2.early = s.early := rfl
@[simp] theorem pick_arrivals (s : State) (n : Nat) : (s.pick n).2.arrivals = s.arrivals := rfl
@[simp] theorem pick_agenda (s : State) (n : Nat) : (s.pick n).2.agenda = s.agenda := rfl
@[simp] theorem pick_waiting (s : State) (n : Nat) : (s.pick n).2.waiting = s.waiting := rfl
@[simp] theorem pick_turns (s : State) (n : Nat) : (s.pick n).2.turns = s.turns := rfl
@[simp] theorem pick_picks (s : State) (n : Nat) : (s.pick n).2.picks = s.picks := rfl
@[simp] theorem pick_freeCtr (s : State) (n : Nat) : (s.pick n).2.freeCtr = s.freeCtr + 1 := rfl

end Sys2Proof.Machine
end

