-- ==== Sys2Proof/Laws/Lines.lean ====
section
/-!
SUPPORT. What reading and writing a stored line can change (Machine/Banks.lean, Machine/Mem.lean), said once: the channels with the
memory and its tags, logs and reports, what leaves on the host's links, and free values taken.
-/
namespace Sys2Proof.Machine

/-- Everything but the lines of memory and what their reads report. -/
structure LinesOnly (s u : State) : Prop where
  me : u.me = s.me
  others : u.others = s.others
  pairs : u.pairs = s.pairs
  cores : u.cores = s.cores
  coils : u.coils = s.coils
  hanks : u.hanks = s.hanks
  vfs : u.vfs = s.vfs
  ports : u.ports = s.ports
  hostPorts : u.hostPorts = s.hostPorts
  mirrors : u.mirrors = s.mirrors
  sentMirrors : u.sentMirrors = s.sentMirrors
  sendNos : u.sendNos = s.sendNos
  recvNos : u.recvNos = s.recvNos
  early : u.early = s.early
  arrivals : u.arrivals = s.arrivals
  agenda : u.agenda = s.agenda
  waiting : u.waiting = s.waiting
  turns : u.turns = s.turns
  picks : u.picks = s.picks

namespace LinesOnly

theorem rfl' (s : State) : LinesOnly s s := by constructor <;> rfl

theorem trans {s t u : State} (a : LinesOnly s t) (b : LinesOnly t u) : LinesOnly s u :=
  ⟨b.me.trans a.me, b.others.trans a.others, b.pairs.trans a.pairs, b.cores.trans a.cores, b.coils.trans a.coils, b.hanks.trans a.hanks,
   b.vfs.trans a.vfs, b.ports.trans a.ports, b.hostPorts.trans a.hostPorts, b.mirrors.trans a.mirrors,
   b.sentMirrors.trans a.sentMirrors, b.sendNos.trans a.sendNos, b.recvNos.trans a.recvNos, b.early.trans a.early, b.arrivals.trans a.arrivals, b.agenda.trans a.agenda, b.waiting.trans a.waiting,
   b.turns.trans a.turns, b.picks.trans a.picks⟩

/-- A fold of steps that change lines alone changes lines alone. -/
theorem foldl {α : Type} (f : State → α → State) (h : ∀ s x, LinesOnly s (f s x)) (l : List α) : ∀ s, LinesOnly s (l.foldl f s) := by
  induction l with
  | nil => exact rfl'
  | cons x l ih => exact fun s => (h s x).trans (ih _)

end LinesOnly

open LinesOnly (rfl')

theorem updChan_lines (s : State) (g : Nat) (f : Channel → Channel) : LinesOnly s (s.updChan g f) := by constructor <;> rfl
theorem putRaw_lines (s : State) (k : Nat) (d : Line) (t : Tag) : LinesOnly s (s.putRaw k d t) := by
  constructor <;> simp [State.putRaw]
theorem logEvent_lines (s : State) (p e v c : Nat) (a d : Word) : LinesOnly s (s.logEvent p e v c a d) := by constructor <;> rfl
theorem emit_lines (s : State) (ms : List Sent) : LinesOnly s (s.emit ms) := by constructor <;> rfl
theorem scrubBank_lines (s : State) (g b : Nat) : LinesOnly s (s.scrubBank g b) := by constructor <;> rfl

theorem logLine_lines (s : State) (p e : Nat) (r : Reader) (d : Nat) : LinesOnly s (s.logLine p e r d) := by
  unfold State.logLine; split <;> constructor <;> rfl

theorem scrubFor_lines (s : State) (g b : Nat) : LinesOnly s (s.scrubFor g b) := by
  unfold State.scrubFor
  dsimp only
  split
  · exact LinesOnly.foldl _ (fun s x => scrubBank_lines s g x) _ s
  · exact rfl' s

theorem writeLine_lines (s : State) (near : Bool) (k : Nat) (d : Line) (t : Tag) : LinesOnly s (s.writeLine near k d t) := by
  unfold State.writeLine
  dsimp only
  split
  · exact putRaw_lines ..
  · exact (updChan_lines ..).trans (putRaw_lines ..)

theorem setBank_lines (s : State) (p : Nat) (d : Line) (t : Tag) : LinesOnly s (s.setBank p d t) := by
  unfold State.setBank
  dsimp only
  split <;> exact (updChan_lines ..).trans (putRaw_lines ..)

theorem fixTag_lines (s : State) (near : Bool) (part k m : Nat) (r : Reader) : LinesOnly s (s.fixTag near part k m r).2 := by
  unfold State.fixTag
  dsimp only
  split
  · exact (writeLine_lines ..).trans (logEvent_lines ..)
  · exact rfl' s

theorem deliverLine_lines (s : State) (p : Nat) (x : Line × Tag) : LinesOnly s (s.deliverLine p x) := by
  unfold State.deliverLine
  dsimp only
  split
  · exact updChan_lines ..
  · exact (updChan_lines ..).trans ((updChan_lines ..).trans (putRaw_lines ..))

theorem noteRead_lines (s : State) (e : ReadError) (p : Nat) (r : Reader) : LinesOnly s (s.noteRead e p r) := by
  unfold State.noteRead
  dsimp only
  split
  · exact rfl' s
  · split
    · exact (updChan_lines ..).trans (logLine_lines ..)
    · exact logLine_lines ..

theorem readDone_lines (s : State) (q : ChanReq) (p : Nat) : LinesOnly s (s.readDone q p) := by
  have keep {u v : State} (c : Bool) (h : LinesOnly u v) : LinesOnly u (if c then u else v) := by
    cases c
    · exact h
    · exact rfl' u
  unfold State.readDone
  dsimp only
  split
  · exact (keep _ (setBank_lines ..)).trans (noteRead_lines ..)
  · split
    · exact ((keep _ (setBank_lines ..)).trans (noteRead_lines ..)).trans (keep _ (deliverLine_lines ..))
    · exact (((keep _ (setBank_lines ..)).trans (noteRead_lines ..)).trans (keep _ (deliverLine_lines ..))).trans
        ((keep _ (setBank_lines ..)).trans (logEvent_lines ..))

theorem serveReads_lines (s : State) (g : Nat) (qs : List ChanReq) : LinesOnly s (s.serveReads g qs) := by
  refine LinesOnly.foldl _ (fun s q => ?_) qs s
  dsimp only
  split
  · exact updChan_lines ..
  · exact (updChan_lines ..).trans (readDone_lines ..)

theorem retryReads_lines (s : State) (g : Nat) : LinesOnly s (s.retryReads g) := (updChan_lines ..).trans (serveReads_lines ..)

theorem drainBank_lines (s : State) (g bank : Nat) : LinesOnly s (s.drainBank g bank) := by
  unfold State.drainBank
  refine (scrubFor_lines s g bank).trans ?_
  dsimp only
  split
  · exact rfl' _
  · refine (updChan_lines ..).trans (LinesOnly.foldl _ (fun s q => ?_) _ _)
    exact (updChan_lines ..).trans (readDone_lines ..)

theorem putBank_lines (s : State) (p : Nat) (d : Line) (t : Tag) : LinesOnly s (s.putBank p d t) :=
  (drainBank_lines s _ _).trans ((updChan_lines ..).trans (putRaw_lines ..))

theorem drainFor_lines (s : State) (g : Nat) (l : Option L2Line) : LinesOnly s (s.drainFor g l) := by
  unfold State.drainFor
  split
  · split
    · exact drainBank_lines ..
    · exact rfl' s
  · exact rfl' s

theorem flushLine_lines (s : State) (p : Nat) : LinesOnly s (s.flushLine p) := by
  unfold State.flushLine
  refine (drainFor_lines s (chanOf p) ((s.chan (chanOf p)).l2? (p % 2 ^ 25))).trans ?_
  dsimp only
  split
  · exact updChan_lines ..
  · exact rfl' _

theorem reach_lines (s : State) (near : Bool) (k : Nat) (r : Reader) : LinesOnly s (s.reach near k r) := by
  have either {u v w : State} (c : Bool) (h : LinesOnly u v) (k : LinesOnly u w) : LinesOnly u (if c then v else w) := by
    cases c
    · exact k
    · exact h
  unfold State.reach
  split
  · exact rfl' s
  · dsimp only
    exact (either _ (rfl' s) (drainBank_lines ..)).trans ((either _ (rfl' _) (drainFor_lines ..)).trans (updChan_lines ..))

theorem lineRead_lines (s : State) (p : Nat) (e : ReadError) (patrol near : Bool) (r : Reader) :
    LinesOnly s (s.lineRead p e patrol near r) := by
  unfold State.lineRead
  dsimp only
  split <;> (try split) <;> first | exact rfl' s | exact serveReads_lines ..

theorem readRaw_lines (s : State) (near : Bool) (part k : Nat) (r : Reader) : LinesOnly s (s.readRaw near part k r).2.2 :=
  (reach_lines ..).trans (fixTag_lines ..)

theorem readStored_lines (s : State) (near : Bool) (part : Nat) (h : Stored) (r : Reader) : LinesOnly s (s.readStored near part h r).2.2 := by
  unfold State.readStored
  dsimp only
  split <;> exact (reach_lines ..).trans (fixTag_lines ..)

theorem readHost_lines (s : State) (part vf a : Nat) (r : Reader) : LinesOnly s (s.readHost part vf a r).2.2 := by
  unfold State.readHost
  dsimp only
  split <;> constructor <;> rfl

theorem unsettled_lines (s t : State) (e : TlbEntry) (j : Nat) (x : Line × Tag × State) (h : LinesOnly t x.2.2) :
    LinesOnly t (s.unsettled e j x).2.2 := by
  unfold State.unsettled
  split
  · exact h
  · exact h.trans (by constructor <;> rfl)

/-- Reading a line at its home changes lines alone. -/
theorem readHome_lines (s : State) (l : LineLoc) (r : Reader) : LinesOnly s (s.readHome l r).2.2 := by
  cases l with
  | store c i => exact readRaw_lines ..
  | page e j =>
    refine unsettled_lines s s e j _ ?_
    split
    · exact readHost_lines ..
    · exact readStored_lines ..

theorem meetHome_lines (s : State) (l : LineLoc) (full : Bool) (r : Reader) : LinesOnly s (s.meetHome l full r).2.2 := by
  cases l with
  | store c i =>
    unfold State.meetHome
    dsimp only
    split
    · exact rfl' s
    · exact readRaw_lines ..
  | page e j =>
    unfold State.meetHome
    dsimp only
    split
    · exact rfl' s
    · split
      · exact reach_lines ..
      · exact readStored_lines ..

theorem writeStored_lines (s : State) (near : Bool) (h : Stored) (d : Line) (t : Tag) : LinesOnly s (s.writeStored near h d t) := by
  unfold State.writeStored
  split <;> exact writeLine_lines ..

theorem putHost_lines (s : State) (vf a : Nat) (d : Line) (t : Tag) (m : ByteMask) : LinesOnly s (s.putHost vf a d t m) := by
  unfold State.putHost
  dsimp only
  split <;> constructor <;> rfl

/-- Writing a line at its home, without merging, changes lines alone. -/
theorem putHome_lines (s : State) (l : LineLoc) (d : Line) (t : Tag) (m : ByteMask) : LinesOnly s (s.putHome l d t m) := by
  cases l with
  | store c i => exact putRaw_lines ..
  | page e j =>
    unfold State.putHome
    dsimp only
    split
    · exact putHost_lines ..
    · exact writeStored_lines ..

end Sys2Proof.Machine
end

