-- ==== Sys2Proof/Laws/Ops.lean ====
section
/-!
SUPPORT. What the shared operations of Machine/Ops.lean do, said once: tokens, registers, issue and retirement.
-/
namespace Sys2Proof.Machine

/-! ## Registers (R19) -/

@[simp] theorem setReg_zero (t : Strand) (v : Word) : t.setReg 0 v = t := by simp [Strand.setReg]

theorem setReg_eq (t : Strand) (r : BitVec 5) (v : Word) (h : r ≠ 0) :
    t.setReg r v = { t with regs := t.regs.set r.toNat v (by have := r.isLt; omega) } := if_neg h

theorem reg_setReg_same (t : Strand) (r : BitVec 5) (v : Word) (h : r ≠ 0) : (t.setReg r v).reg r = v := by
  rw [setReg_eq t r v h]
  exact Vector.getElem_set_self _

theorem reg_setReg_other (t : Strand) (r q : BitVec 5) (v : Word) (h : q ≠ r) : (t.setReg r v).reg q = t.reg q := by
  have ne : r.toNat ≠ q.toNat := fun e => h (BitVec.eq_of_toNat_eq e.symm)
  by_cases hr : r = 0
  · rw [hr, setReg_zero]
  · rw [setReg_eq t r v hr]
    exact Vector.getElem_set_ne (by have := r.isLt; omega) _ ne

/-! ## Tokens (R258) -/

/-- The strand without its token counts. -/
def Strand.noTok (t : Strand) : Strand := { t with tokTsq := 0, tokMxe := 0, tokCpe0 := 0, tokCpe1 := 0, tokToTsq := 0 }

/-- The state without tokens. -/
def State.noTok (s : State) : State := { s with me := s.me.noTok, pairs := [] }

theorem setTokens_noTok (s : State) (f n : Nat) : (s.setTokens f n).noTok = s.noTok := by
  unfold State.setTokens; split <;> rfl

theorem giveToken_noTok (s : State) (t : BitVec 2) : (s.giveToken t).noTok = s.noTok := by
  unfold State.giveToken; split
  · exact setTokens_noTok ..
  · rfl

/-- Taking a token changes tokens and the mark that the wait is satisfied. -/
theorem takeToken_noTok (s : State) (t : BitVec 2) :
    (s.takeToken t).noTok = { s.noTok with me := { s.noTok.me with tkSat := t.getLsbD 0 || s.me.tkSat } } := by
  unfold State.takeToken
  split
  · rename_i h
    simp only [Bool.and_eq_true] at h
    rw [h.1, ← setTokens_noTok s s.me.waitF (s.tokens s.me s.me.waitF - 1)]
    rfl
  · rename_i h
    have : (t.getLsbD 0 || s.me.tkSat) = s.me.tkSat := by
      cases a : t.getLsbD 0 <;> cases b : s.me.tkSat <;> simp_all
    rw [this]
    rfl

@[simp] theorem setTokens_scopeCount (s : State) (f n : Nat) : (s.setTokens f n).me.scopeCount = s.me.scopeCount := congrArg (fun x => x.me.scopeCount) (setTokens_noTok s f n)
@[simp] theorem setTokens_scopeSticky (s : State) (f n : Nat) : (s.setTokens f n).me.scopeSticky = s.me.scopeSticky := congrArg (fun x => x.me.scopeSticky) (setTokens_noTok s f n)
@[simp] theorem setTokens_laneCount (s : State) (f n : Nat) : (s.setTokens f n).me.laneCount = s.me.laneCount := congrArg (fun x => x.me.laneCount) (setTokens_noTok s f n)
@[simp] theorem setTokens_sqEnd (s : State) (f n : Nat) : (s.setTokens f n).me.sqEnd = s.me.sqEnd := congrArg (fun x => x.me.sqEnd) (setTokens_noTok s f n)
@[simp] theorem setTokens_engFaults (s : State) (f n : Nat) : (s.setTokens f n).me.engFaults = s.me.engFaults := congrArg (fun x => x.me.engFaults) (setTokens_noTok s f n)
@[simp] theorem setTokens_inPark (s : State) (f n : Nat) : (s.setTokens f n).me.inPark = s.me.inPark := congrArg (fun x => x.me.inPark) (setTokens_noTok s f n)
@[simp] theorem setTokens_ctl (s : State) (f n : Nat) : (s.setTokens f n).me.ctl = s.me.ctl := congrArg (fun x => x.me.ctl) (setTokens_noTok s f n)
@[simp] theorem setTokens_ports (s : State) (f n : Nat) : (s.setTokens f n).ports = s.ports := congrArg (fun x => x.ports) (setTokens_noTok s f n)
@[simp] theorem setTokens_hostPorts (s : State) (f n : Nat) : (s.setTokens f n).hostPorts = s.hostPorts := congrArg (fun x => x.hostPorts) (setTokens_noTok s f n)
@[simp] theorem setTokens_mirrors (s : State) (f n : Nat) : (s.setTokens f n).mirrors = s.mirrors := congrArg (fun x => x.mirrors) (setTokens_noTok s f n)
@[simp] theorem setTokens_sentMirrors (s : State) (f n : Nat) : (s.setTokens f n).sentMirrors = s.sentMirrors := congrArg (fun x => x.sentMirrors) (setTokens_noTok s f n)
@[simp] theorem setTokens_arrivals (s : State) (f n : Nat) : (s.setTokens f n).arrivals = s.arrivals := congrArg (fun x => x.arrivals) (setTokens_noTok s f n)
@[simp] theorem giveToken_scopeCount (s : State) (t : BitVec 2) : (s.giveToken t).me.scopeCount = s.me.scopeCount := congrArg (fun x => x.me.scopeCount) (giveToken_noTok s t)
@[simp] theorem giveToken_scopeSticky (s : State) (t : BitVec 2) : (s.giveToken t).me.scopeSticky = s.me.scopeSticky := congrArg (fun x => x.me.scopeSticky) (giveToken_noTok s t)
@[simp] theorem giveToken_laneCount (s : State) (t : BitVec 2) : (s.giveToken t).me.laneCount = s.me.laneCount := congrArg (fun x => x.me.laneCount) (giveToken_noTok s t)
@[simp] theorem giveToken_sqEnd (s : State) (t : BitVec 2) : (s.giveToken t).me.sqEnd = s.me.sqEnd := congrArg (fun x => x.me.sqEnd) (giveToken_noTok s t)
@[simp] theorem giveToken_engFaults (s : State) (t : BitVec 2) : (s.giveToken t).me.engFaults = s.me.engFaults := congrArg (fun x => x.me.engFaults) (giveToken_noTok s t)
@[simp] theorem giveToken_inPark (s : State) (t : BitVec 2) : (s.giveToken t).me.inPark = s.me.inPark := congrArg (fun x => x.me.inPark) (giveToken_noTok s t)
@[simp] theorem giveToken_ctl (s : State) (t : BitVec 2) : (s.giveToken t).me.ctl = s.me.ctl := congrArg (fun x => x.me.ctl) (giveToken_noTok s t)
@[simp] theorem giveToken_ports (s : State) (t : BitVec 2) : (s.giveToken t).ports = s.ports := congrArg (fun x => x.ports) (giveToken_noTok s t)
@[simp] theorem giveToken_hostPorts (s : State) (t : BitVec 2) : (s.giveToken t).hostPorts = s.hostPorts := congrArg (fun x => x.hostPorts) (giveToken_noTok s t)
@[simp] theorem giveToken_mirrors (s : State) (t : BitVec 2) : (s.giveToken t).mirrors = s.mirrors := congrArg (fun x => x.mirrors) (giveToken_noTok s t)
@[simp] theorem giveToken_sentMirrors (s : State) (t : BitVec 2) : (s.giveToken t).sentMirrors = s.sentMirrors := congrArg (fun x => x.sentMirrors) (giveToken_noTok s t)
@[simp] theorem giveToken_arrivals (s : State) (t : BitVec 2) : (s.giveToken t).arrivals = s.arrivals := congrArg (fun x => x.arrivals) (giveToken_noTok s t)
@[simp] theorem takeToken_scopeCount (s : State) (t : BitVec 2) : (s.takeToken t).me.scopeCount = s.me.scopeCount := congrArg (fun x => x.me.scopeCount) (takeToken_noTok s t)
@[simp] theorem takeToken_scopeSticky (s : State) (t : BitVec 2) : (s.takeToken t).me.scopeSticky = s.me.scopeSticky := congrArg (fun x => x.me.scopeSticky) (takeToken_noTok s t)
@[simp] theorem takeToken_laneCount (s : State) (t : BitVec 2) : (s.takeToken t).me.laneCount = s.me.laneCount := congrArg (fun x => x.me.laneCount) (takeToken_noTok s t)
@[simp] theorem takeToken_sqEnd (s : State) (t : BitVec 2) : (s.takeToken t).me.sqEnd = s.me.sqEnd := congrArg (fun x => x.me.sqEnd) (takeToken_noTok s t)
@[simp] theorem takeToken_engFaults (s : State) (t : BitVec 2) : (s.takeToken t).me.engFaults = s.me.engFaults := congrArg (fun x => x.me.engFaults) (takeToken_noTok s t)
@[simp] theorem takeToken_inPark (s : State) (t : BitVec 2) : (s.takeToken t).me.inPark = s.me.inPark := congrArg (fun x => x.me.inPark) (takeToken_noTok s t)
@[simp] theorem takeToken_ctl (s : State) (t : BitVec 2) : (s.takeToken t).me.ctl = s.me.ctl := congrArg (fun x => x.me.ctl) (takeToken_noTok s t)
@[simp] theorem takeToken_ports (s : State) (t : BitVec 2) : (s.takeToken t).ports = s.ports := congrArg (fun x => x.ports) (takeToken_noTok s t)
@[simp] theorem takeToken_hostPorts (s : State) (t : BitVec 2) : (s.takeToken t).hostPorts = s.hostPorts := congrArg (fun x => x.hostPorts) (takeToken_noTok s t)
@[simp] theorem takeToken_mirrors (s : State) (t : BitVec 2) : (s.takeToken t).mirrors = s.mirrors := congrArg (fun x => x.mirrors) (takeToken_noTok s t)
@[simp] theorem takeToken_sentMirrors (s : State) (t : BitVec 2) : (s.takeToken t).sentMirrors = s.sentMirrors := congrArg (fun x => x.sentMirrors) (takeToken_noTok s t)
@[simp] theorem takeToken_arrivals (s : State) (t : BitVec 2) : (s.takeToken t).arrivals = s.arrivals := congrArg (fun x => x.arrivals) (takeToken_noTok s t)
@[simp] theorem setTokens_live (s : State) (f n : Nat) : (s.setTokens f n).me.live = s.me.live := congrArg (fun x => x.me.live) (setTokens_noTok s f n)
@[simp] theorem setTokens_core (s : State) (f n : Nat) : (s.setTokens f n).me.core = s.me.core := congrArg (fun x => x.me.core) (setTokens_noTok s f n)
@[simp] theorem setTokens_ctx (s : State) (f n : Nat) : (s.setTokens f n).me.ctx = s.me.ctx := congrArg (fun x => x.me.ctx) (setTokens_noTok s f n)
@[simp] theorem setTokens_part (s : State) (f n : Nat) : (s.setTokens f n).me.part = s.me.part := congrArg (fun x => x.me.part) (setTokens_noTok s f n)
@[simp] theorem setTokens_vf (s : State) (f n : Nat) : (s.setTokens f n).me.vf = s.me.vf := congrArg (fun x => x.me.vf) (setTokens_noTok s f n)
@[simp] theorem setTokens_strandId (s : State) (f n : Nat) : (s.setTokens f n).me.strandId = s.me.strandId := congrArg (fun x => x.me.strandId) (setTokens_noTok s f n)
@[simp] theorem setTokens_plyId (s : State) (f n : Nat) : (s.setTokens f n).me.plyId = s.me.plyId := congrArg (fun x => x.me.plyId) (setTokens_noTok s f n)
@[simp] theorem setTokens_stage (s : State) (f n : Nat) : (s.setTokens f n).me.stage = s.me.stage := congrArg (fun x => x.me.stage) (setTokens_noTok s f n)
@[simp] theorem setTokens_braid (s : State) (f n : Nat) : (s.setTokens f n).me.braid = s.me.braid := congrArg (fun x => x.me.braid) (setTokens_noTok s f n)
@[simp] theorem setTokens_braidNo (s : State) (f n : Nat) : (s.setTokens f n).me.braidNo = s.me.braidNo := congrArg (fun x => x.me.braidNo) (setTokens_noTok s f n)
@[simp] theorem setTokens_role (s : State) (f n : Nat) : (s.setTokens f n).me.role = s.me.role := congrArg (fun x => x.me.role) (setTokens_noTok s f n)
@[simp] theorem setTokens_regs (s : State) (f n : Nat) : (s.setTokens f n).me.regs = s.me.regs := congrArg (fun x => x.me.regs) (setTokens_noTok s f n)
@[simp] theorem setTokens_rows (s : State) (f n : Nat) : (s.setTokens f n).me.rows = s.me.rows := congrArg (fun x => x.me.rows) (setTokens_noTok s f n)
@[simp] theorem setTokens_masks (s : State) (f n : Nat) : (s.setTokens f n).me.masks = s.me.masks := congrArg (fun x => x.me.masks) (setTokens_noTok s f n)
@[simp] theorem setTokens_pc (s : State) (f n : Nat) : (s.setTokens f n).me.pc = s.me.pc := congrArg (fun x => x.me.pc) (setTokens_noTok s f n)
@[simp] theorem setTokens_image (s : State) (f n : Nat) : (s.setTokens f n).me.image = s.me.image := congrArg (fun x => x.me.image) (setTokens_noTok s f n)
@[simp] theorem setTokens_link (s : State) (f n : Nat) : (s.setTokens f n).me.link = s.me.link := congrArg (fun x => x.me.link) (setTokens_noTok s f n)
@[simp] theorem setTokens_fellOff (s : State) (f n : Nat) : (s.setTokens f n).me.fellOff = s.me.fellOff := congrArg (fun x => x.me.fellOff) (setTokens_noTok s f n)
@[simp] theorem setTokens_atVec (s : State) (f n : Nat) : (s.setTokens f n).me.atVec = s.me.atVec := congrArg (fun x => x.me.atVec) (setTokens_noTok s f n)
@[simp] theorem setTokens_limm (s : State) (f n : Nat) : (s.setTokens f n).me.limm = s.me.limm := congrArg (fun x => x.me.limm) (setTokens_noTok s f n)
@[simp] theorem setTokens_vl (s : State) (f n : Nat) : (s.setTokens f n).me.vl = s.me.vl := congrArg (fun x => x.me.vl) (setTokens_noTok s f n)
@[simp] theorem setTokens_rc (s : State) (f n : Nat) : (s.setTokens f n).me.rc = s.me.rc := congrArg (fun x => x.me.rc) (setTokens_noTok s f n)
@[simp] theorem setTokens_sew (s : State) (f n : Nat) : (s.setTokens f n).me.sew = s.me.sew := congrArg (fun x => x.me.sew) (setTokens_noTok s f n)
@[simp] theorem setTokens_repro (s : State) (f n : Nat) : (s.setTokens f n).me.repro = s.me.repro := congrArg (fun x => x.me.repro) (setTokens_noTok s f n)
@[simp] theorem setTokens_rm (s : State) (f n : Nat) : (s.setTokens f n).me.rm = s.me.rm := congrArg (fun x => x.me.rm) (setTokens_noTok s f n)
@[simp] theorem setTokens_ill (s : State) (f n : Nat) : (s.setTokens f n).me.ill = s.me.ill := congrArg (fun x => x.me.ill) (setTokens_noTok s f n)
@[simp] theorem setTokens_vstart (s : State) (f n : Nat) : (s.setTokens f n).me.vstart = s.me.vstart := congrArg (fun x => x.me.vstart) (setTokens_noTok s f n)
@[simp] theorem setTokens_rstart (s : State) (f n : Nat) : (s.setTokens f n).me.rstart = s.me.rstart := congrArg (fun x => x.me.rstart) (setTokens_noTok s f n)
@[simp] theorem setTokens_slices (s : State) (f n : Nat) : (s.setTokens f n).me.slices = s.me.slices := congrArg (fun x => x.me.slices) (setTokens_noTok s f n)
@[simp] theorem setTokens_pend (s : State) (f n : Nat) : (s.setTokens f n).me.pend = s.me.pend := congrArg (fun x => x.me.pend) (setTokens_noTok s f n)
@[simp] theorem setTokens_rowsInit (s : State) (f n : Nat) : (s.setTokens f n).me.rowsInit = s.me.rowsInit := congrArg (fun x => x.me.rowsInit) (setTokens_noTok s f n)
@[simp] theorem setTokens_osc (s : State) (f n : Nat) : (s.setTokens f n).me.osc = s.me.osc := congrArg (fun x => x.me.osc) (setTokens_noTok s f n)
@[simp] theorem setTokens_diceSeed (s : State) (f n : Nat) : (s.setTokens f n).me.diceSeed = s.me.diceSeed := congrArg (fun x => x.me.diceSeed) (setTokens_noTok s f n)
@[simp] theorem setTokens_fcsr (s : State) (f n : Nat) : (s.setTokens f n).me.fcsr = s.me.fcsr := congrArg (fun x => x.me.fcsr) (setTokens_noTok s f n)
@[simp] theorem setTokens_wmBind (s : State) (f n : Nat) : (s.setTokens f n).me.wmBind = s.me.wmBind := congrArg (fun x => x.me.wmBind) (setTokens_noTok s f n)
@[simp] theorem setTokens_waitF (s : State) (f n : Nat) : (s.setTokens f n).me.waitF = s.me.waitF := congrArg (fun x => x.me.waitF) (setTokens_noTok s f n)
@[simp] theorem setTokens_sigF (s : State) (f n : Nat) : (s.setTokens f n).me.sigF = s.me.sigF := congrArg (fun x => x.me.sigF) (setTokens_noTok s f n)
@[simp] theorem setTokens_jrnlBase (s : State) (f n : Nat) : (s.setTokens f n).me.jrnlBase = s.me.jrnlBase := congrArg (fun x => x.me.jrnlBase) (setTokens_noTok s f n)
@[simp] theorem setTokens_jrnlHead (s : State) (f n : Nat) : (s.setTokens f n).me.jrnlHead = s.me.jrnlHead := congrArg (fun x => x.me.jrnlHead) (setTokens_noTok s f n)
@[simp] theorem setTokens_jrnlDone (s : State) (f n : Nat) : (s.setTokens f n).me.jrnlDone = s.me.jrnlDone := congrArg (fun x => x.me.jrnlDone) (setTokens_noTok s f n)
@[simp] theorem setTokens_trapVec (s : State) (f n : Nat) : (s.setTokens f n).me.trapVec = s.me.trapVec := congrArg (fun x => x.me.trapVec) (setTokens_noTok s f n)
@[simp] theorem setTokens_trapCause (s : State) (f n : Nat) : (s.setTokens f n).me.trapCause = s.me.trapCause := congrArg (fun x => x.me.trapCause) (setTokens_noTok s f n)
@[simp] theorem setTokens_trapPc (s : State) (f n : Nat) : (s.setTokens f n).me.trapPc = s.me.trapPc := congrArg (fun x => x.me.trapPc) (setTokens_noTok s f n)
@[simp] theorem setTokens_trapVal (s : State) (f n : Nat) : (s.setTokens f n).me.trapVal = s.me.trapVal := congrArg (fun x => x.me.trapVal) (setTokens_noTok s f n)
@[simp] theorem setTokens_trapElem (s : State) (f n : Nat) : (s.setTokens f n).me.trapElem = s.me.trapElem := congrArg (fun x => x.me.trapElem) (setTokens_noTok s f n)
@[simp] theorem setTokens_pm (s : State) (f n : Nat) : (s.setTokens f n).me.pm = s.me.pm := congrArg (fun x => x.me.pm) (setTokens_noTok s f n)
@[simp] theorem setTokens_ppm (s : State) (f n : Nat) : (s.setTokens f n).me.ppm = s.me.ppm := congrArg (fun x => x.me.ppm) (setTokens_noTok s f n)
@[simp] theorem setTokens_tkw (s : State) (f n : Nat) : (s.setTokens f n).me.tkw = s.me.tkw := congrArg (fun x => x.me.tkw) (setTokens_noTok s f n)
@[simp] theorem setTokens_trapScratch (s : State) (f n : Nat) : (s.setTokens f n).me.trapScratch = s.me.trapScratch := congrArg (fun x => x.me.trapScratch) (setTokens_noTok s f n)
@[simp] theorem setTokens_resume (s : State) (f n : Nat) : (s.setTokens f n).me.resume = s.me.resume := congrArg (fun x => x.me.resume) (setTokens_noTok s f n)
@[simp] theorem setTokens_resumeUse (s : State) (f n : Nat) : (s.setTokens f n).me.resumeUse = s.me.resumeUse := congrArg (fun x => x.me.resumeUse) (setTokens_noTok s f n)
@[simp] theorem setTokens_sigPend (s : State) (f n : Nat) : (s.setTokens f n).me.sigPend = s.me.sigPend := congrArg (fun x => x.me.sigPend) (setTokens_noTok s f n)
@[simp] theorem setTokens_wake (s : State) (f n : Nat) : (s.setTokens f n).me.wake = s.me.wake := congrArg (fun x => x.me.wake) (setTokens_noTok s f n)
@[simp] theorem setTokens_links (s : State) (f n : Nat) : (s.setTokens f n).me.links = s.me.links := congrArg (fun x => x.me.links) (setTokens_noTok s f n)
@[simp] theorem setTokens_dq (s : State) (f n : Nat) : (s.setTokens f n).me.dq = s.me.dq := congrArg (fun x => x.me.dq) (setTokens_noTok s f n)
@[simp] theorem setTokens_issued (s : State) (f n : Nat) : (s.setTokens f n).me.issued = s.me.issued := congrArg (fun x => x.me.issued) (setTokens_noTok s f n)
@[simp] theorem setTokens_ssq (s : State) (f n : Nat) : (s.setTokens f n).me.ssq = s.me.ssq := congrArg (fun x => x.me.ssq) (setTokens_noTok s f n)
@[simp] theorem setTokens_ckpt (s : State) (f n : Nat) : (s.setTokens f n).me.ckpt = s.me.ckpt := congrArg (fun x => x.me.ckpt) (setTokens_noTok s f n)
@[simp] theorem setTokens_entered (s : State) (f n : Nat) : (s.setTokens f n).me.entered = s.me.entered := congrArg (fun x => x.me.entered) (setTokens_noTok s f n)
@[simp] theorem setTokens_parked (s : State) (f n : Nat) : (s.setTokens f n).me.parked = s.me.parked := congrArg (fun x => x.me.parked) (setTokens_noTok s f n)
@[simp] theorem setTokens_done_ (s : State) (f n : Nat) : (s.setTokens f n).me.done_ = s.me.done_ := congrArg (fun x => x.me.done_) (setTokens_noTok s f n)
@[simp] theorem setTokens_tsqLoad (s : State) (f n : Nat) : (s.setTokens f n).me.tsqLoad = s.me.tsqLoad := congrArg (fun x => x.me.tsqLoad) (setTokens_noTok s f n)
@[simp] theorem setTokens_anchorHold (s : State) (f n : Nat) : (s.setTokens f n).me.anchorHold = s.me.anchorHold := congrArg (fun x => x.me.anchorHold) (setTokens_noTok s f n)
@[simp] theorem setTokens_held (s : State) (f n : Nat) : (s.setTokens f n).me.held = s.me.held := congrArg (fun x => x.me.held) (setTokens_noTok s f n)
@[simp] theorem setTokens_denied (s : State) (f n : Nat) : (s.setTokens f n).me.denied = s.me.denied := congrArg (fun x => x.me.denied) (setTokens_noTok s f n)
@[simp] theorem setTokens_asyncFaults (s : State) (f n : Nat) : (s.setTokens f n).me.asyncFaults = s.me.asyncFaults := congrArg (fun x => x.me.asyncFaults) (setTokens_noTok s f n)
@[simp] theorem setTokens_engWait (s : State) (f n : Nat) : (s.setTokens f n).me.engWait = s.me.engWait := congrArg (fun x => x.me.engWait) (setTokens_noTok s f n)
@[simp] theorem setTokens_barAt (s : State) (f n : Nat) : (s.setTokens f n).me.barAt = s.me.barAt := congrArg (fun x => x.me.barAt) (setTokens_noTok s f n)
@[simp] theorem setTokens_xseq (s : State) (f n : Nat) : (s.setTokens f n).me.xseq = s.me.xseq := congrArg (fun x => x.me.xseq) (setTokens_noTok s f n)
@[simp] theorem setTokens_run (s : State) (f n : Nat) : (s.setTokens f n).me.run = s.me.run := congrArg (fun x => x.me.run) (setTokens_noTok s f n)
@[simp] theorem setTokens_others (s : State) (f n : Nat) : (s.setTokens f n).others = s.others := congrArg (fun x => x.others) (setTokens_noTok s f n)
@[simp] theorem setTokens_cores (s : State) (f n : Nat) : (s.setTokens f n).cores = s.cores := congrArg (fun x => x.cores) (setTokens_noTok s f n)
@[simp] theorem setTokens_coils (s : State) (f n : Nat) : (s.setTokens f n).coils = s.coils := congrArg (fun x => x.coils) (setTokens_noTok s f n)
@[simp] theorem setTokens_hanks (s : State) (f n : Nat) : (s.setTokens f n).hanks = s.hanks := congrArg (fun x => x.hanks) (setTokens_noTok s f n)
@[simp] theorem setTokens_chans (s : State) (f n : Nat) : (s.setTokens f n).chans = s.chans := congrArg (fun x => x.chans) (setTokens_noTok s f n)
@[simp] theorem setTokens_parts (s : State) (f n : Nat) : (s.setTokens f n).parts = s.parts := congrArg (fun x => x.parts) (setTokens_noTok s f n)
@[simp] theorem setTokens_vfs (s : State) (f n : Nat) : (s.setTokens f n).vfs = s.vfs := congrArg (fun x => x.vfs) (setTokens_noTok s f n)
@[simp] theorem setTokens_mem (s : State) (f n : Nat) : (s.setTokens f n).mem = s.mem := congrArg (fun x => x.mem) (setTokens_noTok s f n)
@[simp] theorem setTokens_tags (s : State) (f n : Nat) : (s.setTokens f n).tags = s.tags := congrArg (fun x => x.tags) (setTokens_noTok s f n)
@[simp] theorem setTokens_anchor (s : State) (f n : Nat) : (s.setTokens f n).anchor = s.anchor := congrArg (fun x => x.anchor) (setTokens_noTok s f n)
@[simp] theorem setTokens_freeCtr (s : State) (f n : Nat) : (s.setTokens f n).freeCtr = s.freeCtr := congrArg (fun x => x.freeCtr) (setTokens_noTok s f n)
@[simp] theorem setTokens_agenda (s : State) (f n : Nat) : (s.setTokens f n).agenda = s.agenda := congrArg (fun x => x.agenda) (setTokens_noTok s f n)
@[simp] theorem setTokens_waiting (s : State) (f n : Nat) : (s.setTokens f n).waiting = s.waiting := congrArg (fun x => x.waiting) (setTokens_noTok s f n)
@[simp] theorem setTokens_turns (s : State) (f n : Nat) : (s.setTokens f n).turns = s.turns := congrArg (fun x => x.turns) (setTokens_noTok s f n)
@[simp] theorem setTokens_picks (s : State) (f n : Nat) : (s.setTokens f n).picks = s.picks := congrArg (fun x => x.picks) (setTokens_noTok s f n)
@[simp] theorem setTokens_outbox (s : State) (f n : Nat) : (s.setTokens f n).outbox = s.outbox := congrArg (fun x => x.outbox) (setTokens_noTok s f n)
@[simp] theorem giveToken_live (s : State) (t : BitVec 2) : (s.giveToken t).me.live = s.me.live := congrArg (fun x => x.me.live) (giveToken_noTok s t)
@[simp] theorem giveToken_core (s : State) (t : BitVec 2) : (s.giveToken t).me.core = s.me.core := congrArg (fun x => x.me.core) (giveToken_noTok s t)
@[simp] theorem giveToken_ctx (s : State) (t : BitVec 2) : (s.giveToken t).me.ctx = s.me.ctx := congrArg (fun x => x.me.ctx) (giveToken_noTok s t)
@[simp] theorem giveToken_part (s : State) (t : BitVec 2) : (s.giveToken t).me.part = s.me.part := congrArg (fun x => x.me.part) (giveToken_noTok s t)
@[simp] theorem giveToken_vf (s : State) (t : BitVec 2) : (s.giveToken t).me.vf = s.me.vf := congrArg (fun x => x.me.vf) (giveToken_noTok s t)
@[simp] theorem giveToken_strandId (s : State) (t : BitVec 2) : (s.giveToken t).me.strandId = s.me.strandId := congrArg (fun x => x.me.strandId) (giveToken_noTok s t)
@[simp] theorem giveToken_plyId (s : State) (t : BitVec 2) : (s.giveToken t).me.plyId = s.me.plyId := congrArg (fun x => x.me.plyId) (giveToken_noTok s t)
@[simp] theorem giveToken_stage (s : State) (t : BitVec 2) : (s.giveToken t).me.stage = s.me.stage := congrArg (fun x => x.me.stage) (giveToken_noTok s t)
@[simp] theorem giveToken_braid (s : State) (t : BitVec 2) : (s.giveToken t).me.braid = s.me.braid := congrArg (fun x => x.me.braid) (giveToken_noTok s t)
@[simp] theorem giveToken_braidNo (s : State) (t : BitVec 2) : (s.giveToken t).me.braidNo = s.me.braidNo := congrArg (fun x => x.me.braidNo) (giveToken_noTok s t)
@[simp] theorem giveToken_role (s : State) (t : BitVec 2) : (s.giveToken t).me.role = s.me.role := congrArg (fun x => x.me.role) (giveToken_noTok s t)
@[simp] theorem giveToken_regs (s : State) (t : BitVec 2) : (s.giveToken t).me.regs = s.me.regs := congrArg (fun x => x.me.regs) (giveToken_noTok s t)
@[simp] theorem giveToken_rows (s : State) (t : BitVec 2) : (s.giveToken t).me.rows = s.me.rows := congrArg (fun x => x.me.rows) (giveToken_noTok s t)
@[simp] theorem giveToken_masks (s : State) (t : BitVec 2) : (s.giveToken t).me.masks = s.me.masks := congrArg (fun x => x.me.masks) (giveToken_noTok s t)
@[simp] theorem giveToken_pc (s : State) (t : BitVec 2) : (s.giveToken t).me.pc = s.me.pc := congrArg (fun x => x.me.pc) (giveToken_noTok s t)
@[simp] theorem giveToken_image (s : State) (t : BitVec 2) : (s.giveToken t).me.image = s.me.image := congrArg (fun x => x.me.image) (giveToken_noTok s t)
@[simp] theorem giveToken_link (s : State) (t : BitVec 2) : (s.giveToken t).me.link = s.me.link := congrArg (fun x => x.me.link) (giveToken_noTok s t)
@[simp] theorem giveToken_fellOff (s : State) (t : BitVec 2) : (s.giveToken t).me.fellOff = s.me.fellOff := congrArg (fun x => x.me.fellOff) (giveToken_noTok s t)
@[simp] theorem giveToken_atVec (s : State) (t : BitVec 2) : (s.giveToken t).me.atVec = s.me.atVec := congrArg (fun x => x.me.atVec) (giveToken_noTok s t)
@[simp] theorem giveToken_limm (s : State) (t : BitVec 2) : (s.giveToken t).me.limm = s.me.limm := congrArg (fun x => x.me.limm) (giveToken_noTok s t)
@[simp] theorem giveToken_vl (s : State) (t : BitVec 2) : (s.giveToken t).me.vl = s.me.vl := congrArg (fun x => x.me.vl) (giveToken_noTok s t)
@[simp] theorem giveToken_rc (s : State) (t : BitVec 2) : (s.giveToken t).me.rc = s.me.rc := congrArg (fun x => x.me.rc) (giveToken_noTok s t)
@[simp] theorem giveToken_sew (s : State) (t : BitVec 2) : (s.giveToken t).me.sew = s.me.sew := congrArg (fun x => x.me.sew) (giveToken_noTok s t)
@[simp] theorem giveToken_repro (s : State) (t : BitVec 2) : (s.giveToken t).me.repro = s.me.repro := congrArg (fun x => x.me.repro) (giveToken_noTok s t)
@[simp] theorem giveToken_rm (s : State) (t : BitVec 2) : (s.giveToken t).me.rm = s.me.rm := congrArg (fun x => x.me.rm) (giveToken_noTok s t)
@[simp] theorem giveToken_ill (s : State) (t : BitVec 2) : (s.giveToken t).me.ill = s.me.ill := congrArg (fun x => x.me.ill) (giveToken_noTok s t)
@[simp] theorem giveToken_vstart (s : State) (t : BitVec 2) : (s.giveToken t).me.vstart = s.me.vstart := congrArg (fun x => x.me.vstart) (giveToken_noTok s t)
@[simp] theorem giveToken_rstart (s : State) (t : BitVec 2) : (s.giveToken t).me.rstart = s.me.rstart := congrArg (fun x => x.me.rstart) (giveToken_noTok s t)
@[simp] theorem giveToken_slices (s : State) (t : BitVec 2) : (s.giveToken t).me.slices = s.me.slices := congrArg (fun x => x.me.slices) (giveToken_noTok s t)
@[simp] theorem giveToken_pend (s : State) (t : BitVec 2) : (s.giveToken t).me.pend = s.me.pend := congrArg (fun x => x.me.pend) (giveToken_noTok s t)
@[simp] theorem giveToken_rowsInit (s : State) (t : BitVec 2) : (s.giveToken t).me.rowsInit = s.me.rowsInit := congrArg (fun x => x.me.rowsInit) (giveToken_noTok s t)
@[simp] theorem giveToken_osc (s : State) (t : BitVec 2) : (s.giveToken t).me.osc = s.me.osc := congrArg (fun x => x.me.osc) (giveToken_noTok s t)
@[simp] theorem giveToken_diceSeed (s : State) (t : BitVec 2) : (s.giveToken t).me.diceSeed = s.me.diceSeed := congrArg (fun x => x.me.diceSeed) (giveToken_noTok s t)
@[simp] theorem giveToken_fcsr (s : State) (t : BitVec 2) : (s.giveToken t).me.fcsr = s.me.fcsr := congrArg (fun x => x.me.fcsr) (giveToken_noTok s t)
@[simp] theorem giveToken_wmBind (s : State) (t : BitVec 2) : (s.giveToken t).me.wmBind = s.me.wmBind := congrArg (fun x => x.me.wmBind) (giveToken_noTok s t)
@[simp] theorem giveToken_waitF (s : State) (t : BitVec 2) : (s.giveToken t).me.waitF = s.me.waitF := congrArg (fun x => x.me.waitF) (giveToken_noTok s t)
@[simp] theorem giveToken_sigF (s : State) (t : BitVec 2) : (s.giveToken t).me.sigF = s.me.sigF := congrArg (fun x => x.me.sigF) (giveToken_noTok s t)
@[simp] theorem giveToken_jrnlBase (s : State) (t : BitVec 2) : (s.giveToken t).me.jrnlBase = s.me.jrnlBase := congrArg (fun x => x.me.jrnlBase) (giveToken_noTok s t)
@[simp] theorem giveToken_jrnlHead (s : State) (t : BitVec 2) : (s.giveToken t).me.jrnlHead = s.me.jrnlHead := congrArg (fun x => x.me.jrnlHead) (giveToken_noTok s t)
@[simp] theorem giveToken_jrnlDone (s : State) (t : BitVec 2) : (s.giveToken t).me.jrnlDone = s.me.jrnlDone := congrArg (fun x => x.me.jrnlDone) (giveToken_noTok s t)
@[simp] theorem giveToken_trapVec (s : State) (t : BitVec 2) : (s.giveToken t).me.trapVec = s.me.trapVec := congrArg (fun x => x.me.trapVec) (giveToken_noTok s t)
@[simp] theorem giveToken_trapCause (s : State) (t : BitVec 2) : (s.giveToken t).me.trapCause = s.me.trapCause := congrArg (fun x => x.me.trapCause) (giveToken_noTok s t)
@[simp] theorem giveToken_trapPc (s : State) (t : BitVec 2) : (s.giveToken t).me.trapPc = s.me.trapPc := congrArg (fun x => x.me.trapPc) (giveToken_noTok s t)
@[simp] theorem giveToken_trapVal (s : State) (t : BitVec 2) : (s.giveToken t).me.trapVal = s.me.trapVal := congrArg (fun x => x.me.trapVal) (giveToken_noTok s t)
@[simp] theorem giveToken_trapElem (s : State) (t : BitVec 2) : (s.giveToken t).me.trapElem = s.me.trapElem := congrArg (fun x => x.me.trapElem) (giveToken_noTok s t)
@[simp] theorem giveToken_pm (s : State) (t : BitVec 2) : (s.giveToken t).me.pm = s.me.pm := congrArg (fun x => x.me.pm) (giveToken_noTok s t)
@[simp] theorem giveToken_ppm (s : State) (t : BitVec 2) : (s.giveToken t).me.ppm = s.me.ppm := congrArg (fun x => x.me.ppm) (giveToken_noTok s t)
@[simp] theorem giveToken_tkw (s : State) (t : BitVec 2) : (s.giveToken t).me.tkw = s.me.tkw := congrArg (fun x => x.me.tkw) (giveToken_noTok s t)
@[simp] theorem giveToken_trapScratch (s : State) (t : BitVec 2) : (s.giveToken t).me.trapScratch = s.me.trapScratch := congrArg (fun x => x.me.trapScratch) (giveToken_noTok s t)
@[simp] theorem giveToken_resume (s : State) (t : BitVec 2) : (s.giveToken t).me.resume = s.me.resume := congrArg (fun x => x.me.resume) (giveToken_noTok s t)
@[simp] theorem giveToken_resumeUse (s : State) (t : BitVec 2) : (s.giveToken t).me.resumeUse = s.me.resumeUse := congrArg (fun x => x.me.resumeUse) (giveToken_noTok s t)
@[simp] theorem giveToken_sigPend (s : State) (t : BitVec 2) : (s.giveToken t).me.sigPend = s.me.sigPend := congrArg (fun x => x.me.sigPend) (giveToken_noTok s t)
@[simp] theorem giveToken_wake (s : State) (t : BitVec 2) : (s.giveToken t).me.wake = s.me.wake := congrArg (fun x => x.me.wake) (giveToken_noTok s t)
@[simp] theorem giveToken_links (s : State) (t : BitVec 2) : (s.giveToken t).me.links = s.me.links := congrArg (fun x => x.me.links) (giveToken_noTok s t)
@[simp] theorem giveToken_dq (s : State) (t : BitVec 2) : (s.giveToken t).me.dq = s.me.dq := congrArg (fun x => x.me.dq) (giveToken_noTok s t)
@[simp] theorem giveToken_issued (s : State) (t : BitVec 2) : (s.giveToken t).me.issued = s.me.issued := congrArg (fun x => x.me.issued) (giveToken_noTok s t)
@[simp] theorem giveToken_ssq (s : State) (t : BitVec 2) : (s.giveToken t).me.ssq = s.me.ssq := congrArg (fun x => x.me.ssq) (giveToken_noTok s t)
@[simp] theorem giveToken_ckpt (s : State) (t : BitVec 2) : (s.giveToken t).me.ckpt = s.me.ckpt := congrArg (fun x => x.me.ckpt) (giveToken_noTok s t)
@[simp] theorem giveToken_entered (s : State) (t : BitVec 2) : (s.giveToken t).me.entered = s.me.entered := congrArg (fun x => x.me.entered) (giveToken_noTok s t)
@[simp] theorem giveToken_parked (s : State) (t : BitVec 2) : (s.giveToken t).me.parked = s.me.parked := congrArg (fun x => x.me.parked) (giveToken_noTok s t)
@[simp] theorem giveToken_done_ (s : State) (t : BitVec 2) : (s.giveToken t).me.done_ = s.me.done_ := congrArg (fun x => x.me.done_) (giveToken_noTok s t)
@[simp] theorem giveToken_tsqLoad (s : State) (t : BitVec 2) : (s.giveToken t).me.tsqLoad = s.me.tsqLoad := congrArg (fun x => x.me.tsqLoad) (giveToken_noTok s t)
@[simp] theorem giveToken_anchorHold (s : State) (t : BitVec 2) : (s.giveToken t).me.anchorHold = s.me.anchorHold := congrArg (fun x => x.me.anchorHold) (giveToken_noTok s t)
@[simp] theorem giveToken_held (s : State) (t : BitVec 2) : (s.giveToken t).me.held = s.me.held := congrArg (fun x => x.me.held) (giveToken_noTok s t)
@[simp] theorem giveToken_denied (s : State) (t : BitVec 2) : (s.giveToken t).me.denied = s.me.denied := congrArg (fun x => x.me.denied) (giveToken_noTok s t)
@[simp] theorem giveToken_asyncFaults (s : State) (t : BitVec 2) : (s.giveToken t).me.asyncFaults = s.me.asyncFaults := congrArg (fun x => x.me.asyncFaults) (giveToken_noTok s t)
@[simp] theorem giveToken_engWait (s : State) (t : BitVec 2) : (s.giveToken t).me.engWait = s.me.engWait := congrArg (fun x => x.me.engWait) (giveToken_noTok s t)
@[simp] theorem giveToken_barAt (s : State) (t : BitVec 2) : (s.giveToken t).me.barAt = s.me.barAt := congrArg (fun x => x.me.barAt) (giveToken_noTok s t)
@[simp] theorem giveToken_xseq (s : State) (t : BitVec 2) : (s.giveToken t).me.xseq = s.me.xseq := congrArg (fun x => x.me.xseq) (giveToken_noTok s t)
@[simp] theorem giveToken_run (s : State) (t : BitVec 2) : (s.giveToken t).me.run = s.me.run := congrArg (fun x => x.me.run) (giveToken_noTok s t)
@[simp] theorem giveToken_others (s : State) (t : BitVec 2) : (s.giveToken t).others = s.others := congrArg (fun x => x.others) (giveToken_noTok s t)
@[simp] theorem giveToken_cores (s : State) (t : BitVec 2) : (s.giveToken t).cores = s.cores := congrArg (fun x => x.cores) (giveToken_noTok s t)
@[simp] theorem giveToken_coils (s : State) (t : BitVec 2) : (s.giveToken t).coils = s.coils := congrArg (fun x => x.coils) (giveToken_noTok s t)
@[simp] theorem giveToken_hanks (s : State) (t : BitVec 2) : (s.giveToken t).hanks = s.hanks := congrArg (fun x => x.hanks) (giveToken_noTok s t)
@[simp] theorem giveToken_chans (s : State) (t : BitVec 2) : (s.giveToken t).chans = s.chans := congrArg (fun x => x.chans) (giveToken_noTok s t)
@[simp] theorem giveToken_parts (s : State) (t : BitVec 2) : (s.giveToken t).parts = s.parts := congrArg (fun x => x.parts) (giveToken_noTok s t)
@[simp] theorem giveToken_vfs (s : State) (t : BitVec 2) : (s.giveToken t).vfs = s.vfs := congrArg (fun x => x.vfs) (giveToken_noTok s t)
@[simp] theorem giveToken_mem (s : State) (t : BitVec 2) : (s.giveToken t).mem = s.mem := congrArg (fun x => x.mem) (giveToken_noTok s t)
@[simp] theorem giveToken_tags (s : State) (t : BitVec 2) : (s.giveToken t).tags = s.tags := congrArg (fun x => x.tags) (giveToken_noTok s t)
@[simp] theorem giveToken_anchor (s : State) (t : BitVec 2) : (s.giveToken t).anchor = s.anchor := congrArg (fun x => x.anchor) (giveToken_noTok s t)
@[simp] theorem giveToken_freeCtr (s : State) (t : BitVec 2) : (s.giveToken t).freeCtr = s.freeCtr := congrArg (fun x => x.freeCtr) (giveToken_noTok s t)
@[simp] theorem giveToken_agenda (s : State) (t : BitVec 2) : (s.giveToken t).agenda = s.agenda := congrArg (fun x => x.agenda) (giveToken_noTok s t)
@[simp] theorem giveToken_waiting (s : State) (t : BitVec 2) : (s.giveToken t).waiting = s.waiting := congrArg (fun x => x.waiting) (giveToken_noTok s t)
@[simp] theorem giveToken_turns (s : State) (t : BitVec 2) : (s.giveToken t).turns = s.turns := congrArg (fun x => x.turns) (giveToken_noTok s t)
@[simp] theorem giveToken_picks (s : State) (t : BitVec 2) : (s.giveToken t).picks = s.picks := congrArg (fun x => x.picks) (giveToken_noTok s t)
@[simp] theorem giveToken_outbox (s : State) (t : BitVec 2) : (s.giveToken t).outbox = s.outbox := congrArg (fun x => x.outbox) (giveToken_noTok s t)
@[simp] theorem takeToken_live (s : State) (t : BitVec 2) : (s.takeToken t).me.live = s.me.live := congrArg (fun x => x.me.live) (takeToken_noTok s t)
@[simp] theorem takeToken_core (s : State) (t : BitVec 2) : (s.takeToken t).me.core = s.me.core := congrArg (fun x => x.me.core) (takeToken_noTok s t)
@[simp] theorem takeToken_ctx (s : State) (t : BitVec 2) : (s.takeToken t).me.ctx = s.me.ctx := congrArg (fun x => x.me.ctx) (takeToken_noTok s t)
@[simp] theorem takeToken_part (s : State) (t : BitVec 2) : (s.takeToken t).me.part = s.me.part := congrArg (fun x => x.me.part) (takeToken_noTok s t)
@[simp] theorem takeToken_vf (s : State) (t : BitVec 2) : (s.takeToken t).me.vf = s.me.vf := congrArg (fun x => x.me.vf) (takeToken_noTok s t)
@[simp] theorem takeToken_strandId (s : State) (t : BitVec 2) : (s.takeToken t).me.strandId = s.me.strandId := congrArg (fun x => x.me.strandId) (takeToken_noTok s t)
@[simp] theorem takeToken_plyId (s : State) (t : BitVec 2) : (s.takeToken t).me.plyId = s.me.plyId := congrArg (fun x => x.me.plyId) (takeToken_noTok s t)
@[simp] theorem takeToken_stage (s : State) (t : BitVec 2) : (s.takeToken t).me.stage = s.me.stage := congrArg (fun x => x.me.stage) (takeToken_noTok s t)
@[simp] theorem takeToken_braid (s : State) (t : BitVec 2) : (s.takeToken t).me.braid = s.me.braid := congrArg (fun x => x.me.braid) (takeToken_noTok s t)
@[simp] theorem takeToken_braidNo (s : State) (t : BitVec 2) : (s.takeToken t).me.braidNo = s.me.braidNo := congrArg (fun x => x.me.braidNo) (takeToken_noTok s t)
@[simp] theorem takeToken_role (s : State) (t : BitVec 2) : (s.takeToken t).me.role = s.me.role := congrArg (fun x => x.me.role) (takeToken_noTok s t)
@[simp] theorem takeToken_regs (s : State) (t : BitVec 2) : (s.takeToken t).me.regs = s.me.regs := congrArg (fun x => x.me.regs) (takeToken_noTok s t)
@[simp] theorem takeToken_rows (s : State) (t : BitVec 2) : (s.takeToken t).me.rows = s.me.rows := congrArg (fun x => x.me.rows) (takeToken_noTok s t)
@[simp] theorem takeToken_masks (s : State) (t : BitVec 2) : (s.takeToken t).me.masks = s.me.masks := congrArg (fun x => x.me.masks) (takeToken_noTok s t)
@[simp] theorem takeToken_pc (s : State) (t : BitVec 2) : (s.takeToken t).me.pc = s.me.pc := congrArg (fun x => x.me.pc) (takeToken_noTok s t)
@[simp] theorem takeToken_image (s : State) (t : BitVec 2) : (s.takeToken t).me.image = s.me.image := congrArg (fun x => x.me.image) (takeToken_noTok s t)
@[simp] theorem takeToken_link (s : State) (t : BitVec 2) : (s.takeToken t).me.link = s.me.link := congrArg (fun x => x.me.link) (takeToken_noTok s t)
@[simp] theorem takeToken_fellOff (s : State) (t : BitVec 2) : (s.takeToken t).me.fellOff = s.me.fellOff := congrArg (fun x => x.me.fellOff) (takeToken_noTok s t)
@[simp] theorem takeToken_atVec (s : State) (t : BitVec 2) : (s.takeToken t).me.atVec = s.me.atVec := congrArg (fun x => x.me.atVec) (takeToken_noTok s t)
@[simp] theorem takeToken_limm (s : State) (t : BitVec 2) : (s.takeToken t).me.limm = s.me.limm := congrArg (fun x => x.me.limm) (takeToken_noTok s t)
@[simp] theorem takeToken_vl (s : State) (t : BitVec 2) : (s.takeToken t).me.vl = s.me.vl := congrArg (fun x => x.me.vl) (takeToken_noTok s t)
@[simp] theorem takeToken_rc (s : State) (t : BitVec 2) : (s.takeToken t).me.rc = s.me.rc := congrArg (fun x => x.me.rc) (takeToken_noTok s t)
@[simp] theorem takeToken_sew (s : State) (t : BitVec 2) : (s.takeToken t).me.sew = s.me.sew := congrArg (fun x => x.me.sew) (takeToken_noTok s t)
@[simp] theorem takeToken_repro (s : State) (t : BitVec 2) : (s.takeToken t).me.repro = s.me.repro := congrArg (fun x => x.me.repro) (takeToken_noTok s t)
@[simp] theorem takeToken_rm (s : State) (t : BitVec 2) : (s.takeToken t).me.rm = s.me.rm := congrArg (fun x => x.me.rm) (takeToken_noTok s t)
@[simp] theorem takeToken_ill (s : State) (t : BitVec 2) : (s.takeToken t).me.ill = s.me.ill := congrArg (fun x => x.me.ill) (takeToken_noTok s t)
@[simp] theorem takeToken_vstart (s : State) (t : BitVec 2) : (s.takeToken t).me.vstart = s.me.vstart := congrArg (fun x => x.me.vstart) (takeToken_noTok s t)
@[simp] theorem takeToken_rstart (s : State) (t : BitVec 2) : (s.takeToken t).me.rstart = s.me.rstart := congrArg (fun x => x.me.rstart) (takeToken_noTok s t)
@[simp] theorem takeToken_slices (s : State) (t : BitVec 2) : (s.takeToken t).me.slices = s.me.slices := congrArg (fun x => x.me.slices) (takeToken_noTok s t)
@[simp] theorem takeToken_pend (s : State) (t : BitVec 2) : (s.takeToken t).me.pend = s.me.pend := congrArg (fun x => x.me.pend) (takeToken_noTok s t)
@[simp] theorem takeToken_rowsInit (s : State) (t : BitVec 2) : (s.takeToken t).me.rowsInit = s.me.rowsInit := congrArg (fun x => x.me.rowsInit) (takeToken_noTok s t)
@[simp] theorem takeToken_osc (s : State) (t : BitVec 2) : (s.takeToken t).me.osc = s.me.osc := congrArg (fun x => x.me.osc) (takeToken_noTok s t)
@[simp] theorem takeToken_diceSeed (s : State) (t : BitVec 2) : (s.takeToken t).me.diceSeed = s.me.diceSeed := congrArg (fun x => x.me.diceSeed) (takeToken_noTok s t)
@[simp] theorem takeToken_fcsr (s : State) (t : BitVec 2) : (s.takeToken t).me.fcsr = s.me.fcsr := congrArg (fun x => x.me.fcsr) (takeToken_noTok s t)
@[simp] theorem takeToken_wmBind (s : State) (t : BitVec 2) : (s.takeToken t).me.wmBind = s.me.wmBind := congrArg (fun x => x.me.wmBind) (takeToken_noTok s t)
@[simp] theorem takeToken_waitF (s : State) (t : BitVec 2) : (s.takeToken t).me.waitF = s.me.waitF := congrArg (fun x => x.me.waitF) (takeToken_noTok s t)
@[simp] theorem takeToken_sigF (s : State) (t : BitVec 2) : (s.takeToken t).me.sigF = s.me.sigF := congrArg (fun x => x.me.sigF) (takeToken_noTok s t)
@[simp] theorem takeToken_jrnlBase (s : State) (t : BitVec 2) : (s.takeToken t).me.jrnlBase = s.me.jrnlBase := congrArg (fun x => x.me.jrnlBase) (takeToken_noTok s t)
@[simp] theorem takeToken_jrnlHead (s : State) (t : BitVec 2) : (s.takeToken t).me.jrnlHead = s.me.jrnlHead := congrArg (fun x => x.me.jrnlHead) (takeToken_noTok s t)
@[simp] theorem takeToken_jrnlDone (s : State) (t : BitVec 2) : (s.takeToken t).me.jrnlDone = s.me.jrnlDone := congrArg (fun x => x.me.jrnlDone) (takeToken_noTok s t)
@[simp] theorem takeToken_trapVec (s : State) (t : BitVec 2) : (s.takeToken t).me.trapVec = s.me.trapVec := congrArg (fun x => x.me.trapVec) (takeToken_noTok s t)
@[simp] theorem takeToken_trapCause (s : State) (t : BitVec 2) : (s.takeToken t).me.trapCause = s.me.trapCause := congrArg (fun x => x.me.trapCause) (takeToken_noTok s t)
@[simp] theorem takeToken_trapPc (s : State) (t : BitVec 2) : (s.takeToken t).me.trapPc = s.me.trapPc := congrArg (fun x => x.me.trapPc) (takeToken_noTok s t)
@[simp] theorem takeToken_trapVal (s : State) (t : BitVec 2) : (s.takeToken t).me.trapVal = s.me.trapVal := congrArg (fun x => x.me.trapVal) (takeToken_noTok s t)
@[simp] theorem takeToken_trapElem (s : State) (t : BitVec 2) : (s.takeToken t).me.trapElem = s.me.trapElem := congrArg (fun x => x.me.trapElem) (takeToken_noTok s t)
@[simp] theorem takeToken_pm (s : State) (t : BitVec 2) : (s.takeToken t).me.pm = s.me.pm := congrArg (fun x => x.me.pm) (takeToken_noTok s t)
@[simp] theorem takeToken_ppm (s : State) (t : BitVec 2) : (s.takeToken t).me.ppm = s.me.ppm := congrArg (fun x => x.me.ppm) (takeToken_noTok s t)
@[simp] theorem takeToken_tkw (s : State) (t : BitVec 2) : (s.takeToken t).me.tkw = s.me.tkw := congrArg (fun x => x.me.tkw) (takeToken_noTok s t)
@[simp] theorem takeToken_trapScratch (s : State) (t : BitVec 2) : (s.takeToken t).me.trapScratch = s.me.trapScratch := congrArg (fun x => x.me.trapScratch) (takeToken_noTok s t)
@[simp] theorem takeToken_resume (s : State) (t : BitVec 2) : (s.takeToken t).me.resume = s.me.resume := congrArg (fun x => x.me.resume) (takeToken_noTok s t)
@[simp] theorem takeToken_resumeUse (s : State) (t : BitVec 2) : (s.takeToken t).me.resumeUse = s.me.resumeUse := congrArg (fun x => x.me.resumeUse) (takeToken_noTok s t)
@[simp] theorem takeToken_sigPend (s : State) (t : BitVec 2) : (s.takeToken t).me.sigPend = s.me.sigPend := congrArg (fun x => x.me.sigPend) (takeToken_noTok s t)
@[simp] theorem takeToken_wake (s : State) (t : BitVec 2) : (s.takeToken t).me.wake = s.me.wake := congrArg (fun x => x.me.wake) (takeToken_noTok s t)
@[simp] theorem takeToken_links (s : State) (t : BitVec 2) : (s.takeToken t).me.links = s.me.links := congrArg (fun x => x.me.links) (takeToken_noTok s t)
@[simp] theorem takeToken_dq (s : State) (t : BitVec 2) : (s.takeToken t).me.dq = s.me.dq := congrArg (fun x => x.me.dq) (takeToken_noTok s t)
@[simp] theorem takeToken_issued (s : State) (t : BitVec 2) : (s.takeToken t).me.issued = s.me.issued := congrArg (fun x => x.me.issued) (takeToken_noTok s t)
@[simp] theorem takeToken_ssq (s : State) (t : BitVec 2) : (s.takeToken t).me.ssq = s.me.ssq := congrArg (fun x => x.me.ssq) (takeToken_noTok s t)
@[simp] theorem takeToken_ckpt (s : State) (t : BitVec 2) : (s.takeToken t).me.ckpt = s.me.ckpt := congrArg (fun x => x.me.ckpt) (takeToken_noTok s t)
@[simp] theorem takeToken_entered (s : State) (t : BitVec 2) : (s.takeToken t).me.entered = s.me.entered := congrArg (fun x => x.me.entered) (takeToken_noTok s t)
@[simp] theorem takeToken_parked (s : State) (t : BitVec 2) : (s.takeToken t).me.parked = s.me.parked := congrArg (fun x => x.me.parked) (takeToken_noTok s t)
@[simp] theorem takeToken_done_ (s : State) (t : BitVec 2) : (s.takeToken t).me.done_ = s.me.done_ := congrArg (fun x => x.me.done_) (takeToken_noTok s t)
@[simp] theorem takeToken_tsqLoad (s : State) (t : BitVec 2) : (s.takeToken t).me.tsqLoad = s.me.tsqLoad := congrArg (fun x => x.me.tsqLoad) (takeToken_noTok s t)
@[simp] theorem takeToken_anchorHold (s : State) (t : BitVec 2) : (s.takeToken t).me.anchorHold = s.me.anchorHold := congrArg (fun x => x.me.anchorHold) (takeToken_noTok s t)
@[simp] theorem takeToken_held (s : State) (t : BitVec 2) : (s.takeToken t).me.held = s.me.held := congrArg (fun x => x.me.held) (takeToken_noTok s t)
@[simp] theorem takeToken_denied (s : State) (t : BitVec 2) : (s.takeToken t).me.denied = s.me.denied := congrArg (fun x => x.me.denied) (takeToken_noTok s t)
@[simp] theorem takeToken_asyncFaults (s : State) (t : BitVec 2) : (s.takeToken t).me.asyncFaults = s.me.asyncFaults := congrArg (fun x => x.me.asyncFaults) (takeToken_noTok s t)
@[simp] theorem takeToken_engWait (s : State) (t : BitVec 2) : (s.takeToken t).me.engWait = s.me.engWait := congrArg (fun x => x.me.engWait) (takeToken_noTok s t)
@[simp] theorem takeToken_barAt (s : State) (t : BitVec 2) : (s.takeToken t).me.barAt = s.me.barAt := congrArg (fun x => x.me.barAt) (takeToken_noTok s t)
@[simp] theorem takeToken_xseq (s : State) (t : BitVec 2) : (s.takeToken t).me.xseq = s.me.xseq := congrArg (fun x => x.me.xseq) (takeToken_noTok s t)
@[simp] theorem takeToken_run (s : State) (t : BitVec 2) : (s.takeToken t).me.run = s.me.run := congrArg (fun x => x.me.run) (takeToken_noTok s t)
@[simp] theorem takeToken_others (s : State) (t : BitVec 2) : (s.takeToken t).others = s.others := congrArg (fun x => x.others) (takeToken_noTok s t)
@[simp] theorem takeToken_cores (s : State) (t : BitVec 2) : (s.takeToken t).cores = s.cores := congrArg (fun x => x.cores) (takeToken_noTok s t)
@[simp] theorem takeToken_coils (s : State) (t : BitVec 2) : (s.takeToken t).coils = s.coils := congrArg (fun x => x.coils) (takeToken_noTok s t)
@[simp] theorem takeToken_hanks (s : State) (t : BitVec 2) : (s.takeToken t).hanks = s.hanks := congrArg (fun x => x.hanks) (takeToken_noTok s t)
@[simp] theorem takeToken_chans (s : State) (t : BitVec 2) : (s.takeToken t).chans = s.chans := congrArg (fun x => x.chans) (takeToken_noTok s t)
@[simp] theorem takeToken_parts (s : State) (t : BitVec 2) : (s.takeToken t).parts = s.parts := congrArg (fun x => x.parts) (takeToken_noTok s t)
@[simp] theorem takeToken_vfs (s : State) (t : BitVec 2) : (s.takeToken t).vfs = s.vfs := congrArg (fun x => x.vfs) (takeToken_noTok s t)
@[simp] theorem takeToken_mem (s : State) (t : BitVec 2) : (s.takeToken t).mem = s.mem := congrArg (fun x => x.mem) (takeToken_noTok s t)
@[simp] theorem takeToken_tags (s : State) (t : BitVec 2) : (s.takeToken t).tags = s.tags := congrArg (fun x => x.tags) (takeToken_noTok s t)
@[simp] theorem takeToken_anchor (s : State) (t : BitVec 2) : (s.takeToken t).anchor = s.anchor := congrArg (fun x => x.anchor) (takeToken_noTok s t)
@[simp] theorem takeToken_freeCtr (s : State) (t : BitVec 2) : (s.takeToken t).freeCtr = s.freeCtr := congrArg (fun x => x.freeCtr) (takeToken_noTok s t)
@[simp] theorem takeToken_agenda (s : State) (t : BitVec 2) : (s.takeToken t).agenda = s.agenda := congrArg (fun x => x.agenda) (takeToken_noTok s t)
@[simp] theorem takeToken_waiting (s : State) (t : BitVec 2) : (s.takeToken t).waiting = s.waiting := congrArg (fun x => x.waiting) (takeToken_noTok s t)
@[simp] theorem takeToken_turns (s : State) (t : BitVec 2) : (s.takeToken t).turns = s.turns := congrArg (fun x => x.turns) (takeToken_noTok s t)
@[simp] theorem takeToken_picks (s : State) (t : BitVec 2) : (s.takeToken t).picks = s.picks := congrArg (fun x => x.picks) (takeToken_noTok s t)
@[simp] theorem takeToken_outbox (s : State) (t : BitVec 2) : (s.takeToken t).outbox = s.outbox := congrArg (fun x => x.outbox) (takeToken_noTok s t)

@[simp] theorem setTokens_tkSat (s : State) (f n : Nat) : (s.setTokens f n).me.tkSat = s.me.tkSat :=
  congrArg (fun x => x.me.tkSat) (setTokens_noTok s f n)

@[simp] theorem takeToken_tkSat (s : State) (t : BitVec 2) : (s.takeToken t).me.tkSat = (t.getLsbD 0 || s.me.tkSat) :=
  congrArg (fun x => x.me.tkSat) (takeToken_noTok s t)

/-! ## Tables -/

theorem lookup_put_same {α : Type} (l : List (Nat × α)) (k : Nat) (v : α) : (put l k v).lookup k = some v := by
  induction l with
  | nil => simp [put]
  | cons h t ih =>
    obtain ⟨j, w⟩ := h
    simp only [put]
    split
    · simp
    · split
      · simp
      · rename_i ne
        simp [List.lookup_cons, beq_eq_false_iff_ne.2 ne, ih]

theorem lookup_put_other {α : Type} (l : List (Nat × α)) (k j : Nat) (v : α) (h : j ≠ k) : (put l k v).lookup j = l.lookup j := by
  induction l with
  | nil => simp [put, List.lookup_cons, beq_eq_false_iff_ne.2 h]
  | cons e t ih =>
    obtain ⟨i, w⟩ := e
    simp only [put]
    split
    · simp [List.lookup_cons, beq_eq_false_iff_ne.2 h]
    · split
      · rename_i eq
        subst eq
        simp [List.lookup_cons, beq_eq_false_iff_ne.2 h]
      · simp [List.lookup_cons, ih]

theorem look_put_same {α : Type} (l : List (Nat × α)) (k : Nat) (v d : α) : look (put l k v) k d = v := by
  simp [look, lookup_put_same]

theorem look_put_other {α : Type} (l : List (Nat × α)) (k j : Nat) (v d : α) (h : j ≠ k) : look (put l k v) j d = look l j d := by
  simp [look, lookup_put_other l k j v h]

@[simp] theorem takeToken_reg (s : State) (t : BitVec 2) (r : BitVec 5) : (s.takeToken t).reg r = s.reg r := by
  simp [State.reg, Strand.reg]

@[simp] theorem takeToken_succ (s : State) (t : BitVec 2) : (s.takeToken t).me.succ = s.me.succ := by simp [Strand.succ]

@[simp] theorem takeToken_target (s : State) (t : BitVec 2) (o : Int) (k : Nat) :
    (s.takeToken t).me.target o k = s.me.target o k := by simp [Strand.target]

@[simp] theorem takeToken_limm24 (s : State) (t : BitVec 2) : (s.takeToken t).limm24 = s.limm24 := by simp [State.limm24]

@[simp] theorem takeToken_immSI (s : State) (t : BitVec 2) (i : BitVec 12) : (s.takeToken t).immSI i = s.immSI i := by
  simp [State.immSI]

@[simp] theorem takeToken_capA (s : State) (t : BitVec 2) (r : BitVec 5) : (s.takeToken t).capA r = s.capA r := by
  simp [State.capA]

@[simp] theorem takeToken_capB (s : State) (t : BitVec 2) (r : BitVec 5) : (s.takeToken t).capB r = s.capB r := by
  simp [State.capB]

/-! ## Issue and retirement (R34, R35) -/

/-- Taking a token leaves no more tokens in any FIFO than there were. -/
theorem tokens_setTokens_pred_le (s : State) (g f : Nat) :
    (s.setTokens g (s.tokens s.me g - 1)).tokens (s.setTokens g (s.tokens s.me g - 1)).me f ≤ s.tokens s.me f := by
  have key (p : Pair) : look (put s.pairs s.me.pairNo p) s.me.pairNo ({} : Pair) = p := look_put_same ..
  unfold State.setTokens
  split <;> cases hr : s.me.role == 0 <;>
    simp_all [State.tokens, State.setPair, State.pair, Strand.pairNo] <;> split <;> simp_all

theorem canGive_takeToken (s : State) (t : BitVec 2) (h : s.canGive t = true) : (s.takeToken t).canGive t = true := by
  have le := tokens_setTokens_pred_le s s.me.waitF s.me.sigF
  have sig := setTokens_sigF s s.me.waitF (s.tokens s.me s.me.waitF - 1)
  unfold State.takeToken
  split
  · unfold State.canGive at h ⊢
    cases b : t.getLsbD 1
    · rfl
    · rw [b] at h
      simp only [Bool.not_true, Bool.false_or, decide_eq_true_eq] at h ⊢
      refine Nat.lt_of_le_of_lt ?_ h
      show (s.setTokens s.me.waitF (s.tokens s.me s.me.waitF - 1)).tokens
        (s.setTokens s.me.waitF (s.tokens s.me s.me.waitF - 1)).me
        (s.setTokens s.me.waitF (s.tokens s.me s.me.waitF - 1)).me.sigF ≤ _
      rw [sig]
      exact le
  · exact h

/-- An instruction that is ready performs its effect, with its token taken. -/
theorem runInstr_ready (t : BitVec 2) (ahead : Bool) (body : State → Eff) (s : State) (h : s.ready t ahead = true) :
    runInstr t ahead body s = (body (s.takeToken t)).settle t := by
  simp only [State.ready, Bool.and_eq_true, beq_iff_eq, Option.isNone_iff_eq_none] at h
  simp [runInstr, h.1.1, h.1.2]

theorem ready_canGive {s : State} {t : BitVec 2} {ahead : Bool} (h : s.ready t ahead = true) : (s.takeToken t).canGive t = true := by
  simp only [State.ready, Bool.and_eq_true] at h
  exact canGive_takeToken s t h.2

theorem settle_done (r : State) (t : BitVec 2) (h : r.canGive t = true) : (Eff.done r).settle t = .next (r.retired t) := by
  simp [Eff.settle, State.retire, h, State.retired]

/-- Done is a next state, whether or not the signal has room. -/
theorem settle_retires (r : State) (t : BitVec 2) : (Eff.done r).settle t = .next (r.retires t) := by
  show r.retire t r.me.succ = _
  unfold State.retire State.retires
  by_cases h : r.canGive t = true
  · rw [if_pos h, if_pos h]; rfl
  · rw [if_neg h, if_neg h]

/-- An instruction that issues and is done answers a next state. -/
theorem runInstr_retires {s : State} {t : BitVec 2} {ahead : Bool} {body : State → Eff} {u : State} (h : s.ready t ahead = true)
    (hb : body (s.takeToken t) = .done u) : runInstr t ahead body s = .next (u.retires t) := by
  rw [runInstr_ready t ahead body s h, hb, settle_retires]

theorem settle_jump (r : State) (t : BitVec 2) (pc : Word) (h : r.canGive t = true) :
    (Eff.jump r pc).settle t = .next (r.retiredTo t pc) := by
  simp [Eff.settle, State.retire, h, State.retiredTo]

/-! ## What register and flag writes leave alone -/

theorem record_only (t : Strand) (k : Nat) (o : Word) : t.record k o = { t with ckpt := (t.record k o).ckpt } := by
  unfold Strand.record; split <;> rfl

theorem strand_setReg_only (t : Strand) (d : BitVec 5) (v : Word) : t.setReg d v = { t with regs := (t.setReg d v).regs } := by
  unfold Strand.setReg; split <;> rfl

/-- A scalar register write changes registers and the checkpoint log. -/
theorem setReg_only (s : State) (d : BitVec 5) (v : Word) :
    s.setReg d v = { s with me := { s.me with regs := (s.setReg d v).me.regs, ckpt := (s.setReg d v).me.ckpt } } := by
  unfold State.setReg; rw [strand_setReg_only, record_only]

/-- A vector instruction's scalar result changes registers. -/
theorem setRegV_only (s : State) (d : BitVec 5) (v : Word) :
    s.setRegV d v = { s with me := { s.me with regs := (s.setRegV d v).me.regs } } := by
  unfold State.setRegV; rw [strand_setReg_only]

/-- Raising flags changes FCSR and the checkpoint log. -/
theorem raise_only (s : State) (f : Nat) :
    s.raise f = { s with me := { s.me with fcsr := (s.raise f).me.fcsr, ckpt := (s.raise f).me.ckpt } } := by
  unfold State.raise
  split
  · rfl
  · split
    · rfl
    · rw [record_only]

theorem setRow_only (t : Strand) (r : Nat) (v : Row) : t.setRow r v = { t with rows := (t.setRow r v).rows } := rfl

theorem setMask_only (t : Strand) (k : Nat) (v : MaskBits) : t.setMask k v = { t with masks := (t.setMask k v).masks } := by
  unfold Strand.setMask; split <;> rfl

@[simp] theorem setReg_canGive (s : State) (d : BitVec 5) (v : Word) (t : BitVec 2) : (s.setReg d v).canGive t = s.canGive t := by
  rw [setReg_only]; rfl

@[simp] theorem setReg_succ (s : State) (d : BitVec 5) (v : Word) : (s.setReg d v).me.succ = s.me.succ := by rw [setReg_only]; rfl

@[simp] theorem setReg_target (s : State) (d : BitVec 5) (v : Word) (o : Int) (k : Nat) :
    (s.setReg d v).me.target o k = s.me.target o k := by rw [setReg_only]; rfl

@[simp] theorem raise_canGive (s : State) (f : Nat) (t : BitVec 2) : (s.raise f).canGive t = s.canGive t := by rw [raise_only]; rfl

@[simp] theorem raise_succ (s : State) (f : Nat) : (s.raise f).me.succ = s.me.succ := by rw [raise_only]; rfl

@[simp] theorem raise_reg (s : State) (f : Nat) (r : BitVec 5) : (s.raise f).reg r = s.reg r := by rw [raise_only]; rfl

/-- An instruction that computes one scalar register, where it issues. -/
theorem runReg_ready {s : State} {t : BitVec 2} (h : s.ready t true = true) (d : BitVec 5) (f : State → Word) :
    runReg t d f s = .next (((s.takeToken t).setReg d (f (s.takeToken t))).retired t) := by
  unfold runReg runAhead
  rw [runInstr_ready _ _ _ _ h, settle_done]
  rw [setReg_canGive]
  exact ready_canGive h

end Sys2Proof.Machine
end

