-- ==== Sys2Proof/Laws/Slots.lean ====
section
/-!
SUPPORT. Reading and writing one slot of a row (R55).
-/
namespace Sys2Proof.Machine

/-- A number with the `B`-sized digit above `A` replaced. -/
theorem digit_split (n A B : Nat) : n = n / A / B * (B * A) + n / A % B * A + n % A := by
  have h1 := Nat.div_add_mod n A
  have h2 := Nat.div_add_mod (n / A) B
  calc n = A * (n / A) + n % A := h1.symm
    _ = A * (B * (n / A / B) + n / A % B) + n % A := by rw [h2]
    _ = _ := by ring

theorem setElem_toNat (b : RowBits) (w e v : Nat) (h : (e + 1) * w ≤ 8192) :
    (setElem b w e v).toNat
      = b.toNat / 2 ^ (w * e) / 2 ^ w * (2 ^ w * 2 ^ (w * e)) + v % 2 ^ w * 2 ^ (w * e) + b.toNat % 2 ^ (w * e) := by
  have hA : 0 < 2 ^ (w * e) := Nat.two_pow_pos _
  have hB : 0 < 2 ^ w := Nat.two_pow_pos _
  have hs := digit_split b.toNat (2 ^ (w * e)) (2 ^ w)
  have hv : v % 2 ^ w < 2 ^ w := Nat.mod_lt _ hB
  have hm : b.toNat % 2 ^ (w * e) < 2 ^ (w * e) := Nat.mod_lt _ hA
  have hb := b.isLt
  generalize hx : b.toNat = n at *
  generalize hAe : 2 ^ (w * e) = A at *
  generalize hBe : 2 ^ w = B at *
  have hdiv : ∃ c, 2 ^ 8192 = c * (B * A) := by
    refine ⟨2 ^ (8192 - (w * e + w)), ?_⟩
    rw [← hAe, ← hBe, ← pow_add, ← pow_add]
    congr 1
    have : (e + 1) * w = w * e + w := by ring
    omega
  obtain ⟨c, hc⟩ := hdiv
  have hH : n / A / B < c := by
    rw [Nat.div_div_eq_div_mul, Nat.div_lt_iff_lt_mul (Nat.mul_pos hA hB)]
    calc n < 2 ^ 8192 := hb
      _ = c * (B * A) := hc
      _ = c * (A * B) := by ring
  have hlt : n / A / B * (B * A) + v % B * A + n % A < 2 ^ 8192 := by
    have h1 : v % B * A + n % A < B * A := by
      calc v % B * A + n % A < v % B * A + A := by omega
        _ = (v % B + 1) * A := by ring
        _ ≤ B * A := Nat.mul_le_mul_right _ hv
    have h2 : (n / A / B + 1) * (B * A) ≤ c * (B * A) := Nat.mul_le_mul_right _ hH
    rw [hc]
    calc n / A / B * (B * A) + v % B * A + n % A < n / A / B * (B * A) + B * A := by omega
      _ = (n / A / B + 1) * (B * A) := by ring
      _ ≤ _ := h2
  unfold setElem
  rw [BitVec.toNat_ofNat, hx, hAe, hBe]
  have : n - n / A % B * A + v % B * A = n / A / B * (B * A) + v % B * A + n % A := by omega
  rw [this, Nat.mod_eq_of_lt hlt]

/-- The slot written reads as the value's low bits. -/
theorem getElem_setElem_same (b : RowBits) (w e v : Nat) (h : (e + 1) * w ≤ 8192) :
    getElem_ (setElem b w e v) w e = v % 2 ^ w := by
  have hA : 0 < 2 ^ (w * e) := Nat.two_pow_pos _
  unfold getElem_
  rw [setElem_toNat b w e v h]
  have hm : b.toNat % 2 ^ (w * e) < 2 ^ (w * e) := Nat.mod_lt _ hA
  generalize b.toNat / 2 ^ (w * e) / 2 ^ w = H at *
  generalize b.toNat % 2 ^ (w * e) = L at *
  have : H * (2 ^ w * 2 ^ (w * e)) + v % 2 ^ w * 2 ^ (w * e) + L = L + (H * 2 ^ w + v % 2 ^ w) * 2 ^ (w * e) := by ring
  rw [this, Nat.add_mul_div_right _ _ hA, Nat.div_eq_of_lt hm, Nat.zero_add, Nat.mul_add_mod_self_right, Nat.mod_mod]

/-- Every other slot reads as before. -/
theorem getElem_setElem_other (b : RowBits) (w e v e' : Nat) (h : (e + 1) * w ≤ 8192) (ne : e' ≠ e) :
    getElem_ (setElem b w e v) w e' = getElem_ b w e' := by
  have hA : 0 < 2 ^ (w * e) := Nat.two_pow_pos _
  have hB : 0 < 2 ^ w := Nat.two_pow_pos _
  unfold getElem_
  rw [setElem_toNat b w e v h]
  have hs := digit_split b.toNat (2 ^ (w * e)) (2 ^ w)
  have hm : b.toNat % 2 ^ (w * e) < 2 ^ (w * e) := Nat.mod_lt _ hA
  have hd : b.toNat / 2 ^ (w * e) % 2 ^ w < 2 ^ w := Nat.mod_lt _ hB
  have hv : v % 2 ^ w < 2 ^ w := Nat.mod_lt _ hB
  generalize hn : b.toNat = n at *
  generalize n / 2 ^ (w * e) / 2 ^ w = H at *
  generalize n / 2 ^ (w * e) % 2 ^ w = D at *
  generalize n % 2 ^ (w * e) = L at *
  generalize v % 2 ^ w = V at *
  subst hs
  rcases Nat.lt_or_gt_of_ne ne with lt | gt
  · obtain ⟨k, hk⟩ : ∃ k, 2 ^ (w * e) = 2 ^ (w * e') * 2 ^ w * k := by
      refine ⟨2 ^ (w * e - (w * e' + w)), ?_⟩
      rw [← pow_add, ← pow_add]
      congr 1
      have : w * (e' + 1) ≤ w * e := Nat.mul_le_mul_left _ lt
      have : w * (e' + 1) = w * e' + w := by ring
      omega
    have key (X : Nat) : (H * (2 ^ w * 2 ^ (w * e)) + X * 2 ^ (w * e) + L) / 2 ^ (w * e') % 2 ^ w = L / 2 ^ (w * e') % 2 ^ w := by
      have : H * (2 ^ w * 2 ^ (w * e)) + X * 2 ^ (w * e) + L
          = L + 2 ^ (w * e') * (2 ^ w * (H * 2 ^ w * k + X * k)) := by rw [hk]; ring
      rw [this, Nat.add_mul_div_left _ _ (Nat.two_pow_pos _), Nat.add_mul_mod_self_left]
    rw [key, key]
  · obtain ⟨k, hk⟩ : ∃ k, 2 ^ (w * e') = 2 ^ w * 2 ^ (w * e) * k := by
      refine ⟨2 ^ (w * e' - (w + w * e)), ?_⟩
      rw [← pow_add, ← pow_add]
      congr 1
      have : w * (e + 1) ≤ w * e' := Nat.mul_le_mul_left _ gt
      have : w * (e + 1) = w * e + w := by ring
      omega
    have key (X : Nat) (hX : X < 2 ^ w) :
        (H * (2 ^ w * 2 ^ (w * e)) + X * 2 ^ (w * e) + L) / 2 ^ (w * e') = H / k := by
      rw [hk, ← Nat.div_div_eq_div_mul]
      congr 1
      have h1 : X * 2 ^ (w * e) + L < 2 ^ w * 2 ^ (w * e) := by
        calc X * 2 ^ (w * e) + L < X * 2 ^ (w * e) + 2 ^ (w * e) := by omega
          _ = (X + 1) * 2 ^ (w * e) := by ring
          _ ≤ _ := Nat.mul_le_mul_right _ hX
      have : H * (2 ^ w * 2 ^ (w * e)) + X * 2 ^ (w * e) + L = X * 2 ^ (w * e) + L + H * (2 ^ w * 2 ^ (w * e)) := by ring
      rw [this, Nat.add_mul_div_right _ _ (by positivity), Nat.div_eq_of_lt h1, Nat.zero_add]
    rw [key V hv, key D hd]

end Sys2Proof.Machine
end

