-- ==== Sys2Proof/Laws/Vector.lean ====
section
/-!
SUPPORT. What the loops of an element-wise instruction do (Machine/VectorRow.lean), said once.
-/
namespace Sys2Proof.Machine

/-- What the loops change: rows, FCSR with its checkpoint records, and free values taken. -/
def State.loops (s u : State) : Prop :=
  u = { s with me := { s.me with rows := u.me.rows, fcsr := u.me.fcsr, ckpt := u.me.ckpt }, freeCtr := u.freeCtr }

theorem loops_refl (s : State) : s.loops s := rfl

theorem loops_trans {s t u : State} (h : s.loops t) (k : t.loops u) : s.loops u := by
  unfold State.loops at *
  rw [k, h]

theorem setCode_loops (s : State) (v e c : Nat) : s.loops (s.setCode v e c) := rfl

theorem setRowTag_loops (s : State) (v : Nat) (t : Tag) : s.loops (s.setRowTag v t) := rfl

theorem free_loops (s : State) : s.loops s.free.2 := rfl

theorem raise_rows (s : State) (f : Nat) : (s.raise f).me.rows = s.me.rows := by rw [raise_only]

theorem raise_freeCtr (s : State) (f : Nat) : (s.raise f).freeCtr = s.freeCtr := by rw [raise_only]

theorem raise_loops (s : State) (f : Nat) : s.loops (s.raise f) := by
  unfold State.loops
  rw [raise_rows, raise_freeCtr]
  exact raise_only s f

/-! ## FCSR: its enables stay -/

theorem orFlags_enables (c : Word) (f : Nat) : (orFlags c f).toNat / 2 ^ 8 % 2 ^ 6 = c.toNat / 2 ^ 8 % 2 ^ 6 := by
  have hb : (BitVec.ofNat 64 (f % 256)).toNat = f % 256 := by
    rw [BitVec.toNat_ofNat, Nat.mod_eq_of_lt (by have := Nat.mod_lt f (by decide : 0 < 256); omega)]
  apply Nat.eq_of_testBit_eq
  intro i
  unfold orFlags
  rw [BitVec.toNat_or, hb]
  simp only [Nat.testBit_mod_two_pow, Nat.testBit_div_two_pow, Nat.testBit_or]
  have : (f % 256).testBit (i + 8) = false := by
    apply Nat.testBit_lt_two_pow
    have := Nat.mod_lt f (by decide : 0 < 256)
    calc f % 256 < 2 ^ 8 := by omega
      _ ≤ 2 ^ (i + 8) := Nat.pow_le_pow_right (by decide) (by omega)
  rw [this, Bool.or_false]

theorem raise_fcsr (s : State) (f : Nat) : (s.raise f).me.fcsr = if f = 0 then s.me.fcsr else orFlags s.me.fcsr f := by
  unfold State.raise
  split
  · rfl
  · split <;> rfl

theorem raise_noTraps (s : State) (f : Nat) : (s.raise f).me.noTraps = s.me.noTraps := by
  unfold Strand.noTraps
  rw [raise_fcsr]
  split
  · rfl
  · rw [orFlags_enables]

theorem trapFlags_none {t : Strand} (h : t.noTraps = true) (f : Nat) : trapFlags t.fcsr f = 0 := by
  unfold Strand.noTraps at h
  unfold trapFlags
  have : t.fcsr.toNat / 2 ^ 8 % 64 = 0 := by simpa using h
  rw [this, Nat.and_zero]

theorem tePsn_none {t : Strand} (h : t.noTraps = true) : t.tePsn = false := by
  unfold Strand.noTraps at h
  unfold Strand.tePsn
  have h : t.fcsr.toNat / 2 ^ 8 % 64 = 0 := by simpa using h
  have : (t.fcsr.toNat / 2 ^ 8 % 2 ^ 6).testBit 5 = false := by
    show (t.fcsr.toNat / 2 ^ 8 % 64).testBit 5 = false
    rw [h]; rfl
  rw [Nat.testBit_mod_two_pow, Nat.testBit_div_two_pow] at this
  simpa only [BitVec.getLsbD, decide_true, Bool.true_and, Nat.reduceLT, Nat.reduceAdd] using this

/-! ## Rows -/

theorem row_setRow_same (t : Strand) (v : Nat) (r : Row) (h : v < 32) : (t.setRow v r).row v = r := by
  unfold Strand.row Strand.setRow
  simp [Vector.getD, h]

theorem row_setRow_other (t : Strand) (v q : Nat) (r : Row) (h : q ≠ v) : (t.setRow v r).row q = t.row q := by
  unfold Strand.row Strand.setRow
  by_cases hq : q < 32
  · simp [Vector.getD, hq, Ne.symm h]
  · simp [Vector.getD, hq]

/-! ## What the loops leave -/

theorem loops_sewBits {s u : State} (h : s.loops u) : u.me.sewBits = s.me.sewBits := by rw [h]; rfl
theorem loops_vl {s u : State} (h : s.loops u) : u.me.vl = s.me.vl := by rw [h]
theorem loops_rc {s u : State} (h : s.loops u) : u.me.rc = s.me.rc := by rw [h]
theorem loops_vlmax {s u : State} (h : s.loops u) : u.me.vlmax = s.me.vlmax := by rw [h]; rfl
theorem loops_rstart {s u : State} (h : s.loops u) : u.me.rstart = s.me.rstart := by rw [h]
theorem loops_vstart {s u : State} (h : s.loops u) : u.me.vstart = s.me.vstart := by rw [h]
theorem loops_resumeUse {s u : State} (h : s.loops u) : u.me.resumeUse = s.me.resumeUse := by rw [h]
theorem loops_active {s u : State} (h : s.loops u) (k : BitVec 3) (j : Nat) : u.me.active k j = s.me.active k j := by rw [h]; rfl
theorem loops_act {s u : State} (h : s.loops u) (k : BitVec 3) (j : Nat) : u.me.act k j = s.me.act k j := by rw [h]; rfl
theorem loops_retains {s u : State} (h : s.loops u) (k : BitVec 3) (r : Nat) : u.me.retains k r = s.me.retains k r := by rw [h]; rfl
theorem loops_rounding {s u : State} (h : s.loops u) (m : BitVec 2) (r e : Nat) : u.me.rounding m r e = s.me.rounding m r e := by
  rw [h]; rfl
theorem loops_myCtx {s u : State} (h : s.loops u) : u.myCtx = s.myCtx := by rw [h]; rfl
theorem loops_osc {s u : State} (h : s.loops u) : u.me.osc = s.me.osc := by rw [h]
theorem loops_canGive {s u : State} (h : s.loops u) (t : BitVec 2) : u.canGive t = s.canGive t := by rw [h]; rfl

/-- FCSR.PSN, once set, stays set. -/
theorem raise_psn (s : State) (f : Nat) (h : s.me.fcsr.getLsbD 5 = true) : (s.raise f).me.fcsr.getLsbD 5 = true := by
  rw [raise_fcsr]
  split
  · exact h
  · unfold orFlags; rw [BitVec.getLsbD_or, h, Bool.true_or]

/-! ## The element loop -/

/-- Codes that element `e` of row `r` reads. -/
def Elementwise.codesAt (x : Elementwise) (s : State) (tags : List Tag) (r e : Nat) : List Nat :=
  (x.groups.zip tags).map (fun g => rowCode (s.me.row (g.1.toNat + r)).bits g.2 s.me.sewBits e)

/-- What the elements `e` to `e + n` − 1 of row `r` come to, from `s` to `u`. -/
structure Elementwise.Ran (x : Elementwise) (tags : List Tag) (t : Tag) (r n e : Nat) (s u : State) : Prop where
  only : s.loops u
  traps : u.me.noTraps = true
  rows : ∀ v, v ≠ x.d.toNat + r → u.me.row v = s.me.row v
  tag : u.me.tag (x.d.toNat + r) = s.me.tag (x.d.toNat + r)
  psn : s.me.fcsr.getLsbD 5 = true → u.me.fcsr.getLsbD 5 = true
  wrote : ∀ i, e ≤ i → i < e + n → s.me.act x.k (r * s.me.vl + i) = true →
    (x.op s tags t (x.codesAt s tags r i) (s.me.rounding x.m r i)).open_ = false →
    getElem_ (u.me.row (x.d.toNat + r)).bits s.me.sewBits i
      = (x.op s tags t (x.codesAt s tags r i) (s.me.rounding x.m r i)).code % 2 ^ s.me.sewBits
  kept : ∀ i, ¬(e ≤ i ∧ i < e + n ∧ s.me.act x.k (r * s.me.vl + i) = true) →
    getElem_ (u.me.row (x.d.toNat + r)).bits s.me.sewBits i = getElem_ (s.me.row (x.d.toNat + r)).bits s.me.sewBits i

theorem elementLoop_runs (x : Elementwise) (tags : List Tag) (t : Tag) (rec_ : List Tag) (r : Nat)
    (stable : ∀ s u : State, s.loops u → x.op u = x.op s) (hd : x.d.toNat + r < 32) :
    ∀ (n e : Nat) (s : State), s.me.noTraps = true → (e + n) * s.me.sewBits ≤ 8192 →
      ∃ u, elementLoop x tags t rec_ r n e s = .done u ∧ x.Ran tags t r n e s u := by
  intro n
  induction n with
  | zero =>
    intro e s hs _
    exact ⟨s, rfl, loops_refl s, hs, fun _ _ => rfl, rfl, id, fun i a b => by omega, fun _ _ => rfl⟩
  | succ n ih =>
    intro e s hs hw
    have hw' : (e + 1 + n) * s.me.sewBits ≤ 8192 := by rw [show e + 1 + n = e + (n + 1) by omega]; exact hw
    unfold elementLoop
    by_cases ha : s.me.act x.k (r * s.me.vl + e) = true
    · -- the element is active
      have hw1 : (e + 1) * s.me.sewBits ≤ 8192 := Nat.le_trans (Nat.mul_le_mul_right _ (by omega)) hw
      simp only [ha, Bool.not_true, Bool.false_eq_true, if_false, trapFlags_none hs, ne_eq, not_true_eq_false]
      generalize hc : x.op s tags t (((if x.selfOp = true then x.srcs ++ [x.d] else x.srcs).zip tags).map
        (fun g => rowCode (s.me.row (g.1.toNat + r)).bits g.2 s.me.sewBits e)) (s.me.rounding x.m r e) = c
      -- the state after the element
      obtain ⟨v, hv, hvc⟩ : ∃ v, (if c.open_ = true then
          s.free.2.setCode (x.d.toNat + r) e (s.free.1.toNat % 2 ^ (s.myCtx).cw (fmtOf t) s.me.sewBits)
          else s.setCode (x.d.toNat + r) e c.code) = { s.setCode (x.d.toNat + r) e v with
            freeCtr := if c.open_ = true then s.freeCtr + 1 else s.freeCtr } ∧ (c.open_ = false → v = c.code) := by
        cases c.open_
        · exact ⟨c.code, rfl, fun _ => rfl⟩
        · exact ⟨_, rfl, by simp⟩
      rw [hv]
      set s1 : State := { s.setCode (x.d.toNat + r) e v with freeCtr := if c.open_ = true then s.freeCtr + 1 else s.freeCtr } with hs1
      have l1 : s.loops s1 := rfl
      have l2 : s.loops (s1.raise c.flags) := loops_trans l1 (raise_loops _ _)
      have row2 (q : Nat) : (s1.raise c.flags).me.row q = s1.me.row q := by unfold Strand.row; rw [raise_rows]
      have rowd : s1.me.row (x.d.toNat + r)
          = { s.me.row (x.d.toNat + r) with bits := setElem (s.me.row (x.d.toNat + r)).bits s.me.sewBits e v } :=
        row_setRow_same _ _ _ hd
      have rowo (q : Nat) (h : q ≠ x.d.toNat + r) : s1.me.row q = s.me.row q := row_setRow_other _ _ _ _ h
      have ht2 : (s1.raise c.flags).me.noTraps = true := by rw [raise_noTraps]; exact hs
      obtain ⟨u, hu, R⟩ := ih (e + 1) (s1.raise c.flags) ht2 (by rw [loops_sewBits l2]; exact hw')
      refine ⟨u, hu, ?_⟩
      have sew2 := loops_sewBits l2
      have vl2 := loops_vl l2
      have codes2 (i : Nat) (hi : i ≠ e) : x.codesAt (s1.raise c.flags) tags r i = x.codesAt s tags r i := by
        unfold Elementwise.codesAt
        apply List.map_congr_left
        intro g _
        rw [row2, sew2]
        by_cases hg : g.1.toNat + r = x.d.toNat + r
        · rw [hg, rowd]
          unfold rowCode
          rw [getElem_setElem_other _ _ _ _ _ hw1 hi]
        · rw [rowo _ hg]
      have slot (i : Nat) : getElem_ ((s1.raise c.flags).me.row (x.d.toNat + r)).bits s.me.sewBits i
          = if i = e then v % 2 ^ s.me.sewBits else getElem_ (s.me.row (x.d.toNat + r)).bits s.me.sewBits i := by
        rw [row2, rowd]
        split
        · rename_i h; subst h; exact getElem_setElem_same _ _ _ _ hw1
        · rename_i h; exact getElem_setElem_other _ _ _ _ _ hw1 h
      refine ⟨loops_trans l2 R.only, R.traps, ?_, ?_, ?_, ?_, ?_⟩
      · intro q hq
        rw [R.rows q hq, row2, rowo q hq]
      · rw [R.tag]
        unfold Strand.tag
        rw [row2, rowd]
      · intro h
        exact R.psn (raise_psn _ _ h)
      · intro i h1 h2 h3 h4
        by_cases hi : i = e
        · subst hi
          have := R.kept i (by omega)
          rw [sew2] at this
          rw [this, slot, if_pos rfl]
          have hc' : x.op s tags t (x.codesAt s tags r i) (s.me.rounding x.m r i) = c := hc
          rw [hc'] at h4 ⊢
          rw [hvc h4]
        · have := R.wrote i (by omega) (by omega) (by rw [loops_act l2, vl2]; exact h3)
            (by rw [stable _ _ l2, codes2 i hi, loops_rounding l2]; exact h4)
          rw [stable _ _ l2, codes2 i hi, loops_rounding l2, sew2] at this
          exact this
      · intro i h
        by_cases hi : i = e
        · subst hi
          exact absurd ⟨Nat.le_refl _, by omega, ha⟩ h
        · have := R.kept i (by rw [loops_act l2, vl2]; intro q; exact h ⟨by omega, by omega, q.2.2⟩)
          rw [sew2] at this
          rw [this, slot, if_neg hi]
    · -- masked off
      simp only [Bool.not_eq_true] at ha
      simp only [ha, Bool.not_false, if_true]
      obtain ⟨u, hu, R⟩ := ih (e + 1) s hs hw'
      refine ⟨u, hu, R.only, R.traps, R.rows, R.tag, R.psn, ?_, ?_⟩
      · intro i h1 h2 h3
        have : i ≠ e := by intro q; subst q; rw [ha] at h3; cases h3
        exact R.wrote i (by omega) (by omega) h3
      · intro i h
        apply R.kept
        intro q
        exact h ⟨by omega, by omega, q.2.2⟩

/-! ## Tags -/

theorem mkTag_toNat (f b c : Nat) (q : Bool) :
    (mkTag f b c q).toNat = f % 64 + b % 256 * 64 + c % 8 * 16384 + q.toNat * 131072 := by
  unfold mkTag
  rw [BitVec.toNat_ofNat]
  have := Nat.mod_lt f (by decide : 0 < 64)
  have := Nat.mod_lt b (by decide : 0 < 256)
  have := Nat.mod_lt c (by decide : 0 < 8)
  have : q.toNat ≤ 1 := by cases q <;> decide
  omega

theorem fmtOf_mkTag (f b c : Nat) (q : Bool) : fmtOf (mkTag f b c q) = f % 64 := by
  unfold fmtOf; rw [mkTag_toNat]; omega

theorem bscOf_mkTag (f b c : Nat) (q : Bool) : bscOf (mkTag f b c q) = b % 256 := by
  unfold bscOf; rw [mkTag_toNat]; omega

theorem classOf_mkTag (f b c : Nat) (q : Bool) : classOf (mkTag f b c q) = c % 8 := by
  unfold classOf; rw [mkTag_toNat]; omega

@[simp] theorem fmtOf_withClass (t : Tag) (c : Nat) : fmtOf (withClass t c) = fmtOf t := by
  unfold withClass; rw [fmtOf_mkTag]; unfold fmtOf; omega

@[simp] theorem bscOf_withClass (t : Tag) (c : Nat) : bscOf (withClass t c) = bscOf t := by
  unfold withClass; rw [bscOf_mkTag]; unfold bscOf; omega

theorem classOf_withClass (t : Tag) (c : Nat) (h : c < 8) : classOf (withClass t c) = c := by
  unfold withClass; rw [classOf_mkTag]; omega

/-! ## The row loop -/

/-- First element of row `r` that an instruction with a start point executes. -/
def Strand.first (t : Strand) (r : Nat) : Nat := if r = t.rstart then t.vstart else 0

/-- What the rows `r` to `r + n` − 1 come to, from `s` to `u`. -/
structure Elementwise.RanRows (x : Elementwise) (n r : Nat) (s u : State) : Prop where
  only : s.rowsOnly u
  rows : ∀ v, v < x.d.toNat + r ∨ x.d.toNat + r + n ≤ v → u.me.row v = s.me.row v
  psn : s.me.fcsr.getLsbD 5 = true → u.me.fcsr.getLsbD 5 = true
  row : ∀ q g, r ≤ q → q < r + n → x.rowTag s q (x.tagsAt s q) = .ok g →
    (∀ e, s.me.first q ≤ e → e < s.me.vl → s.me.act x.k (q * s.me.vl + e) = true → (x.result s q e g).open_ = false →
      getElem_ (u.me.row (x.d.toNat + q)).bits s.me.sewBits e = (x.result s q e g).code % 2 ^ s.me.sewBits)
    ∧ (∀ e, ¬(s.me.first q ≤ e ∧ e < s.me.vl ∧ s.me.act x.k (q * s.me.vl + e) = true) →
      getElem_ (u.me.row (x.d.toNat + q)).bits s.me.sewBits e = getElem_ (s.me.row (x.d.toNat + q)).bits s.me.sewBits e)
    ∧ fmtOf (u.me.tag (x.d.toNat + q)) = fmtOf g ∧ bscOf (u.me.tag (x.d.toNat + q)) = bscOf g
    ∧ (x.poisoned s q = true → classOf (u.me.tag (x.d.toNat + q)) = 2 ∧ u.me.fcsr.getLsbD 5 = true)

/-- An instruction's operation and row tags look at nothing that the loops change but the operand rows. -/
structure Elementwise.Steady (x : Elementwise) : Prop where
  op : ∀ s u : State, s.loops u → x.op u = x.op s
  rowTag : ∀ (s u : State) (r : Nat) (tags : List Tag), s.loops u →
    (∀ g ∈ x.groups, u.me.row (g.toNat + r) = s.me.row (g.toNat + r)) → x.rowTag u r tags = x.rowTag s r tags

theorem Elementwise.mem_groups {x : Elementwise} {g : BitVec 5} (h : g ∈ x.groups) : g ∈ x.srcs ∨ g = x.d := by
  unfold Elementwise.groups at h
  split at h
  · rcases List.mem_append.mp h with h | h
    · exact .inl h
    · exact .inr (List.mem_singleton.mp h)
  · exact .inl h

theorem rowLoop_runs (x : Elementwise) (st : x.Steady) :
    ∀ (n r : Nat) (s : State), s.me.noTraps = true → s.me.resumeUse = false → x.d.toNat + r + n ≤ 32 → r + n ≤ s.me.rc →
      s.me.vl * s.me.sewBits ≤ 8192 → s.me.vstart ≤ s.me.vl → (∀ v ∈ x.srcs, s.me.straddle x.d v = false) →
      (∀ q, r ≤ q → q < r + n → ∃ g, x.rowTag s q (x.tagsAt s q) = .ok g) →
      ∃ u, rowLoop x n r s = .done u ∧ x.RanRows n r s u := by
  intro n
  induction n with
  | zero =>
    intro r s _ _ _ _ _ _ _ _
    refine ⟨s.clearStart, rfl, rfl, fun _ _ => rfl, id, ?_⟩
    intro q g h1 h2
    omega
  | succ n ih =>
    intro r s ht hru hd hrc hvl hvs hst htag
    obtain ⟨g, hg⟩ := htag r (Nat.le_refl _) (by omega)
    have hvr : x.d.toNat + r < 32 := by omega
    unfold rowLoop
    simp only [hru, Bool.false_eq_true, false_and, if_false]
    have htags : (List.map (fun g => s.me.tag (g.toNat + r)) (if x.selfOp = true then x.srcs ++ [x.d] else x.srcs)) = x.tagsAt s r := rfl
    simp only [htags, hg]
    -- POISON rows
    generalize hops : (if (s.me.retains x.k r && !x.selfOp) = true then x.tagsAt s r ++ [s.me.tag (x.d.toNat + r)] else x.tagsAt s r) = ops
    have hp : (!x.plain && ops.any (fun t => classOf t == 2)) = x.poisoned s r := by rw [← hops]; rfl
    simp only [hp]
    obtain ⟨s1, hs1, hl1, hrow1, hpsn1, hpsn1'⟩ : ∃ s1 : State,
        (∀ f : State → Eff, consume s (x.poisoned s r) r f = f s1) ∧ s.loops s1 ∧ (∀ v, s1.me.row v = s.me.row v)
        ∧ (x.poisoned s r = true → s1.me.fcsr.getLsbD 5 = true) ∧ (s.me.fcsr.getLsbD 5 = true → s1.me.fcsr.getLsbD 5 = true) := by
      cases hpo : x.poisoned s r
      · exact ⟨s, fun f => by simp [consume], loops_refl s, fun _ => rfl, by simp, id⟩
      · refine ⟨s.raise flagPSN, fun f => by simp [consume, tePsn_none ht], raise_loops _ _, ?_, ?_, raise_psn _ _⟩
        · intro v; unfold Strand.row; rw [raise_rows]
        · intro _
          rw [raise_fcsr]
          have : flagPSN ≠ 0 := by decide
          rw [if_neg this]
          unfold orFlags
          rw [BitVec.getLsbD_or]
          have : (BitVec.ofNat 64 (flagPSN % 256)).getLsbD 5 = true := by decide
          rw [this, Bool.or_true]
    rw [hs1]
    have ht1 : s1.me.noTraps = true := by
      cases hpo : x.poisoned s r
      · have := hs1 (fun q => .done q)
        simp [consume, hpo] at this
        rw [← this]; exact ht
      · have := hs1 (fun q => .done q)
        simp [consume, hpo, tePsn_none ht] at this
        rw [← this, raise_noTraps]; exact ht
    -- the elements
    generalize htg : withClass g (if x.poisoned s r = true then 2 else 0) = tg
    set s2 := s1.setRowTag (x.d.toNat + r) tg with hs2
    have l2 : s.loops s2 := loops_trans hl1 (setRowTag_loops _ _ _)
    have ht2 : s2.me.noTraps = true := ht1
    have hfirst : (if r = s.me.rstart then s.me.vstart else 0) = s.me.first r := rfl
    simp only [hfirst]
    have hfl : s.me.first r ≤ s.me.vl := by unfold Strand.first; split <;> omega
    obtain ⟨u1, hu1, R⟩ := elementLoop_runs x (x.tagsAt s r) tg (x.tagsAt s r ++ [s.me.tag (x.d.toNat + r)]) r st.op hvr
      (s.me.vl - s.me.first r) (s.me.first r) s2 ht2 (by
        rw [loops_sewBits l2, Nat.add_sub_cancel' hfl]; exact hvl)
    rw [loops_vl hl1, hu1]
    show ∃ u, rowLoop x n (r + 1) _ = .done u ∧ _
    generalize hcls : (if x.plain = true then (if u1.me.zeroRow (x.d.toNat + r) = true then 1 else 0)
      else rowClass ops (u1.me.zeroRow (x.d.toNat + r))) = cls
    set s3 := u1.setRowTag (x.d.toNat + r) (withClass (u1.me.tag (x.d.toNat + r)) cls) with hs3
    have l3 : s.loops s3 := loops_trans (loops_trans l2 R.only) (setRowTag_loops _ _ _)
    have row3 (v : Nat) (h : v ≠ x.d.toNat + r) : s3.me.row v = s.me.row v := by
      have e1 : s3.me.row v = u1.me.row v := row_setRow_other _ _ _ _ h
      have e2 : s2.me.row v = s1.me.row v := row_setRow_other _ _ _ _ h
      rw [e1, R.rows v h, e2, hrow1]
    have row3d : s3.me.row (x.d.toNat + r) = { u1.me.row (x.d.toNat + r) with tag := withClass (u1.me.tag (x.d.toNat + r)) cls } :=
      row_setRow_same _ _ _ hvr
    have tag1 : u1.me.tag (x.d.toNat + r) = tg := by
      rw [R.tag]
      show (s2.me.row (x.d.toNat + r)).tag = tg
      have : s2.me.row (x.d.toNat + r) = { s1.me.row (x.d.toNat + r) with tag := tg } := row_setRow_same _ _ _ hvr
      rw [this]
    -- rows that later rows read
    have far (q : Nat) (h1 : r + 1 ≤ q) (h2 : q < r + 1 + n) (v : BitVec 5) (hv : v ∈ x.srcs ∨ v = x.d) :
        v.toNat + q ≠ x.d.toNat + r := by
      rcases hv with hv | hv
      · intro he
        have := hst v hv
        unfold Strand.straddle at this
        simp only [Bool.and_eq_false_iff, bne_eq_false_iff_eq, decide_eq_false_iff_not] at this
        rcases this with h | h
        · subst h; omega
        · apply h; omega
      · subst hv; omega
    have groups3 (q : Nat) (h1 : r + 1 ≤ q) (h2 : q < r + 1 + n) : ∀ v ∈ x.groups, s3.me.row (v.toNat + q) = s.me.row (v.toNat + q) :=
      fun v hv => row3 _ (far q h1 h2 v (Elementwise.mem_groups hv))
    have tags3 (q : Nat) (h1 : r + 1 ≤ q) (h2 : q < r + 1 + n) : x.tagsAt s3 q = x.tagsAt s q := by
      unfold Elementwise.tagsAt
      apply List.map_congr_left
      intro v hv
      unfold Strand.tag
      rw [groups3 q h1 h2 v hv]
    have rowTag3 (q : Nat) (h1 : r + 1 ≤ q) (h2 : q < r + 1 + n) :
        x.rowTag s3 q (x.tagsAt s3 q) = x.rowTag s q (x.tagsAt s q) := by
      rw [tags3 q h1 h2]
      exact st.rowTag s s3 q _ l3 (groups3 q h1 h2)
    have pois3 (q : Nat) (h1 : r + 1 ≤ q) (h2 : q < r + 1 + n) : x.poisoned s3 q = x.poisoned s q := by
      unfold Elementwise.poisoned
      rw [loops_retains l3, tags3 q h1 h2]
      unfold Strand.tag
      rw [row3 _ (far q h1 h2 x.d (.inr rfl))]
    have codes3 (q : Nat) (h1 : r + 1 ≤ q) (h2 : q < r + 1 + n) (e : Nat) (g : Tag) : x.result s3 q e g = x.result s q e g := by
      unfold Elementwise.result
      rw [st.op s s3 l3, tags3 q h1 h2, pois3 q h1 h2, loops_rounding l3]
      congr 1
      apply List.map_congr_left
      intro v hv
      rw [groups3 q h1 h2 v.1 (List.of_mem_zip hv).1, loops_sewBits l3]
    obtain ⟨u, hu, Q⟩ := ih (r + 1) s3 (by show u1.me.noTraps = true; exact R.traps) (by rw [loops_resumeUse l3]; exact hru)
      (by omega) (by rw [loops_rc l3]; omega) (by rw [loops_vl l3, loops_sewBits l3]; exact hvl)
      (by rw [loops_vl l3, loops_vstart l3]; exact hvs)
      (by intro v hv; have : s3.me.straddle x.d v = s.me.straddle x.d v := by unfold Strand.straddle; rw [loops_rc l3]
          rw [this]; exact hst v hv)
      (by intro q h1 h2; obtain ⟨g, hg⟩ := htag q (by omega) (by omega); exact ⟨g, by rw [rowTag3 q h1 h2]; exact hg⟩)
    have first3 (q : Nat) : s3.me.first q = s.me.first q := by unfold Strand.first; rw [loops_rstart l3, loops_vstart l3]
    refine ⟨u, hu, ?_, ?_, ?_, ?_⟩
    · have h1 := Q.only
      unfold State.rowsOnly at h1 ⊢
      rw [h1, l3]
    · intro v hv
      rw [Q.rows v (by omega), row3 v (by omega)]
    · intro h
      exact Q.psn (R.psn (hpsn1' h))
    · intro q g' h1 h2 hg'
      by_cases hq : q = r
      · subst hq
        have : g' = g := by rw [hg] at hg'; exact (Except.ok.inj hg').symm
        subst this
        have keepU : u.me.row (x.d.toNat + q) = s3.me.row (x.d.toNat + q) := Q.rows _ (by omega)
        have bits : (u.me.row (x.d.toNat + q)).bits = (u1.me.row (x.d.toNat + q)).bits := by rw [keepU, row3d]
        have tagU : u.me.tag (x.d.toNat + q) = withClass tg cls := by
          show (u.me.row _).tag = _
          rw [keepU, row3d, tag1]
        have rowS2 : (s2.me.row (x.d.toNat + q)).bits = (s.me.row (x.d.toNat + q)).bits := by
          have : s2.me.row (x.d.toNat + q) = { s1.me.row (x.d.toNat + q) with tag := tg } := row_setRow_same _ _ _ hvr
          rw [this, hrow1]
        have bits2 (v : Nat) : (s2.me.row v).bits = (s.me.row v).bits := by
          by_cases hv : v = x.d.toNat + q
          · rw [hv]; exact rowS2
          · have e2 : s2.me.row v = s1.me.row v := row_setRow_other _ _ _ _ hv
            rw [e2, hrow1]
        have res (e : Nat) : x.op s2 (x.tagsAt s q) tg (x.codesAt s2 (x.tagsAt s q) q e) (s2.me.rounding x.m q e) = x.result s q e g' := by
          unfold Elementwise.result
          rw [st.op s s2 l2, loops_rounding l2, htg]
          congr 1
          unfold Elementwise.codesAt
          apply List.map_congr_left
          intro v _
          rw [bits2, loops_sewBits l2]
        refine ⟨?_, ?_, ?_, ?_, ?_⟩
        · intro e he1 he2 ha ho
          have := R.wrote e he1 (by omega) (by rw [loops_act l2, loops_vl l2]; exact ha) (by rw [res]; exact ho)
          rw [res, loops_sewBits l2] at this
          rw [bits]; exact this
        · intro e he
          have := R.kept e (by rw [loops_act l2, loops_vl l2]; intro h; exact he ⟨h.1, by omega, h.2.2⟩)
          rw [loops_sewBits l2, rowS2] at this
          rw [bits]; exact this
        · rw [tagU, fmtOf_withClass, ← htg, fmtOf_withClass]
        · rw [tagU, bscOf_withClass, ← htg, bscOf_withClass]
        · intro hpo
          refine ⟨?_, Q.psn (R.psn (hpsn1 hpo))⟩
          rw [tagU]
          have hpo' := hpo
          rw [← hp] at hpo'
          simp only [Bool.and_eq_true, Bool.not_eq_true'] at hpo'
          have : cls = 2 := by
            rw [← hcls, if_neg (by rw [hpo'.1]; exact Bool.false_ne_true)]
            unfold rowClass
            rw [if_pos hpo'.2]
          rw [this]
          exact classOf_withClass _ _ (by decide)
      · obtain ⟨a1, a2, a3, a4, a5⟩ := Q.row q g' (by omega) (by omega) (by rw [rowTag3 q (by omega) (by omega)]; exact hg')
        have hr1 : r + 1 ≤ q := by omega
        have hr2 : q < r + 1 + n := by omega
        refine ⟨?_, ?_, a3, a4, ?_⟩
        · intro e he1 he2 ha ho
          have := a1 e (by rw [first3]; exact he1) (by rw [loops_vl l3]; exact he2)
            (by rw [loops_act l3, loops_vl l3]; exact ha) (by rw [codes3 q hr1 hr2]; exact ho)
          rw [codes3 q hr1 hr2, loops_sewBits l3] at this
          exact this
        · intro e he
          have := a2 e (by rw [first3, loops_act l3, loops_vl l3]; exact he)
          rw [loops_sewBits l3, row3 _ (far q hr1 hr2 x.d (.inr rfl))] at this
          exact this
        · intro hpo
          exact a5 (by rw [pois3 q hr1 hr2]; exact hpo)

/-- A legal configuration's rows hold VL slots. -/
theorem configured_fits {t : Strand} (h : t.configured = true) : t.vl * t.sewBits ≤ 8192 := by
  unfold Strand.configured at h
  simp only [Bool.and_eq_true, decide_eq_true_eq] at h
  obtain ⟨⟨⟨⟨h1, h2⟩, _⟩, _⟩, _⟩ := h
  calc t.vl * t.sewBits ≤ t.vlmax * t.sewBits := Nat.mul_le_mul_right _ h2
    _ ≤ 1024 * t.slices := Nat.div_mul_le_self _ _
    _ ≤ 8192 := by omega

theorem elementwise_runs (x : Elementwise) (st : x.Steady) (word : Word) (s : State)
    (hi : s.me.vtypeIll (x.d :: x.srcs) = false) (hs : ∀ v ∈ x.srcs, s.me.straddle x.d v = false) (hc : s.me.configured = true)
    (ht : s.me.noTraps = true) (hr : s.me.resumeUse = false)
    (hg : ∀ r, s.me.rstart ≤ r → r < s.me.rc → ∃ g, x.rowTag s r (x.tagsAt s r) = .ok g) :
    ∃ u, elementwise word x s = .done u ∧ x.RanRows (s.me.rc - s.me.rstart) s.me.rstart s u := by
  have hf := configured_fits hc
  unfold Strand.configured at hc
  simp only [Bool.and_eq_true, decide_eq_true_eq] at hc
  obtain ⟨⟨⟨⟨_, _⟩, h3⟩, h4⟩, _⟩ := hc
  have hd : x.d.toNat + s.me.rc ≤ 32 := by
    unfold Strand.vtypeIll at hi
    simp only [List.any_cons, Bool.or_eq_false_iff, decide_eq_false_iff_not] at hi
    omega
  have hb : x.srcs.any (fun v => s.me.straddle x.d v) = false := by
    rw [List.any_eq_false]
    intro v hv
    rw [hs v hv]
    exact Bool.false_ne_true
  unfold elementwise vecOp
  simp only [hi, hb, Bool.or_false, Bool.false_eq_true, if_false]
  exact rowLoop_runs x st _ _ s ht hr (by omega) (by omega) hf h3 hs (fun q h1 h2 => hg q h1 (by omega))

/-! ## Every element-wise instruction is steady -/

theorem resultTag_steady (s u : State) (h : s.loops u) (a b : Tag) (c : Option Tag) : resultTag u a b c = resultTag s a b c := by
  rw [h]; rfl

theorem arithX_steady (o : ArithOp) (x : Src) (d a : BitVec 5) (k : BitVec 3) (m : BitVec 2) : (arithX o x d a k m).Steady :=
  ⟨fun s u h => by rw [h]; rfl, fun s u r tags h _ => by rw [h]; rfl⟩

theorem roundX_steady (d a : BitVec 5) (k : BitVec 3) (m : BitVec 2) : (roundX d a k m).Steady :=
  ⟨fun s u h => by rw [h]; rfl, fun s u r tags h _ => by rw [h]; rfl⟩

theorem cvtX_steady (g : Nat) (d a : BitVec 5) (k : BitVec 3) (m : BitVec 2) : (cvtX g d a k m).Steady :=
  ⟨fun s u h => by rw [h]; rfl, fun s u r tags h _ => by rw [h]; rfl⟩

theorem scaleX_steady (n : Nat) (d a : BitVec 5) (k : BitVec 3) (m : BitVec 2) : (scaleX n d a k m).Steady := by
  refine ⟨fun s u h => by rw [h]; rfl, fun s u r tags h hr => ?_⟩
  have hrow : u.me.row (a.toNat + r) = s.me.row (a.toNat + r) := hr a (by simp [Elementwise.groups, scaleX])
  unfold scaleX
  simp only [hrow, loops_myCtx h, loops_vl h, loops_sewBits h, loops_act h]

theorem classX_steady (d a : BitVec 5) (k : BitVec 3) : (classX d a k).Steady :=
  ⟨fun s u h => by rw [h]; rfl, fun s u r tags h _ => by rw [h]; rfl⟩

theorem logicX_steady (f : Nat → Nat → Nat) (x : Src) (d a : BitVec 5) (k : BitVec 3) : (logicX f x d a k).Steady :=
  ⟨fun s u h => by rw [h]; rfl, fun s u r tags h _ => by rw [h]; rfl⟩

theorem shiftX_steady (f : Nat → Nat → Nat → Nat) (x : Src) (d a : BitVec 5) (k : BitVec 3) : (shiftX f x d a k).Steady :=
  ⟨fun s u h => by rw [h]; rfl, fun s u r tags h _ => by rw [h]; rfl⟩

theorem notX_steady (d a : BitVec 5) (k : BitVec 3) : (notX d a k).Steady :=
  ⟨fun s u h => by rw [h]; rfl, fun s u r tags h _ => by rw [h]; rfl⟩

/-- From the start row on, an element is active when its mask bit is set and it is not before the start point. -/
theorem act_iff (t : Strand) (k : BitVec 3) (r e : Nat) (hv : t.vstart ≤ t.vl) (h0 : t.rstart ≤ r) :
   t.act k (r * t.vl + e) = (decide (t.first r ≤ e) && t.active k (r * t.vl + e)) := by
  unfold Strand.act Strand.start Strand.first
  congr 1
  by_cases hq : r = t.rstart
  · subst hq; simp
  · have : t.rstart * t.vl + t.vl ≤ r * t.vl := by
      calc t.rstart * t.vl + t.vl = (t.rstart + 1) * t.vl := by ring
        _ ≤ r * t.vl := Nat.mul_le_mul_right _ (by omega)
    simp [hq]; omega

/-- What an element-wise instruction answers, from the state in which it issues. -/
theorem elementwise_answers (s : State) (t : BitVec 2) (i : Instr) (x : Elementwise) (st : x.Steady) (word : Word)
   (body : State → Eff) (hex : exec i s = runOrdered t body s) (hbody : body (s.takeToken t) = elementwise word x (s.takeToken t)) (h : s.ready t false = true) 
   (hi : s.me.vtypeIll (x.d :: x.srcs) = false) (hs : ∀ v ∈ x.srcs, s.me.straddle x.d v = false) (hc : s.me.configured = true)
    (ht : s.me.noTraps = true) (hr : s.me.resumeUse = false)
    (hg : ∀ r, s.me.rstart ≤ r → r < s.me.rc → ∃ g, x.rowTag (s.takeToken t) r (x.tagsAt (s.takeToken t) r) = .ok g) :
     ∃ u : State, exec i s = .next (u.retires t) ∧ (s.takeToken t).rowsOnly u ∧ (s.takeToken t).rowsKept u x.d.toNat s.me.rc
        ∧ (∀ r e g, s.me.rstart ≤ r → r < s.me.rc → e < s.me.vl → s.me.act x.k (r * s.me.vl + e) = true →
            x.rowTag (s.takeToken t) r (x.tagsAt (s.takeToken t) r) = .ok g → (x.result (s.takeToken t) r e g).open_ = false →
            getElem_ (u.me.row (x.d.toNat + r)).bits s.me.sewBits e = (x.result (s.takeToken t) r e g).code % 2 ^ s.me.sewBits)
        ∧ (∀ r e, r < s.me.rc → (e + 1) * s.me.sewBits ≤ 8192 → ¬(e < s.me.vl ∧ s.me.act x.k (r * s.me.vl + e) = true) →
            getElem_ (u.me.row (x.d.toNat + r)).bits s.me.sewBits e = getElem_ (s.me.row (x.d.toNat + r)).bits s.me.sewBits e)
        ∧ (∀ r g, s.me.rstart ≤ r → r < s.me.rc → x.rowTag (s.takeToken t) r (x.tagsAt (s.takeToken t) r) = .ok g →
            fmtOf (u.me.tag (x.d.toNat + r)) = fmtOf g ∧ bscOf (u.me.tag (x.d.toNat + r)) = bscOf g
            ∧ (x.poisoned (s.takeToken t) r = true → classOf (u.me.tag (x.d.toNat + r)) = 2 ∧ u.me.fcsr.getLsbD 5 = true)) := by
  set w := s.takeToken t with hw
  have hn := takeToken_noTok s t
  have e1 : w.me.vtypeIll (x.d :: x.srcs) = s.me.vtypeIll (x.d :: x.srcs) := by simp [hw, Strand.vtypeIll]
  have e2 (v) : w.me.straddle x.d v = s.me.straddle x.d v := by simp [hw, Strand.straddle]
  have esew : w.me.sewBits = s.me.sewBits := by simp [hw, Strand.sewBits]
  have e3 : w.me.configured = s.me.configured := congrArg (fun x => x.me.configured) hn
  have e4 : w.me.noTraps = s.me.noTraps := by simp [hw, Strand.noTraps]
  have erow (v) : w.me.row v = s.me.row v := by simp [hw, Strand.row]
  have eact (k : BitVec 3) (j : Nat) : w.me.act k j = s.me.act k j := congrArg (fun x => x.me.act k j) hn
  have efirst (r) : w.me.first r = s.me.first r := by simp [hw, Strand.first]
  obtain ⟨u, hu, Q⟩ := elementwise_runs x st word w (by rw [e1]; exact hi) (by intro v hv; rw [e2]; exact hs v hv) (by rw [e3]; exact hc) (by rw [e4]; exact ht)
    (by rw [hw, takeToken_resumeUse]; exact hr) (by intro r h1 h2; exact hg r (by simpa [hw] using h1) (by simpa [hw] using h2))
  have hrc : w.me.rc = s.me.rc := by simp [hw]
  have hvl : w.me.vl = s.me.vl := by simp [hw]
  have hrs : w.me.rstart = s.me.rstart := by simp [hw]
  have hc' := hc
  unfold Strand.configured at hc'
  simp only [Bool.and_eq_true, decide_eq_true_eq] at hc'
  obtain ⟨⟨⟨⟨_, _⟩, hvs⟩, hrr⟩, _⟩ := hc'
  rw [hrc, hrs] at Q
  refine ⟨u, ?_, Q.only, ?_, ?_, ?_, ?_⟩
  · rw [hex]; unfold runOrdered; rw [runInstr_ready _ _ _ _ h]; rw [hbody, hu, settle_retires]
  · intro v hv
    exact Q.rows v (by omega)
  · intro r e g h1 h2 h3 h4 h5 h6
    have := (Q.row r g h1 (by omega) h5).1 e
    have h8 := h4
    rw [act_iff _ _ _ _ hvs h1] at h8
    simp only [Bool.and_eq_true, decide_eq_true_eq] at h8
    rw [efirst, hvl, eact, esew] at this
    exact this h8.1 h3 h4 h6
  · intro r e h2 h7 h8
    by_cases h1 : s.me.rstart ≤ r
    · obtain ⟨g, hg'⟩ := hg r h1 h2
      have := (Q.row r g h1 (by omega) hg').2.1 e
      rw [efirst, hvl, eact, esew, erow] at this
      apply this
      intro h9
      apply h8
      exact h9.2
    · rw [Q.rows _ (by omega), erow]
  · intro r g h1 h2 h3
    exact (Q.row r g h1 (by omega) h3).2.2

end Sys2Proof.Machine
end

