-- ==== Sys2Proof/Tests/Slice0.lean ====
section
/-!
SUPPORT. The model's own tests: each well-formedness check refuses an ill-formed term; words that the spec's text and
listings spell out decode to the instructions they stand for; a few single steps; and, for every statement of
Sys2Proof/Certificates/Slice0/Obligations.lean that has hypotheses, a concrete state and operands that meet them
(witness_<name of the statement>).
-/
namespace Sys2Proof.Tests
open Sys2Proof Sys2Proof.Machine

/-! ## Well-formedness refuses -/

/-- MOD 2 and 3 of the saturating forms, a relation, a format and a width past their lists, and slot 0 (R19, R24, R36). -/
theorem test_wf_refuses_scalar :
    [Instr.add 1 2 3 0 2 0, .sub 1 2 3 0 2 0, .mul 1 2 3 1 3 0, .sfcmp 1 2 3 3 0 0, .sfcvt 1 2 8 0 0 0, .sext 1 2 3 0,
     .beq 1 2 0 0 0, .bne 1 2 0 0 0, .blt 1 2 0 0 0, .bge 1 2 0 0 0, .jmp 0 0 0, .call 0 0 0, .bnzd 1 0 0 0,
     .samo32 1 2 3 9 0, .samo64 1 2 3 9 0].all (fun i => !i.wf) = true := by decide

/-- Queue, scope, barrier and engine numbers past their limits (R19, R36). -/
theorem test_wf_refuses_services :
    [Instr.qpush 4 1 0 0, .qpop 1 4 0 0, .qpushs 1 2 0, .qpops 1 2 0, .qstat 1 6 0, .rel 6 0, .acq 6 0, .bar 16 0,
     .sqpop 0 1 0, .sqpop 31 1 0, .xred 1 3 2 0 0 0, .ecfg 4 0 1 0, .ecfg 1 0x0C 1 0, .ecfgr 0 0x1C 1 0, .ego 3 1 0,
     .ewait 4 1 0, .estat 0 0x106 1 0, .ecancel 4 1 0, .publish 1 6 0, .mxzero 4 0, .vaccrd 1 4 2 0 0, .vaccwr 4 1 2 0 0,
     .ejrnl 4 1 0, .tsqstat 6 1 0].all (fun i => !i.wf) = true := by decide

/-- Mask numbers, the pair of VCAS, VSC without a mask, and the scopes of the memory forms (R19, R36). -/
theorem test_wf_refuses_vector :
    [Instr.vcmpeqVv 8 1 2 0 0, .vcmpeqVs 8 1 2 0 0, .vcmpeqVi 8 1 2 0 0, .vcmpltVv 8 1 2 0 0, .vcmpltVs 8 1 2 0 0,
     .vcmpltVi 8 1 2 0 0, .vcmpleVv 8 1 2 0 0, .vcmpleVs 8 1 2 0 0, .vcmpleVi 8 1 2 0 0, .kand 8 1 2 0, .kor 1 8 2 0,
     .kxor 1 2 8 0, .knot 1 8 0, .kffs 1 8 0, .kpopc 1 8 0, .kset 8 1 2 0, .kmv 8 1 0, .vldq 4 1 2 0 0 0 0 0,
     .vstq 4 1 2 0 0 0, .vlda 1 2 3 0 0 6 0, .vstr 1 2 3 0 6 0, .vflush 1 2 0 6 0, .vinvl 1 2 0 6 0, .vcas 31 1 2 0 0,
     .vsc 1 2 3 0 0].all (fun i => !i.wf) = true := by decide

/-- The transform sequencer's fields past their lists (R230-R240). -/
theorem test_wf_refuses_tsq :
    [Instr.tagsetImm 0 6 1, .tagsetParam 0 6 1, .tcvt 0 1 2 6 0 0, .tpack 0 1 2 2 0, .tpack 0 1 3 2 2, .tunpk 0 1 3 3 0,
     .tunpk 0 1 2 3 2, .ttrn 6].all (fun i => !i.wf) = true := by decide

/-- What the checks accept at the other side of each limit. -/
theorem test_wf_accepts :
    [Instr.add 1 2 3 0 1 0, .sfcmp 1 2 3 2 0 0, .sfcvt 1 2 7 0 0 0, .sext 1 2 2 0, .bnzd 1 0 1 0, .samo64 1 2 3 8 0, .qpush 3 1 0 0,
     .qstat 1 5 0, .rel 5 0, .bar 15 0, .sqpop 30 1 0, .xred 1 2 2 0 0 0, .ecfg 1 0x0B 1 0, .ecfgr 0 0x1B 1 0, .ego 2 1 0,
     .estat 0 0x105 1 0, .mxzero 3 0, .tsqstat 5 1 0, .kset 7 1 2 0, .vcas 30 1 2 0 0, .vsc 1 2 3 1 0, .tagsetImm 0 5 1,
     .tcvt 0 1 2 5 0 0, .tpack 0 1 3 2 1, .tunpk 0 1 2 3 1, .ttrn 5].all (fun i => i.wf) = true := by decide

/-! ## Words of the spec -/

/-- `ADD s5, s5, s4`, `DIV.U s3, s4, s5`, `SUB s2, s2, s6` (R340, R341, the listings). -/
theorem test_decode_arithmetic : decodeStrand 0x01294800 = .ok (.add 5 5 4 0 0 0) ∧ decodeStrand 0x05190A10 = .ok (.div 3 4 5 1 0)
    ∧ decodeStrand 0x02108C00 = .ok (.sub 2 2 6 0 0 0) := ⟨rfl, rfl, rfl⟩

/-- `ADDI s4, s4, #-1`, `SHLI s7, s6, #1`, `ANDI s11, s11, #0x3F`, `MOVHI s4, s4, #0xD00` and `LIMM` of 0x4000_0800. -/
theorem test_decode_immediates : decodeStrand 0x10213FFC = .ok (.addi 4 4 0xFFF 0) ∧ decodeStrand 0x14398004 = .ok (.shli 7 6 1 0)
    ∧ decodeStrand 0x115AC0FC = .ok (.andi 11 11 0x3F 0) ∧ decodeStrand 0x18213400 = .ok (.movhi 4 4 0xD00 0)
    ∧ decodeStrand 0x19004000 = .ok (.limm 0x4000) := ⟨rfl, rfl, rfl, rfl, rfl⟩

/-- `SFADD s14, s14, s13, fp32`, `SFDIV s8, s6, s7, fp32`, `SFCVT s6, s5, int64, fp32`, `SFCVT.RTZ s10, s8, fp32, int64`. -/
theorem test_decode_floats : decodeStrand 0x20739A10 = .ok (.sfadd 14 14 13 1 0 0) ∧ decodeStrand 0x23418E10 = .ok (.sfdiv 8 6 7 1 0 0)
    ∧ decodeStrand 0x28314C10 = .ok (.sfcvt 6 5 6 1 0 0) ∧ decodeStrand 0x28520818 = .ok (.sfcvt 10 8 4 1 2 0) := ⟨rfl, rfl, rfl, rfl⟩

/-- `BNE s4, s0` to slot 1 of its own line, `BGE s5, s0` to slot 1 of the next line, `BNZD s4` to slot 3, `JMP` to slot 6,
`JR s0, s31`. -/
theorem test_decode_control : decodeStrand 0x31200004 = .ok (.bne 4 0 0 1 0) ∧ decodeStrand 0x33280044 = .ok (.bge 5 0 1 1 0)
    ∧ decodeStrand 0x3720000C = .ok (.bnzd 4 0 3 0) ∧ decodeStrand 0x34000018 = .ok (.jmp 0 6 0)
    ∧ decodeStrand 0x3607C000 = .ok (.jr 0 31 0) := ⟨rfl, rfl, rfl, rfl, rfl⟩

/-- `TRAP #5`, `RETT`, `EXIT`, `ANCALL s3, s4, #0x10`, `LAUNCH s3, s4`, `BAR #1`, `GRANT s3, s4, s5`, `TLBINV s4, s5`. -/
theorem test_decode_system : decodeStrand 0x39000014 = .ok (.trap 5 0) ∧ decodeStrand 0x3A000000 = .ok (.rett 0)
    ∧ decodeStrand 0x3B000000 = .ok (.exit 0) ∧ decodeStrand 0x3F190040 = .ok (.grpopen 3 4 0)
    ∧ decodeStrand 0x61190000 = .ok (.launch 3 4 0) ∧ decodeStrand 0x5D000004 = .ok (.bar 1 0)
    ∧ decodeStrand 0xE9190A00 = .ok (.grant 3 4 5 0) ∧ decodeStrand 0x69010A00 = .ok (.tlbinv 4 5 0) :=
  ⟨rfl, rfl, rfl, rfl, rfl, rfl, rfl, rfl⟩

/-- `SLD.32 s6, [s4 + 16]`, `SST.32 s11, [s10]`, `SAMO.64 s3, [s8], s9, maxu`, `SPF.KEEP [s4 + 256]`, `CSRR s3, FCSR`,
`CSRW FCSR, s4`, `CLAIM s3, [s4], s5`. -/
theorem test_decode_memory : decodeStrand 0x42310040 = .ok (.sld32 6 4 16 0) ∧ decodeStrand 0x465A8000 = .ok (.sst32 11 10 0 0)
    ∧ decodeStrand 0x491A1270 = .ok (.samo64 3 8 9 7 0) ∧ decodeStrand 0x4F190400 = .ok (.spf 3 4 256 0)
    ∧ decodeStrand 0x4C180020 = .ok (.csrr 3 8 0) ∧ decodeStrand 0x4D010020 = .ok (.csrw 4 8 0)
    ∧ decodeStrand 0x60190A00 = .ok (.claim 3 4 5 0) := ⟨rfl, rfl, rfl, rfl, rfl, rfl, rfl⟩

/-- `QPUSH q1, v4`, `TKCFG s3, s4, s5`, `FENCE.VS`, `REL part`, `ACQ system`, `WMPUB s9, s8`, `FMTSET s3, s4, s5`,
`RCREQ s3, s4, s5, s6`. -/
theorem test_decode_services : decodeStrand 0x53024000 = .ok (.qpush 1 4 0 0) ∧ decodeStrand 0x50190A00 = .ok (.tkcfgQuery 3 4 5 0)
    ∧ decodeStrand 0x59000000 = .ok (.fenceVs 0) ∧ decodeStrand 0x5B00000C = .ok (.rel 3 0) ∧ decodeStrand 0x5C000014 = .ok (.acq 5 0)
    ∧ decodeStrand 0x5E025000 = .ok (.wmpub 9 8 0) ∧ decodeStrand 0x65190A00 = .ok (.fmtset 3 4 5 0)
    ∧ decodeStrand 0x6A190A60 = .ok (.rcreq 3 4 5 6 0) := ⟨rfl, rfl, rfl, rfl, rfl, rfl, rfl, rfl⟩

/-- `XRED v8, s4, sum, k2`, `XMEMB s3, s4, s5`, `ECFG mxe, MFMT, s6`, `EGO mxe, s7`, `EWAIT mxe, s7`, `PUBLISH s4, part`,
`EJRNL mxe, s0`. -/
theorem test_decode_engines : decodeStrand 0x6C100220 = .ok (.xred 8 0 4 2 0 0) ∧ decodeStrand 0x6F190A00 = .ok (.xmemb 3 4 5 0)
    ∧ decodeStrand 0x70004300 = .ok (.ecfg 0 4 6 0) ∧ decodeStrand 0x72000380 = .ok (.ego 0 7 0)
    ∧ decodeStrand 0x73000380 = .ok (.ewait 0 7 0) ∧ decodeStrand 0x76010030 = .ok (.publish 4 3 0)
    ∧ decodeStrand 0x7C000000 = .ok (.ejrnl 0 0 0) := ⟨rfl, rfl, rfl, rfl, rfl, rfl, rfl⟩

/-- `VSETL s1, s0, e16, rc1, rne, repro`, `VADD v3, v3, #1, k1`, `VADD.TS v3, v1, v2, k2`, `VMUL v4, v4, s7`, `VFMA v8, v2, v3`,
`VCVT v2, v1, s9`, `VSLUP v6, v5, #1`, `VMVX s11, v2, s12`. -/
theorem test_decode_vector : decodeStrand 0x80081880 = .ok (.vsetl 1 0 3 0 1 0 0 0) ∧ decodeStrand 0x90863090 = .ok (.vaddVi 3 3 1 1 0 0)
    ∧ decodeStrand 0x90061122 = .ok (.vaddVv 3 1 2 2 0 2) ∧ decodeStrand 0x92484380 = .ok (.vmulVs 4 4 7 0 0 0)
    ∧ decodeStrand 0x93102180 = .ok (.vfmaVv 8 2 3 0 0 0) ∧ decodeStrand 0x85041480 = .ok (.vcvt 2 1 9 0 0 0)
    ∧ decodeStrand 0x8C8C5080 = .ok (.vslupVi 6 5 1 0 0) ∧ decodeStrand 0x82162600 = .ok (.vmvx 11 2 12 0) :=
  ⟨rfl, rfl, rfl, rfl, rfl, rfl, rfl, rfl⟩

/-- `VAND v5, v6, #3`, `VSHL v5, v5, s9`, `VCMPEQ k1, v1, #10`, `KSET k1, s0, s1`, `KFFS s5, k1`, `VREDSUM s4, v1, k1`,
`VSCANX v2, v1, k1`, `VDOT s13, v2, v2`. -/
theorem test_decode_bits : decodeStrand 0xA08A6180 = .ok (.vandVi 5 6 3 0 0) ∧ decodeStrand 0xA44A5480 = .ok (.vshlVs 5 5 9 0 0)
    ∧ decodeStrand 0xA7821500 = .ok (.vcmpeqVi 1 1 10 0 0) ∧ decodeStrand 0xB8020080 = .ok (.kset 1 0 1 0)
    ∧ decodeStrand 0xAE0A1000 = .ok (.kffs 5 1 0) ∧ decodeStrand 0xB0081010 = .ok (.vredsum 4 1 1 0 0)
    ∧ decodeStrand 0xB6041010 = .ok (.vscanx 2 1 1 0 0) ∧ decodeStrand 0xB71A2100 = .ok (.vdot 13 2 2 0 0 0) :=
  ⟨rfl, rfl, rfl, rfl, rfl, rfl, rfl, rfl⟩

/-- `VLD.FF v1, [s4]`, `VLDX v1, [s4], v7`, `VLDQ.TF q0, [s6 + s7]`, `VST v0, [s5]`, `VZERO [s5]`, `VLDA v2, [s5], part`,
`VAMOADD v3, [s2], v9, k1`, `VSC v3, [s5], v2, k1`, `VSANM v3, [s5], v2`. -/
theorem test_decode_vector_memory : decodeStrand 0xC0090020 = .ok (.vld 1 4 0 0 1 0 0 0) ∧ decodeStrand 0xC2090E00 = .ok (.vldx 1 4 7 0 0 0 0 0)
    ∧ decodeStrand 0xC3018E10 = .ok (.vldq 0 6 7 0 0 1 0 0) ∧ decodeStrand 0xC4014000 = .ok (.vst 0 5 0 0 0 0)
    ∧ decodeStrand 0xCB014000 = .ok (.vzero 5 0 0 0 0) ∧ decodeStrand 0xC811400C = .ok (.vlda 2 5 0 0 0 3 0)
    ∧ decodeStrand 0xD0189240 = .ok (.vamoadd 3 2 9 1 0) ∧ decodeStrand 0xD8194440 = .ok (.vsc 3 5 2 1 0)
    ∧ decodeStrand 0xDB194400 = .ok (.vsanm 3 5 2 0 0) := ⟨rfl, rfl, rfl, rfl, rfl, rfl, rfl, rfl, rfl⟩

/-- `THALT`, `TLOOP l0, p4`, `TNEXT l0` 17 words back, `TAGSET ag0, rowstride, p1`, `TRD tb7, ag0`, `TWR tb7, ag1`, `TTRN e8`. -/
theorem test_decode_tsq : decodeTsq 0x00000000 = .ok .thalt ∧ decodeTsq 0x04800004 = .ok (.tloopParam 0 4)
    ∧ decodeTsq 0x08000FEF = .ok (.tnext 0 0xFEF) ∧ decodeTsq 0x10B00001 = .ok (.tagsetParam 0 5 1)
    ∧ decodeTsq 0x17800000 = .ok (.trd 7 0) ∧ decodeTsq 0x1BA00000 = .ok (.twr 7 1) ∧ decodeTsq 0x29000000 = .ok (.ttrn 2) :=
  ⟨rfl, rfl, rfl, rfl, rfl, rfl, rfl⟩

/-- Refusals by name: BNZD with a second register, RETT with an operand, a branch to slot 0, an unassigned opcode. -/
theorem test_decode_refuses : decodeStrand 0x3720400C = .error .nonzeroField ∧ decodeStrand 0x3A000004 = .error .nonzeroField
    ∧ (decodeStrand 0x31200000).toOption = none ∧ decodeStrand 0xFF000000 = .error .reservedOpcode := ⟨rfl, rfl, rfl, rfl⟩

/-! ## The small states of the witnesses -/

/-- A policy that allows everything the tests ask. -/
def policy : Policy :=
  { version := 1, reservedSet := false, maxScope := true, hostOps := 0xFFFF, preempt := 0xF, bwWeight := 1, demFmt := -1
    pgTmo := 1, reserve := 0, trapVec := 0x4000, ceil := 7, windows := [⟨0, 0x1000, 0x2000, true⟩] }

/-- A resident function of tenant 0 in partition 0, with one segment of 32-bit lines. -/
def vf0 : Vf :=
  { st := .resident, policy := policy, trapVec := 0x4000
    segs := [(5, { rd := true, wr := true, ex := true, lw := 32, pw := 32, chunks := List.range 16 })] }

/-- A page of that segment, at device virtual address 0x40_0000. -/
def page0 : TlbEntry :=
  { vf := 0, vseg := 16, rd := true, wr := true, ex := true, priv := false, lw := 32, pw := 32, dem := 0, dfmt := 0
    strict := false, near := true, shadowed := false, iseg := 5, chunks := List.range 16 }

/-- The braid in slot 0: one stage of one pair. -/
def braid0 : Braid :=
  { no := 1, vf := 0, running := true, image := 0x4000000, fuse := false, prio := 0, early := false, pred := 0, predWm := 0
    predBnd := 0, stages := [⟨4, 68, 1, false, 1, 2, none, none, 2, 0⟩], queues := [⟨3, 0x10000, 2, 0, 0, 2, 1, []⟩], fmts := [] }

/-- Partition 0: one coil, eight channels, the braid. -/
def part0 : Part := { tenant := some 0, coils := [0], chans := List.range 8, braids := [(0, braid0)], braidCtr := 1 }

/-- The EXE strand of pair 0 in the privileged mode: VL 4 of 32-bit elements; s4 is the base of its own local store, s5 the page
of `page0`, s6 to s9 numbers, s10 the code of 1.0. -/
def exe : Strand :=
  { live := true, ctx := 1, role := 1, pm := true, vl := 4, sew := 4, ill := false, rowsInit := true, jrnlBase := 0x8001
    trapVec := 0x4000, pc := 0x4000004, image := 0x4000000, link := 0x3F000000#32
    regs := (((((((Vector.replicate 32 0).set 4 0xFFFE000000800000).set 5 0x400000).set 6 6).set 7 0xFFFFFFFFFFFFFFFF).set 8
      0x8000000000000000).set 9 1).set 10 0x3F800000 }

/-- A machine that runs it. -/
def run0 : State :=
  { me := exe, vfs := [(0, vf0)], parts := [(0, part0)], cores := [(0, { tlb := [page0] })], anchor := { stage := 4 } }

/-- The same machine with its strand changed. -/
def run1 (f : Strand → Strand) : State := { run0 with me := f exe }


/-- The page's segment packed four to a line, in a partition without a free chunk. -/
def packed : State :=
  { run0 with
    vfs := [(0, { vf0 with segs := [(5, { rd := true, wr := true, ex := true, lw := 32, pw := 8, chunks := [0, 1, 2, 3] })] })]
    parts := [(0, { part0 with chans := [] })] }

/-- Rows 1 to 3 hold INT32 elements 1, 2, 3, 4; row 7 their byte offsets 0, 4, 8, 12 as NAT32; rows 8 to 10 FP32 1.0; row 11
E4M3 1.0; the others are ZERO. k1 holds elements 0 and 2; s3 is the number of FP32. -/
def vec0 : State :=
  let int : Row := ⟨0x00000004000000030000000200000001, mkTag 12 127 0 false⟩
  let off : Row := ⟨0x0000000C000000080000000400000000, mkTag 18 127 0 false⟩
  let one : Row := ⟨0x3F8000003F8000003F8000003F800000, mkTag 2 127 0 false⟩
  let e4m3 : Row := ⟨0x00000038000000380000003800000038, mkTag 5 127 0 false⟩
  run1 (fun c => { c with
    rows := (((((((c.rows.set 1 int).set 2 int).set 3 int).set 7 off).set 8 one).set 9 one).set 10 one).set 11 e4m3
    masks := c.masks.set 1 5
    regs := c.regs.set 3 2 })

/-- What a vector memory instruction that has performed nothing yet finds. -/
def found (s : State) (x : MemOp) : Found := findElems x (s.progress x.k) false (s.todo x (s.progress x.k)) s

/-- The addresses of a vector memory instruction translate: what its statement calls `finds`. -/
def finds (s : State) (x : MemOp) (gs : List (BitVec 5)) : Bool :=
  let r := found s x
  !s.me.memIll x gs && !s.indexPoison x && r.fault.isNone && r.pending.isEmpty
/-! ## Witnesses: the scalar side -/

/-- Ready with every token field (the wait on FIFO 1 holds a token, the signal on FIFO 8 has room); sums at, above and below
the ends of the number range; a zero, a nonzero and the overflowing divisor. -/
theorem witness_ScalarArithmetic :
    run0.ready 0 true = true ∧ (run1 (fun c => { c with waitF := 1, tokTsq := 1 })).ready 3 true = true
    ∧ ((run0.reg 7).toNat : Int) + (run0.reg 0).toNat = 2 ^ 64 - 1 ∧ (2 ^ 64 - 1 : Int) < (run0.reg 7).toNat + (run0.reg 9).toNat
    ∧ ((run0.reg 0).toNat : Int) - (run0.reg 9).toNat < 0 ∧ (run0.reg 8).toInt + 0 = -2 ^ 63 ∧ (run0.reg 8).toInt + (run0.reg 7).toInt < -2 ^ 63
    ∧ run0.reg 0 = 0 ∧ run0.reg 6 ≠ 0 ∧ (run0.reg 8).toInt = -2 ^ 63 ∧ (run0.reg 7).toInt = -1 := by decide +kernel

/-- Less, equal and greater, signed and unsigned; a zero and a nonzero selector. -/
theorem witness_ScalarLogicAndShifts :
    run0.ready 0 true = true ∧ (run0.reg 6).toNat < (run0.reg 7).toNat ∧ (run0.reg 7).toInt < (run0.reg 6).toInt
    ∧ run0.reg 6 = run0.reg 6 ∧ run0.reg 6 ≠ 0 ∧ run0.reg 0 = 0 := by decide +kernel

/-- With and without a LIMM before it, and both outcomes of SLTI at the boundary. -/
theorem witness_ScalarImmediates :
    run0.ready 0 true = true ∧ run0.me.issued = none ∧ (run1 (fun c => { c with limm := some (1, 0) })).ready 0 true = true
    ∧ (run0.reg 6).toInt < (7#12).toInt ∧ (6#12).toInt ≤ (run0.reg 6).toInt := by decide +kernel

/-- SEXT of every width the form has. -/
theorem witness_ScalarBits : run0.ready 0 true = true ∧ (2#2) ≠ 3 ∧ (run0.reg 6).toNat % 64 = 6 := by decide +kernel

theorem witness_NopAndLimm : run0.ready 0 true = true ∧ run0.me.older = false ∧ run0.me.ckpt.length < 64 := by decide +kernel

/-- Equal and different registers; BNZD on 1, on another value and on s0; a word of BNZD with a second register. -/
theorem witness_Branches :
    run0.ready 0 true = true ∧ run0.reg 6 ≠ run0.reg 7 ∧ (run0.reg 7).toInt < (run0.reg 6).toInt ∧ run0.reg 6 ≠ 1 ∧ run0.reg 9 = 1
    ∧ run0.reg 0 = 0 ∧ opOf 0x37004000 = 0x37 ∧ fld 0x37004000 14 5 ≠ 0 := by decide +kernel

theorem witness_Jumps : run0.ready 0 true = true ∧ opOf 0x36000004 = 0x36 ∧ (0x36000004#32 &&& 0x3FFC) ≠ 0 := by decide +kernel

theorem witness_SoftwareTraps : run0.me.issued = none ∧ run0.me.older = false ∧ run0.ready 0 false = true := by decide +kernel

/-- In both modes; a trap element and none; a resume record at the saved address, one elsewhere, and none. -/
theorem witness_ReturnFromTrap :
    let r (pc : Word) (e : Word) : State := run1 (fun c => { c with trapPc := 64, trapElem := e, resume := some ⟨pc, [], []⟩ })
    (r 64 (2 ^ 31)).ready 0 false = true ∧ (r 64 (2 ^ 31)).me.pm = true ∧ (r 64 (2 ^ 31)).me.trapElem.getLsbD 31 = true
    ∧ (r 64 0).me.trapElem.getLsbD 31 = false ∧ (r 64 0).me.resumeUse = false ∧ (r 64 0).me.resume = some ⟨64, [], []⟩
    ∧ (r 68 0).me.resume ≠ some ⟨64, [], []⟩ ∧ run0.me.resume = none
    ∧ (run1 (fun c => { c with pm := false })).ready 0 false = true ∧ run0.me.issued = none ∧ run0.me.older = false := by decide +kernel

theorem witness_TrapEntry : run0.me.issued = none ∧ run0.me.older = false := by decide +kernel

theorem witness_ScalarFloats : run0.ready 0 true = true ∧ run0.me.noTraps = true := by decide +kernel

theorem witness_ScalarFloatOthers : run0.ready 0 true = true ∧ run0.me.noTraps = true := by decide +kernel

/-- FCSR enables every exception, and 1.0 plus a subnormal number is inexact. -/
theorem witness_ScalarFloatTrap :
    let s := run1 (fun c => { c with fcsr := 0x3F00 })
    let g := fixedFmt 2
    let x := (g.decode ((s.reg 10).toNat % 2 ^ g.width)).add 0 (g.decode ((s.reg 9).toNat % 2 ^ g.width))
    s.me.issued = none ∧ s.me.older = false ∧ s.ready 0 true = true
    ∧ trapFlags s.me.fcsr (x.2 ||| (roundTo g 127 ⟨0, 0, false⟩ x.1).2) ≠ 0 := by decide +kernel

/-- Instructions of the strand's families meet the premises of the first half; `ADD`'s word those of the second. -/
theorem witness_StrandWordsRoundTrip :
    ([Instr.add 5 5 4 0 0 0, .bnzd 4 0 3 0, .trap 5 0, .sld32 6 4 16 0, .xred 8 0 4 2 0 0, .vaddVi 3 3 1 1 0 0, .vld 1 4 0 0 1 0 0 0,
      .grant 3 4 5 0].all (fun i => i.wf && !i.wordless && !i.isTsq && !i.isEvent)) = true
    ∧ decodeStrand 0x01294800 = .ok (.add 5 5 4 0 0 0) := ⟨by decide, rfl⟩

theorem witness_TsqWordsRoundTrip :
    (Instr.isTsq (.tloopParam 0 4) = true ∧ (Instr.tloopParam 0 4).wf = true) ∧ decodeTsq 0x04800004 = .ok (.tloopParam 0 4) :=
  ⟨by decide, rfl⟩

/-- The first, the last and the odd ones of the unassigned opcodes. -/
theorem witness_ReservedOpcodes :
    (0x2C ≤ (0x2C000000#32).toNat / 2 ^ 24 ∧ (0x2F000000#32).toNat / 2 ^ 24 ≤ 0x2F ∧ (0x7E000000#32).toNat / 2 ^ 24 = 0x7E
      ∧ (0xBB000000#32).toNat / 2 ^ 24 = 0xBB ∧ (0xCF000000#32).toNat / 2 ^ 24 = 0xCF ∧ (0xDD000000#32).toNat / 2 ^ 24 = 0xDD
      ∧ 0xEB ≤ (0xEB000000#32).toNat / 2 ^ 24) ∧ run0.me.issued = none ∧ run0.me.older = false := by decide +kernel

/-- A strand that ran past its line, elsewhere and at its trap vector; a strand with an engine fault to take. -/
theorem witness_FetchAndAsyncTraps :
    (let s := run1 (fun c => { c with fellOff := true })
     s.me.issued = none ∧ s.me.older = false ∧ s.me.atVec = false
      ∧ s.fetch = .fault s causeCodeEnd (s.me.pc - BitVec.ofNat 64 (4 * (linkLast s.me.link + 1))))
    ∧ (let s := run1 (fun c => { c with fellOff := true, atVec := true })
       s.me.live = true ∧ s.me.atVec = true ∧ s.fetch = .fault s causeCodeEnd (s.me.pc - BitVec.ofNat 64 (4 * (linkLast s.me.link + 1))))
    ∧ (let s := run1 (fun c => { c with pm := false, asyncFaults := [5] })
       s.me.asyncFaults = 5 :: [] ∧ s.me.pm = false ∧ s.me.limm = none ∧ s.me.sigPend = none ∧ s.me.issued = none ∧ s.me.older = false)
    ∧ (let s := run1 (fun c => { c with fellOff := true, limm := some (1, 0x4000000) })
       s.me.atVec = false ∧ s.fetch = .fault s causeCodeEnd (s.me.pc - BitVec.ofNat 64 (4 * (linkLast s.me.link + 1)))) :=
  ⟨⟨rfl, rfl, rfl, rfl⟩, ⟨rfl, rfl, rfl⟩, ⟨rfl, rfl, rfl, rfl, rfl, rfl⟩,
   ⟨rfl, rfl⟩⟩

/-- The premises of `Obligations.StepRunsDecoded` for a scalar (`vec = false`) or vector instruction at a state. -/
noncomputable def fetches (s : State) (vec : Bool) : Bool :=
  let t := { s with turns := s.turns + 1 }
  match t.fetch with
  | .word u link w =>
    match decodeStrand w with
    | .ok i =>
      let r := { u with me := { u.me with link := link, held := none, anchorHold := false } }
      decide (u.me = s.me) && (r.decodeCause i w).isNone && !r.me.awaits w (isVector i) && isVector i == vec
        && (!vec || (!s.me.older && ((r.enterDq i).holdRound r.me.core (toVlsu i)).me.issued.isSome))
    | .error _ => false
  | _ => false

/-- `ADD s5, s5, s4` and `VADD v3, v1, v2` placed where the machine fetches. -/
theorem witness_StepRunsDecoded :
    let s (w : Nat) : State := State.reset.withFetchWord 32 w
    (s 0x01294800).agenda = [] ∧ (s 0x01294800).anchor.powered = true ∧ (s 0x01294800).due = false
    ∧ (s 0x01294800).me.issued = none ∧ ({ s 0x01294800 with turns := 1 } : State).stopped (s 0x01294800).me = false
    ∧ (s 0x01294800).me.sigPend = none ∧ (s 0x01294800).me.ssq = [] ∧ (s 0x01294800).me.logFull 2 = false
    ∧ (s 0x01294800).me.asyncFaults = [] ∧ fetches (s 0x01294800) false = true ∧ fetches (s 0x90061120) true = true := by decide +kernel

theorem witness_MemoryStaysCanonical :
    Memory.wf (State.reset.withFetchWord 32 0x01294800).mem = true
    ∧ Safety.runs (step (State.reset.withFetchWord 32 0x01294800)) = true := by decide +kernel

/-- SQ1 is the EXE strand's to write, SQ0 the ACC strand's; one entry waits in SQ0; every code of QSTAT. -/
theorem witness_ScalarQueues :
    run0.ready 0 false = true ∧ run0.me.writesSq 1 = true ∧ run0.sqClosed 1 = false ∧ (run0.sqOf 1).length < 16
    ∧ run0.me.writesSq 0 = false ∧ (run0.setSq 0 [5]).sqOf 0 = [5] ∧ (run0.setSq 0 [5]).ready 0 false = true
    ∧ (run0.setSq 1 (List.replicate 15 0)).ready 0 false = true ∧ ((run0.setSq 1 (List.replicate 15 0)).sqOf 1).length = 15 := by decide +kernel

/-- FIFO 4 with one token and with none asked, FIFO 9 below and at its capacity. -/
theorem witness_Tokens :
    let r := (((exe.regs.set 1 4).set 2 32).set 3 9).set 11 1
    let s := run1 (fun c => { c with tokCpe1 := 32, tokToTsq := 31, regs := r })
    s.ready 0 false = true ∧ (s.reg 1).toNat = 4 ∧ (s.reg 2).toNat = 32 ∧ s.tokens s.me 4 = 32 ∧ (s.reg 3).toNat = 9
    ∧ s.tokens s.me 9 + (s.reg 11).toNat = 32 ∧ s.fifoClosed s.me 9 = false ∧ (s.setTokens 9 32).canGive 0 = true := by decide +kernel

/-- Both modes, a legal and an illegal vector configuration, the first privileged CSR on both sides. -/
theorem witness_CsrReads :
    run0.ready 0 false = true ∧ run0.me.pm = true ∧ run0.me.ill = false ∧ (run1 (fun c => { c with ill := true })).me.ill = true
    ∧ (run1 (fun c => { c with ill := true })).ready 0 false = true ∧ (run1 (fun c => { c with pm := false })).ready 0 false = true
    ∧ (0x106#12).toNat ≥ 0x100 ∧ (0x020#12).toNat < 0x100 ∧ csrDefined 0x020 = true ∧ csrDefined 0x106 = true
    ∧ ((run0.csrWrite 0x106 (run0.reg 6)).setReg 1 0).canGive 0 = true := by decide +kernel

theorem witness_CsrWrites :
    run0.ready 0 false = true ∧ (run0.csrWrite 0x003 (run0.reg 6)).canGive 0 = true ∧ run0.incomplete run0.me = [] ∧ run0.me.pm = true
    ∧ run0.vfs.lookup run0.me.vf = some vf0 := by decide +kernel

/-- Refused and accepted vtypes at their ends; sa = s0 and not; rows initialised or not. -/
theorem witness_SetVectorLength :
    run0.ready 0 false = true ∧ (1#2) ≠ 0 ∧ 5 < (6#3).toNat ∧ (5#3).toNat ≤ 5 ∧ run0.me.rowsInit = true ∧ run0.me.pend = run0.me.slices
    ∧ (run1 (fun c => { c with rowsInit := false })).ready 0 false = true := by decide +kernel

/-- What a scalar access's address check answers. -/
def placed (x : ScalarAt) : Bool :=
  match x with
  | .ok _ _ _ _ => true
  | _ => false

/-- An address of the local store and one of the page; the line read is neither POISON nor UNINIT in a strict page; a misaligned
address. -/
theorem witness_ScalarLoads :
    run0.ready 0 true = true ∧ run0.me.ssq = [] ∧ placed (run0.checkScalar (run0.reg 4) 8 .read) = true
    ∧ placed (run0.checkScalar (run0.reg 5) 8 .read) = true ∧ run0.loadWaits (run0.reg 5).toNat 8 = false
    ∧ (let s := run0.setTag ((run0.part 0).chunkLine (List.range 16) 0) (mkTag 0 127 4 false)
       s.ready 0 true = true ∧ (match s.checkScalar (s.reg 5) 8 .read with
        | .ok u l _ st => classOf (u.loadLine 0 l 0 s.reader).2.1 == 4 && !st
        | _ => false) = true)
    ∧ (match run0.checkScalar (run0.reg 4) 8 .read with
      | .ok u l _ _ => classOf (u.loadLine 0 l 0 run0.reader).2.1 != 2
      | _ => false) = true
    ∧ (run0.reg 6).toNat % 4 ≠ 0 := by decide +kernel

/-- The own local store, with a line of class VALID. -/
theorem witness_LocalStoreLoads :
    let s := { run0 with tags := [(2 ^ 36, 0x1FC2#32)] }
    s.ready 0 true = true ∧ s.me.ssq = [] ∧ Memory.wf s.mem = true ∧ classify s.me.core (s.reg 4).toNat = .window 0 0
    ∧ s.resolve s.me.vf (s.reg 4).toNat = (s.reg 4).toNat ∧ badTag (s.tagAt (2 ^ 36)) = false ∧ classOf (s.tagAt (2 ^ 36)) ≠ 2
    ∧ classOf (s.tagAt (2 ^ 36)) ≠ 4 ∧ s.loadWaits (s.reg 4).toNat 8 = false := by decide +kernel

/-- A store performed at once, one that a fit check refuses (the packed segment cannot grow), and one that waits in the queue
behind a vector instruction. -/
theorem witness_ScalarStores :
    placed (run0.checkScalar (run0.reg 5) 8 .write) = true ∧ run0.me.older = false
    ∧ (match run0.checkScalar (run0.reg 5) 8 .write with
      | .ok u l off _ => (u.storeLine 0 l (untyped 6 off 8) 0 true run0.reader (run0.reg 5)).1.isSome
      | _ => false) = true
    ∧ packed.ready 0 true = true ∧ packed.me.older = false ∧ (match packed.checkScalar (packed.reg 5) 8 .write with
      | .ok u l off _ => (u.storeLine 0 l (untyped 6 off 8) 0 true packed.reader (packed.reg 5)).1.isNone
      | _ => false) = true
    ∧ (let s := run1 (fun c => { c with dq := [{ instr := .vaddVv 1 2 3 0 0 0, cap := {}, pc := 0 }] })
       s.ready 0 true = true ∧ s.me.older = true ∧ s.me.ssq.length < 16 ∧ (match s.checkScalar (s.reg 5) 8 .write with
        | .ok u (.page e _) _ _ => !u.fitChecked e
        | _ => false) = true)
    ∧ run0.ready 0 true = true := by decide +kernel

/-! ## Witnesses: memory, services and vectors -/

/-- Every width at an aligned offset of the own local store; the other spelling of its first byte, by core number. -/
theorem witness_LocalStoreStores :
    run0.ready 0 true = true ∧ run0.me.older = false ∧ Memory.wf run0.mem = true ∧ classify 0 (run0.reg 4).toNat = .window 0 0
    ∧ classify 0 0xFFFE0000000FFFF8 = .window 0 0xFFFF8 ∧ run0.resolve 0 (run0.reg 4).toNat = (run0.reg 4).toNat := by decide +kernel

/-- Operators 0 and 8, a counter below its limit and at it, a request of zero and of six elements. -/
theorem witness_ScalarAtomics :
    let s := { run0 with mem := memPutNat [] (lsByte 0 8) 9 8 }
    s.ready 0 false = true ∧ Memory.wf s.mem = true ∧ classify 0 (s.reg 4).toNat = .window 0 0
    ∧ s.resolve 0 (s.reg 4).toNat = (s.reg 4).toNat ∧ badTag (s.tagAt (2 ^ 36)) = false ∧ classOf (s.tagAt (2 ^ 36)) ≠ 2
    ∧ (8#5).toNat ≤ 8 ∧ s.me.ill = false ∧ memNat s.mem (lsByte 0 8) 8 = 9 ∧ memNat run0.mem (lsByte 0 8) 8 ≤ memNat run0.mem (lsByte 0 0) 8
    ∧ s.reg 6 ≠ 0 ∧ s.reg 0 = 0 := by decide +kernel

/-- SYSTEM scope where the policy allows it and where it does not. -/
theorem witness_Fences :
    run0.ready 0 false = true ∧ (run0.vfs.lookup run0.me.vf).map (fun v => v.policy.maxScope) = some true
    ∧ (let s := { run0 with vfs := [(0, { vf0 with policy := { policy with maxScope := false } })] }
       s.ready 0 false = true ∧ (s.vfs.lookup s.me.vf).map (fun v => v.policy.maxScope) = some false) := by decide +kernel

/-- The last watermark and the first number that is none; a bound reached and not; a wake pending and not; a strand to wake. -/
theorem witness_WatermarksAndWakes :
    let s := { run0 with parts := [(0, { part0 with wm := [(255, 7)] })] }
    let t (n : Word) := run1 (fun c => { c with regs := c.regs.set 1 n })
    s.ready 0 false = true ∧ s.me.ssq = [] ∧ look (s.part 0).wm 255 0 = 7 ∧ (s.reg 6).toNat ≤ 7 ∧ 7 < (s.reg 7).toNat
    ∧ (run0.reg 8).toNat > 255 ∧ ((t 255).reg 1).toNat = 255 ∧ ((t 256).reg 1).toNat = 256
    ∧ (run1 (fun c => { c with wake := true })).ready 0 false = true ∧ run0.me.wake = false
    ∧ (let r := ({ run0 with others := [{ exe with ctx := 0, role := 0, strandId := 6 }] } : State).release 1
       (r.everyStrand.any (fun u => run0.me.mate u 6)) = true ∧ (r.everyStrand.all (fun u => !run0.me.mate u 9)) = true) := by decide +kernel

/-- Indices 22, 23, 63 and 64; a valid and an invalid descriptor; a value of PLT at its limits. -/
theorem witness_FormatContext :
    let s := run1 (fun c => { c with regs := (((c.regs.set 1 23).set 2 63).set 3 64).set 11 0x1D3E4 })
    s.ready 0 false = true ∧ (s.reg 1).toNat = 23 ∧ (s.reg 2).toNat = 63 ∧ 63 < (s.reg 3).toNat ∧ (s.reg 6).toNat < 23
    ∧ descValid 0x424 = true ∧ descValid 0 = false ∧ s.myCtx.fmts.lookup 23 = none
    ∧ ((s.updBraid 0 0 (fun q => { q with fmts := put q.fmts 23 0x424 })).myCtx.fmts.lookup 23) = some 0x424 := by decide +kernel

/-- Every element-wise form on INT32 rows under a mask, on FP32 rows or on E4M3 rows, whichever it takes. -/
theorem witness_ElementwiseVector :
    let ok (s : State) (d a b : BitVec 5) (k : BitVec 3) : List Bool := (elementForms d a b k 0 0 s).map (fun p =>
      !s.me.vtypeIll (p.2.d :: p.2.srcs) && p.2.srcs.all (fun v => !s.me.straddle d v)
        && (match p.2.rowTag s 0 (p.2.tagsAt s 0) with
          | .ok _ => true
          | .error _ => false))
    vec0.ready 0 false = true ∧ vec0.me.configured = true ∧ vec0.me.noTraps = true ∧ vec0.me.resumeUse = false
    ∧ vec0.me.rstart = 0 ∧ vec0.me.rc = 1
    ∧ ((ok vec0 1 2 3 1).zip ((ok vec0 8 9 10 0).zip (ok vec0 11 11 3 0))).all (fun p => p.1 || p.2.1 || p.2.2) = true := by decide +kernel

/-- The narrowest and the widest slots, with the largest codes. -/
theorem witness_ElementOperations :
    run0.me.sew = 4 ∧ (1 : Nat) < 2 ^ 2 ^ (4 + 1) ∧ (⟨0, 0, false⟩ : Rounding).sat = false ∧ 12 = 16 - 4
    ∧ (run1 (fun c => { c with sew := 0 })).me.sew = 0 ∧ 3 < 2 ^ 2 ^ (0 + 1)
    ∧ (run1 (fun c => { c with sew := 5 })).me.sew = 5 ∧ 0xFFFFFFFFFFFFFFFF < 2 ^ 2 ^ (5 + 1) := by decide +kernel

/-- A group index below the group's count, at it, and all ones; an FMT that fits the slots; legal groups. -/
theorem witness_VectorMoves :
    let s (n : Word) : State := { vec0 with me := { vec0.me with regs := vec0.me.regs.set 12 n } }
    (s 3).ready 0 false = true ∧ (s 3).me.configured = true ∧ (s 3).me.noTraps = true ∧ (s 3).me.vtypeIll [1, 31] = false
    ∧ (s 3).me.count = 4 ∧ ((s 3).capB 12).toNat = 3 ∧ ((s 4).capB 12).toNat = 4 ∧ ((s (-1)).capB 12).toNat = 2 ^ 64 - 1
    ∧ ((s 2).myCtx.fmt (((s 2).capB 12).toNat % 64)).container (s 2).me.sewBits ≤ (s 2).me.sewBits
    ∧ classOf ((s 3).me.tag 1) ≠ 2 ∧ (s 4).ready 0 false = true ∧ (s (-1)).ready 0 false = true := by decide +kernel

/-- One format in each source, and a mask. -/
theorem witness_VectorPermutes :
    vec0.ready 0 false = true ∧ vec0.me.configured = true ∧ vec0.me.noTraps = true ∧ vec0.me.vtypeIll [1, 2, 3] = false
    ∧ (match groupTag ([2, 3].map vec0.me.groupTags).flatten with
      | .ok _ => true
      | .error _ => false) = true := by decide +kernel

/-- Masks k1 and k7, rows of one format and a splat, a mask with no active element and one whose first is element 0. -/
theorem witness_MasksAndCompares :
    vec0.ready 0 false = true ∧ vec0.me.configured = true ∧ vec0.me.noTraps = true ∧ (7#5).toNat ≤ 7 ∧ vec0.me.vtypeIll [2, 3] = false
    ∧ (joinRow vec0.myCtx (vec0.me.tag 2) (vec0.me.tag 3)).isSome = true ∧ vec0.me.ill = false
    ∧ (joinRow vec0.myCtx (vec0.me.tag 2) (mkTag (fmtOf (vec0.me.tag 2)) (bscOf (vec0.me.tag 2)) 0 false)).isSome = true
    ∧ (vec0.me.mask 1).getLsbD 0 = true ∧ ((List.range 4).all (fun j => !(vec0.me.mask 2).getLsbD j)) = true
    ∧ vec0.me.count = 4 := by decide +kernel

/-- INT32 rows: a group of one format with an accumulator, both integer accumulators, exact values. -/
theorem witness_ReductionsAndScans :
    vec0.ready 0 false = true ∧ vec0.me.configured = true ∧ vec0.me.noTraps = true ∧ vec0.me.vtypeIll [1, 2] = false
    ∧ vec0.me.vtypeIll [9, 1] = false ∧ vec0.me.overlap 9 1 = false
    ∧ (match groupTag (vec0.me.groupTags 1) with
      | .ok g => accFormat vec0.myCtx (fmtOf g) == some 11 && !vec0.myCtx.isUnassigned (fmtOf g)
          && (vec0.myCtx.joinFmt (fmtOf g) (fmtOf g)).bind (accFormat vec0.myCtx) == some 11
          && (match resultTag vec0 g g none with
            | .ok _ => true
            | .error _ => false)
      | .error _ => false) = true
    ∧ (vec0.activeNums 1 1).map (fun x => x.2.int?) = [(1 : Int), 3].map some ∧ classOf (vec0.me.tag 1) ≠ 2 := by decide +kernel

/-- Queue 3 is the EXE strand's to write and queue 1 to read: empty, full, closed, and holding one entry of the width. -/
theorem witness_VectorQueues :
    let e : QEntry := ⟨vec0.me.row 1, 4, 4⟩
    let full := vec0.setVq 3 (List.replicate 8 e)
    let shut := vec0.setPair 0 { qcfg := 0xFF }
    vec0.ready 0 false = true ∧ vec0.me.configured = true ∧ vec0.me.noTraps = true ∧ (3#5).toNat < 4 ∧ vec0.me.vtypeIll [1] = false
    ∧ vec0.me.writesQ 3 = true ∧ vec0.qClosed 3 = false ∧ (vec0.vq 3).length + vec0.reservedOf 3 + vec0.me.rc ≤ 8
    ∧ 8 < (full.vq 3).length + full.reservedOf 3 + full.me.rc ∧ full.ready 0 false = true ∧ shut.qClosed 3 = true ∧ shut.ready 0 false = true
    ∧ vec0.me.writesQ 1 = false ∧ (vec0.vq 1).length < vec0.me.rc ∧ ((vec0.setVq 1 [e]).vq 1) = [e] ∧ e.sew = vec0.me.sew
    ∧ (vec0.setVq 1 [e]).ready 0 false = true := by decide +kernel

/-- A vector load's element addresses and rows, from the local store and from the page, in every form. -/
theorem witness_VectorLoads :
    let op (n : Nat) (f : AddrForm) (a : BitVec 5) (near : Bool) : MemOp := ⟨wordVM n 1 a 7 0 0 0, f, a, if f = .indexed then 7 else 0, 0, .read, near⟩
    let rows (x : MemOp) (read : LineRead) : Bool :=
      let y := takeElems read (found vec0 x).elems (found vec0 x).s
      finds vec0 x [1] && (loadRows (rowsAt 1) 0 (mergeTaken [] y.1) none vec0.me.rc 0 y.2).fault.isNone
    let q := { vec0 with me := { vec0.me with role := 0 } }
    vec0.ready 0 false = true ∧ vec0.me.wmBind.getLsbD 14 = false ∧ rows (op 0xC0 .unit 4 false) (readPlain 0) = true
    ∧ rows (op 0xC0 .unit 5 false) (readPlain 3) = true ∧ rows (op 0xC1 .strided 5 false) (readPlain 0) = true
    ∧ rows (op 0xC2 .indexed 5 false) (readPlain 0) = true ∧ rows (op 0xD9 .indexed 5 true) (readPlain 0) = true
    ∧ rows (op 0xC8 .unit 5 false) (readLevel 3) = true ∧ rows (op 0xD7 .indexed 5 false) (readLinked []) = true
    ∧ finds vec0 (op 0xCC .tags 5 false) [1] = true
    ∧ q.ready 0 false = true ∧ q.me.memIll (op 0xC3 .unit 5 false) [] = false ∧ q.me.writesQ 1 = true ∧ q.qClosed 1 = false
    ∧ (q.vq 1).length + q.me.rc ≤ 8 ∧ finds q (op 0xC3 .unit 5 false) [] = true
    ∧ (let f := q.setVq 1 (List.replicate 8 ⟨{}, 4, 4⟩)
       f.ready 0 false = true ∧ 8 < (f.vq 1).length + f.me.rc)
    ∧ ({ vec0.me with ill := true } : Strand).memIll (op 0xC0 .unit 5 false) [1] = true := by decide +kernel

/-- Four elements in the own local store, in lines of one VALID tag. -/
theorem witness_LocalStoreVectors :
    let s := { vec0 with tags := [(2 ^ 36, mkTag 12 127 0 false)] }
    let va (j : Nat) : Nat := ((s.capA 4).toNat + (s.capB 0).toNat + j * 4) % 2 ^ 64
    s.ready 0 false = true ∧ s.me.configured = true ∧ s.me.noTraps = true ∧ s.me.vtypeIll [1] = false
    ∧ s.me.wmBind.getLsbD 14 = false ∧ Memory.wf s.mem = true ∧ s.me.done_ = none ∧ 8 ≤ s.me.sewBits ∧ 0 < s.me.vl
    ∧ ((List.range s.me.count).all (fun j => classify 0 (va j) == .window 0 (va j % 2 ^ 20) && s.resolve 0 (va j) == va j
        && va j % 4 == 0 && s.tagAt (lsByte 0 (va j % 2 ^ 20) / 128) == mkTag 12 127 0 false)) = true
    ∧ badTag (mkTag 12 127 0 false) = false ∧ classOf (mkTag 12 127 0 false) = 0
    ∧ (s.myCtx.fmt 12).container s.me.sewBits ≤ s.me.sewBits ∧ s.me.start = 0 := by decide +kernel

/-- Every store form from a typed row, the queue form from an entry, and VZERO over the lines of the page. -/
theorem witness_VectorStores :
    let op (n : Nat) (f : AddrForm) (a : BitVec 5) (near : Bool) : MemOp := ⟨wordVM n 1 a 7 0 0 0, f, a, if f = .indexed then 7 else 0, 0, .write, near⟩
    let done (x : MemOp) (put : LineWrite) : Bool :=
      finds vec0 x [1] && (storeElems x.k (x.form == .unit) put (fun i => vec0.me.row (1 + i)) (found vec0 x).elems none (found vec0 x).s).2.isNone
    vec0.ready 0 false = true ∧ done (op 0xC4 .unit 4 false) (writePlain 0) = true ∧ done (op 0xC4 .unit 5 false) (writePlain 3) = true
    ∧ done (op 0xC5 .strided 5 false) (writePlain 0) = true ∧ done (op 0xC6 .indexed 5 false) (writePlain 0) = true
    ∧ done (op 0xDA .indexed 5 true) (writePlain 0) = true ∧ done (op 0xC9 .unit 5 false) (writeLevel 3) = true
    ∧ vec0.me.ill = false ∧ ({ vec0.me with ill := true } : Strand).memIll (op 0xC4 .unit 5 false) [1] = true
    ∧ (let q := vec0.setVq 1 [⟨vec0.me.row 1, 4, 4⟩]
       let x := op 0xC7 .unit 5 false
       let v0 := q.setVq 1 []
       let pr : Progress := { fronts := q.fronts q.me.part, popped := some (q.vq 1) }
       let v : State := { v0 with me := { v0.me with done_ := some pr } }
       let r := findElems x pr false (v.todo x pr) v
       q.ready 0 false = true ∧ q.me.poppedBefore = none ∧ q.me.writesQ 1 = false ∧ q.me.rc ≤ (q.vq 1).length ∧ finds v x [] = true
        ∧ (storeElems 0 true (writePlain 0) (fun _ => vec0.me.row 1) r.elems none r.s).2.isNone = true)
    ∧ (let x : MemOp := ⟨wordVM 0xCB 0 5 0 0 0 0, .unit, 5, 0, 0, .write, false⟩
       finds vec0 x [] = true ∧ ((distinctLines (found vec0 x).elems).foldl (zeroLine 0) ((found vec0 x).s, none)).2.isNone = true) := by decide +kernel

/-- Every atomic form on the page, from INT32 rows and indices; VCAS with one row and with two; VSC with and without its links. -/
theorem witness_VectorAtomics :
    let op (n : Nat) (acc : Access) (near : Bool) : MemOp := ⟨wordVM n 1 5 7 0 0 0, .indexed, 5, 7, 0, acc, near⟩
    let home (r : Found) : State := r.elems.foldl (fun u e => u.writeBackAndDrop u.me.core e.loc) r.s
    let done (n : Nat) (o : AtomOp) : Bool :=
      let r := found vec0 (op n .atomic o.isNear)
      finds vec0 (op n .atomic o.isNear) [1]
        && (r.elems.foldl (atomElem o (fun j => vec0.me.row (1 + j)) (vec0.me.row 2)) { s := home r }).fault.isNone
    vec0.ready 0 false = true ∧ vec0.me.rc = 1 ∧ done 0xD0 .add = true ∧ done 0xD1 .min = true ∧ done 0xD2 .max = true ∧ done 0xD3 .swp = true
    ∧ done 0xD4 .and = true ∧ done 0xD5 .or = true ∧ done 0xD6 .cas = true ∧ done 0xDB .nearAdd = true ∧ done 0xDC .nearMax = true
    ∧ ({ vec0 with me := { vec0.me with rc := 2 } } : State).ready 0 false = true
    ∧ (let x := op 0xD8 .write false
       let r := found vec0 x
       finds vec0 x [1] = true ∧ (r.elems.foldl (scElem 1) { s := home r }).fault.isNone = true) := by decide +kernel

/-! ## Witnesses: engines -/

/-- The state an instruction leaves. -/
def after (o : Out) : State :=
  match o with
  | .next u => u
  | _ => run0

/-- A machine whose shadow registers of MXE hold a command of one step on FP32 operands in its local store: MCTL with a completion token
and OUTL 6, six loops of one, the first four lines VALID FP32. -/
def mxe0 : State :=
  let regs : List (Nat × Nat) := [(0, 0x601), (1, 0xFFFE000000800000), (2, 0xFFFE000000800000), (4, 0x24), (8, 1), (9, 1), (10, 1), (11, 1), (12, 1), (13, 1)]
  { run0 with
    mem := regs.foldl (fun m r => memPutNat m (exe.shadowAt 0 r.1) r.2 8) []
    tags := (List.range 4).map (fun j => (2 ^ 36 + j, mkTag 2 127 0 false)) }

/-- One command of engine `e` queued, and started. -/
def queued (e : BitVec 3) (s : State) : State := after (exec (.ego e 1 0) s)
def started (e : Nat) (s : State) : State := after (execCommandStart 0 e (queued (BitVec.ofNat 3 e) s))

/-- Every command form with the journal enabled and not; an empty pending queue and a full one; a fresh entry. -/
theorem witness_CommandIssue :
    let full := mxe0.updEngine 0 0 (fun y => { y with pending := List.replicate 16 { ctx := 0, num := 9 } })
    mxe0.ready 0 false = true ∧ Memory.wf mxe0.mem = true ∧ mxe0.me.jrnlBase.getLsbD 0 = true ∧ mxe0.me.jrnlHead.toNat + 1 < 2 ^ 64
    ∧ mxe0.me.egoWaits 0 1 = false ∧ (run1 (fun c => { c with dq := [{ instr := .vlda 1 4 0 0 0 3 0, cap := {}, pc := 0 }] })).me.egoWaits 0 1 = true
    ∧ mxe0.jState mxe0.me 1 = 0 ∧ (mxe0.engine 0 0).pending.length < 16 ∧ 16 ≤ (full.engine 0 0).pending.length
    ∧ full.ready 0 false = true ∧ (3#3).toNat < 4
    ∧ (run1 (fun c => { c with jrnlBase := 0x8000 })).ready 0 false = true
    ∧ (run1 (fun c => { c with jrnlBase := 0x8000 })).me.jrnlBase.getLsbD 0 = false := by decide +kernel

/-- No command, one incomplete, one faulted, a number above the head; a handle of the function and one that is none; the sequencer
idle, busy, and loading a chain of one line (ENG 0b010, END, LAST 1, `THALT`). -/
theorem witness_CommandWaits :
    let q := queued 0 mxe0
    let f := q.jSetState q.me 1 5 0x0C
    let named (s : State) : List Nat := (s.incomplete s.me).filter (fun n => s.jEngine s.me n == 0)
    let b := { run0 with parts := [(0, { part0 with bufs := [(6, { base := 0, alt := 2 ^ 18, segs := 1, front := false, vf := 0 })] })] }
    let l := { run0 with mem := memPutNat [] (128 * part0.chunkLine (List.range 16) 4) 0x51000000 8 }
    run0.ready 0 false = true ∧ Memory.wf run0.mem = true ∧ named run0 = [] ∧ q.ready 0 false = true ∧ Memory.wf q.mem = true
    ∧ named q = [1] ∧ q.jState q.me 1 ≠ 2 ∧ ctokOf 1 (q.jReg q.me 1 0) = false ∧ f.ready 0 false = true ∧ Memory.wf f.mem = true
    ∧ (named f).find? (fun n => f.jState f.me n == 5 || f.jState f.me n == 7) = some 1
    ∧ (run0.reg 0).toNat = 0 ∧ run0.me.jrnlHead.toNat < (run0.reg 6).toNat
    ∧ ((b.part 0).bufs.lookup (b.reg 6).toNat).map (fun x => x.vf) = some 0 ∧ b.ready 0 false = true ∧ Memory.wf b.mem = true
    ∧ (run0.part 0).bufs.lookup (run0.reg 6).toNat = none
    ∧ (let y := (queued 3 run0).engine 0 3
       (y.running.isSome || !y.pending.isEmpty) = true) ∧ (queued 3 run0).ready 0 false = true
    ∧ l.ready 0 false = true ∧ Memory.wf l.mem = true ∧ (l.engine 0 3).running = none ∧ (l.engine 0 3).pending = []
    ∧ (match tsqChain 4097 0x400204 0 { l.performAll with me := { l.performAll.me with tsqLoad := some (0x400204, 0) } } with
      | .done _ => true
      | _ => false) = true ∧ (5#9).toNat ≤ 5 := by decide +kernel

/-- A cancelled command of an engine without completion token. -/
theorem witness_CommandWaits_cancel :
    let s := queued 1 run0
    s.ready 0 false = true ∧ Memory.wf s.mem = true ∧ (s.incomplete s.me).filter (fun n => s.jEngine s.me n == 1) = [1]
    ∧ s.jState s.me 1 ≠ 2 ∧ ctokOf 1 (s.jReg s.me 1 0) = false := by decide +kernel

/-- A free tile and one an earlier command holds; a tile with an accumulator format of the width; an FP32 and an INT32 group. -/
theorem witness_TileInstructions :
    (let s := (vec0.setTile 0 0 { accf := 2, vals := [(0, 5)] })
     s.ready 0 false = true ∧ s.me.configured = true ∧ s.me.noTraps = true ∧ (3#5).toNat < 4 ∧ s.me.ill = false ∧ s.tileHeld 0 = false
      ∧ s.me.vtypeIll [8] = false ∧ (s.tile 0 0).accf ≠ 0 ∧ s.me.sewBits = accWidth (s.tile 0 0).accf
      ∧ groupTag (s.me.groupTags 8) = .ok (mkTag 2 127 0 false) ∧ classOf (mkTag 2 127 0 false) ≠ 1 ∧ fmtOf (mkTag 2 127 0 false) = 2
      ∧ (s.tile 0 0).accf = 2 ∧ ∀ g, s.rowWait 0 g = .ready)
    ∧ ((queued 0 mxe0).ready 0 false = true ∧ (queued 0 mxe0).tileHeld 0 = true ∧ (queued 0 mxe0).me.configured = true)
    ∧ (groupTag (vec0.me.groupTags 1) = .ok (mkTag 12 127 0 false) ∧ fmtOf (mkTag 12 127 0 false) = 12) :=
  ⟨⟨by decide +kernel, by decide +kernel, by decide +kernel, by decide, by decide +kernel, by decide +kernel, by decide +kernel,
     by decide +kernel, by decide +kernel, rfl, by decide, by decide, by decide +kernel, fun _ => rfl⟩, by decide +kernel, rfl, by decide⟩

/-- A command to start, one running, one finished; a step of MXE whose operands read; a row group to release, an output row; the
sequencer's first word; a multicast group of one core. -/
theorem witness_EngineEvents :
    (let s := queued 0 mxe0
     (s.engine 0 0).running = none ∧ (s.nextCmd 0 0).isSome = true ∧ (s.strand? 0 1).isSome = true
      ∧ (s.nextCmd 0 0).map (fun p => p.ctx) = some 1)
    ∧ (let s := started 0 mxe0
       (match (s.engine 0 0).running with
        | some c =>
          let r := s.readOperand 0 c (c.mcop.testBit 0) (c.operandAddr (c.reg 1) c.astr c.step) 128 c.aw
          let q := r.2.readOperand 0 c (c.mcop.testBit 1) (c.operandAddr (c.reg 2) c.bstr c.step) c.nB c.bw
          !c.finished && s.mxeReady 0 c && decide (c.step < c.steps) && (s.strand? 0 c.ctx).isSome
            && (match r.1, q.1 with
              | .ok a, .ok b => (match stepFormat c a b (s.tile 0 0) with
                | .acc _ => true
                | _ => false)
              | _, _ => false)
        | none => false) = true
        ∧ (let u := s.updRun 0 0 (fun c => { c with finished := true })
           ((u.engine 0 0).running.map (fun c => (c.finished, ctokOf 0 (c.reg 0)))) = some (true, true)
            ∧ (u.strand? 0 1).map (fun t => t.complTokens 0) = some 0)
        ∧ (let u := s.updRun 0 0 (fun c => { c with unreleased := [3], outRow := some 17 })
           ((u.engine 0 0).running.map (fun c => (c.unreleased.head?, c.outRow, c.finished))) = some (some 3, some 17, false))
        ∧ (let u := s.updRun 0 0 (fun c => { c with regs := (c.regs.set 0 0x18800).set 26 1 })
           (match (u.engine 0 0).running with
            | some m => m.forming 0 && m.mcmask == 1 && (u.matching 0 0 m).isSome
            | none => false) = true))
    ∧ (let s := started 3 run0
       ((s.engine 0 3).running.map (fun c => c.finished)) = some false ∧ (s.tsq 0).pc ≤ 4095
        ∧ look (s.tsq 0).imem (s.tsq 0).pc 0 = 0 ∧ decodeTsq 0 = .ok .thalt ∧ (tsqMeaning .thalt).isSome = true)
    ∧ ((started 1 run0).engine 0 1).running.map (fun c => c.finished) = some false :=
  ⟨by decide +kernel, ⟨by decide +kernel, by decide +kernel, by decide +kernel, by decide +kernel⟩,
   ⟨by decide +kernel, by decide +kernel, by decide +kernel, rfl, by decide +kernel⟩, by decide +kernel⟩

/-- A running transform with FP32, E4M3 and NAT32 buffers and an address in the local store: loop counts 0, 2^23 - 1 and 2^24,
every limit of the fields, tokens at both ends. -/
theorem witness_TransformSequencer :
    let b (f c : Nat) : Line × Tag := (0x3F800000, mkTag f 127 c false)
    let q : Tsq := { tb := ((Vector.replicate 8 (b 2 0)).set 1 (b 5 0)).set 2 (b 18 0), ag := (Vector.replicate 4 {}).set 0 { base := 0xFFFE000000800000 } }
    let s := (started 3 run0).updTsq 0 (fun _ => q)
    let t (f : Strand → Strand) : State := s.mapStrand 0 1 f
    (match (s.engine 0 3).running with
      | some c =>
        let fm (f : Nat) := c.fmtCtx.fmt f
        let a := q.addr 0 0
        (c.param 0).toNat == 0 && (fm 2).tsqOk && !(fm 0).tsqOk && (fm 2).container 64 == (fm 18).container 64 && (fm 5).scaled && !(fm 2).scaled
          && (match s.engLine 0 c a .read with
            | .ok u loc =>
              let h := u.loadLine 0 loc 0 (c.walker 0).reader
              classOf h.2.1 != 3 && !loc.strict
            | _ => false)
          && (match s.engLine 0 c a .write with
            | .ok u loc => !tooWide c.fmtCtx (withDem (q.buf 0).2 false) loc
                && (match u.engWrite 0 c loc a (q.buf 0).1 fullMask (withDem (q.buf 0).2 false) with
                  | .ok _ => true
                  | _ => false)
            | _ => false)
          && (s.strand? 0 (c.mate 1)).map (fun m => (m.tokTsq, m.tokToTsq)) == some (0, 0)
          && ((t (fun y => { y with tokTsq := 32, tokToTsq := 1 })).strand? 0 (c.mate 1)).map (fun m => (m.tokTsq, m.tokToTsq)) == some (32, 1)
      | none => false) = true
    ∧ (0x7FFFFF#23).toNat < 2 ^ 24 ∧ classOf (q.buf 2).2 ≠ 1 ∧ (5 : Nat) < (6#3).toNat ∧ (5#3).toNat ≤ 5 ∧ widthOf 3 < widthOf 4 ∧ 1 < widthOf 4 / widthOf 3
    ∧ ((List.range 8).all (fun i => fmtOf ((({} : Tsq).buf i).2) == fmtOf ((({} : Tsq).buf 0).2))) = true := by decide +kernel

/-! ## Witnesses: homes, memory events, privileged instructions -/

/-- Counts 0, 1 and 4,096 and an operand past 2^15; addresses on both sides of 2^56. -/
theorem witness_RecodingAndHomes_request :
    let s := { vec0 with me := { vec0.me with regs := ((vec0.me.regs.set 1 4096).set 2 0x8002) } }
    s.ready 0 false = true ∧ 2 ^ 56 ≤ (s.reg 4).toNat ∧ (s.reg 5).toNat < 2 ^ 56 ∧ (s.reg 0).toNat = 0 ∧ 0 < (s.reg 9).toNat
    ∧ (s.reg 1).toNat ≤ 4096 ∧ (s.reg 3).toNat < 2 ^ 15 ∧ 2 ^ 15 ≤ (s.reg 2).toNat ∧ (s.myCtx.fmt ((s.reg 3).toNat % 64)).isReal = true
    ∧ (s.vfs.lookup s.me.vf).map (fun v => v.policy.demFmt.getLsbD ((s.reg 3).toNat % 64)) = some true := by decide +kernel

/-- A request under way at its last line and past it, and one that ended; a write that fits and one that does not; a packed and an
unpacked segment; a dirty and a clean line; a store at the head of the queue. -/
theorem witness_RecodingAndHomes :
    let q : RceReq := { vf := 0, part := 0, vseg := 16, fmt := 2, bsc := 127, auto := false, fmts := [], iseg := some 5 }
    let s (q : RceReq) : State := { run0 with hanks := [(0, { rce := [q] })] }
    let w : HomeWrite := { vf := 0, core := 0, ctx := 1, priv := true, va := 0x400000, seg := 5, line := 0, data := 1, mask := fullMask,
                           tag := zeroTag, typed := false, width := 0 }
    let fits (s : State) : Bool :=
      let e := s.homeEntry w.vf w.seg
      let h := s.meetHome (.page e w.line) false { vf := w.vf, coord := 8 * w.core + w.ctx }
      let x := mergeWrite h.1 h.2.1 ⟨w.data, w.mask, w.tag, w.typed, w.width, false⟩
      h.2.2.fitsWrite (h.2.2.stored e w.line) x.2 ⟨w.data, w.mask, w.tag, w.typed, w.width, false⟩
    let k := pageKey 0 5 3
    let l1 (d : ByteMask) : State := { run0 with cores := [(0, { l1 := [{ key := k, page := page0, line := 3, dirty := d, valid := fullMask }] })] }
    ((s q).hank 0).rce = [q] ∧ ((s { q with ended := true }).hank 0).rce.map (fun r => r.ended) = [true] ∧ q.iseg = some 5
    ∧ ((s q).seg? q.vf 5).isSome = true ∧ ({ q with next := 2047 } : RceReq).next < 2048 ∧ ({ rd := true, wr := true, ex := true, lw := 32, pw := 32, chunks := [] } : Seg).host = false
    ∧ ({ q with iseg := none } : RceReq).ended = false ∧ ((s { q with iseg := none, vseg := 0 }).rceTarget 0 { q with iseg := none, vseg := 0 }).1 = none
    ∧ fits run0 = true ∧ fits packed = false ∧ (packed.part (packed.vfPart 0)).freeCount < 16
    ∧ (run0.seg? 0 5).map (fun g => decide (g.lw ≤ g.pw)) = some true
    ∧ (({ packed with parts := run0.parts } : State).seg? 0 5).map (fun g => decide (g.pw < g.lw)) = some true
    ∧ 16 ≤ (run0.part (run0.vfPart 0)).freeCount
    ∧ (((l1 1).core 0).line? k).map (fun l => l.dirty != 0) = some true ∧ (((l1 0).core 0).line? k).map (fun l => l.dirty) = some 0
    ∧ ((((l1 1).core 0).l1.map (fun l => l.key)).Nodup)
    ∧ (let e : SsqEntry := ⟨0x400000, 8, 1, 0, true, some page0, 0⟩
       let u := run1 (fun c => { c with ssq := [e] })
       u.me.live = true ∧ u.me.ssq = [e] ∧ u.me.olderThan (e.older + 1) = false) := by decide +kernel

/-- The last physical line, a row to open and a bank under scrub; the corners of the numbers of a row; a walk, a wake, a long stall;
a page request to deliver. -/
theorem witness_MemoryEvents :
    let p := 2 ^ 35 - 1
    let c := run0.chan (p / 2 ^ 25)
    let x : Strand := { exe with parked := [{ entry := { instr := .vld 1 5 0 0 0 0 0 0, cap := {}, pc := 0 }, pending := [⟨0, 0x400000, 0x400000, 5⟩] }] }
    let r : PageReq := { id := 1, iseg := 9, kind := 0, lw := 32, pw := 32 }
    let table := part0.chunkLine (List.range 16) 1
    let walks : State := { run0 with mem := memPutNat [] (128 * table) 0x50010F 8, tags := [(table, mkTag 17 127 0 false)]
                                     hanks := [(0, { walk := [⟨0, 1, 0, 0x140000⟩] })] }
    p < 2 ^ 35 ∧ c.holds (bankOf p) (rowOf p) = false ∧ ({ c with scrub := [bankOf p] } : Channel).holds (bankOf p) (rowOf p) = true ∧ c.l2? (p % 2 ^ 25) = none
    ∧ symbolsOf {} = 0 ∧ symbolsOf { flip := 1 } = 1 ∧ symbolsOf { flip := 0x101 } = 2 ∧ symbolsOf { checks := 4, missed := 1 } = 4
    ∧ c.trained = true ∧ ({ c with trained := false } : Channel).trained = false
    ∧ ({ c with scrub := [5] } : Channel).nextScrub = some 5 ∧ c.queue = []
    ∧ 0 % 2 ^ 25 < userLines ∧ 1023 < 1024 ∧ 63 < 64 ∧ 65535 < 65536 ∧ (run0.strand? 0 1).isSome = true
    ∧ (match walks.walk (walks.walkerOf walks.me) 0x400000 .read with
      | .ok _ e => e.iseg == 5
      | _ => false) = true
    ∧ x.issued.isNone = true ∧ x.run = .running ∧ (run0.wokenOf x).map (fun y => y.trap.isNone) = some true ∧ x.dispatched = false
    ∧ vf0.policy.pgTmo ≠ 0 ∧ (({ exe with held := some (0x400000, 5) } : Strand).held).isSome = true
    ∧ [r].find? (fun q => !q.delivered) = some r := by decide +kernel

/-- What a record's write answers. -/
def written (x : RecordAt) : Bool :=
  match x with
  | .ok _ => true
  | _ => false

/-- Both modes; addresses below and at 2^52 and 2^56; a mapped and an unmapped segment; every operation and status of MAPSET; a
request to read, to grant and to refuse; a log with and without an entry. -/
theorem witness_SegmentsAndReports :
    let r : PageReq := { id := 6, iseg := 9, kind := 0, lw := 32, pw := 32 }
    let e : LogEntry := ⟨1, 5, 0, 0, 0, 0⟩
    let q := { run0 with vfs := [(0, { vf0 with pgq := [r] })], parts := [(0, { part0 with errLog := [e] })] }
    let o (a b c : Word) := run1 (fun x => { x with regs := ((x.regs.set 1 a).set 2 b).set 3 c })
    (run1 (fun c => { c with pm := false })).ready 0 false = true ∧ run0.ready 0 false = true ∧ run0.me.pm = true
    ∧ 2 ^ 56 ≤ (run0.reg 4).toNat ∧ (run0.reg 5).toNat < 2 ^ 52 ∧ ((run0.performAll.release 3).vfs.lookup 0).isSome = true
    ∧ ((run0.vfs.map (fun v => v.1)).Nodup) ∧ ((o (2 ^ 52) 0 0).performAll.reg 1).toNat = 2 ^ 52 ∧ (o (2 ^ 52) 0 0).ready 0 false = true
    ∧ (let p := (o (5 * 2 ^ 18) 3 0x24).performAll
       (o (5 * 2 ^ 18) 3 0x24).ready 0 false = true ∧ (p.reg 1).toNat / 2 ^ 18 = 5 ∧ (p.reg 1).toNat < 2 ^ 52 ∧ (p.reg 2).toNat = 3
        ∧ ((p.vfs.lookup p.me.vf).map (fun v => v.segs.lookup 5)).isSome = true ∧ (allocWidths (p.reg 3).toNat) = some (32, 32)
        ∧ ((p.vfs.lookup p.me.vf).bind (fun v => v.segs.lookup 6)) = none
        ∧ (p.part 0).reserveNow + 16 ≤ (p.part 0).freeCount)
    ∧ (7 &&& vf0.policy.ceil.toNat = 7) ∧ (3 &&& ({ policy with ceil := 1 } : Policy).ceil.toNat ≠ 3) ∧ allocWidths 64 = none
    ∧ (({ part0 with chans := [] } : Part).freeCount < ({ part0 with chans := [], reserve := some 1 } : Part).reserveNow + 16)
    ∧ (let p := q.performAll
       q.ready 0 false = true ∧ (p.reg 5).toNat % 32 = 0 ∧ (p.reg 6).toNat % 16 ≠ 0
        ∧ ((p.vfs.lookup p.me.vf).bind (fun v => v.pgq.find? (fun x => !x.read))) = some r
        ∧ ((p.vfs.lookup p.me.vf).bind (fun v => v.pgq.find? (fun x => x.id == (p.reg 6).toNat))) = some r
        ∧ (p.part p.me.part).errLog = [e] ∧ written (p.writeRecord (p.reg 5) 32 e.record) = true
        ∧ written (p.writeRecord (p.reg 5) 16 0) = true ∧ written (p.writeRecord (p.reg 7) 16 0) = false)
    ∧ (run0.part run0.me.part).errLog = [] ∧ ((run0.performAll.vfs.lookup 0).bind (fun v => v.pgq.find? (fun x => !x.read))) = none := by decide +kernel

/-- Each reach and count at its limits; every kind of target and every run state; a core to save and one to load. -/
theorem witness_StrandControl :
    let peer : Strand := { exe with ctx := 0, role := 0, pm := false }
    let s (p : Strand) : State := { run0 with others := [p] }
    let e : DqEntry := { instr := .vaddVv 1 2 3 0 0 0, cap := {}, pc := 0 }
    let v : Saved := { owner := some 0, tenant := some 0, whole := false, strands := [{ peer with core := 1 }], pairs := [], tiles := Vector.replicate 4 {}
                       engines := Vector.replicate 4 {}, tsq := {}, store := none }
    let z : State := { run0 with cores := run0.cores ++ [(1, { saved := some v })] }
    run0.ready 0 false = true ∧ run0.me.pm = true ∧ run0.me.ctl = none ∧ codeAddr 4 = true ∧ codeAddr 64 = false
    ∧ (s peer).ready 0 false = true ∧ (s peer).target 0 = .resident peer ∧ (s peer).target 1 = .resident exe ∧ run0.target 0 = .absent
    ∧ run0.target 0x2000 = .bad ∧ z.target 8 = .saved { peer with core := 1 } ∧ z.ready 0 false = true
    ∧ (s peer).heldUnits 0 - Nat.max 8 8 + Nat.max 8 8 ≤ 64
    ∧ 64 < ({ run0 with others := List.replicate 9 peer } : State).heldUnits 0 - Nat.max 8 8 + Nat.max 8 8
    ∧ (s { peer with run := .double }).target 0 = .resident { peer with run := .double }
    ∧ (s { peer with run := .halted }).target 0 = .resident { peer with run := .halted }
    ∧ (s { peer with run := .halted, issued := some e }).target 0 = .resident { peer with run := .halted, issued := some e }
    ∧ (s peer).plyParked peer = false
    ∧ ({ s peer with parts := [(0, { part0 with parkedCoils := [0] })] } : State).plyParked peer = true
    ∧ (((s peer).squash 0 0).mapStrand 0 0 (fun y => { y with run := .halted })).strand? 0 0 = some { peer with run := .halted }
    ∧ ((run0.strands.filter (fun u => u.core == 1)).all (fun u => u.vf == 0 && (u.isHalted || u.run == .double))) = true
    ∧ (z.core 1).saved = some v ∧ (run0.core 1).saved = none ∧ (z.strands.filter (fun u => u.core == 1)) = [] ∧ z.fusionAllows 1 v = true ∧ run0.reg 0 = 0 := by decide +kernel

/-- A core operand with context bits, of another partition, of the issuing core and of another core of the partition. -/
theorem witness_StrandControl_cores : run0.coreOperand 1 = .error 1 ∧ run0.coreOperand 0x40 = .error 2 ∧ run0.coreOperand 0 = .ok 0
    ∧ run0.coreOperand 8 = .ok 1 := ⟨rfl, rfl, rfl, rfl⟩

/-! ## Witnesses: launch, scheduling, collectives, links, host -/

/-- A machine whose page holds values at byte offsets of its first 16 KiB, as VALID NAT8 lines: (offset, bytes, value). -/
def paged (l : List (Nat × Nat × Nat)) : State :=
  let line (off : Nat) : Nat := part0.chunkLine (List.range 16) (off / 128)
  { run0 with
    mem := l.foldl (fun m x => memPutNat m (128 * line x.1 + x.1 % 128) x.2.2 x.2.1) []
    tags := l.foldl (fun m x => put m (line x.1) (mkTag 20 127 0 false)) [] }

/-- A launch record of one stage of one pair, at the page's base. -/
def launch0 : State := paged [(0, 8, 1), (0x40, 8, 0x400000004), (0x48, 8, 0x100010001), (0x50, 8, 0x100000000)]

/-- A record that reads and is well formed, one that is malformed, one that fails, one that waits for a page; a free braid slot and
none; queues declared and not, as writer and reader, empty, full and ended. -/
theorem witness_LaunchAndStageQueues :
    let read (s : State) (a : Nat) : Nat :=
      let p := s.performAll.release 3
      match p.readRecord p.walker a with
      | .ok u r ds => if malformedRecord r ds (u.part 0).braidCtr then 2 else 1
      | .fail _ => 3
      | .hold _ _ _ => 4
    let full : Part := { part0 with braids := (List.range 64).map (fun i => (i, braid0)) }
    let q (l : List (Word × Word)) (e : List Nat) (src dst : Nat) : State := { run0 with parts := [(0, { part0 with
      braids := [(0, { braid0 with ended := e, queues := [⟨3, 0x10000, 2, src, dst, 2, 1, l⟩] })] })] }
    let look3 (s : State) : Option (Nat × Nat × Nat × Bool) :=
      (s.braidOf? s.me.part s.me.braid).bind (fun x => (x.queues.find? (fun y => y.num == 3)).map (fun y => (y.src, y.dst, y.recs.length, x.queueEnded y)))
    launch0.ready 0 false = true ∧ read launch0 0x400000 = 1 ∧ read (paged [(0, 8, 2)]) 0x400000 = 2 ∧ read run0 6 = 3 ∧ read run0 0x40000000 = 4
    ∧ 3 ≤ run0.anchor.stage ∧ ({ run0 with anchor := { stage := 2 } } : State).anchor.stage < 3
    ∧ ((List.range 64).all (fun i => (full.braids.lookup i).isSome)) = true ∧ (part0.braids.lookup 1).isNone = true ∧ (part0.braids.lookup 0).isSome = true
    ∧ 16 ≤ (run0.reg 7).toNat ∧ look3 run0 = some (0, 0, 0, false) ∧ look3 (q [] [0] 0 0) = some (0, 0, 0, true)
    ∧ look3 (q [(1, 2), (3, 4)] [] 0 0) = some (0, 0, 2, false) ∧ look3 (q [] [] 1 2) = some (1, 2, 0, false)
    ∧ (run1 (fun c => { c with regs := c.regs.set 3 3 })).reg 3 = 3
    ∧ ((run0.braidOf? 0 0).bind (fun x => x.queues.find? (fun y => y.num == (run0.reg 6).toNat))).isNone = true := by decide +kernel

/-- A barrier whose last strand arrives and one that waits; EXIT with no command, with one under way and with one that faulted. -/
theorem witness_LaunchAndStageQueues_ends :
    let arr (s : State) : State := { s.performAll.release 1 with me := { (s.performAll.release 1).me with barAt := some 2 } }
    run0.me.barAt = none ∧ run0.me.live = true ∧ (arr run0).barFull 0 0 0 0 2 = true
    ∧ (arr { run0 with others := [{ exe with ctx := 0 }] }).barFull 0 0 0 0 2 = false
    ∧ run0.incomplete run0.me = [] ∧ (queued 0 mxe0).incomplete (queued 0 mxe0).me = [1]
    ∧ (let s := (queued 0 mxe0).jSetState (queued 0 mxe0).me 1 5 0x0C
       (s.incomplete s.me).find? (fun k => s.jState s.me k == 5 || s.jState s.me k == 7) = some 1 ∧ s.ready 0 false = true) := by decide +kernel

/-- An issue round with a winner and without; a strand whose queue may be squashed, with and without a slice; a partition to swap
out and to restore; a braid that waits and one that is complete; every crossing; placing, replacing and fusing. -/
theorem witness_PlacementAndScheduling :
    let e : DqEntry := { instr := .vaddVv 1 2 3 0 0 0, cap := {}, pc := 0 }
    let s := run1 (fun c => { c with dq := [e], entered := 1 })
    let sliced := { run0 with vfs := [(0, { vf0 with slice := 5 })] }
    let strict := { run0 with vfs := [(0, { vf0 with policy := { policy with preempt := 0 } })] }
    let away : Saved := { owner := none, tenant := some 0, whole := false, strands := [exe], pairs := [], tiles := Vector.replicate 4 {}
                          engines := Vector.replicate 4 {}, tsq := {}, store := none }
    let r : State := { run0 with me := {}, cores := [(0, { saved := some away })] }
    let b (f : Braid → Braid) : State := { run0 with me := {}, parts := [(0, { part0 with braids := [(0, f braid0)] })] }
    let st : StageDesc := ⟨4, 68, 1, false, 1, 2, none, none, 2, 0⟩
    ((s.strands.map (fun y => (y.core, y.ctx))).Nodup) ∧ (s.roundWinner 0 false).isSome = true ∧ (run0.roundWinner 0 false).isNone = true
    ∧ ((run0.core 0).round false % 16 ≠ 15)
    ∧ s.mayQueueSquash 0 1 false = true ∧ run0.mayQueueSquash 0 1 true = false ∧ sliced.mayQueueSquash 0 1 true = true
    ∧ strict.mayQueueSquash 0 1 false = false ∧ s.me.live = true ∧ s.me.run = .running ∧ s.me.issued = none
    ∧ ((run0.strands.filter (fun y => y.part == 0)).all (fun y => run0.permits y.vf 2)) = true ∧ run0.swapBlocked 0 (fun y => y.part == 0) true = false
    ∧ run0.swapWaits (fun y => y.part == 0) = false
    ∧ ((strict.strands.filter (fun y => y.part == 0)).all (fun y => strict.permits y.vf 2)) = false ∧ ((run0.part 0).cores.contains 0) = true
    ∧ (r.core 0).saved = some away ∧ away.owner = none ∧ r.restorable 0 away = true ∧ r.savedCurrent 0 away = true
    ∧ (((r.part 0).cores.filter (fun k => k != 0)).all (fun k => (r.core k).saved.isNone)) = true
    ∧ ((b (fun x => { x with running := false })).braidOf? 0 0).map (fun x => !x.running && part0.ready x) = some true
    ∧ (run0.braidOf? 0 0).map (fun x => (!x.running && part0.ready x, x.complete)) = some (false, false)
    ∧ ((b (fun x => { x with ended := [0] })).braidOf? 0 0).map (fun x => x.complete) = some true
    ∧ ((b (fun x => { x with crossed := [(0, 3), (1, 3), (2, 3)], lowered := [0] })).braidOf? 0 0).map (fun x =>
        (x.crossed.contains (0, 3) && x.crossed.contains (1, 3) && x.crossed.contains (2, 3) && x.lowered.contains 0, (x.queues.find? (fun y => y.num == 3)).isSome,
         x.stages[0]? == some st)) = some (true, true, true)
    ∧ ((run0.everyStrand.filter (fun y => y.stage == 0)).all (fun y => y.pend == 1)) = false
    ∧ (({ s with me := { exe with pend := 1 } } : State).everyStrand.all (fun y => y.pend == 1)) = true
    ∧ (run1 (fun c => { c with barAt := some 15 })).barFull 0 0 0 0 15 = true ∧ run0.barFull 0 0 0 0 15 = false := by decide +kernel

/-- The ply to place and pairs that take it; a parked coil to replace; an empty coil to fuse and a busy one. -/
theorem witness_PlacementAndScheduling_plies :
    let p : State := { run0 with me := {}, parts := [(0, { part0 with braids := [(0, { braid0 with plies := [{ stage := 0, id := 0 }] })] })] }
    let s1 := p.updPart 0 (fun x => { x with braids := x.braids.map (fun b => (b.1, b.2.refill)) })
    let k : State := { run0 with parts := [(0, { part0 with coils := [0, 1], parkedCoils := [2] })] }
    ((s1.part 0).nextPly? (fun v => (s1.vf? v).any (fun x => x.st == .resident))).map (fun x => (x.1, x.2.2.stage)) = some (0, 0)
    ∧ ((run0.part 0).nextPly? (fun _ => true)).isNone = true
    ∧ s1.chooseCoil 0 false 1 = some 0 ∧ s1.goodPairs 0 1 [(7, 3)] = true
    ∧ (k.part 0).parkedCoils.contains 2 = true ∧ (k.part 0).coils.contains 1 = true ∧ k.coilBusy 1 = false
    ∧ (((List.range 8).map (fun i => 8 * 1 + i)).any (fun c => (k.core c).saved.isSome)) = false
    ∧ run0.coilBusy 0 = true ∧ run0.coilBusy 1 = false ∧ (run0.coil 1).fused ≠ true := by decide +kernel

/-- A group of this member alone, complete; `live` names its live ranks. -/
def group0 (state : Nat) (live : List Nat) : Group :=
  { vf := 0, order := 0, tmo := 1000, logBase := 0, rank := 0, members := [0, 0], gstate := state, gen := 1, seq := 0, liveSet := live, openedBy := [0] }

/-- The vector machine with that group as number 6. -/
def grouped (g : Group) : State := { vec0 with parts := [(0, { part0 with groups := [(6, g)] })] }

/-- What reading a block answers. -/
def blockKind (x : BlockRes) : Nat :=
  match x with
  | .ok _ _ => 0
  | .fail _ => 1
  | .hold _ _ _ => 2

/-- Operand blocks that read, fail and wait; a good and a bad record of every service; a group forming, complete and held. -/
theorem witness_AnchorServicesAndCollectives :
    let block (s : State) (a n : Nat) : Nat := blockKind ((s.performAll.release 3).readBlock (s.performAll.release 3).walker true a n)
    let buf := paged [(0, 8, 255), (8, 8, 2 ^ 18), (16, 8, 2 ^ 19), (24, 2, 1)]
    let grp := paged [(0, 1, 63), (1, 1, 1), (2, 2, 2), (4, 4, 10), (8, 8, 0x400000), (16, 2, 1)]
    let blk (s : State) (n : Nat) : Option Nat :=
      match (s.performAll.release 3).readBlock (s.performAll.release 3).walker true 0x400000 n with
      | .ok _ v => some v
      | _ => none
    buf.ready 0 false = true ∧ (buf.reg 6).toNat % 64 ≠ 0 ∧ (buf.reg 5).toNat % 64 = 0 ∧ block buf 0x400000 26 = 0 ∧ block run0 (2 ^ 57) 26 = 1
    ∧ block run0 0x40000000 26 = 2
    ∧ (blk buf 26).map (fun v => (rfld v 0 0 64, rfld v 8 0 64 % 2 ^ 18, rfld v 16 0 64 % 2 ^ 18, rfld v 24 0 16)) = some (255, 0, 0, 1)
    ∧ (blk (paged [(0, 8, 256)]) 8).map (fun v => rfld v 0 0 64) = some 256
    ∧ (blk grp 48).map (fun v => (rfld v 0 0 8, rfld v 1 0 8, rfld v 2 0 16, rfld v 4 0 32, rfld v 16 0 16)) = some (63, 1, 2, 10, 1)
    ∧ (blk (paged [(0, 3, 0x020106)]) 3).map (fun v => (rfld v 0 0 8, rfld v 1 0 8, rfld v 2 0 8)) = some (6, 1, 2)
    ∧ run0.group? 0 63 = none ∧ 4 ≤ run0.anchor.stage ∧ (run0.part 0).joins = []
    ∧ (grouped (group0 1 [0])).group? 0 6 = some (group0 1 [0]) ∧ (grouped (group0 1 [0])).ready 0 false = true
    ∧ (group0 2 []).gstate ≠ 1 ∧ ({ exe with xseq := some 6 } : Strand).xseq = some 6 ∧ run0.me.xseq = none := by decide +kernel

/-- XRED alone, waiting for a member, finishing with equal and with unequal shapes; XSEND and XRECV with and without credits and
messages; every index of XMEMB; contributions and messages from a live member. -/
theorem witness_AnchorServicesAndCollectives_groups :
    let g1 := group0 1 [0]
    let g2 := group0 1 [0, 1]
    let p := (grouped g1).performAll.release 4
    let own := { p.contribution g1 1 0 with seq := 0 }
    let other := { own with rank := 1, vl := 3 }
    let done : Group := { g1 with own := some own, startSet := [0] }
    let s : State := { grouped done with me := { vec0.me with xseq := some 0 } }
    let m : XMsg := ⟨0, 0, [⟨vec0.me.row 1, 4, 4⟩]⟩
    (grouped g1).me.configured = true ∧ (grouped g1).me.vtypeIll [1] = false ∧ ((grouped g1).capB 6).toNat = 6
    ∧ ({ g2 with seq := 1, own := some own, startSet := [0, 1] } : Group).gather own 0 [0, 1] = none
    ∧ s.ready 0 false = true ∧ s.me.xseq = some 0 ∧ done.gather own 0 done.startSet = some [own] ∧ sameShape own own = true
    ∧ ({ done with contrib := [other] } : Group).gather own 0 [0, 1] = some [own, other] ∧ sameShape other own = false
    ∧ (match rowJoin s own.osc ([own].map (fun c => (c.rows.getD 0 (0, zeroTag)).2)) with
      | .ok _ => true
      | .error _ => false) = true
    ∧ ((grouped g1).peerOf 6).map (fun x => (x.1, x.2.2.1, x.2.2.2)) = some (6, 0, 0) ∧ ((grouped g1).peerOf 0x0207).isNone = true
    ∧ s.me.tePsn = false ∧ ((grouped g1).peerOf 0x106).map (fun x => x.2.2.1) = some 1 ∧ 1 ∉ g1.liveSet
    ∧ look g1.credits 0 8 = 8 ∧ look ({ g1 with credits := [(0, 0)] } : Group).credits 0 8 < 1
    ∧ takeMsg 0 0 [] = none ∧ takeMsg 0 0 [m] = some (m, []) ∧ m.rows.length = vec0.me.rc ∧ (m.rows.all (fun e => e.sew == vec0.me.sew)) = true
    ∧ ({ other with gen := 1 } : Contribution).rank ∈ g2.liveSet ∧ g2.gen ≤ 1 ∧ g2.contrib = [] ∧ (1 : Nat) ≠ g2.rank
    ∧ (grouped { g2 with own := some own }).awaited 0 6 { g2 with own := some own } 1 = true ∧ (grouped g2).awaited 0 6 g2 1 = false
    ∧ (group0 2 []).gstate = 2 ∧ 6 < 64 ∧ (1 : Nat) < (group0 2 []).members.length ∧ g1.gstate = 1
    ∧ 63 < (vec0.reg 7) ∧ 6 ≤ 63 ∧ (10 : Nat) ≤ 10 := by decide +kernel

/-- A port that is up and keeps mirrors, and one that is down; a filled slot; host addresses inside and outside a shared window; every
stage of start-up; temperatures at each threshold. -/
theorem witness_LinksAndStart :
    let l : PackedLine := ⟨1, mkTag 20 127 0 false, 1⟩
    let s : State := { run0 with ports := [(17, { up := true })], mirrors := [(mirrorNo 143 17, { ring := [(0, l)] })]
                                 anchor := { stage := 4, pkcap := [(17, 0xFF)] } }
    s.portUp 17 = true ∧ run0.portUp 17 = false ∧ s.portUp 18 = false ∧ s.refs 17 = true
    ∧ (look s.mirrors (mirrorNo 143 17) {}).ring.lookup (4096 % 4096) = some l
    ∧ (run0.vfs.lookup 0).bind (fun v => v.window? 0xFFF) = some ⟨0, 0x1000, 0x2000, true⟩ ∧ (run0.vfs.lookup 0).bind (fun v => v.window? 0x1000) = none
    ∧ State.reset.anchor.stage = 0 ∧ run0.anchor.powered = true ∧ 2 ≤ run0.anchor.stage
    ∧ 95 * 16 < (({ logic := 0x5F1, cache := 0x5F0 } : CoilForecast).logic).toNat ∧ (({} : SweepReport).coils[127]?).isSome = true
    ∧ look s.recvNos 143 0 = 0 ∧ s.early = [] ∧ ({ s with early := [(143, 1, 17, l)] } : State).early = [(143, 0 + 1, 17, l)] := by decide +kernel

/-- A mailbox open and shut; a function resident, bound and paused; a page request to answer; an image to restore. -/
theorem witness_HostCommands_functions :
    let s (v : Vf) : State := { run0 with vfs := [(0, v)] }
    let e : Evicted := ⟨5, 0, 0, 1, 0, 0, [], none⟩
    let a (x : Evicted) : State := { s { vf0 with st := .paused } with anchor := { stage := 4, evicted := [x] } }
    let p := ofVf 0
    run0.vfs.lookup 0 = some vf0 ∧ 2 ≤ run0.anchor.stage ∧ 65535 < 2 ^ 16 ∧ run0.partResetting 0 = false ∧ vf0.mailboxOpen = true
    ∧ ({ run0 with parts := [(0, { part0 with resetTag := some 1 })] } : State).partResetting 0 = true
    ∧ vf0.policy.hostOps.getLsbD 12 = true ∧ ({ policy with hostOps := 0 } : Policy).hostOps.getLsbD 5 = false
    ∧ vf0.st = .resident ∧ ({ vf0 with st := .paused } : Vf).st = .paused ∧ (run0.part 0).tenant = some vf0.tenant ∧ run0.foreigners 0 0 = []
    ∧ run0.canReturn 0 p = true ∧ ((s vf0).strands.filter (fun y => y.vf == 1)) = [] ∧ (({ s vf0 with me := {} } : State).strands.filter p) = []
    ∧ run0.swapBlocked 0 p false = false ∧ run0.swapWaits p = false ∧ run0.permits 0 3 = true
    ∧ (vf0.segs.lookup 5).isSome = true
    ∧ (a e).evictedTo vf0 0 5 none = some e ∧ e.contexts = [] ∧ 3 ≤ (a e).anchor.stage
    ∧ run0.boxQueue none = [] ∧ run0.boxQueue (some 0) = [] ∧ run0.boxBusy none = false
    ∧ vf0.segs.lookup 7 = none ∧ (16 : Nat) ≤ (run0.part 0).freeCount := by decide +kernel

/-- A request to answer, with sixteen handles that pass the checks and one too few; a function not in reset. -/
theorem witness_HostCommands_pages :
    let r : PageReq := { id := 6, iseg := 9, kind := 0, lw := 32, pw := 32 }
    ({ vf0 with pgq := [r] } : Vf).request? 6 = some r ∧ grantCheck part0 0 (some r.nchunk) (List.range 16) = 0
    ∧ grantCheck part0 0 (some r.nchunk) (List.range 15) ≠ 0 ∧ (List.range 16).length ≤ 16 ∧ vf0.part ≤ 15
    ∧ vf0.resetTag = none := by decide +kernel

/-- A function that cannot return: the context saved for it stands in a core that a strand of another function uses. -/
theorem witness_HostCommands_resume :
    let v : Saved := { owner := none, tenant := some 0, whole := true, strands := [exe], pairs := [], tiles := Vector.replicate 4 {}
                       engines := Vector.replicate 4 {}, tsq := {}, store := none }
    let s : State := { run0 with me := { exe with vf := 1 }, cores := [(0, { saved := some v })], vfs := [(0, { vf0 with st := .paused })] }
    s.canReturn 0 (ofVf 0) = false ∧ (s.part 0).tenant = some vf0.tenant ∧ s.foreigners 0 0 = []
    ∧ ({ s with parts := [(0, { part0 with tenant := some 1 })] } : State).part 0 ≠ s.part 0 := by decide +kernel

/-- Partitions 15 and 16; free coils and channels for an assignment; link weights at and above the limit; a tenant known and not. -/
theorem witness_HostCommands_partitions :
    let v (w k : Nat) : Vf := { vf0 with part := k, policy := { policy with bwWeight := w } }
    let two : Part := { part0 with coils := [0, 16], braids := [] }
    let s (w : Nat) : State := { run0 with parts := [(0, two)], vfs := [(0, v w 0)], anchor := { stage := 4, tenants := [{ num := 3, key := 1 }] } }
    ({ run0 with anchor := { stage := 2 } } : State).anchor.stage = 2 ∧ 3 ≤ run0.anchor.stage ∧ run0.partResetting 15 = false
    ∧ (run0.part 15).coils = [] ∧ (run0.part 15).chans = [] ∧ goodMasks [16, 17] (List.range' 8 8) = true ∧ 8 ≤ (List.range' 8 8).length
    ∧ ([16, 17].all (fun c => run0.coilFree c)) = true ∧ ((List.range' 8 8).all (fun g => run0.chanFree g && (run0.chan g).trained)) = true
    ∧ run0.grantable (run0.part 15) [16, 17] (List.range' 8 8) = true ∧ (run0.endow 15 [16, 17] (List.range' 8 8)).overloads 15 = false
    ∧ (run0.part 0).coils ≠ [] ∧ goodMasks [0, 1] (run0.part 0).chans = true ∧ 8 ≤ (run0.part 0).chans.length
    ∧ ([0, 1].all (fun c => run0.coilFree c || (run0.part 0).coils.contains c)) = true
    ∧ ((run0.part 0).chans.all (fun g => (run0.chan g).trained)) = true
    ∧ (s 64).overloads 0 = false ∧ (s 65).overloads 0 = true
    ∧ ((s 64).vfs.lookup 191).isNone = true ∧ ((s 64).anchor.tenants.any (fun x => x.num == 3)) = true ∧ ((s 64).anchor.tenants.any (fun x => x.num == 4)) = false
    ∧ policy.version = 1 ∧ policy.reservedSet = false ∧ ((s 64).policies 0).all (fun v => v.policy.hostOps.getLsbD 1) = true := by decide +kernel

/-! ## Witnesses of further clauses -/

/-- What a vector instruction that goes on, after a stage-2 miss, with the progress `pr` finds. -/
def foundOn (s : State) (x : MemOp) (pr : Progress) : Found :=
  findElems x pr false ((s.me.actives x.k).filter (fun j => !pr.did j && pr.fault.all (fun y => decide (j < y.1)))) s

/-- A load that has read element 0 already, and a VSTQ that has popped its entry and stored element 0. -/
theorem witness_VectorProgress :
    let x : MemOp := ⟨wordVM 0xC0 1 5 7 0 0 0, .unit, 5, 0, 0, .read, false⟩
    let y : MemOp := ⟨wordVM 0xC7 1 5 7 0 0 0, .unit, 5, 0, 0, .write, false⟩
    let pr : Progress := { taken := (takeElems (readPlain 0) (found vec0 x).elems (found vec0 x).s).1.take 1 }
    let pq : Progress := { stored := [0], popped := some [⟨vec0.me.row 1, 4, 4⟩] }
    let on (q : Progress) : State := { vec0 with me := { vec0.me with done_ := some q } }
    let r := foundOn (on pr) x pr
    let z := takeElems (readPlain 0) r.elems r.s
    (on pr).ready 0 false = true ∧ (on pr).me.done_ = some pr ∧ pr.taken.length = 1 ∧ r.fault.isNone = true ∧ r.pending.isEmpty = true
    ∧ r.elems.length = 3 ∧ (loadRows (rowsAt 1) 0 (mergeTaken pr.taken z.1) none vec0.me.rc 0 z.2).fault.isNone = true
    ∧ (on pq).me.poppedBefore.isSome = true ∧ (foundOn (on pq) y pq).elems.length = 3 ∧ (foundOn (on pq) y pq).fault.isNone = true
    ∧ (storeElems 0 true (writePlain 0) (fun _ => vec0.me.row 1) (foundOn (on pq) y pq).elems none (foundOn (on pq) y pq).s).2.isNone = true := by
  decide +kernel

/-- Banks that have nothing of their own to finish; a TSQLD that a miss held, and the rest of its chain. -/
theorem witness_QuietBanks : run0.banksQuiet ∧ Memory.wf run0.mem = true
    ∧ (let l := { run0 with mem := memPutNat [] (128 * part0.chunkLine (List.range 16) 4) 0x51000000 8, me := { exe with tsqLoad := some (0x400204, 0) } }
       l.ready 0 false = true ∧ Memory.wf l.mem = true ∧ l.me.tsqLoad = some (0x400204, 0) ∧ (match tsqChain 4097 0x400204 0 l with
        | .done _ => true
        | _ => false) = true) :=
  ⟨fun _ => ⟨rfl, rfl, fun _ _ h => nomatch h⟩, by decide +kernel, by decide +kernel, by decide +kernel, rfl, by decide +kernel⟩

/-- A line that its slice holds under the tenant's key, and one that it holds under none; a caught stall of the Anchor; a held read. -/
theorem witness_MemoryEvents_slice :
    let s : State := { run0 with hanks := [(0, { keys := [(3, 0)] })], chans := [(0, { l2 := [{ off := 7, key := 3 }] })] }
    ((s.chan 0).l2? 7).map (fun l => l.key) = some (s.keySlot 0) ∧ (s.chan 0).l2? 8 = none
    ∧ ({ exe with held := some (0x400000, 5) } : Strand).anchorHold = false ∧ (∀ c, (State.reset.core c).l1 = [])
    ∧ ((run0.vfs.map (fun v => v.2.resetTag)).all Option.isNone) = true ∧ (5 : Nat) < userLines :=
  ⟨by decide +kernel, by decide +kernel, rfl, fun _ => rfl, by decide +kernel, by decide⟩

/-- A stage that can take one more ply, and one at its MAXPLY; a grant block of GRPSPARE; a donor with a reduction in flight and
without; a device line and a host line in a shared window; a strand with an XRED in flight. -/
theorem witness_LaterClauses :
    let x := braid0.queues.headD ⟨3, 0x10000, 2, 0, 0, 2, 1, []⟩
    let more := { braid0 with stages := [⟨4, 68, 1, false, 1, 2, some 3, none, 2, 0⟩] }
    let spare := paged [(0, 3, 0x010006)]
    let donor (own : Option Contribution) : Group := { group0 1 [0] with members := [0, 0], own := own }
    let own := { vec0.contribution (group0 1 [0]) 1 0 with seq := 0 }
    let e : DqEntry := { instr := .xred 1 0 6 0 0 0, cap := {}, pc := 0 }
    let win (segs : List (Nat × Seg)) : State := { run0 with vfs := [(0, { vf0 with segs := segs })] }
    let dev := win [(2 ^ 33, { rd := true, wr := true, ex := true, lw := 32, pw := 32, chunks := List.range 16 })]
    (more.resident 0).length < 2 ∧ (run0.chooseCoil 0 false 1).isSome = true ∧ more.ended.contains 0 = false ∧ more.queueEnded x = false
    ∧ ({ more with plies := [{ stage := 0, id := 0, placed := true }, { stage := 0, id := 1, placed := true }] } : Braid).resident 0 ≠ []
    ∧ (match (spare.performAll.release 3).readBlock { (spare.performAll.release 3).walker with own := true } true 0x400000 3 with
      | .ok u v => rfld v 0 0 8 == 6 && rfld v 1 0 8 == 0 && rfld v 2 0 8 == 1 && (u.group? u.me.part 6).isNone && decide (4 ≤ u.anchor.stage)
      | _ => false) = true
    ∧ (donor none).rank = 0 ∧ (donor none).own = none ∧ (donor none).gstate = 1 ∧ 1 ∉ (donor none).liveSet ∧ (donor (some own)).own.isSome = true
    ∧ (run0.windowLine 0 0).device = false ∧ (dev.windowLine 0 5).device = true
    ∧ ((dev.vfs.lookup 0).bind (fun v => v.window? 5)).map (fun w => w.shared && decide (5 + 1 ≤ w.base.toNat + w.size.toNat)) = some true
    ∧ (run1 (fun c => { c with issued := some e, xseq := some 0 })).swapWaits (ofVf 0) = true := by decide +kernel

/-- Exceptions that each scalar operation raises where FCSR enables them; CSRs of a braid and a function, one not defined, and a command
that is incomplete; a strand that is not running; a grant that changes; the elements of a reduction: whole numbers, none, NaN. -/
theorem witness_StrandClauses :
    let s := run1 (fun c => { c with fcsr := 0x3F00, regs := (c.regs.set 6 0x7FA00000).set 7 0xBF800000 })
    let g := fixedFmt 2
    let v (r : BitVec 5) : Machine.Num := g.decode ((s.reg r).toNat % 2 ^ g.width)
    let fl (n : Nat) : Bool := trapFlags s.me.fcsr n != 0
    let nans := { vec0 with me := { vec0.me with rows := vec0.me.rows.set 8 ⟨0x7FC000007FC000007FC000007FC00000, mkTag 2 127 0 false⟩ } }
    ([((v 6).add 0 (v 10)).2, ((v 6).sub 0 (v 10)).2, ((v 6).mul (v 10)).2, ((v 10).div (v 0)).2, ((v 6).fma 0 (v 10) (v 10)).2, (v 7).sqrt.2,
      (Machine.Num.minmax false (v 6) (v 10)).2, (relation 0 (v 6) (v 10)).2, (toIntSat (fixedFmt 11) ⟨0, 0, false⟩ (v 6)).2].all fl) = true
    ∧ s.me.issued = none ∧ s.me.older = false ∧ s.ready 0 true = true
    ∧ (run0.braidOf? 0 0).isSome = true ∧ csrDefined 0x128 = false ∧ csrDefined 0x063 = true ∧ (queued 0 mxe0).incomplete (queued 0 mxe0).me ≠ []
    ∧ (run1 (fun c => { c with run := .double })).me.run ≠ .running ∧ run0.me.run = .running
    ∧ (run1 (fun c => { c with pend := 2 })).me.pend ≠ (run1 (fun c => { c with pend := 2 })).me.slices
    ∧ (run1 (fun c => { c with pend := 2 })).ready 0 false = true ∧ run0.me.rowsInit = true
    ∧ (nans.activeNums 8 0).all (fun x => x.2.isNan) = true ∧ (vec0.activeNums 8 0).all (fun x => !x.2.isNan) = true
    ∧ ((List.range vec0.me.count).filter (fun j => vec0.me.active 2 j)) = [] ∧ vec0.me.act 1 0 = true ∧ vec0.me.act 1 1 = false
    ∧ (vec0.activeNums 1 1).all (fun x => x.2.int?.isSome) = true ∧ nans.ready 0 false = true := by decide +kernel

/-- A CPE command whose next line lies in its own local store, away from its journal entry, as a COPY and as a ZERO; an output row of MXE
that fills part of such a line. -/
theorem witness_EngineEvents_windows :
    let win := 0xFFFE000000800000
    let s (op : Word) : State := ((started 1 run0).updRun 0 1 (fun c =>
      { c with dest := BitVec.ofNat 64 (win + 128), regs := (((((c.regs.set 0 op).set 1 (BitVec.ofNat 64 win)).set 3 2).set 4 1).set 5 1) }))
    let ok (c : RunCmd) (st : Strand) : Bool := decide (c.prog.toNat < c.cpeUnits) && !(c.reg 0).getLsbD 4
      && classify 0 (win + 128) == .window 0 128 && classify 0 win == .window 0 0 && decide (lsByte 0 128 + 128 ≤ st.journalAt c.num)
    (((s 0).engine 0 1).running.bind (fun c => ((s 0).strand? 0 c.ctx).map (ok c))) = some true
    ∧ ((s 0).engine 0 1).running.map (fun c => (c.reg 0).toNat % 4) = some 0 ∧ ((s 1).engine 0 1).running.map (fun c => (c.reg 0).toNat % 4) = some 1
    ∧ Memory.wf (s 0).mem = true ∧ badTag ((s 0).tagAt (2 ^ 36)) = false ∧ classOf ((s 0).tagAt (2 ^ 36)) ≤ 3
    ∧ (let u := (started 0 mxe0).updRun 0 0 (fun c => { c with outRow := some 17, unreleased := [] })
       Memory.wf u.mem = true ∧ ((u.engine 0 0).running.bind (fun c => (u.strand? 0 c.ctx).map (fun st =>
        let len := c.nB * c.ow / 8
        c.outRow == some 17 && !c.unreleased.contains 1
          && decide (lsByte 0 0 + len ≤ st.journalAt c.num) && decide (len ≤ 128 ∨ len % 128 = 0)))) = some true)
    ∧ (started 0 mxe0).groupStands 0 1 1 = false := by decide +kernel

/-- A segment that a recoding pass locks, one that it does not, and handles of segments; a log to copy and none; segments that miss; a
partition with an empty coil; an XRED in flight in a partition that a swap is to empty. -/
theorem witness_PartitionClauses :
    let q : RceReq := { vf := 0, part := 0, vseg := 16, fmt := 2, bsc := 127, auto := false, fmts := [], iseg := some 5 }
    let locked : State := { run0 with hanks := [(0, { rce := [q] })] }
    let joins : Part := { part0 with joins := [(6, .spareJoined 1 0 1 0 0 0 [] [] [])] }
    let spare : Part := { part0 with coils := [0, 1] }
    let held := run1 (fun c => { c with xseq := some 0, issued := some { instr := .xred 1 0 6 0 0 0, cap := {}, pc := 0 } })
    locked.segLocked 0 5 = true ∧ run0.segLocked 0 5 = false ∧ joins.logToCopy 6 = some [] ∧ joins.logToCopy 7 = none
    ∧ (segsMiss 0x400000 1 run0).1.isNone = true ∧ vf0.unmapped = [] ∧ vf0.late = []
    ∧ ({ run0 with parts := [(0, spare)] } : State).chooseEmpty 0 = some 1 ∧ run0.chooseEmpty 0 = none
    ∧ held.swapWaits (ofVf 0) = true ∧ run0.swapWaits (ofVf 0) = false ∧ ({ part0 with used := [0] } : Part).used ≠ [] ∧ part0.used = []
    ∧ braid0.parkable 0 (run0.plyAway 0 0) = none ∧ run0.permits 0 0 = true := by decide +kernel

theorem witness_HostCommands_handles : vf0.segOfHandle 0 (Config.segHandle 0 5).toNat = some (5, (vf0.segs.headD (0, { rd := true, wr := true, ex := true, lw := 32, pw := 32, chunks := [] })).2)
    ∧ (Config.segHandle 0 5).toNat < 2 ^ 32
    ∧ (let g : Seg := { rd := true, wr := true, ex := true, lw := 32, pw := 32, chunks := [] }
       let e : Evicted := ⟨5, 0, 0, 1, 0, 0, [], some (7, g, [])⟩
       ({ run0 with anchor := { stage := 4, evicted := [e] } } : State).evictedTo vf0 0 5 (some (Config.segHandle 0 7).toNat) = some e) := by
  refine ⟨by simp [Vf.segOfHandle, vf0], (Config.segHandle 0 5).isLt, by simp [State.evictedTo, vf0]⟩

/-! ## Single steps -/

/-- Value of register `r` and the pc after an instruction at the small machine. -/
def regPc (o : Out) (r : BitVec 5) : Option (Nat × Nat) :=
  match o with
  | .next u => some ((u.reg r).toNat, u.me.pc.toNat)
  | _ => none

/-- The sum wraps, and the pc moves to the next slot. -/
theorem test_add_wraps : regPc (exec (.add 1 7 9 0 0 0) run0) 1 = some (0, 0x4000008) := by decide +kernel

/-- Division by zero gives all ones, and the remainder is the dividend (the spec: "DIV by zero gives 0xFFFF_FFFF_FFFF_FFFF. REM by
zero gives s[sa]"). -/
theorem test_div_zero : regPc (exec (.div 1 6 0 0 0) run0) 1 = some (0xFFFFFFFFFFFFFFFF, 0x4000008)
    ∧ regPc (exec (.rem 1 6 0 0 0) run0) 1 = some (6, 0x4000008) := by decide +kernel

/-- BNZD on 1 falls through with zero; a source that is also the destination. -/
theorem test_bnzd_ends : regPc (exec (.bnzd 9 0 3 0) run0) 9 = some (0, 0x4000008)
    ∧ regPc (exec (.bnzd 6 0 3 0) run0) 6 = some (5, 0x400000C) := by decide +kernel

/-- `VREDSUM` of 3, -1, 1, -5 and 9 is 7, the sum of the spec's example. -/
theorem test_vredsum_example :
    let row : Row := ⟨0x00000009FFFFFFFB00000001FFFFFFFF00000003, mkTag 12 127 0 false⟩
    let s := run1 (fun c => { c with vl := 5, rows := c.rows.set 1 row })
    regPc (exec (.vredsum 4 1 0 0 0) s) 4 = some (7, 0x4000008) := by decide +kernel

/-- A store to the local store is read back by a narrower load at the next byte (little-endian, R6). -/
theorem test_store_load : regPc (exec (.sld8 1 4 1 0) (after (exec (.sst32 7 4 0 0) run0))) 1 = some (0xFF, 0x400000C)
    ∧ regPc (exec (.sld8 1 4 4 0) (after (exec (.sst32 7 4 0 0) run0))) 1 = some (0, 0x400000C) := by decide +kernel

end Sys2Proof.Tests
end

section
/-!
SUPPORT. Bytes of memory and of lines: memory as numbers (R5, R6), lines as bytes, masks, and the masked write of a line.
-/
namespace Sys2Proof.Machine

/-! ## Memory as little-endian numbers -/

theorem memNat_lt (m : List Host.Cell) (a n : Nat) : memNat m a n < 2 ^ (8 * n) := by
  induction n generalizing a with
  | zero => simp [memNat]
  | succ n ih =>
    have hb := (memGet m a).isLt
    have ht := ih (a + 1)
    rw [memNat, show 8 * (n + 1) = 8 * n + 8 by ring, pow_add]
    omega

/-- The bytes from `a` are the first `i`, and above them the others. -/
theorem memNat_append (m : List Host.Cell) (a i n : Nat) :
    memNat m a (i + n) = memNat m a i + 2 ^ (8 * i) * memNat m (a + i) n := by
  induction i generalizing a with
  | zero => simp [memNat]
  | succ i ih =>
    rw [show i + 1 + n = i + n + 1 by ring, memNat, memNat, ih, show a + 1 + i = a + (i + 1) by ring,
      show 8 * (i + 1) = 8 * i + 8 by ring, pow_add]
    ring

/-- Memory that holds the same bytes reads as the same number. -/
theorem memNat_congr (m m' : List Host.Cell) (a n : Nat) (h : ∀ i, i < n → memGet m (a + i) = memGet m' (a + i)) :
    memNat m a n = memNat m' a n := by
  induction n generalizing a with
  | zero => rfl
  | succ n ih =>
    have h0 := h 0 (by omega)
    have ht := ih (a + 1) (fun i hi => by rw [show a + 1 + i = a + (i + 1) by ring]; exact h _ (by omega))
    rw [memNat, memNat, ht, show memGet m a = memGet m' a from h0]

/-- Bytes that are those of `v` read as its low bytes. -/
theorem memNat_of_bytes (m : List Host.Cell) (a v n : Nat) (h : ∀ i, i < n → memGet m (a + i) = BitVec.ofNat 8 (v / 2 ^ (8 * i))) :
    memNat m a n = v % 2 ^ (8 * n) := by
  induction n generalizing a v with
  | zero => simp [memNat, Nat.mod_one]
  | succ n ih =>
    have h0 : memGet m a = BitVec.ofNat 8 v := by simpa using h 0 (by omega)
    have ht := ih (a + 1) (v / 256) (fun i hi => by
      rw [show a + 1 + i = a + (i + 1) by ring, h _ (by omega), Nat.div_div_eq_div_mul,
        show 8 * (i + 1) = 8 + 8 * i by ring, pow_add]
      rfl)
    rw [memNat, ht, h0, BitVec.toNat_ofNat, show 8 * (n + 1) = 8 + 8 * n by ring, pow_add, Nat.mod_mul]
    rfl

@[simp] theorem memNat_nil (a n : Nat) : memNat [] a n = 0 := by
  rw [memNat_of_bytes [] a 0 n (fun i _ => by simp [memGet]), Nat.zero_mod]

theorem memGet_cons (c : Nat) (x : BitVec 8) (t : List Host.Cell) (a : Nat) :
    memGet ((c, x) :: t) a = if a = c then x else memGet t a := by
  unfold memGet
  rw [List.lookup_cons]
  by_cases h : a = c
  · simp [h]
  · simp [beq_eq_false_iff_ne.2 h, h]

/-- Below the lowest address listed, canonical memory reads as zero. -/
theorem memGet_below (m : List Host.Cell) (a : Nat) (h : ∀ c ∈ m, a < c.1) : memGet m a = 0 := by
  have : m.lookup a = none := by
    rw [List.lookup_eq_none_iff]
    intro c hc
    have := h c hc
    simp; omega
  simp [memGet, this]

/-- The lowest cell of canonical memory adds its byte to the number that holds it. -/
theorem memNat_cons (c : Nat) (x : BitVec 8) (t : List Host.Cell) (h : ∀ e ∈ t, c < e.1) (a n : Nat) :
    memNat ((c, x) :: t) a n = memNat t a n + if a ≤ c ∧ c < a + n then x.toNat * 2 ^ (8 * (c - a)) else 0 := by
  induction n generalizing a with
  | zero => simp [memNat]
  | succ n ih =>
    rw [memNat, memNat, ih, memGet_cons]
    rcases Nat.lt_trichotomy a c with lt | rfl | gt
    · rw [if_neg (by omega)]
      by_cases hc : c < a + 1 + n
      · rw [if_pos (by omega), if_pos (by omega), show 8 * (c - a) = 8 * (c - (a + 1)) + 8 by omega, pow_add]
        ring
      · rw [if_neg (by omega), if_neg (by omega)]
        ring
    · rw [if_pos rfl, if_neg (by omega), if_pos (by omega), memGet_below t a h]
      simp [Nat.add_comm]
    · rw [if_neg (by omega), if_neg (by omega), if_neg (by omega)]
      ring

/-- The cells of canonical memory that lie in a line, gathered on `acc`. -/
theorem foldl_line (m : List Host.Cell) (h : Memory.wf m = true) (a acc : Nat) :
    m.foldl (fun acc c => if a ≤ c.1 ∧ c.1 < a + 128 then acc + c.2.toNat * 2 ^ (8 * (c.1 - a)) else acc) acc
      = acc + memNat m a 128 := by
  induction m generalizing acc with
  | nil => rw [memNat_nil]; rfl
  | cons e t ih =>
    obtain ⟨c, x⟩ := e
    obtain ⟨-, hlow, ht⟩ := (wf_cons c x t).1 h
    rw [List.foldl_cons, ih ht, memNat_cons c x t hlow]
    split <;> ring

/-- For every width, so that no width's power of two is evaluated. -/
theorem toNat_ofNat_lt (w x : Nat) (h : x < 2 ^ w) : (BitVec.ofNat w x).toNat = x := by
  rw [BitVec.toNat_ofNat, Nat.mod_eq_of_lt h]

/-- A line of canonical memory is the number that its 128 bytes make. -/
theorem memLine_toNat (m : List Host.Cell) (h : Memory.wf m = true) (a : Nat) : (memLine m a).toNat = memNat m a 128 := by
  unfold memLine
  rw [foldl_line m h, Nat.zero_add]
  exact toNat_ofNat_lt (8 * 128) _ (memNat_lt m a 128)

/-- Bytes of a line of memory are the bytes of memory there. -/
theorem lineNat_memLine (m : List Host.Cell) (h : Memory.wf m = true) (a o n : Nat) (hn : o + n ≤ 128) :
    lineNat (memLine m a) o n = memNat m (a + o) n := by
  have split3 : memNat m a 128
      = memNat m a o + 2 ^ (8 * o) * (memNat m (a + o) n + 2 ^ (8 * n) * memNat m (a + o + n) (128 - o - n)) := by
    rw [← memNat_append, ← memNat_append]
    congr 1
    omega
  unfold lineNat
  rw [memLine_toNat m h, split3, Nat.add_mul_div_left _ _ (Nat.two_pow_pos _), Nat.div_eq_of_lt (memNat_lt ..), Nat.zero_add,
    Nat.add_mul_mod_self_left, Nat.mod_eq_of_lt (memNat_lt ..)]

/-! ## Bytes of lines -/

theorem lineByte_getLsbD (l : Line) (i j : Nat) (hj : j < 8) : (lineByte l i).getLsbD j = l.getLsbD (8 * i + j) := by
  unfold lineByte
  rw [BitVec.getLsbD_ofNat, Nat.testBit_div_two_pow, BitVec.getLsbD, Nat.add_comm]
  simp [hj]

theorem lineByte_memLine (m : List Host.Cell) (h : Memory.wf m = true) (a i : Nat) (hi : i < 128) :
    lineByte (memLine m a) i = memGet m (a + i) := by
  apply BitVec.eq_of_toNat_eq
  have h1 : (lineByte (memLine m a) i).toNat = lineNat (memLine m a) i 1 := by
    unfold lineByte lineNat
    rw [BitVec.toNat_ofNat]
  rw [h1, lineNat_memLine m h a i 1 (by omega)]
  simp [memNat]

/-- Sum of the bytes of ones that a mask names among the first `n`. -/
theorem byteBits_below (mask : ByteMask) (n : Nat) :
    let x := (List.range n).foldl (fun acc i => if mask.getLsbD i then acc + 255 * 2 ^ (8 * i) else acc) 0
    x < 2 ^ (8 * n) ∧ ∀ k, x.testBit k = (decide (k < 8 * n) && mask.getLsbD (k / 8)) := by
  induction n with
  | zero => simp
  | succ n ih =>
    obtain ⟨hlt, hbit⟩ := ih
    simp only [List.range_succ, List.foldl_append, List.foldl_cons, List.foldl_nil]
    generalize (List.range n).foldl (fun acc i => if mask.getLsbD i then acc + 255 * 2 ^ (8 * i) else acc) 0 = x at hlt hbit ⊢
    have hp : 2 ^ (8 * (n + 1)) = 256 * 2 ^ (8 * n) := by
      rw [show 8 * (n + 1) = 8 + 8 * n by ring, pow_add]; rfl
    cases hm : mask.getLsbD n with
    | false =>
      refine ⟨by simp; omega, fun k => ?_⟩
      simp only [Bool.false_eq_true, if_false, hbit]
      by_cases hk : k < 8 * n
      · simp [hk]; omega
      · by_cases hk' : k < 8 * (n + 1)
        · have : k / 8 = n := by omega
          simp [hk, this, hm]
        · simp [hk, hk']
    | true =>
      refine ⟨by simp; omega, fun k => ?_⟩
      simp only [if_true]
      rw [show x + 255 * 2 ^ (8 * n) = 2 ^ (8 * n) * 255 + x by ring, Nat.testBit_two_pow_mul_add _ hlt]
      by_cases hk : k < 8 * n
      · simp [hk, hbit]; omega
      · rw [if_neg hk, show (255 : Nat) = 2 ^ 8 - 1 by norm_num, Nat.testBit_two_pow_sub_one]
        by_cases hk' : k < 8 * (n + 1)
        · have : k / 8 = n := by omega
          simp [this, hm]; omega
        · simp [hk']; omega

theorem byteBits_getLsbD (mask : ByteMask) (k : Nat) (hk : k < 1024) : (byteBits mask).getLsbD k = mask.getLsbD (k / 8) := by
  unfold byteBits
  rw [BitVec.getLsbD_ofNat, (byteBits_below mask 128).2 k]
  simp [hk]

/-- A merged line has the second line's bytes where the mask names them, and the first's elsewhere. -/
theorem lineByte_mergeLine (a b : Line) (mask : ByteMask) (i : Nat) (hi : i < 128) :
    lineByte (mergeLine a b mask) i = if mask.getLsbD i then lineByte b i else lineByte a i := by
  apply BitVec.eq_of_getLsbD_eq
  intro j hj
  have hd : (8 * i + j) / 8 = i := by omega
  have hk : 8 * i + j < 1024 := by omega
  rw [lineByte_getLsbD _ _ _ hj]
  unfold mergeLine
  simp only [BitVec.getLsbD_or, BitVec.getLsbD_and, BitVec.getLsbD_not, byteBits_getLsbD mask _ hk, hd, hk, decide_true, Bool.true_and]
  cases mask.getLsbD i <;> simp [lineByte_getLsbD _ _ _ hj]

theorem byteRun_getLsbD (off n i : Nat) (hi : i < 128) : (byteRun off n).getLsbD i = decide (off ≤ i ∧ i < off + n) := by
  unfold byteRun
  rw [BitVec.getLsbD_ofNat, Nat.mul_comm, Nat.testBit_two_pow_mul, Nat.testBit_two_pow_sub_one]
  by_cases h : off ≤ i
  · simp [h, hi]; omega
  · simp [h]

theorem fullMask_getLsbD (i : Nat) (hi : i < 128) : fullMask.getLsbD i = true := by
  unfold fullMask
  rw [BitVec.getLsbD_allOnes]
  simp [hi]

/-- Byte `i` of the line that holds the low `n` bytes of `v` at `off`. -/
theorem lineByte_lineOfNat (v off n i : Nat) (hn : off + n ≤ 128) (h : i < n) :
    lineByte (lineOfNat v off n) (off + i) = BitVec.ofNat 8 (v / 2 ^ (8 * i)) := by
  apply BitVec.eq_of_getLsbD_eq
  intro j hj
  have h1 : 8 * (off + i) + j < 1024 := by omega
  have h2 : 8 * i + j < 8 * n := by omega
  rw [lineByte_getLsbD _ _ _ hj]
  unfold lineOfNat
  rw [BitVec.getLsbD_ofNat, BitVec.getLsbD_ofNat, Nat.mul_comm (v % _), Nat.testBit_two_pow_mul, Nat.testBit_mod_two_pow,
    Nat.testBit_div_two_pow, show 8 * (off + i) + j - 8 * off = 8 * i + j by omega, Nat.add_comm j]
  have h3 : 8 * off ≤ 8 * (off + i) + j := by omega
  simp [h1, h2, h3, hj]

/-! ## The masked write of a line -/

theorem memGet_memPutLineFrom (m : List Host.Cell) (a : Nat) (l : Line) (mask : ByteMask) (n i : Nat) (h : Memory.wf m = true)
    (hn : n ≤ 128) (hi : i < 128) :
    memGet (memPutLineFrom m a l mask n) (a + i) = if 128 - n ≤ i ∧ mask.getLsbD i = true then lineByte l i else memGet m (a + i) := by
  induction n generalizing m with
  | zero => rw [if_neg (by omega)]; rfl
  | succ n ih =>
    rw [memPutLineFrom, ih _ (by split; exacts [memPut_wf _ _ _ h, h]) (by omega)]
    by_cases he : i = 127 - n
    · subst he
      rw [if_neg (by omega)]
      cases hm : mask.getLsbD (127 - n) with
      | true => rw [if_pos rfl, memGet_memPut_same _ _ _ h, if_pos ⟨by omega, rfl⟩]
      | false => simp
    · have skip : memGet (if mask.getLsbD (127 - n) = true then memPut m (a + (127 - n)) (lineByte l (127 - n)) else m) (a + i)
          = memGet m (a + i) := by
        split
        · exact memGet_memPut_other _ _ _ _ (by omega)
        · rfl
      have hcond : (128 - n ≤ i ∧ mask.getLsbD i = true) ↔ (128 - (n + 1) ≤ i ∧ mask.getLsbD i = true) := by
        constructor <;> rintro ⟨h1, h2⟩ <;> exact ⟨by omega, h2⟩
      simp only [skip, hcond]

/-- The bytes of a line in memory after a masked write of it. -/
theorem memGet_memPutLine (m : List Host.Cell) (a : Nat) (l : Line) (mask : ByteMask) (i : Nat) (h : Memory.wf m = true) (hi : i < 128) :
    memGet (memPutLine m a l mask) (a + i) = if mask.getLsbD i then lineByte l i else memGet m (a + i) := by
  unfold memPutLine
  rw [memGet_memPutLineFrom m a l mask 128 i h (Nat.le_refl _) hi]
  simp

end Sys2Proof.Machine
end

section
/-!
SUPPORT. Lines of a local store (R136): reading one at its home, and a write applied there, byte by byte.
-/
namespace Sys2Proof.Machine

/-- Number of line `i` of the local store of core `c`, as State.mem and State.tags list it. -/
def storeLineNo (c i : Nat) : Nat := 2 ^ 36 + 8192 * c + i

theorem storeLineNo_high (c i : Nat) : 2 ^ 35 ≤ storeLineNo c i := by unfold storeLineNo; omega

theorem lsByte_eq (c off : Nat) : lsByte c off = 128 * storeLineNo c (off / 128) + off % 128 := by
  unfold lsByte storeLineNo; omega

/-! ## The lines of a home that no channel serves -/

theorem reach_high (s : State) (near : Bool) (k : Nat) (r : Reader) (h : 2 ^ 35 ≤ k) : s.reach near k r = s := by
  unfold State.reach; rw [if_pos h]

theorem homeLine_high (s : State) (k : Nat) (h : 2 ^ 35 ≤ k) : s.homeLine k = (memLine s.mem (128 * k), s.tagAt k) := by
  unfold State.homeLine; rw [if_pos h]; rfl

theorem writeLine_high (s : State) (near : Bool) (k : Nat) (d : Line) (t : Tag) (h : 2 ^ 35 ≤ k) :
    s.writeLine near k d t = s.putRaw k d t := by
  unfold State.writeLine; rw [if_pos h]

@[simp] theorem logEvent_mem (s : State) (p e v c : Nat) (a d : Word) : (s.logEvent p e v c a d).mem = s.mem := rfl

@[simp] theorem putRaw_mem (s : State) (k : Nat) (d : Line) (t : Tag) : (s.putRaw k d t).mem = memPutLine s.mem (128 * k) d fullMask := by
  unfold State.putRaw; rw [setTag_mem]

theorem putRaw_wf (s : State) (k : Nat) (d : Line) (t : Tag) (h : Memory.wf s.mem = true) : Memory.wf (s.putRaw k d t).mem = true := by
  rw [putRaw_mem]; exact memPutLine_wf _ _ _ _ h

/-- A byte of memory after a whole line is listed. -/
theorem memGet_putRaw (s : State) (k : Nat) (d : Line) (t : Tag) (b : Nat) (h : Memory.wf s.mem = true) :
    memGet (s.putRaw k d t).mem b = if b / 128 = k then lineByte d (b % 128) else memGet s.mem b := by
  rw [putRaw_mem]
  split
  · rename_i hb
    rw [show b = 128 * k + b % 128 by omega, memGet_memPutLine _ _ _ _ _ h (by omega), if_pos (fullMask_getLsbD _ (by omega))]
    congr 1; omega
  · exact memGet_memPutLine_other _ _ _ _ _ (by omega)

/-- A line listed again with the bytes that it holds changes no byte. -/
theorem memGet_putRaw_same (s : State) (k : Nat) (t : Tag) (b : Nat) (h : Memory.wf s.mem = true) :
    memGet (s.putRaw k (memLine s.mem (128 * k)) t).mem b = memGet s.mem b := by
  rw [memGet_putRaw _ _ _ _ _ h]
  split
  · rw [lineByte_memLine _ h _ _ (by omega)]
    congr 1; omega
  · rfl

/-- A stored line whose tag is good is read as it is (R48). -/
theorem readRaw_high (s : State) (near : Bool) (part k : Nat) (r : Reader) (h : 2 ^ 35 ≤ k) (ht : badTag (s.tagAt k) = false) :
    s.readRaw near part k r = (memLine s.mem (128 * k), s.tagAt k, s) := by
  unfold State.readRaw State.fixTag
  simp [reach_high s near k r h, homeLine_high s k h, badTag?, ht]

/-- Whatever the tag, a read finds the bytes of memory and leaves each of them (R48). -/
theorem readRaw_high_bytes (s : State) (near : Bool) (part k : Nat) (r : Reader) (h : 2 ^ 35 ≤ k) (hw : Memory.wf s.mem = true) :
    let x := s.readRaw near part k r
    x.1 = memLine s.mem (128 * k) ∧ Memory.wf x.2.2.mem = true ∧ ∀ b, memGet x.2.2.mem b = memGet s.mem b := by
  unfold State.readRaw State.fixTag
  simp only [reach_high s near k r h, homeLine_high s k h]
  cases badTag? 1 (s.tagAt k) with
  | none => exact ⟨rfl, hw, fun _ => rfl⟩
  | some t =>
    simp only [writeLine_high _ _ _ _ _ h, logEvent_mem]
    exact ⟨trivial, putRaw_wf _ _ _ _ hw, fun b => memGet_putRaw_same s k t b hw⟩

/-! ## Links (R163) -/

/-- Breaking links changes the links of strands. -/
theorem breakLinks_only (s : State) (k : Nat) (keep : Option (Nat × Nat)) :
    s.breakLinks k keep = { s with me := { s.me with links := (s.breakLinks k keep).me.links }, others := (s.breakLinks k keep).others } := by
  unfold State.breakLinks State.mapStrands
  dsimp only
  split <;> rfl

@[simp] theorem breakLinks_mem (s : State) (k : Nat) (keep : Option (Nat × Nat)) : (s.breakLinks k keep).mem = s.mem := by
  rw [breakLinks_only]

@[simp] theorem breakLinks_pairs (s : State) (k : Nat) (keep : Option (Nat × Nat)) : (s.breakLinks k keep).pairs = s.pairs := by
  rw [breakLinks_only]

theorem writesOnly_breakLinks {s u : State} (h : LinesOnly s u) (k : Nat) (keep : Option (Nat × Nat)) : s.writesOnly (u.breakLinks k keep) := by
  refine ⟨?_, by rw [breakLinks_pairs, h.pairs]⟩
  rw [breakLinks_only, ← h.me]

/-! ## A write applied to a line of a local store (R132) -/

/-- What a write finds of a line: its bytes, or where it covers them nothing; and it leaves every byte. -/
theorem meetHome_store (s : State) (c i : Nat) (full : Bool) (r : Reader) (hw : Memory.wf s.mem = true) :
    let x := s.meetHome (.store c i) full r
    (full = false → x.1 = memLine s.mem (128 * storeLineNo c i)) ∧ Memory.wf x.2.2.mem = true ∧ ∀ b, memGet x.2.2.mem b = memGet s.mem b := by
  cases full with
  | true => exact ⟨fun h => Bool.noConfusion h, hw, fun _ => rfl⟩
  | false =>
    obtain ⟨hd, hm, hb⟩ := readRaw_high_bytes s false (s.partOfCore c) (storeLineNo c i) r (storeLineNo_high c i) hw
    exact ⟨fun _ => hd, hm, hb⟩

/-- The write changes the bytes that its mask names. -/
theorem applyHome_store_mem (s : State) (c i : Nat) (w : Write) (keep : Option (Nat × Nat)) (r : Reader) (hw : Memory.wf s.mem = true) (b : Nat) :
    memGet (s.applyHome (.store c i) w keep r).mem b
      = if b / 128 = storeLineNo c i ∧ w.mask.getLsbD (b % 128) = true then lineByte w.data (b % 128) else memGet s.mem b := by
  obtain ⟨hd, hm, hb⟩ := meetHome_store s c i (w.typed && w.mask == fullMask) r hw
  unfold State.applyHome
  dsimp only
  rw [breakLinks_mem]
  unfold State.putHome mergeWrite
  dsimp only
  have hk : 2 ^ 36 + 8192 * c + i = storeLineNo c i := rfl
  rw [hk, memGet_putRaw _ _ _ _ _ hm, hb, lineByte_mergeLine _ _ _ _ (by omega)]
  by_cases hl : b / 128 = storeLineNo c i
  · cases hk : w.mask.getLsbD (b % 128) with
    | true => simp [hl]
    | false =>
      have hf : (w.typed && w.mask == fullMask) = false := by
        rw [Bool.and_eq_false_iff, beq_eq_false_iff_ne]
        right
        intro he
        rw [he, fullMask_getLsbD _ (by omega)] at hk
        cases hk
      rw [hd hf, lineByte_memLine _ hw _ _ (by omega), show 128 * storeLineNo c i + b % 128 = b by omega]
      simp
  · simp [hl]

/-- Of the strands it changes links alone. -/
theorem applyHome_store_writesOnly (s : State) (c i : Nat) (w : Write) (keep : Option (Nat × Nat)) (r : Reader) :
    s.writesOnly (s.applyHome (.store c i) w keep r) :=
  writesOnly_breakLinks ((meetHome_lines s (.store c i) _ r).trans (putHome_lines ..)) _ _

/-- An untyped write of `n` bytes within a line: they hold the low bytes of `v`, and every other byte stays (R158). -/
theorem applyHome_untyped (s : State) (c off v n : Nat) (keep : Option (Nat × Nat)) (r : Reader) (hw : Memory.wf s.mem = true)
    (hn : off % 128 + n ≤ 128) :
    let u := s.applyHome (.store c (off / 128)) (untyped v (off % 128) n) keep r
    memNat u.mem (lsByte c off) n = v % 2 ^ (8 * n)
    ∧ ∀ b, b < lsByte c off ∨ lsByte c off + n ≤ b → memGet u.mem b = memGet s.mem b := by
  have hmem := applyHome_store_mem s c (off / 128) (untyped v (off % 128) n) keep r hw
  have hls := lsByte_eq c off
  refine ⟨memNat_of_bytes _ _ _ _ fun i hi => ?_, fun b hb => ?_⟩
  · have hm : (byteRun (off % 128) n).getLsbD (off % 128 + i) = true := by
      rw [byteRun_getLsbD _ _ _ (by omega)]
      simpa using hi
    rw [hmem, show (lsByte c off + i) / 128 = storeLineNo c (off / 128) by omega, show (lsByte c off + i) % 128 = off % 128 + i by omega,
      if_pos ⟨rfl, hm⟩]
    exact lineByte_lineOfNat v _ n i hn hi
  · rw [hmem, if_neg]
    rintro ⟨hl, hm⟩
    have hrun : off % 128 ≤ b % 128 ∧ b % 128 < off % 128 + n := by
      simpa [untyped, byteRun_getLsbD _ _ _ (Nat.mod_lt b (by omega))] using hm
    omega

end Sys2Proof.Machine
end

section
/-!
PROOFS. Scalar loads and stores at a local-store window (R102, R189).
-/
namespace Sys2Proof.Machine

/-- The byte of a window is given by the low 20 bits of the address. -/
theorem classify_window {core a c off : Nat} (h : classify core a = .window c off) : off = a % 2 ^ 20 := by
  unfold classify at h
  dsimp only at h
  split at h
  · cases h
  · split at h
    · split at h
      · split at h
        · exact (AddrClass.window.inj h).2.symm
        · cases h
      · exact (AddrClass.window.inj h).2.symm
    · cases h

/-- An aligned access of a size that divides a line lies in one line. -/
theorem aligned_in_line {off n : Nat} (hn : n ∣ 128) (h : off % n = 0) : off % 128 + n ≤ 128 := by
  obtain ⟨q, hq⟩ := hn
  have hpos : 0 < n := Nat.pos_of_ne_zero (by rintro rfl; omega)
  have hd : n ∣ off % 128 := (Nat.dvd_mod_iff ⟨q, hq⟩).2 (Nat.dvd_of_mod_eq_zero h)
  obtain ⟨k, hk⟩ := hd
  have hlt : n * k < n * q := by rw [← hk, ← hq]; omega
  have hle : n * (k + 1) ≤ n * q := Nat.mul_le_mul_left _ (Nat.lt_of_mul_lt_mul_left hlt)
  rw [hk, hq]
  calc n * k + n = n * (k + 1) := by ring
    _ ≤ n * q := hle

@[simp] theorem takeToken_resolveMe (s : State) (t : BitVec 2) (a : Nat) : (s.takeToken t).resolveMe a = s.resolveMe a :=
  congrArg (fun x => x.resolveMe a) (takeToken_noTok s t)

@[simp] theorem takeToken_tagAt (s : State) (t : BitVec 2) (k : Nat) : (s.takeToken t).tagAt k = s.tagAt k :=
  congrArg (fun x => x.tagAt k) (takeToken_noTok s t)

@[simp] theorem takeToken_older (s : State) (t : BitVec 2) : (s.takeToken t).me.older = s.me.older :=
  congrArg (fun x => x.me.older) (takeToken_noTok s t)

/-- An aligned scalar access to a window finds its line without translation (R102, R189). -/
theorem checkScalar_window (s : State) (a : Word) (n : Nat) (acc : Access) (c off : Nat) (hc : classify s.me.core a.toNat = .window c off)
    (hr : s.resolveMe a.toNat = a.toNat) (hn : n ∣ 128) (ha : off % n = 0) :
    s.checkScalar a n acc = .ok s (.store c (off / 128)) (off % 128) false := by
  have hoff := classify_window hc
  have hal : a.toNat % n = 0 := by
    have h20 : n ∣ 2 ^ 20 := hn.trans (by decide)
    rw [hoff, Nat.mod_mod_of_dvd _ h20] at ha
    exact ha
  have h128 : off % 128 = a.toNat % 128 := by omega
  have hcore : s.walker.core = s.me.core := rfl
  unfold State.checkScalar State.locate
  simp [hal, hr, hcore, hc, h128, LineLoc.strict]

/-- SLD of `n` bytes from a window, where the line's tag is good and its class neither POISON nor UNINIT. -/
theorem scalarLoad_window (s : State) (d a : BitVec 5) (imm : BitVec 12) (t : BitVec 2) (c off n : Nat) (hs : s.ready t true = true)
    (hq : s.me.ssq = []) (hw : Memory.wf s.mem = true) (hc : classify s.me.core (s.reg a + s.immSI imm).toNat = .window c off)
    (hr : s.resolveMe (s.reg a + s.immSI imm).toNat = (s.reg a + s.immSI imm).toNat)
    (hbad : badTag (s.tagAt (storeLineNo c (off / 128))) = false) (h2 : classOf (s.tagAt (storeLineNo c (off / 128))) ≠ 2)
    (h4 : classOf (s.tagAt (storeLineNo c (off / 128))) ≠ 4) (hn : n ∣ 128) (ha : off % n = 0)
    (hwait : (s.takeToken t).loadWaits (s.reg a + s.immSI imm).toNat n = false) :
    scalarLoad n d a imm t s = .next (((s.takeToken t).setReg d (BitVec.ofNat 64 (memNat s.mem (lsByte c off) n))).retires t) := by
  have hplace := checkScalar_window (s.takeToken t) (s.reg a + s.immSI imm) n .read c off (by simpa using hc) (by simpa using hr) hn ha
  have hread : (s.takeToken t).loadLine s.me.core (.store c (off / 128)) 0 (s.takeToken t).reader
      = (memLine s.mem (128 * storeLineNo c (off / 128)), s.tagAt (storeLineNo c (off / 128)), s.takeToken t) :=
    (readRaw_high _ false ((s.takeToken t).partOfCore c) _ _ (storeLineNo_high ..) (by simpa using hbad)).trans (by simp)
  have hval : lineNat (memLine s.mem (128 * storeLineNo c (off / 128))) (off % 128) n = memNat s.mem (lsByte c off) n := by
    rw [lineNat_memLine _ hw _ _ _ (aligned_in_line hn ha), ← lsByte_eq]
  unfold scalarLoad
  refine runInstr_retires hs ?_
  simp [hplace, hwait, hread, h2, h4, scalarPsn, Strand.forward, hq, hval, -BitVec.toNat_add]

/-- Settles O29: the window is found without translation, its line is read as it stands, and nothing queued overlays it. -/
theorem localStoreLoads : Obligations.LocalStoreLoads := by
  intro s d a imm t c off hs hq hw va tag hc hr hbad h2 h4 loads
  have load (n : Nat) (hn : n ∣ 128) (ha : off % n = 0) (hwait : (s.takeToken t).loadWaits va.toNat n = false) :=
    scalarLoad_window s d a imm t c off n hs hq hw hc hr hbad h2 h4 hn ha hwait
  exact ⟨load 1 (by decide), load 2 (by decide), load 4 (by decide), load 8 (by decide)⟩

/-- SST of `n` bytes to a window with nothing older outstanding. -/
theorem scalarStore_window (s : State) (d a : BitVec 5) (imm : BitVec 12) (t : BitVec 2) (c off n : Nat) (hs : s.ready t true = true)
    (ho : s.me.older = false) (hc : classify s.me.core (s.reg a + s.immSI imm).toNat = .window c off)
    (hr : s.resolveMe (s.reg a + s.immSI imm).toNat = (s.reg a + s.immSI imm).toNat) (hn : n ∣ 128) (ha : off % n = 0) :
    scalarStore n d a imm t s = .next (((s.takeToken t).applyHome (.store c (off / 128))
      (untyped ((s.reg d).toNat % 2 ^ (8 * n)) (off % 128) n) none (s.takeToken t).reader).retires t) := by
  have hplace := checkScalar_window (s.takeToken t) (s.reg a + s.immSI imm) n .write c off (by simpa using hc) (by simpa using hr) hn ha
  unfold scalarStore
  refine runInstr_retires hs ?_
  simp [hplace, ho, State.storeLine]

/-- Settles O31: the store is one untyped write applied to the window's line. -/
theorem localStoreStores : Obligations.LocalStoreStores := by
  intro s d a imm t c off hs ho hw va hc hr stores
  have store (i : Instr) (n : Nat) (hi : exec i s = scalarStore n d a imm t s) (hn : n ∣ 128) : stores i n := fun ha => by
    have hbytes := applyHome_untyped (s.takeToken t) c off ((s.reg d).toNat % 2 ^ (8 * n)) n none (s.takeToken t).reader (by simpa using hw)
      (aligned_in_line hn ha)
    obtain ⟨hin, hout⟩ := hbytes
    refine ⟨_, hi.trans (scalarStore_window s d a imm t c off n hs ho hc hr hn ha), applyHome_store_writesOnly .., ?_, ?_⟩
    · rw [hin, Nat.mod_mod]
    · simpa using hout
  exact ⟨store _ 1 rfl (by decide), store _ 2 rfl (by decide), store _ 4 rfl (by decide), store _ 8 rfl (by decide)⟩

end Sys2Proof.Machine
end

section
/-!
PROOFS. A vector access whose elements are wider than a line.
-/
namespace Sys2Proof.Machine

@[simp] theorem retires_mem (s : State) (t : BitVec 2) : (s.retires t).mem = s.mem := by
  unfold State.retires
  split
  · unfold State.retired State.finish
    split <;> simp
  · rfl

/-- The memory that an outcome leaves. -/
def memAfter (o : Out) : List Host.Cell :=
  match o with
  | .next u => u.mem
  | _ => []

/-- A strand on core 0 whose SEW code is 10, elements of 256 bytes: s1 points at its own local store, and v2 holds one element, of
which the lowest byte beyond 128 is one. -/
def wideElement : State :=
  { State.reset with me := { State.reset.me with
    ill := false, sew := 10, vl := 1
    regs := (Vector.replicate 32 0).set 1 0xFFFE000000800000
    rows := (Vector.replicate 32 {}).set 2 ⟨BitVec.twoPow 8192 1024, mkTag 17 127 0 false⟩ } }

/-- The premises of O44 hold in it, its one element is active, and SEW is 2,048 bits. -/
theorem wideElement_premises :
    wideElement.ready 0 false = true ∧ wideElement.me.configured = true ∧ wideElement.me.noTraps = true
    ∧ wideElement.me.vtypeIll [2] = false ∧ wideElement.me.wmBind.getLsbD 14 = false ∧ Memory.wf wideElement.mem = true
    ∧ wideElement.me.done_ = none ∧ 8 ≤ wideElement.me.sewBits ∧ 0 < wideElement.me.vl ∧ wideElement.me.count = 1
    ∧ wideElement.me.sewBits = 2048 ∧ wideElement.me.act 0 0 = true := by decide +kernel

/-- VST of it writes one line, all of whose bytes are zero. -/
theorem vst_wideElement_mem : memAfter (exec (.vst 2 1 0 0 0 0) wideElement) = [] := by decide +kernel

theorem wideElement_code : wideElement.code 2 0 ≠ 0 := by decide +kernel

/-- Refutes O44: nothing bounds SEW by its code 5 (64 bits), and an element of 256 bytes does not fit a line: VST writes its
lowest 128 bytes alone. The state is `wideElement`, in which the byte of one is beyond those. -/
theorem not_localStoreVectors : ¬ Obligations.LocalStoreVectors := by
  intro h
  obtain ⟨hs, hconf, htr, hill, hwm, hw, hd, h8, hvl, hcount, hsew, hact⟩ := wideElement_premises
  obtain ⟨u, hexec, -, -, hcode, -⟩ := (h wideElement 2 1 0 0 0 0 hs hconf htr hill hwm hw hd h8 hvl (fun _ => 0) (by
    intro j hj _
    obtain rfl : j = 0 := by omega
    exact ⟨by rfl, by decide +kernel, by decide +kernel⟩)).2
  have hmem : u.mem = [] := by
    rw [← vst_wideElement_mem, hexec]
    exact (retires_mem u 0).symm
  have hzero := hcode 0 (by omega) hact
  rw [hmem, memNat_nil] at hzero
  exact wideElement_code hzero.symm

end Sys2Proof.Machine
end

section
/-!
PROOFS. Words and their fields: a word that is a sum of shifted fields, read field by field (R18).
-/
namespace Sys2Proof

/-! ### A mask of zero bits -/

theorem fld_toNat (w : Code) (lo n : Nat) : (fld w lo n).toNat = w.toNat / 2 ^ lo % 2 ^ n := by
  simp [fld]

/-- Numbers that share no bit share none below bit `k` and none from there up. -/
theorem land_eq_zero_iff_split (x y k : Nat) :
    x &&& y = 0 ↔ (x % 2 ^ k) &&& (y % 2 ^ k) = 0 ∧ (x / 2 ^ k) &&& (y / 2 ^ k) = 0 := by
  rw [← Nat.and_mod_two_pow, ← Nat.and_div_two_pow]
  constructor
  · intro h; simp [h]
  · rintro ⟨hlow, hhigh⟩
    rw [← Nat.mod_add_div (x &&& y) (2 ^ k), hlow, hhigh]; rfl

theorem and_eq_zero_iff_toNat (w z : Code) : w &&& z = 0 ↔ w.toNat &&& z.toNat = 0 := by
  rw [← BitVec.toNat_inj, BitVec.toNat_and]; rfl

/-- The mask `z` covers the `n` bits from bit `lo` up. -/
abbrev Covers (z : Code) (lo n : Nat) : Prop := z.toNat / 2 ^ lo % 2 ^ n = 2 ^ n - 1

/-- The bits that the mask covers are zero in a word without the mask's bits. -/
theorem Covers.div_mod_eq_zero {w z : Code} {lo n : Nat} (hc : Covers z lo n) (hz : w &&& z = 0) :
    w.toNat / 2 ^ lo % 2 ^ n = 0 := by
  obtain ⟨-, hhigh⟩ := (land_eq_zero_iff_split _ _ lo).1 ((and_eq_zero_iff_toNat w z).1 hz)
  obtain ⟨hrun, -⟩ := (land_eq_zero_iff_split _ _ n).1 hhigh
  rwa [hc, Nat.and_two_pow_sub_one_eq_mod, Nat.mod_mod] at hrun

/-! ### A sum of shifted fields, from the top field down

`b + x * c` with the literal `b` a multiple of `c` is one number shifted: fields are then taken off its low end. -/

theorem base_add_mul {b x c : Nat} (hb : b % c = 0) : b + x * c = (b / c + x) * c := by
  rw [Nat.add_mul, Nat.div_mul_cancel (Nat.dvd_of_mod_eq_zero hb)]

theorem mul_add_mul {q x c d : Nat} (hc : c % d = 0) : q * c + x * d = (q * (c / d) + x) * d := by
  rw [Nat.add_mul, Nat.mul_assoc, Nat.div_mul_cancel (Nat.dvd_of_mod_eq_zero hc)]

/-- The literal above the first field, written as what the field is added to. -/
theorem base_add {b k : Nat} (hb : b % 2 ^ k = 0) (x : BitVec k) : b + x.toNat = b / 2 ^ k * 2 ^ k + x.toNat := by
  rw [Nat.div_mul_cancel (Nat.dvd_of_mod_eq_zero hb)]

theorem mul_add_div {q c k m : Nat} {x : BitVec k} (hk : 2 ^ k ≤ c) (hm : m % c = 0) :
    (q * c + x.toNat) / m = q / (m / c) := by
  obtain ⟨r, rfl⟩ := Nat.dvd_of_mod_eq_zero hm
  have hx : x.toNat < c := Nat.lt_of_lt_of_le x.isLt hk
  have hc : 0 < c := Nat.zero_lt_of_lt hx
  rw [← Nat.div_div_eq_div_mul, Nat.mul_comm q, Nat.mul_add_div hc, Nat.div_eq_of_lt hx, Nat.add_zero,
    Nat.mul_div_cancel_left r hc]

theorem base_add_div {b k m : Nat} {x : BitVec k} (hb : b % 2 ^ k = 0) (hm : m % 2 ^ k = 0) :
    (b + x.toNat) / m = b / m := by
  obtain ⟨r, rfl⟩ := Nat.dvd_of_mod_eq_zero hm
  rw [base_add hb, mul_add_div (Nat.le_refl _) (Nat.mul_mod_right ..), Nat.mul_div_cancel_left _ (Nat.two_pow_pos k),
    Nat.div_div_eq_div_mul]

theorem ofNat_mul_add {q c k : Nat} {x : BitVec k} (hc : c % 2 ^ k = 0) : BitVec.ofNat k (q * c + x.toNat) = x := by
  obtain ⟨r, rfl⟩ := Nat.dvd_of_mod_eq_zero hc
  apply BitVec.eq_of_toNat_eq
  rw [BitVec.toNat_ofNat, Nat.mul_left_comm, Nat.mul_add_mod, Nat.mod_eq_of_lt x.isLt]

theorem ofNat_base_add {b k : Nat} {x : BitVec k} (hb : b % 2 ^ k = 0) : BitVec.ofNat k (b + x.toNat) = x := by
  rw [base_add hb, ofNat_mul_add (Nat.mod_self _)]

/-- A mask without bits in the lowest field meets only what stands above it. -/
theorem mul_add_land_eq_zero {q c k z : Nat} {x : BitVec k} (hk : 2 ^ k ≤ c) (hc : c = 2 ^ c.log2) (hz : z % 2 ^ k = 0) :
    (q * c + x.toNat) &&& z = 0 ↔ q &&& z / c = 0 := by
  have hx : x.toNat < c := Nat.lt_of_lt_of_le x.isLt hk
  have hlow : (q * c + x.toNat) % c = x.toNat := by rw [Nat.mul_comm, Nat.mul_add_mod, Nat.mod_eq_of_lt hx]
  have hhigh : (q * c + x.toNat) / c = q := by
    rw [Nat.mul_comm, Nat.mul_add_div (Nat.zero_lt_of_lt hx), Nat.div_eq_of_lt hx, Nat.add_zero]
  have hfield : x.toNat &&& z % c = 0 := by
    have hle : k ≤ c.log2 := (Nat.le_log2 (by omega)).2 hk
    have hzk : z % c % 2 ^ k = 0 := by
      rw [hc, Nat.mod_mod_of_dvd _ (Nat.pow_dvd_pow 2 hle), hz]
    rw [land_eq_zero_iff_split _ _ k, hzk, Nat.div_eq_of_lt x.isLt]
    simp
  rw [land_eq_zero_iff_split _ _ c.log2, ← hc, hlow, hhigh, hfield]
  simp

theorem base_add_land_eq_zero {b k z : Nat} {x : BitVec k} (hb : b % 2 ^ k = 0) (hz : z % 2 ^ k = 0) :
    (b + x.toNat) &&& z = 0 ↔ b &&& z = 0 := by
  rw [base_add hb, mul_add_land_eq_zero (Nat.le_refl _) (by rw [Nat.log2_two_pow]) hz, land_eq_zero_iff_split b z k, hb]
  simp

/-! ### The fields of a word given as a number -/

section
variable {w : Code} {n : Nat} (hw : w = BitVec.ofNat 32 n)
include hw

theorem opOf_of_eq : opOf w = n / 2 ^ 24 % 256 := by
  rw [hw, opOf, BitVec.toNat_ofNat]; omega

theorem formOf_of_eq : formOf w = n / 2 ^ 22 % 4 := by
  rw [hw, formOf, BitVec.toNat_ofNat]; omega

theorem fld_of_eq {lo k : Nat} (h : lo + k ≤ 32) : fld w lo k = BitVec.ofNat k (n / 2 ^ lo) := by
  obtain ⟨r, hr⟩ := Nat.exists_eq_add_of_le h
  subst hw
  apply BitVec.eq_of_toNat_eq
  rw [fld_toNat, BitVec.toNat_ofNat, BitVec.toNat_ofNat, hr, Nat.add_assoc, Nat.pow_add, Nat.mod_mul_right_div_self,
    Nat.mod_mod_of_dvd _ (Nat.pow_dvd_pow 2 (Nat.le_add_right k r))]

theorem and_eq_zero_of_eq {z : Code} : w &&& z = 0 ↔ n &&& z.toNat = 0 := by
  rw [hw, and_eq_zero_iff_toNat, BitVec.toNat_ofNat, ← Nat.mod_eq_of_lt z.isLt, ← Nat.and_mod_two_pow,
    Nat.mod_eq_of_lt z.isLt, Nat.mod_eq_of_lt (Nat.lt_of_le_of_lt Nat.and_le_right z.isLt)]

end

/-! ### A word put together from its own fields -/

theorem ofNat_eq_of_toNat {n : Nat} {w : Code} (h : n = w.toNat / 2 ^ 0) : BitVec.ofNat 32 n = w := by
  subst h; simp

/-- The bits from a field up: those from bit `t` up, covered bits, and the field. -/
theorem toNat_div_eq {w z : Code} {lo k t : Nat} (hz : w &&& z = 0) (hk : lo + k ≤ t)
    (hg : Covers z (lo + k) (t - (lo + k))) :
    w.toNat / 2 ^ lo = w.toNat / 2 ^ t * 2 ^ (t - lo) + (fld w lo k).toNat := by
  obtain ⟨g, rfl⟩ := Nat.exists_eq_add_of_le hk
  have hgap := hg.div_mod_eq_zero hz
  rw [Nat.add_sub_cancel_left, Nat.pow_add, ← Nat.div_div_eq_div_mul] at hgap
  have hfield := Nat.div_add_mod (w.toNat / 2 ^ lo) (2 ^ k)
  have hcovered := Nat.div_add_mod (w.toNat / 2 ^ lo / 2 ^ k) (2 ^ g)
  rw [hgap, Nat.add_zero] at hcovered
  rw [fld_toNat, Nat.add_assoc, Nat.add_sub_cancel_left, Nat.pow_add, Nat.pow_add, ← Nat.div_div_eq_div_mul,
    ← Nat.div_div_eq_div_mul]
  calc w.toNat / 2 ^ lo = 2 ^ k * (w.toNat / 2 ^ lo / 2 ^ k) + w.toNat / 2 ^ lo % 2 ^ k := hfield.symm
    _ = 2 ^ k * (2 ^ g * (w.toNat / 2 ^ lo / 2 ^ k / 2 ^ g)) + w.toNat / 2 ^ lo % 2 ^ k := by rw [hcovered]
    _ = _ := by ring

theorem div_mul_add_fld {w z : Code} {m c lo k : Nat} (hz : w &&& z = 0) (hm : m = 2 ^ (lo + c.log2)) (hc : c = 2 ^ c.log2)
    (hk : k ≤ c.log2) (hg : Covers z (lo + k) (lo + c.log2 - (lo + k))) :
    w.toNat / m * c + (fld w lo k).toNat = w.toNat / 2 ^ lo := by
  rw [toNat_div_eq hz (Nat.add_le_add_left hk lo) hg, Nat.add_sub_cancel_left, ← hc, ← hm]

theorem base_add_fld {w z : Code} {t u b lo k : Nat} (hz : w &&& z = 0) (hu : w.toNat / 2 ^ t = u)
    (hb : b = u * 2 ^ (t - lo)) (hk : lo + k ≤ t) (hg : Covers z (lo + k) (t - (lo + k))) :
    b + (fld w lo k).toNat = w.toNat / 2 ^ lo := by
  rw [toNat_div_eq hz hk hg, hu, hb]

theorem div_two_pow_of_formOf {w : Code} {o f : Nat} (hop : opOf w = o) (hform : formOf w = f) :
    w.toNat / 2 ^ 22 = o * 4 + f := by
  simp only [opOf, formOf] at hop hform; omega

/-- The ENG field above the register number (R204). -/
theorem div_two_pow_of_eng {w : Code} {o : Nat} {e : BitVec 3} (hop : opOf w = o) (heng : fld w 21 3 = e) :
    w.toNat / 2 ^ 21 = o * 8 + e.toNat := by
  have heng := congrArg BitVec.toNat heng
  rw [fld_toNat] at heng
  simp only [opOf] at hop; omega

end Sys2Proof
end

section
/-!
PROOFS. The strand decoder and the encoder agree (R18 to R24).
-/
namespace Sys2Proof
/-- What the decoder answers for `w`, if an instruction, is well formed, and `w` is its word. -/
def Faithful (w : Code) (r : Except Reject Instr) : Prop :=
  ∀ i, r = .ok i → encode i = w ∧ i.wf = true

theorem faithful_error (w : Code) (e : Reject) : Faithful w (.error e) := by
  intro i hi
  cases hi

theorem accept_eq_ok_iff {w z : Code} {i j : Instr} :
    accept w z i = .ok j ↔ w &&& z = 0 ∧ i.wf = true ∧ i = j := by
  unfold accept Instr.wf
  by_cases hz : w &&& z = 0#32 <;> cases i.modOk <;> cases i.operandsOk <;> simp [hz]

theorem faithful_accept {w z : Code} {i : Instr} (h : w &&& z = 0 → encode i = w) :
    Faithful w (accept w z i) := by
  intro j hj
  obtain ⟨hz, hwf, rfl⟩ := accept_eq_ok_iff.1 hj
  exact ⟨h hz, hwf⟩

theorem faithful_plainTables (w : Code) : Faithful w (decode0 w) ∧ Faithful w (decode1 w) ∧ Faithful w (decode2 w)
    ∧ Faithful w (decode4 w) ∧ Faithful w (decodeC w) ∧ Faithful w (decodeD w) ∧ Faithful w (decodeE w) := by
  unfold decode0 decode1 decode2 decode4 decodeC decodeD decodeE
  refine ⟨?_, ?_, ?_, ?_, ?_, ?_, ?_⟩
  all_goals split <;> rename_i hop
  any_goals with_reducible exact faithful_error _ _
  all_goals
    refine faithful_accept fun hz => ofNat_eq_of_toNat ?_
    simp (disch := decide) only [base_add_mul, mul_add_mul, Nat.reduceDiv, base_add_fld hz hop, div_mul_add_fld hz]

theorem and_or_form_eq_zero {w z : Code} (hz : w &&& z = 0) (hform : formOf w = 0) : w &&& (z ||| 0xC00000) = 0 := by
  have hbits : w &&& 0xC00000 = 0 := by
    rw [and_eq_zero_iff_toNat, land_eq_zero_iff_split _ _ 22]
    exact ⟨Nat.and_zero _, (Nat.and_two_pow_sub_one_eq_mod _ 2).trans hform⟩
  rw [BitVec.and_or_distrib_left, hz, hbits]
  rfl

/-- An instruction that only FORM 0 has: the FORM field is one more field of zeros. -/
theorem faithful_accept_form {w z : Code} {i : Instr} {e : Reject} (h : w &&& (z ||| 0xC00000) = 0 → encode i = w) :
    Faithful w (if formOf w = 0 then accept w z i else .error e) := by
  split
  · next hform => exact faithful_accept fun hz => h (and_or_form_eq_zero hz hform)
  · exact faithful_error _ _

theorem faithful_formTables (w : Code) : Faithful w (decode5 w) ∧ Faithful w (decode6 w) ∧ Faithful w (decodeB w) := by
  unfold decode5 decode6 decodeB
  refine ⟨?_, ?_, ?_⟩
  all_goals split <;> rename_i hop
  any_goals with_reducible exact faithful_error _ _
  any_goals with_reducible refine faithful_accept fun hz => ?_
  any_goals with_reducible refine faithful_accept_form fun hz => ?_
  all_goals
    refine ofNat_eq_of_toNat ?_
    simp (disch := decide) only [base_add_mul, mul_add_mul, Nat.reduceDiv, base_add_fld hz hop, div_mul_add_fld hz]

theorem faithful_decode7 (w : Code) : Faithful w (decode7 w) := by
  unfold decode7
  split <;> rename_i hop
  any_goals with_reducible exact faithful_error _ _
  any_goals with_reducible refine faithful_accept fun hz => ?_
  any_goals with_reducible refine faithful_accept_form fun hz => ?_
  any_goals
    refine ofNat_eq_of_toNat ?_
    simp (disch := decide) only [base_add_mul, mul_add_mul, Nat.reduceDiv, base_add_fld hz hop, div_mul_add_fld hz]
  all_goals split <;> rename_i heng
  any_goals with_reducible exact faithful_error _ _
  all_goals
    refine faithful_accept fun hz => ofNat_eq_of_toNat ?_
    simp (disch := decide) only [base_add_mul, mul_add_mul, Nat.reduceDiv,
      base_add_fld hz (div_two_pow_of_eng hop heng), div_mul_add_fld hz]

theorem faithful_vectorTables (w : Code) : Faithful w (decode8 w) ∧ Faithful w (decode9 w) ∧ Faithful w (decodeA w) := by
  unfold decode8 decode9 decodeA
  refine ⟨?_, ?_, ?_⟩
  all_goals split <;> rename_i hop
  any_goals with_reducible exact faithful_error _ _
  any_goals with_reducible refine faithful_accept fun hz => ?_
  any_goals with_reducible refine faithful_accept_form fun hz => ?_
  any_goals
    refine ofNat_eq_of_toNat ?_
    simp (disch := decide) only [base_add_mul, mul_add_mul, Nat.reduceDiv, base_add_fld hz hop, div_mul_add_fld hz]
  all_goals split <;> rename_i hform
  any_goals with_reducible exact faithful_error _ _
  all_goals
    refine faithful_accept fun hz => ofNat_eq_of_toNat ?_
    simp (disch := decide) only [base_add_mul, mul_add_mul, Nat.reduceDiv,
      base_add_fld hz (div_two_pow_of_formOf hop hform), div_mul_add_fld hz]

/-- The instruction that ANCALL with the service number `imm` is: its services are one format, told apart by the immediate
(Table 8 of R353). -/
def ancallService (d a : BitVec 5) (imm : BitVec 12) (t : BitVec 2) : Instr :=
  match imm.toNat with
  | 0x001 => .ancallBufdef d a t
  | 0x002 => .ancallBufdrop d a t
  | 0x010 => .grpopen d a t
  | 0x011 => .grpleave d a t
  | 0x012 => .grpspare d a t
  | _ => .ancallOther d a imm t

theorem encode_ancallService (d a : BitVec 5) (imm : BitVec 12) (t : BitVec 2) :
    encode (ancallService d a imm t) = encode (.ancallOther d a imm t) := by
  unfold ancallService
  split
  case h_6 => rfl
  all_goals
    next himm =>
      refine congrArg (BitVec.ofNat 32) ?_
      rw [himm]
      omega

theorem decode3_ancall {w : Code} (hop : opOf w = 0x3F) :
    decode3 w = accept w 0 (ancallService (fld w 19 5) (fld w 14 5) (fld w 2 12) (fld w 0 2)) := by
  simp only [decode3, hop]
  unfold ancallService
  split <;> simp only [*]

theorem faithful_decode3 (w : Code) : Faithful w (decode3 w) := by
  by_cases hancall : opOf w = 0x3F
  · rw [decode3_ancall hancall]
    refine faithful_accept fun hz => (encode_ancallService ..).trans (ofNat_eq_of_toNat ?_)
    simp (disch := decide) only [base_add_mul, mul_add_mul, Nat.reduceDiv, base_add_fld hz hancall, div_mul_add_fld hz]
  unfold decode3
  split <;> rename_i hop
  case h_16 => exact absurd hop hancall
  any_goals with_reducible exact faithful_error _ _
  all_goals
    refine faithful_accept fun hz => ofNat_eq_of_toNat ?_
    simp (disch := decide) only [base_add_mul, mul_add_mul, Nat.reduceDiv, base_add_fld hz hop, div_mul_add_fld hz]

theorem faithful_decodeStrand (w : Code) : Faithful w (decodeStrand w) := by
  obtain ⟨h0, h1, h2, h4, hC, hD, hE⟩ := faithful_plainTables w
  obtain ⟨h5, h6, hB⟩ := faithful_formTables w
  obtain ⟨h8, h9, hA⟩ := faithful_vectorTables w
  unfold decodeStrand
  split
  any_goals assumption
  · exact faithful_decode3 w
  · exact faithful_decode7 w
  · exact faithful_error _ _

/-! ### From an instruction to its word and back -/

theorem accept_eq_ok {w z : Code} {i j : Instr} (hz : w &&& z = 0) (hi : i = j) (hwf : j.wf = true) :
    accept w z i = .ok j := accept_eq_ok_iff.2 ⟨hz, hi ▸ hwf, hi⟩

/-- The instruction's row stands before that of `j` in the table of instructions. -/
def Instr.listedBefore (i j : Instr) : Bool := i.ctorIdx.blt j.ctorIdx

theorem decodeStrand_encode_ancall {d a : BitVec 5} {imm : BitVec 12} {t : BitVec 2}
    (hwf : (ancallService d a imm t).wf = true) :
    decodeStrand (encode (ancallService d a imm t)) = .ok (ancallService d a imm t) := by
  generalize hw : encode (ancallService d a imm t) = w
  replace hw : w = BitVec.ofNat 32 _ := hw.symm.trans (encode_ancallService ..)
  have hop : opOf w = 0x3F := by
    simp (disch := decide) only [opOf_of_eq hw, base_add_mul, mul_add_mul, mul_add_div, base_add_div,
      Nat.reduceDiv, Nat.reducePow, Nat.reduceMod]
  simp only [decodeStrand, hop, Nat.reduceDiv]
  rw [decode3_ancall hop]
  refine accept_eq_ok BitVec.and_zero ?_ hwf
  simp (disch := decide) only [fld_of_eq hw, base_add_mul, mul_add_mul, mul_add_div, ofNat_mul_add, ofNat_base_add,
    Nat.reduceDiv, Nat.reducePow, Nat.div_one]

theorem ancallService_of_not_wordless {d a : BitVec 5} {imm : BitVec 12} {t : BitVec 2}
    (hl : (Instr.ancallOther d a imm t).wordless = false) : ancallService d a imm t = .ancallOther d a imm t := by
  change (imm.toNat = 1 || imm.toNat = 2 || imm.toNat = 0x10 || imm.toNat = 0x11 || imm.toNat = 0x12) = false at hl
  unfold ancallService
  split
  case h_6 => rfl
  all_goals
    next himm => simp [himm] at hl

theorem decodeStrand_encode_scalar {i : Instr} (hwf : i.wf = true) (hl : i.wordless = false) (ht : i.isTsq = false)
    (he : i.isEvent = false) (hs : i.listedBefore (.vsetl 0 0 0 0 0 0 0 0) = true) : decodeStrand (encode i) = .ok i := by
  generalize hw : encode i = w
  cases i
  case ancallOther =>
    have hserv := ancallService_of_not_wordless hl
    exact hw ▸ hserv ▸ decodeStrand_encode_ancall (hserv ▸ hwf)
  case ancallBufdef => exact hw ▸ decodeStrand_encode_ancall (imm := 0x001) hwf
  case ancallBufdrop => exact hw ▸ decodeStrand_encode_ancall (imm := 0x002) hwf
  case grpopen => exact hw ▸ decodeStrand_encode_ancall (imm := 0x010) hwf
  case grpleave => exact hw ▸ decodeStrand_encode_ancall (imm := 0x011) hwf
  case grpspare => exact hw ▸ decodeStrand_encode_ancall (imm := 0x012) hwf
  all_goals try contradiction
  all_goals
    replace hw : w = BitVec.ofNat 32 _ := hw.symm
    simp (disch := decide) only [decodeStrand, decode0, decode1, decode2, decode3, decode4, decode5, decode6, decode7,
      opOf_of_eq hw, formOf_of_eq hw, fld_of_eq hw, base_add_mul, mul_add_mul, mul_add_div, base_add_div, ofNat_mul_add,
      ofNat_base_add, Nat.reduceDiv, Nat.reducePow, Nat.reduceMod, Nat.div_one, if_true]
    refine accept_eq_ok ?_ rfl hwf
    simp (disch := decide) only [and_eq_zero_of_eq hw, base_add_mul, mul_add_mul, mul_add_land_eq_zero,
      base_add_land_eq_zero, BitVec.reduceToNat, Nat.reduceDiv, Nat.reduceAnd]

theorem decodeStrand_encode_vector {i : Instr} (hwf : i.wf = true) (hl : i.wordless = false) (ht : i.isTsq = false)
    (he : i.isEvent = false) (hs : i.listedBefore (.vsetl 0 0 0 0 0 0 0 0) = false)
    (hm : i.listedBefore (.vld 0 0 0 0 0 0 0 0) = true) : decodeStrand (encode i) = .ok i := by
  generalize hw : encode i = w
  cases i
  all_goals try contradiction
  all_goals
    replace hw : w = BitVec.ofNat 32 _ := hw.symm
    simp (disch := decide) only [decodeStrand, decode8, decode9, decodeA, decodeB, opOf_of_eq hw, formOf_of_eq hw,
      fld_of_eq hw, base_add_mul, mul_add_mul, mul_add_div, base_add_div, ofNat_mul_add, ofNat_base_add, Nat.reduceDiv,
      Nat.reducePow, Nat.reduceMod, Nat.div_one, if_true]
    refine accept_eq_ok ?_ rfl hwf
    simp (disch := decide) only [and_eq_zero_of_eq hw, base_add_mul, mul_add_mul, mul_add_land_eq_zero,
      base_add_land_eq_zero, BitVec.reduceToNat, Nat.reduceDiv, Nat.reduceAnd]

theorem decodeStrand_encode_memory {i : Instr} (hwf : i.wf = true) (hl : i.wordless = false) (ht : i.isTsq = false)
    (he : i.isEvent = false) (hm : i.listedBefore (.vld 0 0 0 0 0 0 0 0) = false) : decodeStrand (encode i) = .ok i := by
  generalize hw : encode i = w
  cases i
  all_goals try contradiction
  all_goals
    replace hw : w = BitVec.ofNat 32 _ := hw.symm
    simp (disch := decide) only [decodeStrand, decodeC, decodeD, decodeE, opOf_of_eq hw, fld_of_eq hw, base_add_mul,
      mul_add_mul, mul_add_div, base_add_div, ofNat_mul_add, ofNat_base_add, Nat.reduceDiv, Nat.reducePow, Nat.reduceMod,
      Nat.div_one]
    refine accept_eq_ok ?_ rfl hwf
    simp (disch := decide) only [and_eq_zero_of_eq hw, base_add_mul, mul_add_mul, mul_add_land_eq_zero,
      base_add_land_eq_zero, BitVec.reduceToNat, Nat.reduceDiv, Nat.reduceAnd]

/-- Settles O14: each table's row gives back the word it read, and an instruction's fields stand where its row reads them. -/
theorem strandWordsRoundTrip : Obligations.StrandWordsRoundTrip := by
  refine ⟨fun i hwf hl ht he => ?_, faithful_decodeStrand⟩
  cases hs : i.listedBefore (.vsetl 0 0 0 0 0 0 0 0) with
  | true => exact decodeStrand_encode_scalar hwf hl ht he hs
  | false =>
    cases hm : i.listedBefore (.vld 0 0 0 0 0 0 0 0) with
    | true => exact decodeStrand_encode_vector hwf hl ht he hs hm
    | false => exact decodeStrand_encode_memory hwf hl ht he hm

end Sys2Proof
end

section
/-!
PROOFS. LIMM and its consumers (R31), NOP (R35), the scalar immediates (R341) and the jumps (R346, R347).
-/
namespace Sys2Proof.Machine

/-- Settles O5: NOP has no effect but its tokens, and LIMM's outcome is its definition. -/
theorem nopAndLimm : Obligations.NopAndLimm := by
  refine fun s imm t => ⟨fun hs => ?_, rfl⟩
  rw [exec_nop, execNop, runAhead, runInstr_ready _ _ _ _ hs, settle_done _ _ (ready_canGive hs)]

/-! ### The immediate of an SI instruction (R31) -/

/-- The integer that imm12 stands for, after a LIMM or without one. -/
def siValue (limm : Option (BitVec 24 × Word)) (imm : BitVec 12) : Int :=
  match limm with
  | none => imm.toInt
  | some l => l.1.toInt * 2 ^ 12 + imm.toNat

theorem immSI_toInt {s : State} (hfront : s.me.issued = none) (imm : BitVec 12) :
    (s.immSI imm).toInt = siValue s.me.limm imm := by
  unfold State.immSI State.limm24 siValue
  cases s.me.limm with
  | none => simp [hfront, BitVec.toInt_signExtend_of_le]
  | some l =>
    have happ : (l.1 ++ imm).toInt = l.1.toInt * 2 ^ 12 + imm.toNat := by
      rw [BitVec.toInt_append, Int.mul_comm]; rfl
    simpa [hfront, BitVec.toInt_signExtend_of_le] using happ

theorem immSI_eq_ofInt {s : State} (hfront : s.me.issued = none) (imm : BitVec 12) :
    s.immSI imm = BitVec.ofInt 64 (siValue s.me.limm imm) := by
  rw [← immSI_toInt hfront, BitVec.ofInt_toInt]

/-- MOVHI's value is a sum: the shifted register is zero where imm12 stands. -/
theorem shiftLeft_or_setWidth (x : Word) (imm : BitVec 12) :
    (x <<< 12) ||| imm.setWidth 64 = BitVec.ofNat 64 (x.toNat * 2 ^ 12 + imm.toNat) := by
  apply BitVec.eq_of_toNat_eq
  have himm : imm.toNat < 2 ^ 12 := imm.isLt
  have hhigh : x.toNat <<< 12 % 2 ^ 64 = (x.toNat % 2 ^ 52) <<< 12 := by
    rw [Nat.shiftLeft_eq, Nat.shiftLeft_eq]; omega
  rw [BitVec.toNat_or, BitVec.toNat_shiftLeft, BitVec.toNat_setWidth, BitVec.toNat_ofNat, hhigh,
    Nat.mod_eq_of_lt (show imm.toNat < 2 ^ 64 by omega), ← Nat.shiftLeft_add_eq_or_of_lt himm, Nat.shiftLeft_eq]
  omega

/-- Settles O3: each is a register write of its value, and the immediate it reads is the one LIMM and imm12 give. -/
theorem scalarImmediates : Obligations.ScalarImmediates := by
  intro s d a imm t hs hfront gives x v
  have hv : s.immSI imm = v := immSI_eq_ofInt hfront imm
  have hx : (s.immSI imm).toInt = x := immSI_toInt hfront imm
  have hreg (f : State → Word) :
      runReg t d f s = .next (((s.takeToken t).setReg d (f (s.takeToken t))).retired t) := runReg_ready hs d f
  refine ⟨?_, ?_, ?_, ?_, fun hlt => ?_, fun hle => ?_, ?_⟩
  · simp [gives, execAddi, hreg, hv]
  · simp [gives, execAndi, hreg, hv]
  · simp [gives, execOri, hreg, hv]
  · simp [gives, execXori, hreg, hv]
  · simp [gives, execSlti, hreg, hx, hlt]
  · simp [gives, execSlti, hreg, hx, Int.not_lt.2 hle]
  · simp [gives, execMovhi, hreg, shiftLeft_or_setWidth]

/-! ### Jumps (R346, R347) -/

/-- An instruction that writes the successor's address to a register and jumps, where it issues. -/
theorem runAhead_link {s : State} {t : BitVec 2} (hs : s.ready t true = true) (d : BitVec 5) (target : State → Word) :
    runAhead t (fun u => .jump (u.setReg d u.me.succ.1) (target u)) s
      = .next (((s.takeToken t).setReg d s.me.succ.1).retiredTo t (target (s.takeToken t))) := by
  rw [runAhead, runInstr_ready _ _ _ _ hs, settle_jump _ _ _ (by rw [setReg_canGive, ready_canGive hs]), takeToken_succ]

/-- The successor's address: the next slot, past LAST of an END line, or slot 1 of the line linked to (R12, R15). -/
theorem succ_fst (u : Strand) :
    u.succ.1 = if u.pc.toNat / 4 % 16 < linkLast u.link then u.pc + 4
      else if linkEnd u.link then lineOf6 u.pc + BitVec.ofNat 64 (4 * (linkLast u.link + 1))
      else u.image + BitVec.ofNat 64 (64 * (u.link.toNat % 2 ^ 24) + 4) := by
  unfold Strand.succ
  dsimp only
  split
  · rfl
  · split <;> rfl

theorem decodeStrand_jr_nonzeroField {c : Code} (hop : opOf c = 0x36) (hz : c &&& 0x3FFC ≠ 0) :
    decodeStrand c = .error .nonzeroField := by
  simp only [decodeStrand, decode3, hop, accept, Nat.reduceDiv, if_pos hz]

/-- Settles O7: a jump to the target, with the successor's address written by CALL and JR. -/
theorem jumps : Obligations.Jumps := by
  intro s d a o slot t hs w line tgt last next
  have hnext : s.me.succ.1 = next := succ_fst s.me
  refine ⟨?_, ?_, ?_, fun c => decodeStrand_jr_nonzeroField⟩
  · rw [exec_jmp, execJmp, runAhead, runInstr_ready _ _ _ _ hs, settle_jump _ _ _ (ready_canGive hs), takeToken_target]
    rfl
  · rw [exec_call, execCall, runAhead_link hs, takeToken_target, hnext]
    rfl
  · rw [exec_jr, execJr, runAhead_link hs, takeToken_reg, hnext]

end Sys2Proof.Machine
end

section
/-!
PROOFS. Words of the formats, reserved OP bytes (R36, R37), and the traps that the front end takes (R14, R15, R378, R386).
-/
namespace Sys2Proof

/-- Settles O16: each word decodes by evaluation of its table's row. -/
theorem sampleWords : Obligations.SampleWords := by
  refine ⟨?_, ?_, ?_, ?_, ?_, ?_, ?_, ?_⟩ <;> rfl

/-- Table 6's reserved OP bytes are the ones that no row of their table names. -/
theorem decodeStrand_reserved {w : Code}
    (ho : (0x2C ≤ opOf w ∧ opOf w ≤ 0x2F) ∨ opOf w = 0x7E ∨ opOf w = 0x7F ∨ (0xBB ≤ opOf w ∧ opOf w ≤ 0xBF) ∨ opOf w = 0xCF
      ∨ (0xDD ≤ opOf w ∧ opOf w ≤ 0xDF) ∨ 0xEB ≤ opOf w) : decodeStrand w = .error .reservedOpcode := by
  unfold decodeStrand
  split
  case h_3 =>
    unfold decode2
    split
    case h_13 => rfl
    all_goals omega
  case h_8 =>
    unfold decode7
    split
    case h_15 => rfl
    all_goals omega
  case h_12 =>
    unfold decodeB
    split
    case h_12 => rfl
    all_goals omega
  case h_13 =>
    unfold decodeC
    split
    case h_16 => rfl
    all_goals omega
  case h_14 =>
    unfold decodeD
    split
    case h_14 => rfl
    all_goals omega
  case h_15 =>
    unfold decodeE
    split
    case h_12 => rfl
    all_goals omega
  case h_16 => rfl
  all_goals omega

end Sys2Proof

namespace Sys2Proof.Machine

/-- A trap at the front end with nothing older outstanding (R338, R379). -/
theorem trapped_front {s : State} (hfront : s.me.issued = none) (hold : s.me.older = false) (r : TrapReq) :
    s.trapped r = { s with me := s.me.enterTrap r, waiting := false } := by
  simp [State.trapped, Strand.underWay, hfront, hold]

theorem instrPc_front {u : Strand} (hfront : u.issued = none) :
    u.instrPc = (u.limm.map (fun l => l.2)).getD u.pc := by
  unfold Strand.instrPc
  rw [hfront]
  cases u.limm <;> rfl

/-- Settles O17: the tables have no row for these bytes, and the word's trap is the trap state of R379. -/
theorem reservedOpcodes : Obligations.ReservedOpcodes := by
  refine ⟨fun w => decodeStrand_reserved, fun s w hfront hold => ?_⟩
  rw [exec_illegalInstructionWord, execIllegalInstructionWord, State.takeTrap, trapped_front hfront hold]
  exact ⟨_, rfl, rfl, rfl, rfl, rfl, rfl, rfl, rfl, rfl⟩

/-! ### A fetch that fails (R14, R15) -/

theorem execFetchFault_stopped {s : State} (hrun : s.me.run ≠ .running) : exec .fetchFault s = .next s := by
  rw [exec_fetchFault, execFetchFault, if_pos hrun]

/-- A fetch that fails where the strand can take its trap. -/
theorem execFetchFault_fault {s t : State} {c : Nat} {v : Word} (hrun : s.me.run = .running) (hf : s.fetch = .fault t c v)
    (hold : t.me.older = false) :
    exec .fetchFault s = if t.me.atVec then .next { t.enterDouble c v with waiting := true }
      else t.takeTrap { cause := c, val := v, pc := if t.me.limm.isSome && !t.me.fellOff then none else some t.me.pc } := by
  simp [execFetchFault, hrun, hf, hold]

/-- DOUBLE changes nothing of the strand but that it no longer runs (R386). -/
theorem enterDouble_me {s : State} (hl : s.me.live = true) (c : Nat) (v : Word) :
    (s.enterDouble c v).me = { s.me with run := .double } := by
  simp [State.enterDouble, State.mapStrand, State.mapStrands, State.logStrand, State.logEvent, hl]

/-- TRAPPC of a failed fetch: the LIMM before the instruction, but past slot LAST the address there (R15, R33). -/
theorem fetchFault_trapPc {u : Strand} (hfront : u.issued = none) :
    (if u.limm.isSome && !u.fellOff then none else some u.pc).getD u.instrPc
      = (match u.limm with
        | some l => if u.fellOff then u.pc else l.2
        | none => u.pc) := by
  rw [instrPc_front hfront]
  cases u.limm with
  | none => rfl
  | some l => cases u.fellOff <;> rfl

/-- Settles O18: the fetch's fault is a trap of the front end or DOUBLE, and the engine fault a trap at an instruction boundary. -/
theorem fetchAndAsyncTraps : Obligations.FetchAndAsyncTraps := by
  intro s hfront hold
  refine ⟨execFetchFault_stopped, fun t c v hrun hf hme hvec => ?_, fun t c v hrun hf hme hl hvec => ?_,
    fun n rest hfaults hpm hlimm hsig => ?_⟩
  · rw [execFetchFault_fault hrun hf (hme ▸ hold), hme, if_neg (by simp [hvec]), State.takeTrap,
      trapped_front (hme ▸ hfront) (hme ▸ hold), hme]
    exact ⟨_, rfl, rfl, rfl, rfl, fetchFault_trapPc hfront, rfl, rfl⟩
  · rw [execFetchFault_fault hrun hf (hme ▸ hold), hme, if_pos hvec]
    exact ⟨_, rfl, (enterDouble_me (hme ▸ hl) c v).trans (by rw [hme])⟩
  · have hexec : exec .engineFaultTrap s = { s with me := { s.me with asyncFaults := rest } }.takeTrap
        { cause := causeEngine, val := BitVec.ofNat 64 n, async := true } := by
      simp [execEngineFaultTrap, hfaults, hpm, hfront, hsig, hold]
    rw [hexec, State.takeTrap, trapped_front (s := { s with me := { s.me with asyncFaults := rest } }) hfront hold]
    refine ⟨_, rfl, rfl, rfl, rfl, ?_, rfl, rfl, rfl⟩
    exact (instrPc_front hfront).trans (by rw [hlimm]; rfl)

/-! ### A step of the front-end strand (R13, R334) -/

theorem performAll_of_ssq_nil {s : State} (h : s.me.ssq = []) : s.performAll = s := by
  simp [State.performAll, h]

theorem logFull_of_le {u : Strand} {n m : Nat} (hle : n ≤ m) (h : u.logFull m = false) : u.logFull n = false := by
  simp only [Strand.logFull, Bool.and_eq_false_imp, decide_eq_false_iff_not] at h ⊢
  intro hold
  have := h hold
  omega

/-- A step is the front-end strand's turn when nothing else is due (Step.lean). -/
theorem step_eq_takeTurn {s : State} (hagenda : s.agenda = []) (hpower : s.anchor.powered = true) (hdue : s.due = false) :
    step s = readied ({ s with turns := s.turns + 1 }.takeTurn false) := by
  simp [step, State.act, hagenda, hpower, hdue]

theorem takeTurn_issued {s : State} {e : DqEntry} (hissued : s.me.issued = some e) (enter : Bool) :
    s.takeTurn enter = settled (exec e.instr s) := by
  simp [State.takeTurn, State.turn, hissued]

/-- A turn at the front end whose fetch answers an instruction's word. -/
theorem turn_word {s u : State} {link : BitVec 32} {w : Code} {i : Instr} (hfront : s.me.issued = none)
    (hstop : s.stopped s.me = false) (hsig : s.me.sigPend = none) (hssq : s.me.ssq = []) (hlog : s.me.logFull 1 = false)
    (hfetch : s.fetch = .word u link w) (hdec : decodeStrand w = .ok i) (enter : Bool) :
    s.turn enter = { u with me := { u.me with link := link, held := none, anchorHold := false } }.frontInstr i w enter := by
  simp [State.turn, State.front, hfront, hstop, hsig, performAll_of_ssq_nil hssq, hlog, hfetch, hdec]

/-- An instruction with no decode cause, no engine fault to take first and no operand to wait for. -/
theorem frontInstr_go {r : State} {i : Instr} {w : Code} (hcause : r.decodeCause i w = none)
    (hasync : r.me.asyncFaults = [] ∨ r.me.pm = true) (hawaits : r.me.awaits w (isVector i) = false)
    (hlog : r.me.logFull 2 = false) (enter : Bool) :
    r.frontInstr i w enter = if isVector i then r.frontVector i enter else .run i r := by
  have hlog' : r.me.logFull (if flagging w then 2 else 1) = false :=
    logFull_of_le (by split <;> omega) hlog
  have hnone : (!r.me.asyncFaults.isEmpty && !r.me.pm && !Instr.isLimm i) = false := by
    rcases hasync with h | h <;> simp [h]
  simp [State.frontInstr, hcause, hnone, hawaits, hlog']

/-- With nothing before it a vector instruction enters the DQ, and its unit's arbiter holds a round (R334). -/
theorem frontVector_issues {r : State} {i : Instr} {e : DqEntry} (hold : r.me.older = false)
    (hpick : ((r.enterDq i).holdRound r.me.core (toVlsu i)).me.issued = some e) :
    r.frontVector i false = .run e.instr ((r.enterDq i).holdRound r.me.core (toVlsu i)) := by
  have hdq : r.me.dq = [] := by
    simp only [Strand.older, Bool.or_eq_false_iff, Bool.not_eq_false', List.isEmpty_iff] at hold
    exact hold.1.1
  simp [State.frontVector, hdq, hold, hpick]

/-- Settles O19: nothing else being due, the step is the turn, and the turn comes to the decoded instruction. -/
theorem stepRunsDecoded : Obligations.StepRunsDecoded := by
  intro s hagenda hpower hdue t
  have hstep : step s = readied (t.takeTurn false) := step_eq_takeTurn hagenda hpower hdue
  refine ⟨fun e hissued => hstep.trans (congrArg readied (takeTurn_issued (s := t) hissued false)), ?_⟩
  intro hfront hstop hsig hssq hlog hasync u link w i hfetch hme hdec r hcause hawaits
  have hr : r.me = { s.me with link := link, held := none, anchorHold := false } := by
    show ({ u.me with link := link, held := none, anchorHold := false } : Strand) = _
    rw [hme]
  have hturn : t.turn false = if isVector i then r.frontVector i false else .run i r :=
    (turn_word (s := t) hfront hstop hsig hssq (logFull_of_le (by omega) hlog) hfetch hdec false).trans
      (frontInstr_go hcause (by rw [hr]; exact hasync) hawaits (by rw [hr]; exact hlog) false)
  refine ⟨fun hvec => ?_, fun hvec hold e hpick => ?_⟩
  · rw [hstep, State.takeTurn, hturn, if_neg (by simp [hvec])]
  · have hold' : r.me.older = false := by rw [hr]; exact hold
    rw [hstep, State.takeTurn, hturn, if_pos hvec, frontVector_issues hold' hpick]

end Sys2Proof.Machine
end

section
/-!
PROOFS. MAPSET ALLOC and a core that is listed twice (R89, R413).
-/
namespace Sys2Proof.Machine

/-! ### Allocation writes the lines of its chunks (R89) -/

/-- No channel has a scrub or a read to make first. -/
def State.idleBanks (s : State) : Prop := ∀ g, (s.chan g).scrub = [] ∧ (s.chan g).queue = []

theorem openFor_scrub_queue (c : Channel) (threshold bank row : Nat) :
    (c.openFor threshold bank row).scrub = c.scrub ∧ (c.openFor threshold bank row).queue = c.queue := by
  unfold Channel.openFor
  split
  · exact ⟨rfl, rfl⟩
  · dsimp only
    split <;> exact ⟨rfl, rfl⟩

theorem idleBanks_of_all {s : State} (h : s.chans.all (fun c => c.2.scrub.isEmpty && c.2.queue.isEmpty) = true) :
    s.idleBanks := by
  intro g
  cases hg : s.chans.lookup g with
  | none => simp [State.chan, look, hg]
  | some c =>
    obtain ⟨l, r, hchans, -⟩ := List.lookup_eq_some_iff.1 hg
    have hmem := List.all_eq_true.1 h (g, c) (by simp [hchans])
    simpa [State.chan, look, hg] using hmem

theorem idleBanks_updChan {s : State} (h : s.idleBanks) (g : Nat) (f : Channel → Channel)
    (hf : ∀ c, (f c).scrub = c.scrub ∧ (f c).queue = c.queue) : (s.updChan g f).idleBanks := by
  intro k
  by_cases hk : k = g
  · subst hk
    have hchan : (s.updChan k f).chan k = f (s.chan k) := look_put_same ..
    rw [hchan, (hf _).1, (hf _).2]
    exact h k
  · have hchan : (s.updChan g f).chan k = s.chan k := look_put_other _ _ _ _ _ hk
    rw [hchan]
    exact h k

theorem drainBank_of_idleBanks {s : State} (h : s.idleBanks) (g bank : Nat) : s.drainBank g bank = s := by
  have hscrub : s.scrubFor g bank = s := by simp [State.scrubFor, (h g).1]
  simp [State.drainBank, hscrub, (h g).2]

theorem putBank_of_idleBanks {s : State} (h : s.idleBanks) (p : Nat) (d : Line) (t : Tag) :
    (s.putBank p d t).idleBanks ∧ (s.putBank p d t).mem = memPutLine s.mem (128 * p) d fullMask := by
  unfold State.putBank
  rw [drainBank_of_idleBanks h]
  refine ⟨?_, putRaw_mem ..⟩
  have hopen := idleBanks_updChan h (chanOf p) (fun c => { c with
    bank := del c.bank (p % 2 ^ 25), l2 := c.l2.filter (fun l => l.off != p % 2 ^ 25) }.openFor s.anchor.actThreshold
      (bankOf p) (rowOf p)) (fun c => openFor_scrub_queue _ _ _ _)
  intro g
  rw [State.chan, State.putRaw, setTag_chans]
  exact hopen g

theorem memGet_foldl_putBank (line : Nat → Nat) (d : Line) (t : Tag) (b : Nat) (l : List Nat)
    (hb : ∀ i ∈ l, b / 128 ≠ line i) :
    ∀ s : State, s.idleBanks → memGet (l.foldl (fun s i => s.putBank (line i) d t) s).mem b = memGet s.mem b := by
  induction l with
  | nil => exact fun _ _ => rfl
  | cons i l ih =>
    intro s h
    obtain ⟨hidle, hmem⟩ := putBank_of_idleBanks h (line i) d t
    have hi := hb i (List.mem_cons_self ..)
    rw [List.foldl_cons, ih (fun j hj => hb j (List.mem_cons_of_mem _ hj)) _ hidle, hmem]
    exact memGet_memPutLine_other _ _ _ _ _ (by omega)

/-- A byte outside the chunks after a mapping is what writing the segment's L1 lines back has left. -/
theorem memGet_mapSegment {s : State} {vf iseg lw pw : Nat} {chunks : List Nat} {v : Vf} (hv : s.vf? vf = some v) {b : Nat} :
    let w := (s.updPart v.part (fun p => { p with used := p.used ++ chunks })).dropSegL1 vf iseg
    w.idleBanks → (∀ i, i < 128 * chunks.length → b / 128 ≠ (w.part v.part).chunkLine chunks i) →
      memGet (s.mapSegment vf iseg lw pw chunks).mem b = memGet w.mem b := by
  intro w hidle hb
  have hinit : memGet (w.initChunks v.part chunks (packing lw pw)).mem b = memGet w.mem b :=
    memGet_foldl_putBank _ _ _ b _ (fun i hi => hb i (List.mem_range.1 hi)) w hidle
  rw [← hinit]
  simp only [State.mapSegment, hv]
  simp [State.breakSegLinks, State.mapStrands, w]

/-- An ALLOC that finds no lock, no segment and room (R413). -/
theorem mapset_alloc {d a b c : BitVec 5} {s : State} {v : Vf} {iseg lw pw : Nat} {chunks : List Nat}
    (hrange : (s.reg a).toNat < 2 ^ 52) (hseg : (s.reg a).toNat / 2 ^ 18 = iseg) (hop : (s.reg b).toNat = 2)
    (hlock : s.segLocked s.me.vf iseg = false) (hv : s.vf? s.me.vf = some v)
    (hwidths : allocWidths (s.reg c).toNat = some (lw, pw)) (hnone : v.segs.lookup iseg = none)
    (hroom : s.aboveReserve s.me.part (chunksOf lw pw) = some chunks) :
    mapset d a b c s = privStatus d 0 (s.mapSegment s.me.vf iseg lw pw chunks) := by
  have hbad : ¬(2 ^ 52 ≤ (s.reg a).toNat ∨ 3 < (s.reg b).toNat) := by omega
  unfold mapset
  dsimp only
  rw [hseg, if_neg hbad]
  simp [hlock, hv, hop, hwidths, hnone, hroom]

theorem memAfter_setReg_retires (u : State) (d : BitVec 5) (x : Word) (t : BitVec 2) :
    memAfter (.next ((u.setReg d x).retires t)) = u.mem := retires_mem (u.setReg d x) t

/-! ### The counterexample -/

/-- Core 0 is listed twice, and every access finds the first entry alone: its L1 holds a dirty byte of segment 0. The second
entry lists a line of segment 1 under the same key. The strand is in P-mode, and s1, s2 and s3 ask for an ALLOC of segment 1 with
LW 16 and PW 2. -/
def hiddenEntry : State :=
  { State.reset with
    me := { State.reset.me with pm := true, regs := (((Vector.replicate 32 0).set 1 0x40000).set 2 2).set 3 3 }
    vfs := [(0, loadVf)]
    parts := [(0, loadPart)]
    cores := [(0, { l1 := [{ key := 0, page := loadTlb, line := 0, data := 1, dirty := 1 }] }),
              (0, { l1 := [{ key := 0, page := { loadTlb with iseg := 1 }, line := 0 }] })] }

/-- The same with the segment's chunks taken and its listed L1 lines written back. -/
def hiddenEntryDropped : State :=
  (hiddenEntry.updPart 0 (fun p => { p with used := p.used ++ [16, 17] })).dropSegL1 0 1

theorem hiddenEntry_ready : hiddenEntry.ready 0 false = true := by decide +kernel

theorem hiddenEntry_room : (hiddenEntry.part 0).reserveNow + 2 ≤ (hiddenEntry.part 0).freeCount
    ∧ (hiddenEntry.part 0).chooseChunks 2 = [16, 17] := by decide +kernel

theorem hiddenEntry_banksQuiet : hiddenEntry.banksQuiet := fun _ => ⟨rfl, rfl, fun _ _ h => nomatch h⟩

/-- No L1 line that an access finds is of segment 1. -/
theorem hiddenEntry_l1 (c : Nat) (l : L1Line) (hl : l ∈ (hiddenEntry.core c).l1) : l.page.iseg ≠ 1 := by
  by_cases hc : c = 0
  · subst hc
    obtain rfl := List.mem_singleton.1 hl
    decide
  · have hcore : hiddenEntry.core c = {} := by
      simp [State.core, look, hiddenEntry, List.lookup_cons, beq_eq_false_iff_ne.2 hc]
    rw [hcore] at hl
    cases hl

/-- The first entry's dirty byte has gone home, and the chunks of the new segment are elsewhere. -/
theorem hiddenEntryDropped_byte : memGet hiddenEntryDropped.mem 0 = 1 := by decide +kernel

theorem hiddenEntryDropped_chans :
    hiddenEntryDropped.chans.all (fun c => c.2.scrub.isEmpty && c.2.queue.isEmpty) = true := by decide +kernel

theorem hiddenEntryDropped_chans_part : (hiddenEntryDropped.part 0).chans = [0] := by decide +kernel

/-- In a partition of channel 0 alone, chunks 16 and 17 stand above line 0. -/
theorem chunkLine_ne_zero {p : Part} (hp : p.chans = [0]) (i : Nat) (hi : i < 256) : p.chunkLine [16, 17] i ≠ 0 := by
  have hget : 16 ≤ [16, 17].getD (i / 128) 0 := by
    rcases (show i / 128 = 0 ∨ i / 128 = 1 by omega) with h | h <;> simp [h]
  simp only [Part.chunkLine, Part.phys, hp, List.length_singleton, Nat.mod_one, Nat.div_one, List.getD_cons_zero]
  omega

theorem memGet_mapSegment_hiddenEntry : memGet (hiddenEntry.mapSegment 0 1 16 2 [16, 17]).mem 0 = 1 := by
  have hv : hiddenEntry.vf? 0 = some loadVf := rfl
  rw [← hiddenEntryDropped_byte]
  exact memGet_mapSegment hv (idleBanks_of_all hiddenEntryDropped_chans)
    (fun i hi => (chunkLine_ne_zero hiddenEntryDropped_chans_part i hi).symm)

theorem mapset_hiddenEntry : mapset 4 1 2 3 hiddenEntry = privStatus 4 0 (hiddenEntry.mapSegment 0 1 16 2 [16, 17]) := by
  obtain ⟨hroom, hchunks⟩ := hiddenEntry_room
  have hfree : hiddenEntry.aboveReserve 0 2 = some [16, 17] := by rw [State.aboveReserve, if_pos hroom, hchunks]
  have hwidths : allocWidths (hiddenEntry.reg 3).toNat = some (16, 2) := by decide +kernel
  exact mapset_alloc (v := loadVf) (by decide +kernel) (by decide +kernel) (by decide +kernel) (by decide +kernel) rfl hwidths
    rfl hfree

theorem exec_mapsetAlloc_hiddenEntry : exec (.mapsetAlloc 4 1 2 3 0) hiddenEntry
    = .next (((hiddenEntry.mapSegment 0 1 16 2 [16, 17]).setReg 4 0).retires 0) :=
  runInstr_retires hiddenEntry_ready mapset_hiddenEntry

/-- Refutes O54, in its last clause on ALLOC: nothing keeps the table of cores from listing a core twice. The premise on L1
lines sees the entry that a core's number finds, and the mapping goes through every entry: in `hiddenEntry` it writes back a dirty
line of segment 0, and byte 0, outside the new chunks, changes. -/
theorem not_segmentsAndReports : ¬ Obligations.SegmentsAndReports := by
  intro h
  obtain ⟨-, -, -, hpriv⟩ := h hiddenEntry 4 1 2 3 0 hiddenEntry_ready
  obtain ⟨-, -, hmapset, -⟩ := hpriv rfl
  obtain ⟨-, -, -, hfound⟩ := hmapset (.mapsetAlloc 4 1 2 3 0) (by simp)
  obtain ⟨-, -, -, halloc⟩ := hfound (by decide +kernel) (by decide +kernel) loadVf rfl
  obtain ⟨hroom, hchunks⟩ := hiddenEntry_room
  obtain ⟨-, -, hmaps⟩ := (halloc (by decide +kernel)).2 16 2 (by decide +kernel)
  obtain ⟨u, hexec, -, -, hframe⟩ := hmaps rfl hroom
  have hmem : u.mem = (hiddenEntry.mapSegment 0 1 16 2 [16, 17]).mem := by
    rw [← memAfter_setReg_retires u 4 _ 0, ← hexec, exec_mapsetAlloc_hiddenEntry, memAfter_setReg_retires]
  have houtside : ∀ j, j < 128 * ((hiddenEntry.part 0).chooseChunks 2).length →
      0 / 128 ≠ (hiddenEntry.part 0).chunkLine ((hiddenEntry.part 0).chooseChunks 2) j := by
    rw [hchunks]
    exact fun j hj => (chunkLine_ne_zero rfl j hj).symm
  have hkept := hframe hiddenEntry_banksQuiet rfl (fun c l hl _ => hiddenEntry_l1 c l hl) 0 houtside
  rw [hmem, memGet_mapSegment_hiddenEntry] at hkept
  exact absurd hkept (by decide +kernel)

end Sys2Proof.Machine
end

section
/-!
PROOFS. The exceptions of scalar float operations (R75, R343, R344).
-/
namespace Sys2Proof.Machine

@[simp] theorem takeToken_fval (s : State) (t : BitVec 2) (g : Fmt) (r : BitVec 5) : (s.takeToken t).fval g r = s.fval g r := by
  simp [State.fval]

@[simp] theorem takeToken_scalarRounding (s : State) (t m : BitVec 2) : (s.takeToken t).scalarRounding m = s.scalarRounding m := by
  simp [State.scalarRounding]

/-- Code and flags of a conversion (Table 6 of R344). -/
def sfcvtResult (s : State) (a v : BitVec 5) (f m : BitVec 2) : Nat × Nat :=
  let r := s.scalarRounding m
  let src := s.fval (ffmt f) a
  match v.toNat with
  | 4 => toIntSat (fixedFmt 11) r src
  | 5 => toIntSat (fixedFmt 17) r src
  | 6 => roundTo (ffmt f) 127 r (.ofInt (s.reg a).toInt)
  | 7 => roundTo (ffmt f) 127 r (.ofInt (s.reg a).toNat)
  | k => ((roundTo (fixedFmt (k + 1)) 127 r src).1,
      (roundTo (fixedFmt (k + 1)) 127 r src).2 ||| (match src with | .nan true => flagNV | _ => 0))

theorem takeToken_sfcvtResult (s : State) (t : BitVec 2) (a v : BitVec 5) (f m : BitVec 2) :
    sfcvtResult (s.takeToken t) a v f m = sfcvtResult s a v f m := by
  simp only [sfcvtResult, takeToken_fval, takeToken_scalarRounding, takeToken_reg]

section
variable {s : State} {t : BitVec 2} (hfront : s.me.issued = none) (hold : s.me.older = false) (hready : s.ready t true = true)

/-- What an enabled flag of a scalar float operation does: FP_EXCEPTION at (0, 0), registers and FCSR as they were (R75, R379). -/
def State.fpTraps (s : State) (o : Out) (enabled : Nat) : Prop :=
  ∃ u, o = .next u ∧ u.me.trapCause = 0x0F ∧ u.me.trapVal = BitVec.ofNat 64 enabled
    ∧ u.me.trapElem = BitVec.ofNat 64 (2 ^ 31) ∧ u.me.pc = s.me.trapVec ∧ u.me.regs = s.me.regs ∧ u.me.fcsr = s.me.fcsr

include hfront hold hready

/-- A float result with an enabled flag is not written. -/
theorem runAhead_floatResult_fpTraps {body : State → Eff} {d : BitVec 5} {code flags : Nat}
    (hbody : body (s.takeToken t) = floatResult d code flags (s.takeToken t)) (henabled : trapFlags s.me.fcsr flags ≠ 0) :
    s.fpTraps (runAhead t body s) (trapFlags s.me.fcsr flags) := by
  have htrap : runAhead t body s = .next ((s.takeToken t).trapped
      { cause := causeFp, val := BitVec.ofNat 64 (trapFlags s.me.fcsr flags), isElem := true }) := by
    unfold runAhead
    rw [runInstr_ready t true body s hready, hbody]
    simp only [floatResult, takeToken_fcsr, if_pos henabled]
    rfl
  rw [trapped_front (by rw [takeToken_issued, hfront]) (by rw [takeToken_older, hold])] at htrap
  refine ⟨_, htrap, rfl, rfl, ?_, ?_, ?_, ?_⟩
  · simp [Strand.enterTrap]
  · exact takeToken_trapVec s t
  · exact takeToken_regs s t
  · exact takeToken_fcsr s t

/-- An operation rounded once, the flags of the operation and of its rounding together. -/
theorem floatOp_fpTraps (op : State → Nat → Num × Nat) (d : BitVec 5) (f m : BitVec 2)
    (hop : op (s.takeToken t) = op s) :
    let r := s.scalarRounding m
    let flags := (op s r.rm).2 ||| (roundTo (ffmt f) 127 r (op s r.rm).1).2
    trapFlags s.me.fcsr flags ≠ 0 → s.fpTraps (floatOp op d f m t s) (trapFlags s.me.fcsr flags) := by
  intro r flags
  refine runAhead_floatResult_fpTraps hfront hold hready (d := d) (code := (roundTo (ffmt f) 127 r (op s r.rm).1).1) ?_
  simp only [takeToken_scalarRounding, hop]
  rfl

/-- Minimum and maximum. -/
theorem floatMinMax_fpTraps (max : Bool) (d a b : BitVec 5) (f : BitVec 2) :
    let flags := (Num.minmax max (s.fval (ffmt f) a) (s.fval (ffmt f) b)).2
    trapFlags s.me.fcsr flags ≠ 0 → s.fpTraps (floatMinMax max d a b f t s) (trapFlags s.me.fcsr flags) := by
  refine runAhead_floatResult_fpTraps hfront hold hready (d := d)
    (code := (roundTo (ffmt f) 127 ⟨0, 0, false⟩ (Num.minmax max (s.fval (ffmt f) a) (s.fval (ffmt f) b)).1).1) ?_
  simp only [takeToken_fval]

/-- Compares. -/
theorem sfcmp_fpTraps (d a b : BitVec 5) (m f : BitVec 2) :
    let flags := (relation m.toNat (s.fval (ffmt f) a) (s.fval (ffmt f) b)).2
    trapFlags s.me.fcsr flags ≠ 0 → s.fpTraps (execSfcmp d a b m f t s) (trapFlags s.me.fcsr flags) := by
  refine runAhead_floatResult_fpTraps hfront hold hready (d := d)
    (code := (relation m.toNat (s.fval (ffmt f) a) (s.fval (ffmt f) b)).1.toNat) ?_
  simp only [takeToken_fval]

/-- Conversions. -/
theorem sfcvt_fpTraps (d a v : BitVec 5) (f m : BitVec 2) :
    let flags := (sfcvtResult s a v f m).2
    trapFlags s.me.fcsr flags ≠ 0 → s.fpTraps (execSfcvt d a v f m t s) (trapFlags s.me.fcsr flags) := by
  refine runAhead_floatResult_fpTraps hfront hold hready (d := d) (code := (sfcvtResult s a v f m).1) ?_
  show floatResult d (sfcvtResult (s.takeToken t) a v f m).1 (sfcvtResult (s.takeToken t) a v f m).2 _ = _
  rw [takeToken_sfcvtResult]

end

/-- Settles O13: each operation ends in a float result, which an enabled flag turns into the trap. -/
theorem scalarFloatTrap : Obligations.ScalarFloatTrap := by
  intro s d a b v f m t hfront hold hready
  refine ⟨?add, ?sub, ?mul, ?div, ?fma, ?sqrt, ?min, ?max, ?cmp, ?cvt⟩
  case add => exact floatOp_fpTraps hfront hold hready (fun s rm => (s.fval (ffmt f) a).add rm (s.fval (ffmt f) b)) d f m (by simp)
  case sub => exact floatOp_fpTraps hfront hold hready (fun s rm => (s.fval (ffmt f) a).sub rm (s.fval (ffmt f) b)) d f m (by simp)
  case mul => exact floatOp_fpTraps hfront hold hready (fun s _ => (s.fval (ffmt f) a).mul (s.fval (ffmt f) b)) d f m (by simp)
  case div => exact floatOp_fpTraps hfront hold hready (fun s _ => (s.fval (ffmt f) a).div (s.fval (ffmt f) b)) d f m (by simp)
  case fma =>
    exact floatOp_fpTraps hfront hold hready
      (fun s rm => (s.fval (ffmt f) a).fma rm (s.fval (ffmt f) b) (s.fval (ffmt f) d)) d f m (by simp)
  case sqrt => exact floatOp_fpTraps hfront hold hready (fun s _ => (s.fval (ffmt f) a).sqrt) d f m (by simp)
  case min => exact floatMinMax_fpTraps hfront hold hready false d a b f
  case max => exact floatMinMax_fpTraps hfront hold hready true d a b f
  case cmp => exact sfcmp_fpTraps hfront hold hready d a b m f
  case cvt => exact sfcvt_fpTraps hfront hold hready d a v f m

end Sys2Proof.Machine
end

section
/-!
PROOFS. Element-wise vector instructions (R180, R263, R266).
-/
namespace Sys2Proof.Machine

/-- An instruction with its element-wise reading: where the groups are legal and the reading gives some row a tag, the instruction
is that element-wise run. -/
structure RunsElementwise (s : State) (t : BitVec 2) (d : BitVec 5) (k : BitVec 3) (p : Instr × Elementwise) : Prop where
  steady : p.2.Steady
  dest : p.2.d = d
  mask : p.2.k = k
  runs : s.me.vtypeIll (p.2.d :: p.2.srcs) = false → (∀ v ∈ p.2.srcs, s.me.straddle p.2.d v = false) →
    (∃ r g, p.2.rowTag (s.takeToken t) r (p.2.tagsAt (s.takeToken t) r) = .ok g) →
    ∃ word body, exec p.1 s = runOrdered t body s ∧ body (s.takeToken t) = elementwise word p.2 (s.takeToken t)

section
variable {s : State} {t : BitVec 2} {d : BitVec 5} {k : BitVec 3}

/-- Most element-wise instructions are their run without further checks. -/
theorem runsElementwise_of_exec {i : Instr} {x : Elementwise} {word : Word} {body : State → Eff} (steady : x.Steady)
    (hexec : exec i s = runOrdered t body s) (hbody : body (s.takeToken t) = elementwise word x (s.takeToken t))
    (dest : x.d = d) (mask : x.k = k) : RunsElementwise s t d k (i, x) :=
  ⟨steady, dest, mask, fun _ _ _ => ⟨word, body, hexec, hbody⟩⟩

theorem arithForms_runElementwise {vv vs vi : BitVec 5 → BitVec 5 → BitVec 5 → BitVec 3 → BitVec 2 → BitVec 2 → Instr} {o : ArithOp}
    {op : Nat} {a b : BitVec 5} {m : BitVec 2} (hvv : exec (vv d a b k m t) s = arithV o 0 (srcVV b) op d a b k m t s)
    (hvs : exec (vs d a b k m t) s = arithV o 1 (srcVS b) op d a b k m t s)
    (hvi : exec (vi d a b k m t) s = arithV o 2 (srcVI b) op d a b k m t s) :
    ∀ p ∈ arithForms vv vs vi o d a b k m t (s.takeToken t), RunsElementwise s t d k p := by
  simp only [arithForms, List.forall_mem_cons]
  exact ⟨runsElementwise_of_exec (arithX_steady ..) hvv rfl rfl rfl, runsElementwise_of_exec (arithX_steady ..) hvs rfl rfl rfl,
    runsElementwise_of_exec (arithX_steady ..) hvi rfl rfl rfl, fun _ h => nomatch h⟩

theorem bitForms_runElementwise {vv vs vi : BitVec 5 → BitVec 5 → BitVec 5 → BitVec 3 → BitVec 2 → Instr} {x : Src → Elementwise}
    {word₀ word₁ word₂ : Word} {a b : BitVec 5} (steady : ∀ y, (x y).Steady) (dest : ∀ y, (x y).d = d) (mask : ∀ y, (x y).k = k)
    (hvv : exec (vv d a b k t) s = runOrdered t (fun s => elementwise word₀ (x (srcVV b s)) s) s)
    (hvs : exec (vs d a b k t) s = runOrdered t (fun s => elementwise word₁ (x (srcVS b s)) s) s)
    (hvi : exec (vi d a b k t) s = runOrdered t (fun s => elementwise word₂ (x (srcVI b s)) s) s) :
    ∀ p ∈ bitForms vv vs vi x d a b k t (s.takeToken t), RunsElementwise s t d k p := by
  simp only [bitForms, List.forall_mem_cons]
  exact ⟨runsElementwise_of_exec (steady _) hvv rfl (dest _) (mask _), runsElementwise_of_exec (steady _) hvs rfl (dest _) (mask _),
    runsElementwise_of_exec (steady _) hvi rfl (dest _) (mask _), fun _ h => nomatch h⟩

/-- VCLASS checks its groups and the width of its slots before it runs (R280); its row tag says that they are wide enough. -/
theorem vclass_runsElementwise (a : BitVec 5) : RunsElementwise s t d k (.vclass d a k t, classX d a k) := by
  refine ⟨classX_steady .., rfl, rfl, fun hill hstraddle ⟨r, g, htag⟩ => ⟨wordV 0x88 0 d a 0 k 0 t, _, rfl, ?_⟩⟩
  have hwide : ¬(s.takeToken t).me.sewBits < 16 := fun h => by simp [classX, h] at htag
  have hlegal : ((s.takeToken t).me.vtypeIll [d, a] || (s.takeToken t).me.straddle d a) = false := by
    rw [Bool.or_eq_false_iff]
    exact ⟨by simpa [Strand.vtypeIll, classX] using hill, by simpa [Strand.straddle, classX] using hstraddle⟩
  simp [vecOp, hlegal, hwide]

/-- Every form of the table is the element-wise run of its reading. -/
theorem elementForms_runElementwise (a b : BitVec 5) (m : BitVec 2) :
    ∀ p ∈ elementForms d a b k m t (s.takeToken t), RunsElementwise s t d k p := by
  unfold elementForms
  iterate 16 rw [List.forall_mem_append]
  refine ⟨⟨⟨⟨⟨⟨⟨⟨⟨⟨⟨⟨⟨⟨⟨⟨?add, ?sub⟩, ?mul⟩, ?fma⟩, ?fms⟩, ?fnma⟩, ?div⟩, ?min⟩, ?max⟩, ?mulh⟩, ?single⟩, ?and⟩, ?or⟩, ?xor⟩, ?shl⟩,
    ?shr⟩, ?sra⟩
  case single =>
    iterate 11 rw [List.forall_mem_cons]
    exact ⟨runsElementwise_of_exec (arithX_steady ..) rfl rfl rfl rfl, runsElementwise_of_exec (arithX_steady ..) rfl rfl rfl rfl,
      runsElementwise_of_exec (arithX_steady ..) rfl rfl rfl rfl, runsElementwise_of_exec (arithX_steady ..) rfl rfl rfl rfl,
      runsElementwise_of_exec (arithX_steady ..) rfl rfl rfl rfl, runsElementwise_of_exec (arithX_steady ..) rfl rfl rfl rfl,
      runsElementwise_of_exec (roundX_steady ..) rfl rfl rfl rfl, runsElementwise_of_exec (cvtX_steady ..) rfl rfl rfl rfl,
      runsElementwise_of_exec (scaleX_steady ..) rfl rfl rfl rfl, vclass_runsElementwise a,
      runsElementwise_of_exec (notX_steady ..) rfl rfl rfl rfl, fun _ h => nomatch h⟩
  case and | or | xor => exact bitForms_runElementwise (fun _ => logicX_steady ..) (fun _ => rfl) (fun _ => rfl) rfl rfl rfl
  case shl | shr | sra => exact bitForms_runElementwise (fun _ => shiftX_steady ..) (fun _ => rfl) (fun _ => rfl) rfl rfl rfl
  all_goals exact arithForms_runElementwise rfl rfl rfl

end

/-- Settles O36: every form is the element-wise run of its reading, and the run's law gives the clauses. -/
theorem elementwiseVector : Obligations.ElementwiseVector := by
  intro s d a b k m t hready w p hp hill hstraddle hconf htraps hresume htag
  obtain ⟨i, x⟩ := p
  obtain ⟨hsteady, rfl, rfl, hruns⟩ := elementForms_runElementwise a b m (i, x) hp
  have hrow : s.me.rstart < s.me.rc := by
    simp only [Strand.configured, Bool.and_eq_true, decide_eq_true_eq] at hconf
    exact hconf.1.2
  obtain ⟨word, body, hexec, hbody⟩ := hruns hill hstraddle ⟨s.me.rstart, htag s.me.rstart (Nat.le_refl _) hrow⟩
  exact elementwise_answers s t i x hsteady word body hexec hbody hready hill hstraddle hconf htraps hresume htag

end Sys2Proof.Machine
end

section
/-!
PROOFS. Integer, bitwise and shift operations on elements (R73, R268, R270, R271).
-/
namespace Sys2Proof.Machine

/-! ### Integers as values -/

@[simp] theorem int?_ofInt (i : Int) : (Num.ofInt i).int? = some i := by
  simp only [Num.ofInt, Num.int?, Nat.mod_one, Nat.div_one, if_true, decide_eq_true_eq]
  split <;> congr 1 <;> omega

@[simp] theorem int?_zero : Num.zero.int? = some 0 := int?_ofInt 0

theorem signedOf_modEq (w x : Nat) : signedOf w x ≡ x [ZMOD (2 ^ w : Nat)] := by
  have hmod : ((x % 2 ^ w : Nat) : Int) ≡ x [ZMOD (2 ^ w : Nat)] := by
    rw [Int.natCast_mod]
    exact Int.mod_modEq _ _
  unfold signedOf
  split
  · exact (Int.sub_modulus_modEq_iff).mpr hmod
  · exact hmod

/-- A code of an integer or natural format stands for an integer that it is congruent to. -/
theorem decode_int? {f : Fmt} (hf : f.isInt = true) (x : Nat) :
    ∃ i : Int, (f.decode x).int? = some i ∧ i ≡ x [ZMOD (2 ^ f.m : Nat)] := by
  rcases f with ⟨kind, _, _, m, _, _, _⟩
  cases kind
  case int => exact ⟨_, int?_ofInt _, signedOf_modEq m x⟩
  case nat =>
    refine ⟨_, int?_ofInt _, ?_⟩
    rw [Int.natCast_mod]
    exact Int.mod_modEq _ _
  all_goals exact absurd hf Bool.false_ne_true

/-- The code of an integer depends on its residue (R73). -/
theorem intCode_of_modEq {f : Fmt} {i : Int} {x : Nat} (h : i ≡ x [ZMOD (2 ^ f.m : Nat)]) : f.intCode i = x % 2 ^ f.m := by
  unfold Fmt.intCode
  rw [h, ← Int.natCast_mod, Int.toNat_natCast]

/-- The integer and natural formats of each slot width: their container is the width itself. -/
theorem fixedFmt_integer {n fmt : Nat} (hn : n ≤ 5) (hfmt : fmt = 16 - n ∨ fmt = 22 - n) :
    fmt < 23 ∧ (fixedFmt fmt).isInt = true ∧ (fixedFmt fmt).m = 2 ^ (n + 1) ∧ (fixedFmt fmt).scaled = false
      ∧ ∀ slot, (fixedFmt fmt).container slot = 2 ^ (n + 1) := by
  interval_cases n <;> rcases hfmt with rfl | rfl <;> exact ⟨by decide, rfl, rfl, rfl, fun _ => rfl⟩

/-! ### Bits of shifted codes -/

theorem testBit_shlCode (w x n i : Nat) : (shlCode w x n).testBit i = (decide (i < w) && (decide (n ≤ i) && x.testBit (i - n))) := by
  unfold shlCode
  split
  · have : ¬(i < w ∧ n ≤ i) := by omega
    rw [Nat.zero_testBit, ← Bool.and_assoc, ← Bool.decide_and, decide_eq_false this, Bool.false_and]
  · rw [Nat.testBit_mod_two_pow, Nat.testBit_mul_two_pow]

theorem testBit_shrCode {w x : Nat} (hx : x < 2 ^ w) (n i : Nat) : (shrCode w x n).testBit i = (decide (i < w) && x.testBit (i + n)) := by
  have hhigh : ∀ j, w ≤ j → x.testBit j = false := fun j hj => Nat.testBit_lt_two_pow (hx.trans_le (Nat.pow_le_pow_right (by decide) hj))
  have hkeep : x.testBit (i + n) = (decide (i < w) && x.testBit (i + n)) := by
    by_cases hi : i < w
    · simp [hi]
    · simp [hi, hhigh (i + n) (by omega)]
  unfold shrCode
  split
  · rw [Nat.zero_testBit, hhigh (i + n) (by omega), Bool.and_false]
  · rw [Nat.testBit_div_two_pow, ← hkeep]

theorem testBit_sraCode {w x : Nat} (hx : x < 2 ^ w) (n i : Nat) :
    (sraCode w x n).testBit i = (decide (i < w) && if i + n < w then x.testBit (i + n) else x.testBit (w - 1)) := by
  unfold sraCode
  simp only [← Nat.toNat_testBit]
  split
  next hn =>
    rw [if_neg (by omega : ¬i + n < w)]
    cases x.testBit (w - 1)
    · simp
    · simp [Nat.testBit_two_pow_sub_one]
  next hn =>
    have hmin : Nat.min n w = n := Nat.min_eq_left (by omega)
    have hlow : x / 2 ^ n < 2 ^ (w - n) := by
      rw [Nat.div_lt_iff_lt_mul (Nat.two_pow_pos n), ← pow_add, Nat.sub_add_cancel (by omega)]
      exact hx
    have hfill : 2 ^ w - 2 ^ (w - n) = 2 ^ (w - n) * (2 ^ n - 1) := by
      rw [Nat.mul_sub, Nat.mul_one, ← pow_add, Nat.sub_add_cancel (by omega)]
    rw [hmin, hfill, Nat.add_comm, Nat.mul_left_comm, Nat.testBit_two_pow_mul_add _ hlow]
    by_cases hi : i + n < w
    · rw [if_pos (by omega), if_pos hi, Nat.testBit_div_two_pow, decide_eq_true (by omega), Bool.true_and]
    · rw [if_neg (by omega), if_neg hi]
      cases x.testBit (w - 1)
      · simp
      · rw [Bool.toNat_true, Nat.one_mul, Nat.testBit_two_pow_sub_one, Bool.and_true, decide_eq_decide]
        omega

/-! ### Elements of an integer format -/

section
variable {s : State} {n fmt : Nat} (hn : n ≤ 5) (hsew : s.me.sew = n) (hfmt : fmt = 16 - n ∨ fmt = 22 - n)

/-- The tag of a VALID row of an integer format. -/
def plainTag (fmt : Nat) : Tag := mkTag fmt 127 0 false

include hn hfmt

theorem fmtOf_plainTag : fmtOf (plainTag fmt) = fmt := by
  have := (fixedFmt_integer hn hfmt).1
  rw [plainTag, fmtOf_mkTag]
  omega

theorem fmt_plainTag : s.myCtx.fmt (fmtOf (plainTag fmt)) = fixedFmt fmt := by
  rw [fmtOf_plainTag hn hfmt]
  exact if_pos (fixedFmt_integer hn hfmt).1

theorem rowValue_plainTag (x : Nat) :
    ∃ i : Int, (rowValue s.myCtx (plainTag fmt) x).int? = some i ∧ i ≡ x [ZMOD (2 ^ 2 ^ (n + 1) : Nat)] := by
  obtain ⟨-, hint, hm, hscaled, -⟩ := fixedFmt_integer hn hfmt
  have hclass : classOf (plainTag fmt) ≠ 1 := by rw [plainTag, classOf_mkTag]; decide
  have hvalue : rowValue s.myCtx (plainTag fmt) x = (fixedFmt fmt).decode x := by
    rw [rowValue, if_neg hclass, fmt_plainTag hn hfmt, elemValue, hscaled]
    rfl
  rw [hvalue, ← hm]
  exact decode_int? hint x

/-- An integer operation of Table 3 that wraps gives the code of the residue of its exact result. -/
theorem arith_wraps {o : ArithOp} {d a b : BitVec 5} {k : BitVec 3} {m : BitVec 2} {r : Rounding} (hsat : r.sat = false) {x y z v : Nat}
    (hop : ∀ i j l : Int, i ≡ x [ZMOD (2 ^ 2 ^ (n + 1) : Nat)] → j ≡ y [ZMOD (2 ^ 2 ^ (n + 1) : Nat)] →
      (o.ternary = true → l ≡ z [ZMOD (2 ^ 2 ^ (n + 1) : Nat)]) →
      ∃ e : Int, (∀ f, o.int f false i j l = f.intResult false e) ∧ e ≡ v [ZMOD (2 ^ 2 ^ (n + 1) : Nat)]) :
    (arithX o (.row b) d a k m).op s [plainTag fmt, plainTag fmt, plainTag fmt] (plainTag fmt) [x, y, z] r
      = { code := v % 2 ^ 2 ^ (n + 1) } := by
  obtain ⟨-, hint, hm, -⟩ := fixedFmt_integer hn hfmt
  obtain ⟨i, hi, hix⟩ := rowValue_plainTag (s := s) hn hfmt x
  obtain ⟨j, hj, hjy⟩ := rowValue_plainTag (s := s) hn hfmt y
  obtain ⟨l, hl, hlz⟩ : ∃ l : Int, (if o.ternary = true then rowValue s.myCtx (plainTag fmt) z else Num.zero).int? = some l
      ∧ (o.ternary = true → l ≡ z [ZMOD (2 ^ 2 ^ (n + 1) : Nat)]) := by
    cases o.ternary
    · exact ⟨0, int?_zero, fun h => nomatch h⟩
    · obtain ⟨l, hl, hlz⟩ := rowValue_plainTag (s := s) hn hfmt z
      exact ⟨l, hl, fun _ => hlz⟩
  obtain ⟨e, he, hev⟩ := hop i j l hix hjy hlz
  simp only [arithX, ArithOp.elem, fmt_plainTag hn hfmt, hint, if_true, List.getD_cons_zero, List.getD_cons_succ, List.length_cons, List.length_nil,
    Nat.add_one_sub_one, hi, hj, hl, hsat, he]
  simp only [Fmt.intResult, Bool.false_eq_true, if_false, intCode_of_modEq (hm ▸ hev), hm]

include hsew

theorem cw_plainTag : s.myCtx.cw (fmtOf (plainTag fmt)) s.me.sewBits = 2 ^ (n + 1) := by
  rw [FmtCtx.cw, fmt_plainTag hn hfmt, (fixedFmt_integer hn hfmt).2.2.2.2, Strand.sewBits, widthOf, hsew, Nat.min_eq_min, min_self]

end

/-- Settles O37: residues for the integer operations, bits for the bitwise ones. -/
theorem elementOperations : Obligations.ElementOperations := by
  intro s d a b k m r n fmt x y z hn hsew hfmt hsat w g hx hy hz
  have hcw : s.myCtx.cw (fmtOf g) s.me.sewBits = w := cw_plainTag hn hsew hfmt
  have hsb : s.me.sewBits = w := by rw [Strand.sewBits, hsew]; rfl
  refine ⟨?add, ?sub, ?mul, ?fma, ?and, ?or, ?xor, ?not, ?shl, ?shr, ?sra⟩
  case add =>
    refine arith_wraps hn hfmt hsat fun i j l hi hj _ => ⟨i + j, fun _ => rfl, ?_⟩
    rw [Nat.cast_add]
    exact hi.add hj
  case sub =>
    refine arith_wraps hn hfmt hsat fun i j l hi hj _ => ⟨i - j, fun _ => rfl, ?_⟩
    rw [Nat.cast_add, Nat.cast_sub hy.le, ← add_sub_assoc, add_sub_right_comm]
    exact (Int.add_modulus_modEq_iff.mpr (hi.sub hj).symm).symm
  case mul =>
    refine arith_wraps hn hfmt hsat fun i j l hi hj _ => ⟨i * j, fun _ => rfl, ?_⟩
    rw [Nat.cast_mul]
    exact hi.mul hj
  case fma =>
    refine arith_wraps hn hfmt hsat fun i j l hi hj hl => ⟨i * j + l, fun _ => rfl, ?_⟩
    rw [Nat.cast_add, Nat.cast_mul]
    exact (hi.mul hj).add (hl rfl)
  case and | or | xor =>
    intro i
    simp [logicX, Src.bits, hcw, Nat.testBit_mod_two_pow]
  case not =>
    intro i
    have hcode : 2 ^ w - 1 - x = 2 ^ w - (x + 1) := by omega
    rw [hsb] at hcw
    simp [notX, hcw, hsb, hcode, Nat.testBit_two_pow_sub_succ hx]
  case shl =>
    intro i
    simp [shiftX, Src.bits, hcw, Nat.mod_eq_of_lt hx, testBit_shlCode]
  case shr =>
    intro i
    simp [shiftX, Src.bits, hcw, Nat.mod_eq_of_lt hx, testBit_shrCode hx]
  case sra =>
    intro i
    simp [shiftX, Src.bits, hcw, Nat.mod_eq_of_lt hx, testBit_sraCode hx]

end Sys2Proof.Machine
end

section
/-!
PROOFS. The formats of a group and its accumulation format (R283, R289), and the order of values in which extremes are taken (R291).
-/
namespace Sys2Proof.Machine

/-! ### Formats of integers, and accumulation formats -/

theorem descFmt_not_integer (x : Nat) : (descFmt x).isInt = false := by
  unfold descFmt Fmt.isInt
  dsimp only
  split <;> rfl

/-- An index names an integer or natural format only if it is one of Table 3's. -/
theorem fmt_isInt {c : FmtCtx} {f : Nat} (hf : (c.fmt f).isInt = true) :
    c.fmt f = fixedFmt f ∧ ∃ n, n ≤ 5 ∧ (f = 16 - n ∨ f = 22 - n) := by
  unfold FmtCtx.fmt at hf ⊢
  split at hf
  next hlt =>
    rw [if_pos hlt]
    refine ⟨rfl, if 16 < f then 22 - f else 16 - f, ?_⟩
    have hrange : 11 ≤ f := by
      by_contra hlow
      have : f ≤ 10 := by omega
      interval_cases f <;> exact absurd hf (by decide)
    split <;> omega
  next =>
    split at hf
    · rw [descFmt_not_integer] at hf
      cases hf
    · cases hf

/-- The container of an integer format in its slots, and its width. -/
theorem fmt_isInt_container {c : FmtCtx} {f : Nat} (hf : (c.fmt f).isInt = true) :
    (c.fmt f).scaled = false ∧ (c.fmt f).m ≤ 64 ∧ ∀ slot, (c.fmt f).container slot = (c.fmt f).m := by
  obtain ⟨hfix, n, hn, hfmt⟩ := fmt_isInt hf
  obtain ⟨-, -, hm, hscaled, hcont⟩ := fixedFmt_integer hn hfmt
  have hwide : 2 ^ (n + 1) ≤ 2 ^ 6 := Nat.pow_le_pow_right Nat.two_pos (by omega)
  rw [hfix, hm]
  exact ⟨hscaled, hwide, hcont⟩

/-- The accumulation formats: FP64, FP32, INT64 and NAT64, the last two for integer formats (R289). -/
theorem accFormat_cases {c : FmtCtx} {f n : Nat} (h : accFormat c f = some n) :
    ((n = 1 ∨ n = 2) ∧ (fixedFmt n).isInt = false)
      ∨ ((n = 11 ∨ n = 17) ∧ (fixedFmt n).isInt = true ∧ (fixedFmt n).m = 64 ∧ (c.fmt f).isInt = true) := by
  unfold accFormat at h
  split at h
  case h_3 hkind => cases h; exact .inr ⟨.inl rfl, rfl, rfl, by rw [Fmt.isInt, hkind]; rfl⟩
  case h_4 hkind => cases h; exact .inr ⟨.inr rfl, rfl, rfl, by rw [Fmt.isInt, hkind]; rfl⟩
  case h_5 =>
    cases h
    split
    · exact .inl ⟨.inl rfl, rfl⟩
    · exact .inl ⟨.inr rfl, rfl⟩
  all_goals cases h

theorem accFormat_isInt_iff {c : FmtCtx} {f n : Nat} (h : accFormat c f = some n) : (n = 11 ∨ n = 17) ↔ (fixedFmt n).isInt = true := by
  rcases accFormat_cases h with ⟨hn, hint⟩ | ⟨hn, hint, -⟩
  · rw [hint]
    exact ⟨fun h => by omega, fun h => nomatch h⟩
  · exact ⟨fun _ => hint, fun _ => hn⟩

theorem ofNat_intCode {f : Fmt} (hm : f.m = 64) (i : Int) : BitVec.ofNat 64 (f.intCode i) = BitVec.ofInt 64 i := by
  apply BitVec.eq_of_toNat_eq
  rw [Fmt.intCode, hm, BitVec.toNat_ofNat, BitVec.toNat_ofInt]
  exact Nat.mod_eq_of_lt ((Int.toNat_lt (Int.emod_nonneg _ (by decide))).mpr (Int.emod_lt_of_pos _ (by decide)))

/-- Every row that is not ZERO has the group tag's format. -/
theorem groupTag_fmt {ts : List Tag} {g : Tag} (h : groupTag ts = .ok g) {t : Tag} (ht : t ∈ ts) (hclass : classOf t ≠ 1) :
    fmtOf t = fmtOf g := by
  unfold groupTag at h
  simp only at h
  split at h
  next => cases h
  next hnone =>
    cases h
    have hfull : t ∈ ts.filter (fun t => classOf t != 1) := List.mem_filter.mpr ⟨ht, by simpa using hclass⟩
    have hsame := List.find?_eq_none.mp hnone t hfull
    simp only [Bool.or_eq_true, bne_iff_ne, not_or, not_not] at hsame
    rw [fmtOf_mkTag, ← hsame.1]
    unfold fmtOf
    omega

/-! ### Values that decoding gives -/

/-- An infinity, or a fraction that stands for itself. -/
def Num.Ordinary : Num → Prop
  | .inf _ => True
  | .fin _ _ d sticky => 0 < d ∧ sticky = false
  | _ => False

theorem ordinary_ofInt (i : Int) : (Num.ofInt i).Ordinary := ⟨Nat.one_pos, rfl⟩

theorem ordinary_scale2 (neg : Bool) (n : Nat) (k : Int) : (Num.scale2 neg n k).Ordinary := by
  unfold Num.scale2
  split
  · exact ⟨Nat.one_pos, rfl⟩
  · exact ⟨Nat.two_pow_pos _, rfl⟩

theorem ordinary_mul2 {v : Num} (h : v.Ordinary) (k : Int) : (v.mul2 k).Ordinary := by
  cases v with
  | fin neg n d sticky =>
    unfold Num.mul2
    dsimp only
    split
    · exact h
    · exact ⟨Nat.mul_pos h.1 (Nat.two_pow_pos _), h.2⟩
  | _ => exact h

theorem decode_ordinary (f : Fmt) (x : Nat) : (f.decode x).isNan = true ∨ (f.decode x).Ordinary := by
  unfold Fmt.decode
  split
  case h_1 => exact .inr (ordinary_ofInt 0)
  case h_2 => exact .inr (ordinary_ofInt _)
  case h_3 => exact .inr (ordinary_ofInt _)
  case h_4 =>
    split
    · exact .inl rfl
    · exact .inr (ordinary_scale2 ..)
  case h_5 => exact .inr (ordinary_scale2 ..)
  case h_6 =>
    dsimp only
    split
    · split
      · exact .inr trivial
      · exact .inl rfl
    · split
      · exact .inl rfl
      · split
        · exact .inr (ordinary_scale2 ..)
        · exact .inr (ordinary_scale2 ..)

/-- An element's value is a NaN or ordinary. -/
theorem rowValue_ordinary (c : FmtCtx) (t : Tag) (code : Nat) :
    (rowValue c t code).isNan = true ∨ (rowValue c t code).Ordinary := by
  unfold rowValue elemValue
  split
  · exact .inr (ordinary_ofInt 0)
  · split
    · split
      · exact .inl rfl
      · rcases decode_ordinary (c.fmt (fmtOf t)) code with h | h
        · generalize (c.fmt (fmtOf t)).decode code = v at *
          cases v with
          | nan sig => exact .inl rfl
          | _ => cases h
        · exact .inr (ordinary_mul2 h _)
    · exact decode_ordinary ..

/-! ### The order of ordinary values -/

/-- The fraction of a finite value. -/
def signedFrac (neg : Bool) (n d : Nat) : ℚ := (if neg then -(n : ℚ) else n) / d

/-- An ordinary value's place: below, at or above the finite ones, the fraction, and minus zero below plus zero. -/
def Num.key : Num → ℤ ×ₗ ℚ ×ₗ ℤ
  | .inf neg => toLex (if neg then -1 else 1, toLex (0, 0))
  | .fin neg n d _ => toLex (0, toLex (signedFrac neg n d, if n = 0 ∧ neg then 0 else 1))
  | _ => 0

theorem lt_fin {s t : Bool} {n d m e : Nat} (x y : Bool) (hd : 0 < d) (he : 0 < e) :
    Num.lt (.fin s n d x) (.fin t m e y) = decide (signedFrac s n d < signedFrac t m e) := by
  have hd' : (0 : ℚ) < d := Nat.cast_pos.mpr hd
  have he' : (0 : ℚ) < e := Nat.cast_pos.mpr he
  have hn : (0 : ℚ) ≤ n := Nat.cast_nonneg n
  have hm : (0 : ℚ) ≤ m := Nat.cast_nonneg m
  unfold Num.lt signedFrac
  rw [Bool.eq_iff_iff, decide_eq_true_eq, div_lt_div_iff₀ hd' he']
  by_cases hzero : n = 0 ∧ m = 0
  · obtain ⟨rfl, rfl⟩ := hzero
    simp
  have hpos : 0 < (n : ℚ) * e + m * d := by
    rcases Nat.eq_zero_or_pos n with h | h
    · have : (0 : ℚ) < m := Nat.cast_pos.mpr (by omega)
      positivity
    · have : (0 : ℚ) < n := Nat.cast_pos.mpr h
      positivity
  have hne : (0 : ℚ) ≤ n * e := by positivity
  have hmd : (0 : ℚ) ≤ m * d := by positivity
  simp only [hzero, if_false]
  cases s <;> cases t <;> simp only [Bool.false_eq_true, if_false, if_true, decide_eq_true_eq, true_iff, false_iff, not_lt]
  · exact_mod_cast Iff.rfl
  · linarith
  · linarith
  · rw [neg_mul, neg_mul, neg_lt_neg_iff]
    exact_mod_cast Iff.rfl

/-- The order of R291 on ordinary values is the order of their places. -/
theorem below_iff_key_lt {a b : Num} (ha : a.Ordinary) (hb : b.Ordinary) : below a b = true ↔ a.key < b.key := by
  cases a with
  | inf s =>
    cases b with
    | inf t => cases s <;> cases t <;> simp [below, Num.lt, Num.isZero, Num.key, Prod.Lex.toLex_lt_toLex]
    | fin t m e y => cases s <;> simp [below, Num.lt, Num.isZero, Num.key, Prod.Lex.toLex_lt_toLex]
    | _ => cases hb
  | fin s n d x =>
    cases b with
    | inf t => cases t <;> simp [below, Num.lt, Num.isZero, Num.key, Prod.Lex.toLex_lt_toLex]
    | fin t m e y =>
      obtain ⟨hd, rfl⟩ := ha
      obtain ⟨he, rfl⟩ := hb
      rw [below, Bool.or_eq_true, lt_fin _ _ hd he, decide_eq_true_eq]
      simp only [Num.key, Prod.Lex.toLex_lt_toLex, lt_self_iff_false, false_or, true_and]
      refine or_congr_right ?_
      have hzero (s : Bool) {n d : Nat} (hd : 0 < d) : signedFrac s n d = 0 ↔ n = 0 := by
        have : (d : ℚ) ≠ 0 := Nat.cast_ne_zero.mpr hd.ne'
        cases s <;> simp [signedFrac, this]
      by_cases hn : n = 0
      · by_cases hm : m = 0
        · subst hn hm
          have h1 := (hzero s (n := 0) hd).mpr rfl
          have h2 := (hzero t (n := 0) he).mpr rfl
          cases s <;> cases t <;> simp [Num.isZero, Num.isNeg, h1, h2]
        · have h1 := (hzero s hd).mpr hn
          have h2 : ¬signedFrac t m e = 0 := fun h => hm ((hzero t he).mp h)
          have h3 : (Num.fin t m e false).isZero = false := by cases m with
            | zero => exact absurd rfl hm
            | succ m => rfl
          simp [h1, h3, Ne.symm h2]
      · have h3 : (Num.fin s n d false).isZero = false := by cases n with
          | zero => exact absurd rfl hn
          | succ n => rfl
        have h4 : (if m = 0 ∧ t = true then (0 : ℤ) else 1) ≤ 1 := by split <;> decide
        simp [h3, hn, h4]
    | _ => cases hb
  | _ => cases ha

/-- The order in which an extreme is sought: ascending for the minimum, descending for the maximum. -/
def precedes (max : Bool) (x y : Num) : Bool := if max then below y x else below x y

theorem not_precedes_iff {max : Bool} {a b : Num} (ha : a.Ordinary) (hb : b.Ordinary) :
    precedes max a b = false ↔ if max then a.key ≤ b.key else b.key ≤ a.key := by
  cases max
  · exact (Bool.eq_false_iff.trans (below_iff_key_lt ha hb).not).trans not_lt
  · exact (Bool.eq_false_iff.trans (below_iff_key_lt hb ha).not).trans not_lt

theorem not_precedes_trans {max : Bool} {a b c : Num} (ha : a.Ordinary) (hb : b.Ordinary) (hc : c.Ordinary)
    (hab : precedes max a b = false) (hbc : precedes max b c = false) : precedes max a c = false := by
  rw [not_precedes_iff ha hb] at hab
  rw [not_precedes_iff hb hc] at hbc
  rw [not_precedes_iff ha hc]
  cases max
  · exact le_trans hbc hab
  · exact le_trans hab hbc

theorem not_precedes_self (max : Bool) {a : Num} (ha : a.Ordinary) : precedes max a a = false := by
  rw [not_precedes_iff ha ha]
  cases max <;> exact le_refl _

theorem not_precedes_of_precedes {max : Bool} {a b : Num} (ha : a.Ordinary) (hb : b.Ordinary) (h : precedes max a b = true) :
    precedes max b a = false := by
  rw [not_precedes_iff hb ha]
  cases max
  · exact ((below_iff_key_lt ha hb).mp h).le
  · exact ((below_iff_key_lt hb ha).mp h).le

/-- The extreme of a list of ordinary values is one of them, and none precedes it. -/
theorem foldl_precedes (max : Bool) : ∀ (xs : List Num) (x : Num), (∀ v ∈ x :: xs, v.Ordinary) →
    let y := xs.foldl (fun p q => if precedes max q p then q else p) x
    y ∈ x :: xs ∧ ∀ v ∈ x :: xs, precedes max v y = false := by
  intro xs
  induction xs with
  | nil =>
    intro x hx
    rw [List.forall_mem_singleton] at hx
    exact ⟨List.mem_singleton_self x, List.forall_mem_singleton.mpr (not_precedes_self max hx)⟩
  | cons q xs ih =>
    intro x hx
    obtain ⟨hxo, hqo, hxs⟩ : x.Ordinary ∧ q.Ordinary ∧ ∀ v ∈ xs, v.Ordinary := by simpa using hx
    simp only [List.foldl_cons]
    -- the value kept, and the one dropped, which does not precede it
    obtain ⟨p, o, hp, ho, hpo, hpick, hsame⟩ : ∃ p o, p.Ordinary ∧ o.Ordinary ∧ precedes max o p = false
        ∧ (if precedes max q x then q else x) = p ∧ ∀ v, v ∈ x :: q :: xs ↔ v = o ∨ v ∈ p :: xs := by
      by_cases hq : precedes max q x = true
      · exact ⟨q, x, hqo, hxo, not_precedes_of_precedes hqo hxo hq, if_pos hq, fun v => List.mem_cons⟩
      · exact ⟨x, q, hxo, hqo, Bool.eq_false_iff.mpr hq, if_neg hq, fun v => by simp only [List.mem_cons]; tauto⟩
    rw [hpick]
    have hall : ∀ v ∈ p :: xs, v.Ordinary := List.forall_mem_cons.mpr ⟨hp, hxs⟩
    obtain ⟨hmem, hfirst⟩ := ih p hall
    refine ⟨(hsame _).mpr (.inr hmem), fun v hv => ?_⟩
    rcases (hsame v).mp hv with rfl | hv
    · exact not_precedes_trans ho hp (hall _ hmem) hpo (hfirst p (List.mem_cons_self ..))
    · exact hfirst v hv

end Sys2Proof.Machine
end

section
/-!
PROOFS. Reductions (R289–R291): what a completed one may change, the groups it reads, and its result.
-/
namespace Sys2Proof.Machine

/-! ### What a reduction reads and changes -/

/-- Value of group element `j` of the group at `v`. -/
def State.elemNum (s : State) (v : BitVec 5) (j : Nat) : Num :=
  let row := s.me.row (v.toNat + j / s.me.vl)
  rowValue s.myCtx row.tag (getElem_ row.bits s.me.sewBits (j % s.me.vl))

theorem elemNum_ordinary (s : State) (v : BitVec 5) (j : Nat) : (s.elemNum v j).isNan = true ∨ (s.elemNum v j).Ordinary :=
  rowValue_ordinary ..

/-- Active group indices below `l`, in order; those below the start point take part (R289). -/
def Strand.activeBelow (t : Strand) (k : BitVec 3) (l : Nat) : List Nat := (List.range l).filter (fun j => t.active k j)

/-- Only flags are raised, and free values taken. -/
def State.flagsOnly (s u : State) : Prop :=
  u = { s with me := { s.me with fcsr := u.me.fcsr, ckpt := u.me.ckpt }, freeCtr := u.freeCtr }

theorem flagsOnly_refl (s : State) : s.flagsOnly s := rfl

theorem flagsOnly_trans {s t u : State} (h : s.flagsOnly t) (k : t.flagsOnly u) : s.flagsOnly u := by
  unfold State.flagsOnly at *
  rw [k, h]

theorem raise_flagsOnly (s : State) (fl : Nat) : s.flagsOnly (s.raise fl) := by
  unfold State.flagsOnly
  rw [raise_freeCtr]
  exact raise_only s fl

theorem flagsOnly_loops {s u : State} (h : s.flagsOnly u) : s.loops u := by
  unfold State.flagsOnly at h
  unfold State.loops
  rw [h]

/-- The vector operands as a reduction finds them. -/
structure State.SameOperands (s u : State) : Prop where
  num : u.elemNum = s.elemNum
  code : u.code = s.code
  active : u.me.active = s.me.active
  actives : u.me.activeBelow = s.me.activeBelow
  count : u.me.count = s.me.count
  rounding : u.me.rounding = s.me.rounding
  repro : u.me.repro = s.me.repro

theorem takeToken_noTraps (s : State) (t : BitVec 2) : (s.takeToken t).me.noTraps = s.me.noTraps := by
  rw [Strand.noTraps, takeToken_fcsr]
  rfl

theorem takeToken_sewBits (s : State) (t : BitVec 2) : (s.takeToken t).me.sewBits = s.me.sewBits := by
  rw [Strand.sewBits, takeToken_sew]
  rfl

theorem takeToken_row (s : State) (t : BitVec 2) : (s.takeToken t).me.row = s.me.row := by
  unfold Strand.row
  rw [takeToken_rows]

theorem takeToken_count (s : State) (t : BitVec 2) : (s.takeToken t).me.count = s.me.count := by
  rw [Strand.count, takeToken_vl, takeToken_rc]
  rfl

theorem takeToken_active (s : State) (t : BitVec 2) : (s.takeToken t).me.active = s.me.active := by
  unfold Strand.active Strand.mask
  rw [takeToken_done_, takeToken_masks]

theorem takeToken_rounding (s : State) (t : BitVec 2) : (s.takeToken t).me.rounding = s.me.rounding := by
  unfold Strand.rounding
  rw [takeToken_rm, takeToken_diceSeed]

theorem takeToken_myCtx (s : State) (t : BitVec 2) : (s.takeToken t).myCtx = s.myCtx := by
  simp only [State.myCtx, State.ctxOf, State.braidOf?, State.part, takeToken_parts, takeToken_part, takeToken_braid]

theorem takeToken_vtypeIll (s : State) (t : BitVec 2) : (s.takeToken t).me.vtypeIll = s.me.vtypeIll := by
  unfold Strand.vtypeIll
  rw [takeToken_ill, takeToken_rc]

theorem takeToken_groupTags (s : State) (t : BitVec 2) : (s.takeToken t).me.groupTags = s.me.groupTags := by
  unfold Strand.groupTags Strand.tag
  rw [takeToken_rc, takeToken_row]

theorem takeToken_sameOperands (s : State) (t : BitVec 2) : s.SameOperands (s.takeToken t) where
  num := by
    unfold State.elemNum
    rw [takeToken_row, takeToken_vl, takeToken_myCtx, takeToken_sewBits]
  code := by
    unfold State.code
    rw [takeToken_row, takeToken_vl, takeToken_sewBits]
  active := takeToken_active s t
  actives := by
    unfold Strand.activeBelow
    rw [takeToken_active]
  count := takeToken_count s t
  rounding := takeToken_rounding s t
  repro := takeToken_repro s t

theorem flagsOnly_sameOperands {s u v : State} (h : s.SameOperands u) (hv : u.flagsOnly v) : s.SameOperands v := by
  obtain ⟨hnum, hcode, hact, hacts, hcount, hround, hrepro⟩ := h
  rw [hv]
  exact ⟨hnum, hcode, hact, hacts, hcount, hround, hrepro⟩

/-- With no exception enabled, POISON rows are consumed with a flag at most (R75). -/
theorem consume_runs {s : State} (htraps : s.me.noTraps = true) (poison : Bool) (r : Nat) :
    ∃ v, s.flagsOnly v ∧ v.me.noTraps = true ∧ ∀ f : State → Eff, consume s poison r f = f v := by
  cases poison
  · exact ⟨s, flagsOnly_refl s, htraps, fun _ => rfl⟩
  · exact ⟨s.raise flagPSN, raise_flagsOnly s _, (raise_noTraps s _).trans htraps, fun f => by simp [consume, tePsn_none htraps]⟩

/-! ### Delivering the result -/

/-- The effect is complete with `x` written to sd, and flags at most beside it. -/
def State.delivers (s : State) (d : BitVec 5) (x : Word) (e : Eff) : Prop := ∃ v, s.flagsOnly v ∧ e = scalarResult d x v

/-- The instruction completes with `x` in sd, and changes nothing but FCSR and the start point beside it. -/
def State.yields (s : State) (t : BitVec 2) (d : BitVec 5) (i : Instr) (x : Word) : Prop :=
  ∃ u : State, exec i s = .next (((u.setRegV d x).clearStart).retires t) ∧ (s.takeToken t).scalarOnly u d

theorem delivers_flagsOnly {s u : State} {d : BitVec 5} {x : Word} {e : Eff} (h : s.flagsOnly u) (hd : u.delivers d x e) :
    s.delivers d x e := by
  obtain ⟨v, hv, he⟩ := hd
  exact ⟨v, flagsOnly_trans h hv, he⟩

theorem scalarResult_delivers (s : State) (d : BitVec 5) (x : Word) : s.delivers d x (scalarResult d x s) :=
  ⟨s, flagsOnly_refl s, rfl⟩

theorem reduced_delivers {s : State} (htraps : s.me.noTraps = true) (d : BitVec 5) (c : Nat × Nat) :
    s.delivers d (BitVec.ofNat 64 c.1) (reduced d (some c) s) := by
  refine ⟨s.raise c.2, raise_flagsOnly s _, ?_⟩
  simp [reduced, raiseOrTrap, trapFlags_none htraps]

/-- A reduction's result is delivered, also where the spec leaves its value free. -/
theorem exists_reduced_delivers {s : State} (htraps : s.me.noTraps = true) (d : BitVec 5) (x : RedRes) :
    ∃ y, s.delivers d y (reduced d x s) := by
  cases x with
  | none => exact ⟨_, s.free.2, rfl, rfl⟩
  | some c => exact ⟨_, reduced_delivers htraps d c⟩

theorem setRegV_clearStart (u : State) (d : BitVec 5) (x : Word) : (u.clearStart.setRegV d x).clearStart = (u.setRegV d x).clearStart := by
  simp only [State.setRegV, Strand.setReg, State.clearStart]
  split <;> rfl

theorem flagsOnly_scalarOnly {s v : State} (h : s.flagsOnly v) (d : BitVec 5) : s.scalarOnly v.clearStart d := by
  rw [h]
  exact ⟨rfl, fun _ _ => rfl⟩

theorem yields_of_delivers {s : State} {t : BitVec 2} {d : BitVec 5} {i : Instr} {x : Word} {body : State → Eff}
    (hready : s.ready t false = true) (hexec : exec i s = runOrdered t body s)
    (h : (s.takeToken t).delivers d x (body (s.takeToken t))) : s.yields t d i x := by
  obtain ⟨v, hv, hbody⟩ := h
  refine ⟨v.clearStart, ?_, flagsOnly_scalarOnly hv d⟩
  rw [setRegV_clearStart, hexec]
  exact runInstr_retires hready hbody

/-- What completes so changes only sd, FCSR and the start point. -/
theorem yields_scalarOnly {s : State} {t : BitVec 2} {d : BitVec 5} {i : Instr} {x : Word} (h : s.yields t d i x) :
    ∃ u : State, exec i s = .next (u.retires t) ∧ (s.takeToken t).scalarOnly u d := by
  obtain ⟨v, hexec, hv, hregs⟩ := h
  refine ⟨_, hexec, ?_, fun r hr => ?_⟩
  · rw [hv]
    simp only [State.setRegV, Strand.setReg, State.clearStart]
    split <;> rfl
  · exact (reg_setReg_other v.me d r x hr).trans (hregs r hr)

/-! ### The groups -/

theorem withGroups_one {s : State} {a : BitVec 5} {g : Tag} (hg : groupTag (s.me.groupTags a.toNat) = .ok g) (f : State → List Tag → Eff) :
    withGroups s [a] f = f s [g] := by
  simp [withGroups, hg, Except.isOk, Except.toBool, Except.toOption]

theorem withGroups_two {s : State} {a b : BitVec 5} {g q : Tag} (hg : groupTag (s.me.groupTags a.toNat) = .ok g)
    (hq : groupTag (s.me.groupTags b.toNat) = .ok q) (f : State → List Tag → Eff) : withGroups s [a, b] f = f s [g, q] := by
  simp [withGroups, hg, hq, Except.isOk, Except.toBool, Except.toOption]

/-- A reduction of one group: its checks, and `f` under the accumulation format. -/
def reduction (word : Word) (a : BitVec 5) (f : Nat → State → Eff) : State → Eff :=
  vecOp word [a] (fun _ => false) (fun s => withGroups s [a] (fun s tags =>
    match accFormat s.myCtx (fmtOf (tags.headD 0)) with
    | none => trapAt s causeFormatPair (pairVal (fmtOf (tags.headD 0)) 0) 0 0
    | some n => consumeGroups s [a] (f n)))

/-- The sum of terms by group index, in accumulation format `n` (R290); `fl` are the flags of the terms' own computation. -/
def sumTerms (d : BitVec 5) (m : BitVec 2) (n : Nat) (terms : List (Nat × Num)) (fl : Nat) (s : State) : Eff :=
  let f := fixedFmt n
  let r := s.me.rounding m 0 0
  if f.isInt then reduced d (intSum f r.sat (terms.map Prod.snd)) s
  else
    let x := floatSum f r ((List.range s.me.count).map (fun j => (terms.lookup j).getD Num.zero)) (terms.map Prod.snd) fl s
    reduced d (some x.1) x.2

/-- The extreme of the active elements, in accumulation format `n` (R291). -/
def extremeOf (max : Bool) (d a : BitVec 5) (k : BitVec 3) (m : BitVec 2) (n : Nat) (s : State) : Eff :=
  let f := fixedFmt n
  match (s.activeNums a.toNat k).map Prod.snd with
  | [] => scalarResult d (BitVec.ofNat 64 (accIdentity f max)) s
  | x :: xs =>
    let y := xs.foldl (fun p q => if precedes max q p then q else p) x
    if f.isInt then reduced d (y.int?.map (fun i => (f.intCode i, 0))) s
    else if (x :: xs).any Num.isNan then
      reduced d (some (f.nanCode, if (x :: xs).any (fun v => v == .nan true) then flagNV else 0)) s
    else reduced d (some (roundTo f 127 (s.me.rounding m 0 0) y)) s

/-- The index of the greatest value (R291). -/
def greatestIndex (d a : BitVec 5) (k : BitVec 3) (s : State) : Eff :=
  match (s.activeNums a.toNat k).filter (fun x => !x.2.isNan) with
  | [] => scalarResult d (BitVec.allOnes 64) s
  | x :: xs => scalarResult d (BitVec.ofNat 64 (xs.foldl (fun p q => if Num.lt p.2 q.2 then q else p) x).1) s

theorem exec_vredsum_eq (d a : BitVec 5) (k : BitVec 3) (m t : BitVec 2) (s : State) : exec (.vredsum d a k m t) s
    = runOrdered t (reduction (wordV 0xB0 0 d a 0 k m t) a (fun n s => sumTerms d m n (s.activeNums a.toNat k) 0 s)) s := rfl

theorem reduceExtreme_eq (max : Bool) (op : Nat) (d a : BitVec 5) (k : BitVec 3) (m t : BitVec 2) (s : State) :
    reduceExtreme max op d a k m t s = runOrdered t (reduction (wordV op 0 d a 0 k m t) a (extremeOf max d a k m)) s := rfl

theorem exec_vredarg_eq (d a : BitVec 5) (k : BitVec 3) (t : BitVec 2) (s : State) : exec (.vredarg d a k t) s
    = runOrdered t (reduction (wordV 0xB4 0 d a 0 k 0 t) a (fun _ => greatestIndex d a k)) s := rfl

theorem activeNums_eq (s : State) (v : BitVec 5) (k : BitVec 3) :
    s.activeNums v.toNat k = (s.me.activeBelow k s.me.count).map (fun j => (j, s.elemNum v j)) := rfl

section
variable {s : State} {t : BitVec 2} {d a : BitVec 5} {k : BitVec 3} {m : BitVec 2} {g : Tag} {n : Nat}
  (hready : s.ready t false = true) (htraps : s.me.noTraps = true) (hill : s.me.vtypeIll [a] = false)
  (hgroup : groupTag (s.me.groupTags a.toNat) = .ok g) (hacc : accFormat s.myCtx (fmtOf g) = some n)

include htraps in
/-- POISON rows of the groups raise a flag at most. -/
theorem consumeGroups_runs (t : BitVec 2) (groups : List (BitVec 5)) :
    ∃ v, (s.takeToken t).flagsOnly v ∧ v.me.noTraps = true ∧ s.SameOperands v
      ∧ ∀ f : State → Eff, consumeGroups (s.takeToken t) groups f = f v := by
  obtain ⟨v, hv, hvt, hconsume⟩ := consume_runs ((takeToken_noTraps s t).trans htraps)
    (groups.any (fun x => ((s.takeToken t).me.groupTags x.toNat).any (fun y => classOf y == 2))) 0
  exact ⟨v, hv, hvt, flagsOnly_sameOperands (takeToken_sameOperands s t) hv, hconsume⟩

include htraps hill hgroup hacc in
/-- A legal reduction of a group with an accumulation format reaches its computation. -/
theorem reduction_runs (t : BitVec 2) (word : Word) (f : Nat → State → Eff) :
    ∃ v, (s.takeToken t).flagsOnly v ∧ v.me.noTraps = true ∧ s.SameOperands v ∧ reduction word a f (s.takeToken t) = f n v := by
  obtain ⟨v, hv, hvt, hsame, hconsume⟩ := consumeGroups_runs htraps t [a]
  refine ⟨v, hv, hvt, hsame, ?_⟩
  rw [← takeToken_vtypeIll s t] at hill
  rw [← takeToken_groupTags s t] at hgroup
  rw [← takeToken_myCtx s t] at hacc
  simp only [reduction, vecOp, hill, Bool.or_self, Bool.false_eq_true, if_false, withGroups_one hgroup, List.headD_cons, hacc, hconsume]

include hready htraps hill hgroup hacc in
/-- A reduction yields what its computation delivers. -/
theorem yields_of_reduction {i : Instr} {word : Word} {f : Nat → State → Eff} {x : Word}
    (hexec : exec i s = runOrdered t (reduction word a f) s)
    (h : ∀ v : State, v.me.noTraps = true → s.SameOperands v → v.delivers d x (f n v)) : s.yields t d i x := by
  obtain ⟨v, hv, hvt, hsame, hred⟩ := reduction_runs htraps hill hgroup hacc t word f
  exact yields_of_delivers hready hexec (hred ▸ delivers_flagsOnly hv (h v hvt hsame))

include hready htraps hill hgroup hacc in
/-- A reduction whose computation delivers some value changes nothing but sd, FCSR and the start point. -/
theorem scalarOnly_of_reduction {i : Instr} {word : Word} {f : Nat → State → Eff}
    (hexec : exec i s = runOrdered t (reduction word a f) s)
    (h : ∀ v : State, v.me.noTraps = true → ∃ x, v.delivers d x (f n v)) :
    ∃ u : State, exec i s = .next (u.retires t) ∧ (s.takeToken t).scalarOnly u d := by
  obtain ⟨v, hv, hvt, -, hred⟩ := reduction_runs htraps hill hgroup hacc t word f
  obtain ⟨x, hx⟩ := h v hvt
  exact yields_scalarOnly (yields_of_delivers hready hexec (hred ▸ delivers_flagsOnly hv hx))

end

end Sys2Proof.Machine
end

section
/-!
PROOFS. The results of reductions (R290, R291): sums, dot products, extremes, the greatest element's index, and the XOR of codes.
-/
namespace Sys2Proof.Machine

/-! ### Sums (R290) -/

/-- Additions in a tree of free shape take free choices and nothing else. -/
theorem treeSum_state (f : Fmt) : ∀ (n : Nat) (l : List Num) (fl : Nat) (s : State),
    (treeSum f n l fl s).2 = { s with freeCtr := (treeSum f n l fl s).2.freeCtr } := by
  intro n
  induction n with
  | zero => exact fun _ _ _ => rfl
  | succ n ih =>
    intro l fl s
    unfold treeSum
    split
    · rfl
    · rfl
    · exact ih _ _ _

theorem floatSum_state (f : Fmt) (r : Rounding) (all terms : List Num) (fl : Nat) (s : State) :
    (floatSum f r all terms fl s).2 = { s with freeCtr := (floatSum f r all terms fl s).2.freeCtr } := by
  unfold floatSum
  split
  · rfl
  · exact treeSum_state ..

/-- A sum of terms is delivered, whatever its value. -/
theorem exists_sumTerms_delivers {s : State} (htraps : s.me.noTraps = true) (d : BitVec 5) (m : BitVec 2) (n : Nat)
    (terms : List (Nat × Num)) (fl : Nat) : ∃ x, s.delivers d x (sumTerms d m n terms fl s) := by
  unfold sumTerms
  dsimp only
  split
  · exact exists_reduced_delivers htraps d _
  · generalize hall : (List.range s.me.count).map (fun j => (terms.lookup j).getD Num.zero) = all
    have hstate := floatSum_state (fixedFmt n) (s.me.rounding m 0 0) all (terms.map Prod.snd) fl s
    generalize floatSum (fixedFmt n) (s.me.rounding m 0 0) all (terms.map Prod.snd) fl s = x at hstate ⊢
    have hflags : s.flagsOnly x.2 := by rw [hstate]; rfl
    have htraps' : x.2.me.noTraps = true := by rw [hstate]; exact htraps
    exact ⟨_, delivers_flagsOnly hflags (reduced_delivers htraps' d x.1)⟩

/-- The saturate column belongs to MOD 1 alone (R24). -/
theorem rounding_sat {t : Strand} (m : BitVec 2) (r e : Nat) : (t.rounding m r e).sat = (m == 1) := by
  unfold Strand.rounding
  split
  next h => rw [(BitVec.eq_of_toNat_eq h : m = 2)]; rfl
  next h => rw [(BitVec.eq_of_toNat_eq h : m = 3)]; rfl
  next =>
    dsimp only
    rw [Bool.eq_iff_iff, beq_iff_eq, beq_iff_eq]
    exact ⟨fun h => BitVec.eq_of_toNat_eq h, fun h => by rw [h]; rfl⟩

/-- Without saturation, integers are summed modulo the accumulation format's width. -/
theorem intSum_map {f : Fmt} (l : List Nat) {num : Nat → Num} {x : Nat → Int} (hx : ∀ j ∈ l, (num j).int? = some (x j)) :
    intSum f false (l.map num) = some (f.intCode (l.foldl (fun y j => y + x j) 0), 0) := by
  have hints : (l.map num).map Num.int? = l.map (fun j => some (x j)) := by
    rw [List.map_map]
    exact List.map_congr_left hx
  have hall : (l.map (fun j => some (x j))).all Option.isSome = true := by simp
  have hids : (l.map (fun j => some (x j))).filterMap id = l.map x := by
    rw [List.filterMap_map, ← List.filterMap_eq_map]
    rfl
  simp only [intSum, hints, hall, if_true, hids, List.foldl_map, Fmt.intResult, Bool.false_eq_true, if_false]

section
variable {s : State} {d : BitVec 5} {m : BitVec 2} {n : Nat} (htraps : s.me.noTraps = true)

include htraps

theorem sumTerms_integers (hint : (fixedFmt n).isInt = true) (hm : (fixedFmt n).m = 64) (hwrap : m ≠ 1) (l : List Nat) {num : Nat → Num}
    {x : Nat → Int} (hx : ∀ j ∈ l, (num j).int? = some (x j)) (fl : Nat) :
    s.delivers d (BitVec.ofInt 64 (l.foldl (fun y j => y + x j) 0)) (sumTerms d m n (l.map (fun j => (j, num j))) fl s) := by
  have hsat : (s.me.rounding m 0 0).sat = false := by rw [rounding_sat, beq_eq_false_iff_ne]; exact hwrap
  have hterms : (l.map (fun j => (j, num j))).map Prod.snd = l.map num := by rw [List.map_map]; rfl
  simp only [sumTerms, hint, if_true, hterms, hsat, intSum_map l hx]
  rw [← ofNat_intCode hm]
  exact reduced_delivers htraps d (_, 0)

/-- A reproducible sum takes an inactive element as +0 (R76, R290). -/
theorem sumTerms_reproducible (hint : (fixedFmt n).isInt = false) (hrepro : s.me.repro = true) (k : BitVec 3) (num : Nat → Num) (fl : Nat) :
    s.delivers d (BitVec.ofNat 64 (roundTo (fixedFmt n) 127 (s.me.rounding m 0 0) (reproSum (fixedFmt n)
        ((List.range s.me.count).map (fun j => if s.me.active k j then num j else .zero))).1).1)
      (sumTerms d m n ((s.me.activeBelow k s.me.count).map (fun j => (j, num j))) fl s) := by
  have hall : (List.range s.me.count).map (fun j => ((((s.me.activeBelow k s.me.count).map (fun j => (j, num j))).lookup j).getD Num.zero))
      = (List.range s.me.count).map (fun j => if s.me.active k j then num j else .zero) := by
    refine List.map_congr_left fun j hj => ?_
    by_cases hact : s.me.active k j = true
    · have hmem : j ∈ s.me.activeBelow k s.me.count := List.mem_filter.mpr ⟨hj, hact⟩
      rw [List.lookup_graph num hmem, if_pos hact, Option.getD_some]
    · have hnone : ((s.me.activeBelow k s.me.count).map (fun j => (j, num j))).lookup j = none := by
        rw [List.lookup_eq_none_iff]
        intro p hp
        obtain ⟨i, hi, rfl⟩ := List.mem_map.mp hp
        have hne : j ≠ i := fun h => hact (h ▸ (List.mem_filter.mp hi).2)
        exact bne_iff_ne.mpr hne
      rw [hnone, if_neg hact, Option.getD_none]
  simp only [sumTerms, hint, Bool.false_eq_true, if_false, hall, floatSum, hrepro, if_true]
  exact reduced_delivers htraps d (_, _)

end

/-! ### Products (R290) -/

/-- VDOT's computation on two groups of accumulation format `n`. -/
def dotOf (d a b : BitVec 5) (k : BitVec 3) (m : BitVec 2) (n : Nat) (s : State) : Eff :=
  sumTerms d m n ((s.me.activeBelow k s.me.count).map (fun j => (j, ((s.elemNum a j).mul (s.elemNum b j)).1)))
    ((s.me.activeBelow k s.me.count).foldl (fun x j => x ||| ((s.elemNum a j).mul (s.elemNum b j)).2) 0) s

/-- A value is an integer where its denominator divides its numerator. -/
theorem int?_eq_some {v : Num} {i : Int} (h : v.int? = some i) :
    ∃ s n d, v = .fin s n d false ∧ d ∣ n ∧ i = if s then -((n / d : Nat) : Int) else ((n / d : Nat) : Int) := by
  unfold Num.int? at h
  split at h
  next s n d =>
    split at h
    next hdvd => exact ⟨s, n, d, rfl, Nat.dvd_of_mod_eq_zero hdvd, (Option.some.inj h).symm⟩
    next => cases h
  next => cases h

/-- The product of integer values is their product. -/
theorem int?_mul {x y : Num} {i j : Int} (hx : x.int? = some i) (hy : y.int? = some j) : (x.mul y).1.int? = some (i * j) := by
  obtain ⟨s, n, d, rfl, hn, rfl⟩ := int?_eq_some hx
  obtain ⟨t, m, e, rfl, hm, rfl⟩ := int?_eq_some hy
  have hprod : (Num.mul (.fin s n d false) (.fin t m e false)).1 = .fin (s != t) (n * m) (d * e) false := rfl
  have hdiv : n * m / (d * e) = n / d * (m / e) := Nat.mul_div_mul_comm hn hm
  rw [hprod]
  simp only [Num.int?, Nat.mod_eq_zero_of_dvd (Nat.mul_dvd_mul hn hm), if_true, hdiv, Nat.cast_mul]
  cases s <;> cases t <;> simp

/-- VDOT reaches its computation where the group tags join in a format with an accumulation format. -/
theorem exec_vdot_runs {s : State} {d a b : BitVec 5} {k : BitVec 3} {m t : BitVec 2} {g q : Tag} {n : Nat}
    (htraps : s.me.noTraps = true) (hill : s.me.vtypeIll [a, b] = false)
    (hg : groupTag (s.me.groupTags a.toNat) = .ok g) (hq : groupTag (s.me.groupTags b.toNat) = .ok q)
    (hga : s.myCtx.isUnassigned (fmtOf g) = false) (hqa : s.myCtx.isUnassigned (fmtOf q) = false)
    (hacc : (s.myCtx.joinFmt (fmtOf g) (fmtOf q)).bind (accFormat s.myCtx) = some n) :
    ∃ body v, exec (.vdot d a b k m t) s = runOrdered t body s ∧ (s.takeToken t).flagsOnly v ∧ v.me.noTraps = true ∧ s.SameOperands v
      ∧ body (s.takeToken t) = dotOf d a b k m n v := by
  obtain ⟨v, hv, hvt, hsame, hconsume⟩ := consumeGroups_runs htraps t [a, b]
  refine ⟨_, v, rfl, hv, hvt, hsame, ?_⟩
  rw [← takeToken_vtypeIll s t] at hill
  rw [← takeToken_groupTags s t] at hg hq
  rw [← takeToken_myCtx s t] at hga hqa hacc
  simp only [vecOp, hill, Bool.or_self, Bool.false_eq_true, if_false, withGroups_two hg hq, List.headD_cons, List.getD_cons_succ,
    List.getD_cons_zero, hga, hqa, or_self, hacc, hconsume, activeNums_eq, List.zip_map', List.map_map, Function.comp_def, List.foldl_map]
  simp only [dotOf, sumTerms, List.map_map, Function.comp_def]

section
variable {s : State} {d a b : BitVec 5} {k : BitVec 3} {m t : BitVec 2} {g q : Tag} {n : Nat}
  (hready : s.ready t false = true) (htraps : s.me.noTraps = true) (hill : s.me.vtypeIll [a, b] = false)
  (hg : groupTag (s.me.groupTags a.toNat) = .ok g) (hq : groupTag (s.me.groupTags b.toNat) = .ok q)
  (hga : s.myCtx.isUnassigned (fmtOf g) = false) (hqa : s.myCtx.isUnassigned (fmtOf q) = false)
  (hacc : (s.myCtx.joinFmt (fmtOf g) (fmtOf q)).bind (accFormat s.myCtx) = some n)

include hready htraps hill hg hq hga hqa hacc

theorem vdot_scalarOnly : ∃ u : State, exec (.vdot d a b k m t) s = .next (u.retires t) ∧ (s.takeToken t).scalarOnly u d := by
  obtain ⟨body, v, hexec, hv, hvt, -, hbody⟩ := exec_vdot_runs (d := d) (k := k) (m := m) (t := t) htraps hill hg hq hga hqa hacc
  obtain ⟨x, hx⟩ : ∃ x, v.delivers d x (dotOf d a b k m n v) := exists_sumTerms_delivers hvt d m n _ _
  exact yields_scalarOnly (yields_of_delivers hready hexec (hbody ▸ delivers_flagsOnly hv hx))

theorem vdot_integers (hint : (fixedFmt n).isInt = true) (hm : (fixedFmt n).m = 64) (hwrap : m ≠ 1) {x y : Nat → Int}
    (hx : ∀ j ∈ s.me.activeBelow k s.me.count, (s.elemNum a j).int? = some (x j))
    (hy : ∀ j ∈ s.me.activeBelow k s.me.count, (s.elemNum b j).int? = some (y j)) :
    s.yields t d (.vdot d a b k m t) (BitVec.ofInt 64 ((s.me.activeBelow k s.me.count).foldl (fun z j => z + x j * y j) 0)) := by
  obtain ⟨body, v, hexec, hv, hvt, hsame, hbody⟩ := exec_vdot_runs (d := d) (k := k) (m := m) (t := t) htraps hill hg hq hga hqa hacc
  refine yields_of_delivers hready hexec (hbody ▸ delivers_flagsOnly hv ?_)
  rw [dotOf, hsame.actives, hsame.count, hsame.num]
  exact sumTerms_integers hvt hint hm hwrap _ (fun j hj => int?_mul (hx j hj) (hy j hj)) _

theorem vdot_reproducible (hint : (fixedFmt n).isInt = false) (hrepro : s.me.repro = true) :
    s.yields t d (.vdot d a b k m t) (BitVec.ofNat 64 (roundTo (fixedFmt n) 127 (s.me.rounding m 0 0) (reproSum (fixedFmt n)
      ((List.range s.me.count).map (fun j => if s.me.active k j then ((s.elemNum a j).mul (s.elemNum b j)).1 else .zero))).1).1) := by
  obtain ⟨body, v, hexec, hv, hvt, hsame, hbody⟩ := exec_vdot_runs (d := d) (k := k) (m := m) (t := t) htraps hill hg hq hga hqa hacc
  refine yields_of_delivers hready hexec (hbody ▸ delivers_flagsOnly hv ?_)
  rw [← hsame.rounding, ← hsame.count, ← hsame.num, ← hsame.active]
  exact sumTerms_reproducible hvt hint (hsame.repro.trans hrepro) k _ _

end

end Sys2Proof.Machine
end

section
/-!
PROOFS. VREDSUM, the extremes, the greatest element's index and the XOR of codes (R290, R291).
-/
namespace Sys2Proof.Machine

/-- A fold that keeps the greater of two elements keeps one that no earlier one reaches and no later one exceeds. -/
theorem foldl_greatest {num : Nat → Num} {j : Nat} : ∀ (xs : List Nat) (x : Nat), (x :: xs).Pairwise (· < ·) → j ∈ x :: xs →
    (∀ l ∈ x :: xs, (num j).lt (num l) = false ∧ (l < j → (num l).lt (num j) = true)) →
    xs.foldl (fun p q => if (num p).lt (num q) then q else p) x = j := by
  intro xs
  induction xs with
  | nil => exact fun x _ hj _ => (List.mem_singleton.mp hj).symm
  | cons q xs ih =>
    intro x hsorted hj hmax
    obtain ⟨hx, hq⟩ := List.pairwise_cons.mp hsorted
    rw [List.foldl_cons]
    obtain ⟨hqxs, hxs⟩ := List.pairwise_cons.mp hq
    -- j is the element kept, or still to come
    have hkeep : ∀ p, p = x ∨ p = q → j ∈ p :: xs → xs.foldl (fun p q => if (num p).lt (num q) then q else p) p = j := by
      intro p hp hjp
      refine ih p (List.pairwise_cons.mpr ⟨fun l hl => ?_, hxs⟩) hjp (fun l hl => hmax l ?_)
      · rcases hp with rfl | rfl
        · exact hx l (List.mem_cons_of_mem _ hl)
        · exact hqxs l hl
      · rcases hp with rfl | rfl <;> simp only [List.mem_cons] at hl ⊢ <;> tauto
    by_cases hxj : x = j
    · subst hxj
      rw [if_neg (Bool.eq_false_iff.mp (hmax q (by simp)).1)]
      exact hkeep x (.inl rfl) (List.mem_cons_self ..)
    · have hjq : j ∈ q :: xs := (List.mem_cons.mp hj).resolve_left (Ne.symm hxj)
      by_cases hlt : (num x).lt (num q) = true
      · rw [if_pos hlt]
        exact hkeep q (.inr rfl) hjq
      · rw [if_neg hlt]
        refine hkeep x (.inl rfl) (List.mem_cons_of_mem _ ((List.mem_cons.mp hjq).resolve_left fun hjq' => hlt ?_))
        exact hjq' ▸ (hmax x (by simp)).2 (hx j hjq)

section
variable {s : State} {t : BitVec 2} {d a : BitVec 5} {k : BitVec 3} {m : BitVec 2} {g : Tag} {n : Nat}
  (hready : s.ready t false = true) (htraps : s.me.noTraps = true) (hill : s.me.vtypeIll [a] = false)
  (hgroup : groupTag (s.me.groupTags a.toNat) = .ok g) (hacc : accFormat s.myCtx (fmtOf g) = some n)

include hready htraps hill hgroup hacc

/-! ### VREDSUM -/

theorem vredsum_scalarOnly : ∃ u : State, exec (.vredsum d a k m t) s = .next (u.retires t) ∧ (s.takeToken t).scalarOnly u d :=
  scalarOnly_of_reduction hready htraps hill hgroup hacc (exec_vredsum_eq ..) fun _ hv => exists_sumTerms_delivers hv ..

theorem vredsum_integers (hint : (fixedFmt n).isInt = true) (hm : (fixedFmt n).m = 64) (hwrap : m ≠ 1) {x : Nat → Int}
    (hx : ∀ j ∈ s.me.activeBelow k s.me.count, (s.elemNum a j).int? = some (x j)) :
    s.yields t d (.vredsum d a k m t) (BitVec.ofInt 64 ((s.me.activeBelow k s.me.count).foldl (fun y j => y + x j) 0)) := by
  refine yields_of_reduction hready htraps hill hgroup hacc (exec_vredsum_eq ..) fun v hv hsame => ?_
  rw [activeNums_eq, hsame.actives, hsame.count, hsame.num]
  exact sumTerms_integers hv hint hm hwrap _ hx 0

theorem vredsum_reproducible (hint : (fixedFmt n).isInt = false) (hrepro : s.me.repro = true) :
    s.yields t d (.vredsum d a k m t) (BitVec.ofNat 64 (roundTo (fixedFmt n) 127 (s.me.rounding m 0 0) (reproSum (fixedFmt n)
      ((List.range s.me.count).map (fun j => if s.me.active k j then s.elemNum a j else .zero))).1).1) := by
  refine yields_of_reduction hready htraps hill hgroup hacc (exec_vredsum_eq ..) fun v hv hsame => ?_
  rw [← hsame.rounding, ← hsame.count, ← hsame.num, ← hsame.active]
  exact sumTerms_reproducible hv hint (hsame.repro.trans hrepro) k _ _

/-! ### VREDMIN and VREDMAX -/

section
variable {i : Instr} {max : Bool} {op : Nat} (hexec : exec i s = reduceExtreme max op d a k m t s)

include hexec

theorem extreme_scalarOnly : ∃ u : State, exec i s = .next (u.retires t) ∧ (s.takeToken t).scalarOnly u d := by
  refine scalarOnly_of_reduction hready htraps hill hgroup hacc (hexec.trans (reduceExtreme_eq ..)) fun v hv => ?_
  unfold extremeOf
  dsimp only
  split
  · exact ⟨_, scalarResult_delivers ..⟩
  · split
    · exact exists_reduced_delivers hv d _
    · split
      · exact exists_reduced_delivers hv d _
      · exact exists_reduced_delivers hv d _

/-- No active element: the identity. -/
theorem extreme_identity (hnone : s.me.activeBelow k s.me.count = []) :
    s.yields t d i (BitVec.ofNat 64 (accIdentity (fixedFmt n) max)) := by
  refine yields_of_reduction hready htraps hill hgroup hacc (hexec.trans (reduceExtreme_eq ..)) fun v hv hsame => ?_
  simp only [extremeOf, activeNums_eq, hsame.actives, hsame.count, hnone, List.map_nil]
  exact scalarResult_delivers ..

/-- A NaN among the elements of a floating group: the canonical NaN. -/
theorem extreme_nan (hint : (fixedFmt n).isInt = false)
    (hnan : ∃ j, j ∈ s.me.activeBelow k s.me.count ∧ (s.elemNum a j).isNan = true) :
    s.yields t d i (BitVec.ofNat 64 (fixedFmt n).nanCode) := by
  refine yields_of_reduction hready htraps hill hgroup hacc (hexec.trans (reduceExtreme_eq ..)) fun v hv hsame => ?_
  have hany : ((s.me.activeBelow k s.me.count).map (s.elemNum a)).any Num.isNan = true := by
    obtain ⟨j, hj, hn⟩ := hnan
    exact List.any_eq_true.mpr ⟨_, List.mem_map_of_mem hj, hn⟩
  simp only [extremeOf, activeNums_eq, hsame.actives, hsame.count, hsame.num, hint, List.map_map, Function.comp_def]
  generalize (s.me.activeBelow k s.me.count).map (fun j => s.elemNum a j) = nums at hany ⊢
  cases nums with
  | nil => cases hany
  | cons x xs =>
    simp only [hany, Bool.false_eq_true, if_false, if_true]
    exact reduced_delivers hv d (_, _)

/-- Without a NaN: an element that no other precedes, exactly in an integer format and rounded once in a floating one. -/
theorem extreme_value (hsome : s.me.activeBelow k s.me.count ≠ [])
    (hnan : ∀ j, j ∈ s.me.activeBelow k s.me.count → (s.elemNum a j).isNan = false) :
    ∃ j, j ∈ s.me.activeBelow k s.me.count ∧ (∀ l, l ∈ s.me.activeBelow k s.me.count → precedes max (s.elemNum a l) (s.elemNum a j) = false)
      ∧ ((fixedFmt n).isInt = true → (fixedFmt n).m = 64 → ∀ x, (s.elemNum a j).int? = some x → s.yields t d i (BitVec.ofInt 64 x))
      ∧ ((fixedFmt n).isInt = false → s.yields t d i
          (BitVec.ofNat 64 (roundTo (fixedFmt n) 127 (s.me.rounding m 0 0) (s.elemNum a j)).1)) := by
  obtain ⟨x, xs, hnums⟩ : ∃ x xs, (s.me.activeBelow k s.me.count).map (fun j => s.elemNum a j) = x :: xs :=
    List.exists_cons_of_ne_nil (by simpa using hsome)
  have hord : ∀ v ∈ x :: xs, v.Ordinary := by
    rw [← hnums, List.forall_mem_map]
    exact fun j hj => (elemNum_ordinary s a j).resolve_left (Bool.eq_false_iff.mp (hnan j hj))
  obtain ⟨hmem, hfirst⟩ := foldl_precedes max xs x hord
  generalize hy : xs.foldl (fun p q => if precedes max q p then q else p) x = y at hmem hfirst
  rw [← hnums] at hmem hfirst
  obtain ⟨j, hj, rfl⟩ := List.mem_map.mp hmem
  refine ⟨j, hj, List.forall_mem_map.mp hfirst, fun hint hm x' hx' => ?_, fun hint => ?_⟩
  all_goals
    refine yields_of_reduction hready htraps hill hgroup hacc (hexec.trans (reduceExtreme_eq ..)) fun v hv hsame => ?_
    simp only [extremeOf, activeNums_eq, hsame.actives, hsame.count, hsame.num, hsame.rounding, List.map_map, Function.comp_def, hnums, hy,
      hint]
  · rw [← ofNat_intCode hm, hx']
    exact reduced_delivers hv d (_, 0)
  · have hany : (x :: xs).any Num.isNan = false := by
      rw [← hnums, List.any_map, List.any_eq_false]
      exact fun j hj => by rw [Function.comp_apply, hnan j hj]; exact Bool.false_ne_true
    simp only [hany, Bool.false_eq_true, if_false]
    exact reduced_delivers hv d (_, _)

end

/-! ### VREDARG -/

theorem vredarg_scalarOnly : ∃ u : State, exec (.vredarg d a k t) s = .next (u.retires t) ∧ (s.takeToken t).scalarOnly u d := by
  refine scalarOnly_of_reduction hready htraps hill hgroup hacc (exec_vredarg_eq ..) fun v hv => ?_
  unfold greatestIndex
  split
  · exact ⟨_, scalarResult_delivers ..⟩
  · exact ⟨_, scalarResult_delivers ..⟩

/-- NaNs alone: all ones. -/
theorem vredarg_none (hnan : ∀ j, j ∈ s.me.activeBelow k s.me.count → (s.elemNum a j).isNan = true) :
    s.yields t d (.vredarg d a k t) (BitVec.allOnes 64) := by
  refine yields_of_reduction hready htraps hill hgroup hacc (exec_vredarg_eq ..) fun v hv hsame => ?_
  have hnone : (v.activeNums a.toNat k).filter (fun x => !x.2.isNan) = [] := by
    rw [activeNums_eq, hsame.actives, hsame.count, hsame.num, List.filter_eq_nil_iff, List.forall_mem_map]
    exact fun j hj => by rw [hnan j hj]; exact Bool.false_ne_true
  rw [greatestIndex, hnone]
  exact scalarResult_delivers ..

/-- The first index of the greatest value. -/
theorem vredarg_index {j : Nat} (hj : j ∈ s.me.activeBelow k s.me.count) (hnan : (s.elemNum a j).isNan = false)
    (hmax : ∀ l, l ∈ s.me.activeBelow k s.me.count → (s.elemNum a l).isNan = false →
      (s.elemNum a j).lt (s.elemNum a l) = false ∧ (l < j → (s.elemNum a l).lt (s.elemNum a j) = true)) :
    s.yields t d (.vredarg d a k t) (BitVec.ofNat 64 j) := by
  refine yields_of_reduction hready htraps hill hgroup hacc (exec_vredarg_eq ..) fun v hv hsame => ?_
  have hnums : (v.activeNums a.toNat k).filter (fun x => !x.2.isNan)
      = ((s.me.activeBelow k s.me.count).filter (fun l => !(s.elemNum a l).isNan)).map (fun l => (l, s.elemNum a l)) := by
    rw [activeNums_eq, hsame.actives, hsame.count, hsame.num, List.filter_map]
    rfl
  have hmem : j ∈ (s.me.activeBelow k s.me.count).filter (fun l => !(s.elemNum a l).isNan) :=
    List.mem_filter.mpr ⟨hj, by rw [hnan]; rfl⟩
  have hsorted : ((s.me.activeBelow k s.me.count).filter (fun l => !(s.elemNum a l).isNan)).Pairwise (· < ·) :=
    (List.pairwise_lt_range.filter _).filter _
  have hmax' : ∀ l ∈ (s.me.activeBelow k s.me.count).filter (fun l => !(s.elemNum a l).isNan),
      (s.elemNum a j).lt (s.elemNum a l) = false ∧ (l < j → (s.elemNum a l).lt (s.elemNum a j) = true) := by
    intro l hl
    obtain ⟨hact, hl⟩ := List.mem_filter.mp hl
    exact hmax l hact (by simpa using hl)
  rw [greatestIndex, hnums]
  generalize (s.me.activeBelow k s.me.count).filter (fun l => !(s.elemNum a l).isNan) = ls at hmem hsorted hmax'
  cases ls with
  | nil => cases hmem
  | cons x xs =>
    have hfold : (xs.map (fun l => (l, s.elemNum a l))).foldl (fun p q => if Num.lt p.2 q.2 then q else p) (x, s.elemNum a x)
        = (j, s.elemNum a j) := by
      rw [List.foldl_map, ← foldl_greatest xs x hsorted hmem hmax']
      exact List.foldl_hom (fun l => (l, s.elemNum a l)) (fun p q => by split <;> rfl)
    simp only [List.map_cons, hfold]
    exact scalarResult_delivers ..

end

/-! ### VREDXOR -/

/-- Rows of `n` elements, one after the other, by group index (R177). -/
theorem flatten_rows {α : Type} (f : Nat → Nat → α) (n : Nat) : ∀ r,
    ((List.range r).map (fun i => (List.range n).map (f i))).flatten = (List.range (r * n)).map (fun j => f (j / n) (j % n)) := by
  intro r
  induction r with
  | zero => simp
  | succ r ih =>
    rw [List.range_succ, List.map_append, List.flatten_append, ih, Nat.succ_mul, List.range_add, List.map_append, List.map_map]
    congr 1
    simp only [List.map_cons, List.map_nil, List.flatten_cons, List.flatten_nil, List.append_nil]
    refine List.map_congr_left fun e he => ?_
    have he : e < n := List.mem_range.mp he
    rw [Function.comp_apply, Nat.mul_comm, Nat.mul_add_div (by omega), Nat.mul_add_mod, Nat.div_eq_of_lt he, Nat.mod_eq_of_lt he, Nat.add_zero]

/-- The codes of a group by group index. -/
theorem groupCodes_eq (s : State) (v : Nat) : s.me.groupCodes v = (List.range s.me.count).map (s.code v) := by
  rw [Strand.count, Nat.mul_comm]
  exact flatten_rows (fun r e => rowCode (s.me.row (v + r)).bits (s.me.row (v + r)).tag s.me.sewBits e) s.me.vl s.me.rc

theorem vredxor_runs {s : State} {t : BitVec 2} {d a : BitVec 5} {k : BitVec 3} (hready : s.ready t false = true)
    (hill : s.me.vtypeIll [a] = false) (hclean : ∀ r, r < s.me.rc → classOf (s.me.tag (a.toNat + r)) ≠ 2) :
    exec (.vredxor d a k t) s = .next ((((s.takeToken t).setRegV d (BitVec.ofNat 64
      ((s.me.activeBelow k s.me.count).foldl (fun x j => x ^^^ s.code a.toNat j) 0))).clearStart).retires t) := by
  obtain ⟨-, hcode, hactive, -, hcount, -, -⟩ := takeToken_sameOperands s t
  have hpoison : [a].any (fun v => ((s.takeToken t).me.groupTags v.toNat).any (fun t => classOf t == 2)) = false := by
    rw [takeToken_groupTags]
    simpa [Strand.groupTags] using hclean
  have hfold : ((List.range s.me.count).filter (fun j => s.me.active k j)).foldl
        (fun x j => x ^^^ ((List.range s.me.count).map (s.code a.toNat)).getD j 0) 0
      = (s.me.activeBelow k s.me.count).foldl (fun x j => x ^^^ s.code a.toNat j) 0 := by
    refine List.foldl_ext _ _ _ fun x j hj => ?_
    have hj : j < s.me.count := List.mem_range.mp (List.mem_filter.mp hj).1
    simp [List.getD_eq_getElem?_getD, hj]
  rw [← takeToken_vtypeIll s t] at hill
  refine runInstr_retires hready ?_
  simp only [vecOp, hill, Bool.or_self, Bool.false_eq_true, if_false, consumeGroups, hpoison, consume, scalarResult, groupCodes_eq, hcode, hcount,
    hactive, hfold]

end Sys2Proof.Machine
end

section
/-!
PROOFS. Scans (R292): the running total carried through the rows, and the slots that receive it.
-/
namespace Sys2Proof.Machine

/-! ### The running total -/

/-- The total of the active elements below group index `l`, each added in the accumulation format. -/
def State.scanTotal (s : State) (f : Fmt) (sat : Bool) (a : BitVec 5) (k : BitVec 3) (l : Nat) : Num :=
  (s.me.activeBelow k l).foldl (fun y j => (scanAdd f sat y (s.elemNum a j)).1) Num.zero

/-- The code that a scan writes at group index `j` of a row with tag `q`: the total with or without the element itself. -/
def State.scanCode (s : State) (incl : Bool) (f : Fmt) (q : Tag) (a : BitVec 5) (k : BitVec 3) (m : BitVec 2) (j : Nat) : Nat :=
  let g := s.myCtx.fmt (fmtOf q)
  let rnd := s.me.rounding m (j / s.me.vl) (j % s.me.vl)
  let out := s.scanTotal f (m == 1) a k (j + incl.toNat)
  (if g.isInt then convertTo g (bscOf q) rnd true out else roundTo g (bscOf q) rnd out).1

theorem activeBelow_succ (t : Strand) (k : BitVec 3) (l : Nat) :
    t.activeBelow k (l + 1) = if t.active k l then t.activeBelow k l ++ [l] else t.activeBelow k l := by
  unfold Strand.activeBelow
  rw [List.range_succ, List.filter_append, List.filter_singleton]
  split <;> simp_all

theorem scanTotal_succ_active {s : State} {k : BitVec 3} {l : Nat} (h : s.me.active k l = true) (f : Fmt) (sat : Bool) (a : BitVec 5) :
    s.scanTotal f sat a k (l + 1) = (scanAdd f sat (s.scanTotal f sat a k l) (s.elemNum a l)).1 := by
  rw [State.scanTotal, activeBelow_succ, if_pos h, List.foldl_append]
  rfl

theorem scanTotal_succ_inactive {s : State} {k : BitVec 3} {l : Nat} (h : s.me.active k l = false) (f : Fmt) (sat : Bool) (a : BitVec 5) :
    s.scanTotal f sat a k (l + 1) = s.scanTotal f sat a k l := by
  rw [State.scanTotal, activeBelow_succ, if_neg (Bool.eq_false_iff.mp h)]
  rfl

/-! ### Slots under the steps of a scan -/

theorem row_setRowTag_same {u : State} {v : Nat} (hv : v < 32) (t : Tag) :
    (u.setRowTag v t).me.row v = { u.me.row v with tag := t } :=
  row_setRow_same u.me v _ hv

theorem row_setRowTag_bits {u : State} {v : Nat} (hv : v < 32) (t : Tag) (i : Nat) : ((u.setRowTag v t).me.row i).bits = (u.me.row i).bits := by
  by_cases hi : i = v
  · subst hi
    rw [row_setRowTag_same hv]
  · exact congrArg Row.bits (row_setRow_other u.me v i _ hi)

theorem tag_setRowTag {u : State} {v : Nat} (hv : v < 32) (t : Tag) : (u.setRowTag v t).me.tag v = t := by
  rw [Strand.tag, row_setRowTag_same hv]

theorem row_setCode_same {u : State} {v : Nat} (hv : v < 32) (e c : Nat) :
    (u.setCode v e c).me.row v = { u.me.row v with bits := setElem (u.me.row v).bits u.me.sewBits e c } :=
  row_setRow_same u.me v _ hv

theorem row_setCode_other {u : State} {v i : Nat} (hi : i ≠ v) (e c : Nat) : (u.setCode v e c).me.row i = u.me.row i :=
  row_setRow_other u.me v i _ hi

theorem row_raise (u : State) (fl : Nat) : (u.raise fl).me.row = u.me.row := by
  unfold Strand.row
  rw [raise_rows]

/-- Writing one element of a group changes the slot of its group index alone. -/
theorem slot_setCode {w u : State} (hloops : w.loops u) (hfits : w.me.vl * w.me.sewBits ≤ 8192) {d r e : Nat} (hd : d + r < 32)
    (he : e < w.me.vl) (c j : Nat) : w.slot (u.setCode (d + r) e c) d j = if j = r * w.me.vl + e then c % 2 ^ w.me.sewBits else w.slot u d j := by
  have hwide : (e + 1) * w.me.sewBits ≤ 8192 := (Nat.mul_le_mul_right _ he).trans hfits
  have hsplit : w.me.vl * (j / w.me.vl) + j % w.me.vl = j := Nat.div_add_mod j w.me.vl
  unfold State.slot
  by_cases hrow : j / w.me.vl = r
  · rw [hrow, row_setCode_same hd, loops_sewBits hloops]
    by_cases helem : j % w.me.vl = e
    · rw [if_pos (by rw [← hsplit, hrow, helem, Nat.mul_comm]), helem]
      exact getElem_setElem_same _ _ _ _ hwide
    · have hj : j ≠ r * w.me.vl + e := by
        intro h
        rw [← hsplit, hrow, Nat.mul_comm] at h
        omega
      rw [if_neg hj]
      exact getElem_setElem_other _ _ _ _ _ hwide helem
  · have hj : j ≠ r * w.me.vl + e := by
      rintro rfl
      apply hrow
      rw [Nat.mul_comm, Nat.mul_add_div (by omega), Nat.div_eq_of_lt he, Nat.add_zero]
    rw [if_neg hj, row_setCode_other (by omega)]

/-! ### The loops -/

/-- What a scan has come to when the elements below group index `l` are done, with running total `tot`, from `w` to `u`. -/
structure State.Scanned (w : State) (incl : Bool) (f : Fmt) (q : Tag) (d a : BitVec 5) (k : BitVec 3) (m : BitVec 2) (l : Nat) (tot : Num)
    (u : State) : Prop where
  only : w.loops u
  traps : u.me.noTraps = true
  total : tot = w.scanTotal f (m == 1) a k l
  rows : ∀ v, v < d.toNat ∨ d.toNat + w.me.rc ≤ v → u.me.row v = w.me.row v
  wrote : ∀ j, j < l → w.me.act k j = true → w.slot u d.toNat j = w.scanCode incl f q a k m j % 2 ^ w.me.sewBits
  kept : ∀ j, ¬(j < l ∧ w.me.act k j = true) → w.slot u d.toNat j = w.slot w d.toNat j

section
variable {w : State} {incl : Bool} {f : Fmt} {g q : Tag} {d a : BitVec 5} {k : BitVec 3} {m : BitVec 2}

theorem scanned_start (htraps : w.me.noTraps = true) : w.Scanned incl f q d a k m 0 Num.zero w :=
  ⟨loops_refl w, htraps, rfl, fun _ _ => rfl, fun _ h => absurd h (Nat.not_lt_zero _), fun _ _ => rfl⟩

/-- A step that leaves slots and other rows keeps what has been done. -/
theorem State.Scanned.of_slots {l : Nat} {tot : Num} {u v : State} (h : w.Scanned incl f q d a k m l tot u) (hloops : u.loops v)
    (htraps : v.me.noTraps = true) (hrows : ∀ i, i < d.toNat ∨ d.toNat + w.me.rc ≤ i → v.me.row i = u.me.row i)
    (hbits : ∀ i, (v.me.row i).bits = (u.me.row i).bits) : w.Scanned incl f q d a k m l tot v := by
  have hslot : ∀ j, w.slot v d.toNat j = w.slot u d.toNat j := fun j => by unfold State.slot; rw [hbits]
  exact ⟨loops_trans h.only hloops, htraps, h.total, fun i hi => (hrows i hi).trans (h.rows i hi),
    fun j hj hact => (hslot j).trans (h.wrote j hj hact), fun j hj => (hslot j).trans (h.kept j hj)⟩

theorem State.Scanned.setRowTag {l : Nat} {tot : Num} {u : State} (h : w.Scanned incl f q d a k m l tot u) {r : Nat} (hr : r < w.me.rc)
    (hd : d.toNat + w.me.rc ≤ 32) (t : Tag) : w.Scanned incl f q d a k m l tot (u.setRowTag (d.toNat + r) t) :=
  State.Scanned.of_slots h (setRowTag_loops u _ t) h.traps (fun i hi => row_setRow_other u.me _ i _ (by omega))
    (row_setRowTag_bits (by omega) t)

theorem State.Scanned.flagsOnly {l : Nat} {tot : Num} {u v : State} (h : w.Scanned incl f q d a k m l tot u) (hv : u.flagsOnly v)
    (htraps : v.me.noTraps = true) : w.Scanned incl f q d a k m l tot v :=
  State.Scanned.of_slots h (flagsOnly_loops hv) htraps (fun i _ => by rw [hv]; rfl) (fun i => by rw [hv]; rfl)

/-- An inactive element, or one that the start point leaves out, only passes the total on. -/
theorem State.Scanned.pass {l : Nat} {tot : Num} {u : State} (h : w.Scanned incl f q d a k m l tot u) (hact : w.me.act k l = false) {x : Num}
    (hx : x = w.scanTotal f (m == 1) a k (l + 1)) : w.Scanned incl f q d a k m (l + 1) x u := by
  have hbelow : ∀ j, w.me.act k j = true → (j < l + 1 ↔ j < l) := fun j hj => by
    have : j ≠ l := fun h => by rw [h, hact] at hj; cases hj
    omega
  exact ⟨h.only, h.traps, hx, h.rows, fun j hj ha => h.wrote j ((hbelow j ha).mp hj) ha,
    fun j hj => h.kept j (fun hl => hj ⟨(hbelow j hl.2).mpr hl.1, hl.2⟩)⟩

variable (hd : d.toNat + w.me.rc ≤ 32) (hfits : w.me.vl * w.me.sewBits ≤ 8192) (hover : w.me.overlap d a = false)

include hd hfits

/-- An active element from the start point on receives its code. -/
theorem State.Scanned.write {r e : Nat} {tot : Num} {u : State} (h : w.Scanned incl f q d a k m (r * w.me.vl + e) tot u) (hr : r < w.me.rc)
    (he : e < w.me.vl) (hact : w.me.act k (r * w.me.vl + e) = true) (fl : Nat) :
    w.Scanned incl f q d a k m (r * w.me.vl + e + 1) (w.scanTotal f (m == 1) a k (r * w.me.vl + e + 1))
      ((u.setCode (d.toNat + r) e (w.scanCode incl f q a k m (r * w.me.vl + e))).raise fl) := by
  have hslot : ∀ j, w.slot ((u.setCode (d.toNat + r) e (w.scanCode incl f q a k m (r * w.me.vl + e))).raise fl) d.toNat j
      = if j = r * w.me.vl + e then w.scanCode incl f q a k m (r * w.me.vl + e) % 2 ^ w.me.sewBits else w.slot u d.toNat j := by
    intro j
    rw [← slot_setCode h.only hfits (by omega) he]
    unfold State.slot
    rw [row_raise]
  refine ⟨loops_trans h.only (loops_trans (setCode_loops ..) (raise_loops ..)), ?_, rfl, fun v hv => ?_, fun j hj ha => ?_, fun j hj => ?_⟩
  · rw [raise_noTraps]
    exact h.traps
  · rw [row_raise, row_setCode_other (by omega)]
    exact h.rows v hv
  · rw [hslot]
    split
    next heq => rw [heq]
    next hne => exact h.wrote j (by omega) ha
  · have hne : j ≠ r * w.me.vl + e := fun heq => hj ⟨by omega, heq ▸ hact⟩
    rw [hslot, if_neg hne]
    exact h.kept j (fun hl => hj ⟨by omega, hl.2⟩)

include hover

/-- The elements of row `r` from `e` on. -/
theorem scanElems_runs {r : Nat} (hr : r < w.me.rc) (next : Num → State → Eff) : ∀ (n e : Nat) (tot : Num) (u : State), e + n = w.me.vl →
    w.Scanned incl f q d a k m (r * w.me.vl + e) tot u →
    (w.me.rstart ≤ r → fmtOf (u.me.tag (d.toNat + r)) = fmtOf q ∧ bscOf (u.me.tag (d.toNat + r)) = bscOf q) →
    ∃ tot' u', scanElems incl f d.toNat a.toNat k m r (decide (w.me.rstart ≤ r)) next n e tot u = next tot' u'
      ∧ w.Scanned incl f q d a k m ((r + 1) * w.me.vl) tot' u' := by
  intro n
  induction n with
  | zero =>
    intro e tot u he h _
    refine ⟨tot, u, rfl, ?_⟩
    have hnext : (r + 1) * w.me.vl = r * w.me.vl + e := by rw [Nat.succ_mul]; omega
    rw [hnext]
    exact h
  | succ n ih =>
    intro e tot u he h htag
    have hlt : e < w.me.vl := by omega
    have hdiv : (r * w.me.vl + e) / w.me.vl = r := by
      rw [Nat.mul_comm, Nat.mul_add_div (by omega), Nat.div_eq_of_lt hlt, Nat.add_zero]
    have hmod : (r * w.me.vl + e) % w.me.vl = e := by rw [Nat.mul_comm, Nat.mul_add_mod, Nat.mod_eq_of_lt hlt]
    have hL := h.only
    unfold scanElems
    simp only [loops_vl hL, loops_active hL]
    cases hactive : w.me.active k (r * w.me.vl + e) with
    | false =>
      simp only [Bool.not_false, if_true]
      exact ih (e + 1) tot u (by omega) (h.pass (by rw [Strand.act, hactive, Bool.and_false])
        (h.total.trans (scanTotal_succ_inactive hactive ..).symm)) htag
    | true =>
      -- the element as it stood at the start, and the total that takes it in
      have hrow : u.me.row (a.toNat + r) = w.me.row (a.toNat + r) := by
        refine h.rows _ ?_
        simp only [Strand.overlap, decide_eq_false_iff_not] at hover
        omega
      have hnum : rowValue u.myCtx (u.me.row (a.toNat + r)).tag (getElem_ (u.me.row (a.toNat + r)).bits u.me.sewBits e)
          = w.elemNum a (r * w.me.vl + e) := by
        rw [hrow, loops_myCtx hL, loops_sewBits hL]
        unfold State.elemNum
        rw [hdiv, hmod]
      have htot := scanTotal_succ_active hactive f (m == 1) a
      have hstart : u.me.start = w.me.start := by rw [hL]; rfl
      simp only [Bool.not_true, Bool.false_eq_true, if_false, hnum, rounding_sat, h.total, ← htot, hstart, loops_rounding hL]
      cases hact : w.me.act k (r * w.me.vl + e) with
      | false =>
        have hskip : (!decide (w.me.rstart ≤ r) || decide (r * w.me.vl + e < w.me.start)) = true := by
          rw [Strand.act, hactive, Bool.and_true, decide_eq_false_iff_not] at hact
          rw [Bool.or_eq_true, decide_eq_true_eq]
          exact .inr (by omega)
        rw [if_pos hskip]
        exact ih (e + 1) _ u (by omega) (h.pass hact rfl) htag
      | true =>
        have hle : w.me.start ≤ r * w.me.vl + e := by
          rw [Strand.act, hactive, Bool.and_true, decide_eq_true_eq] at hact
          exact hact
        have hrstart : w.me.rstart ≤ r := by
          by_contra hbelow
          have : (r + 1) * w.me.vl ≤ w.me.rstart * w.me.vl := Nat.mul_le_mul_right _ (by omega)
          rw [Nat.succ_mul] at this
          unfold Strand.start at hle
          omega
        have hwrite : ¬(!decide (w.me.rstart ≤ r) || decide (r * w.me.vl + e < w.me.start)) = true := by
          simp [hrstart, hle]
        obtain ⟨hfmt, hbsc⟩ := htag hrstart
        rw [if_neg hwrite]
        simp only [trapFlags_none h.traps, ne_eq, not_true_eq_false, if_false, hfmt, hbsc, loops_myCtx hL]
        have hcode : (if (w.myCtx.fmt (fmtOf q)).isInt = true
            then convertTo (w.myCtx.fmt (fmtOf q)) (bscOf q) (w.me.rounding m r e) true (if incl = true
              then w.scanTotal f (m == 1) a k (r * w.me.vl + e + 1) else w.scanTotal f (m == 1) a k (r * w.me.vl + e))
            else roundTo (w.myCtx.fmt (fmtOf q)) (bscOf q) (w.me.rounding m r e) (if incl = true
              then w.scanTotal f (m == 1) a k (r * w.me.vl + e + 1) else w.scanTotal f (m == 1) a k (r * w.me.vl + e))).1
            = w.scanCode incl f q a k m (r * w.me.vl + e) := by
          unfold State.scanCode
          rw [hdiv, hmod]
          cases incl <;> rfl
        rw [hcode]
        refine ih (e + 1) _ _ (by omega) (h.write hd hfits hr hlt hact _) fun hrs => ?_
        unfold Strand.tag at htag ⊢
        rw [row_raise, row_setCode_same (by omega)]
        exact htag hrs

/-- The rows from `r` on. -/
theorem scanRows_runs (hq : resultTag w g g none = .ok q) : ∀ (n r : Nat) (tot : Num) (u : State), r + n = w.me.rc →
    w.Scanned incl f q d a k m (r * w.me.vl) tot u →
    ∃ tot' u', scanRows incl f g d.toNat a.toNat k m n r tot u = .done u'.clearStart
      ∧ w.Scanned incl f q d a k m w.me.count tot' u' := by
  intro n
  induction n with
  | zero =>
    intro r tot u hr h
    refine ⟨tot, u, rfl, ?_⟩
    rw [Strand.count, Nat.mul_comm, ← hr]
    exact h
  | succ n ih =>
    intro r tot u hr h
    have hrc : r < w.me.rc := by omega
    have hL := h.only
    unfold scanRows
    rw [loops_rstart hL]
    by_cases hbelow : r < w.me.rstart
    · rw [if_pos hbelow, loops_vl hL]
      obtain ⟨tot', u', hrun, h'⟩ := scanElems_runs hd hfits hover hrc
        (fun tot s => scanRows incl f g d.toNat a.toNat k m n (r + 1) tot s) w.me.vl 0 tot u (Nat.zero_add _) h (fun hle => by omega)
      rw [decide_eq_false (by omega)] at hrun
      rw [hrun]
      exact ih (r + 1) tot' u' (by omega) h'
    · rw [if_neg hbelow, resultTag_steady w u hL, hq]
      dsimp only
      generalize (u.me.groupTags a.toNat).take (r + 1) ++ (if u.me.retains k r = true then [u.me.tag (d.toNat + r)] else []) = ops
      obtain ⟨v, hv, htraps, hconsume⟩ := consume_runs h.traps (ops.any (fun x => classOf x == 2)) r
      rw [hconsume, loops_vl (loops_trans hL (flagsOnly_loops hv))]
      obtain ⟨tot', u', hrun, h'⟩ := scanElems_runs hd hfits hover hrc
        (fun tot s => scanRows incl f g d.toNat a.toNat k m n (r + 1) tot
          (s.setRowTag (d.toNat + r) (withClass (s.me.tag (d.toNat + r)) (rowClass ops (s.me.zeroRow (d.toNat + r))))))
        w.me.vl 0 tot (v.setRowTag (d.toNat + r) (withClass q (if ops.any (fun x => classOf x == 2) = true then 2 else 0)))
        (Nat.zero_add _) ((h.flagsOnly hv htraps).setRowTag hrc hd _)
        (fun _ => by rw [tag_setRowTag (by omega), fmtOf_withClass, bscOf_withClass]; exact ⟨rfl, rfl⟩)
      rw [decide_eq_true (by omega)] at hrun
      rw [hrun]
      exact ih (r + 1) tot' _ (by omega) (h'.setRowTag hrc hd _)

end

end Sys2Proof.Machine
end

section
/-!
PROOFS. The codes that a scan writes (R292), and reductions and scans together (R76, R274, R289–R292).
-/
namespace Sys2Proof.Machine

/-! ### The codes of a scan -/

theorem intCode_modEq (f : Fmt) (i : Int) : (f.intCode i : Int) ≡ i [ZMOD (2 ^ f.m : Nat)] := by
  have hpos : (0 : Int) < (2 ^ f.m : Nat) := by exact_mod_cast Nat.two_pow_pos f.m
  rw [Fmt.intCode, Int.toNat_of_nonneg (Int.emod_nonneg _ hpos.ne')]
  exact Int.mod_modEq _ _

section
variable {s : State} {f : Fmt} {a : BitVec 5} {k : BitVec 3}

/-- The running total of integers is their sum modulo 2^64. -/
theorem scanTotal_integers (hint : f.isInt = true) {x : Nat → Int}
    (hx : ∀ j ∈ s.me.activeBelow k s.me.count, (s.elemNum a j).int? = some (x j)) : ∀ l, l ≤ s.me.count →
    ∃ i : Int, (s.scanTotal f false a k l).int? = some i ∧ i ≡ (s.me.activeBelow k l).foldl (fun y j => y + x j) 0 [ZMOD (2 ^ f.m : Nat)] := by
  intro l
  induction l with
  | zero => exact fun _ => ⟨0, int?_zero, Int.ModEq.refl _⟩
  | succ l ih =>
    intro hl
    obtain ⟨i, hi, hmod⟩ := ih (by omega)
    by_cases hact : s.me.active k l = true
    · have hxl := hx l (List.mem_filter.mpr ⟨List.mem_range.mpr hl, hact⟩)
      obtain ⟨e, he, hemod⟩ := decode_int? hint (f.intCode (i + x l))
      refine ⟨e, ?_, ?_⟩
      · simp only [scanTotal_succ_active hact, scanAdd, hint, if_true, hi, hxl, Fmt.intResult, Bool.false_eq_true, if_false, he]
      · rw [activeBelow_succ, if_pos hact, List.foldl_append]
        exact (hemod.trans (intCode_modEq f _)).trans (hmod.add_right _)
    · rw [Bool.not_eq_true] at hact
      rw [scanTotal_succ_inactive hact, activeBelow_succ, if_neg (Bool.eq_false_iff.mp hact)]
      exact ⟨i, hi, hmod⟩

/-- The running total of a floating accumulation format is rounded at each addition. -/
theorem scanTotal_floats (hint : f.isInt = false) (sat : Bool) (l : Nat) : s.scanTotal f sat a k l
    = (s.me.activeBelow k l).foldl (fun y j => f.decode (roundTo f 127 ⟨0, 0, false⟩ (y.add 0 (s.elemNum a j)).1).1) .zero := by
  simp only [State.scanTotal, scanAdd, hint, Bool.false_eq_true, if_false, accRound]

theorem scanCode_integers {incl : Bool} {q : Tag} {m : BitVec 2} (hint : f.isInt = true) (hm : f.m = 64) (hwrap : m ≠ 1)
    (htgt : (s.myCtx.fmt (fmtOf q)).isInt = true) {x : Nat → Int}
    (hx : ∀ j ∈ s.me.activeBelow k s.me.count, (s.elemNum a j).int? = some (x j)) {j : Nat} (hj : j < s.me.count) :
    s.scanCode incl f q a k m j = (((s.me.activeBelow k (j + incl.toNat)).foldl (fun y j => y + x j) 0)
      % (2 ^ (s.myCtx.fmt (fmtOf q)).m : Int)).toNat := by
  have hsat : (m == 1) = false := beq_eq_false_iff_ne.mpr hwrap
  have hle : j + incl.toNat ≤ s.me.count := by have := incl.toNat_le; omega
  obtain ⟨i, hi, hmod⟩ := scanTotal_integers hint hx (j + incl.toNat) hle
  have hwidth := (fmt_isInt_container htgt).2.1
  rw [hm] at hmod
  have hdvd : ((2 ^ (s.myCtx.fmt (fmtOf q)).m : Nat) : Int) ∣ (2 ^ 64 : Nat) := by
    exact_mod_cast Nat.pow_dvd_pow 2 hwidth
  simp only [State.scanCode, hsat, htgt, if_true, convertTo, hi, rounding_sat, Fmt.intResult, Bool.false_eq_true, if_false, Fmt.intCode]
  rw [hmod.of_dvd hdvd, Nat.cast_pow, Nat.cast_ofNat]

theorem scanCode_floats {incl : Bool} {q : Tag} {m : BitVec 2} (hint : f.isInt = false)
    (htgt : (s.myCtx.fmt (fmtOf q)).isInt = false) (j : Nat) :
    s.scanCode incl f q a k m j = (roundTo (s.myCtx.fmt (fmtOf q)) (bscOf q) (s.me.rounding m (j / s.me.vl) (j % s.me.vl))
      ((s.me.activeBelow k (j + incl.toNat)).foldl
        (fun y j => f.decode (roundTo f 127 ⟨0, 0, false⟩ (y.add 0 (s.elemNum a j)).1).1) .zero)).1 := by
  simp only [State.scanCode, htgt, Bool.false_eq_true, if_false, scanTotal_floats hint]

end

/-- A result tag's format fits the slots (R66). -/
theorem resultTag_fits {s : State} {x y q : Tag} {third : Option Tag} (h : resultTag s x y third = .ok q) :
    (s.myCtx.fmt (fmtOf q)).container s.me.sewBits ≤ s.me.sewBits := by
  unfold resultTag at h
  dsimp only at h
  split at h
  · cases h
  · split at h
    · cases h
    next tag _ hfit =>
      cases h
      rw [fmtOf_mkTag, Nat.mod_eq_of_lt (by unfold fmtOf; omega)]
      omega

section
variable {s : State} {t : BitVec 2} {d a : BitVec 5} {k : BitVec 3} {m : BitVec 2} {g q : Tag} {n : Nat}

theorem takeToken_act (s : State) (t : BitVec 2) (k : BitVec 3) (j : Nat) : (s.takeToken t).me.act k j = s.me.act k j := by
  unfold Strand.act Strand.start
  rw [takeToken_active, takeToken_rstart, takeToken_vl, takeToken_vstart]

theorem takeToken_slot (s : State) (t : BitVec 2) : (s.takeToken t).slot = s.slot := by
  funext u v j
  rw [State.slot, takeToken_vl, takeToken_sewBits]
  rfl

theorem takeToken_resultTag (s : State) (t : BitVec 2) (x y : Tag) (third : Option Tag) :
    resultTag (s.takeToken t) x y third = resultTag s x y third := by
  simp only [resultTag, takeToken_myCtx, takeToken_sewBits, takeToken_sew, takeToken_osc]

theorem takeToken_scanCode (s : State) (t : BitVec 2) (incl : Bool) (f : Fmt) (q : Tag) (a : BitVec 5) (k : BitVec 3) (m : BitVec 2) (j : Nat) :
    (s.takeToken t).scanCode incl f q a k m j = s.scanCode incl f q a k m j := by
  obtain ⟨hnum, -, -, hacts, -, hround, -⟩ := takeToken_sameOperands s t
  simp only [State.scanCode, State.scanTotal, hnum, hacts, hround, takeToken_myCtx, takeToken_vl]

/-- What VSCAN and VSCANX answer on a legal group (R292). -/
theorem scan_runs {i : Instr} {incl : Bool} {op : Nat} (hready : s.ready t false = true) (hconf : s.me.configured = true)
    (htraps : s.me.noTraps = true) (hgroup : groupTag (s.me.groupTags a.toNat) = .ok g) (hacc : accFormat s.myCtx (fmtOf g) = some n)
    (hill : s.me.vtypeIll [d, a] = false) (hover : s.me.overlap d a = false) (hq : resultTag s g g none = .ok q)
    (hexec : exec i s = scanV incl op d a k m t s) :
    ∃ u : State, exec i s = .next (u.retires t) ∧ (s.takeToken t).rowsOnly u ∧ (s.takeToken t).rowsKept u d.toNat s.me.rc
      ∧ (∀ j, s.me.act k j = false → s.slot u d.toNat j = s.slot s d.toNat j)
      ∧ ∀ j, j < s.me.count → s.me.act k j = true →
          s.slot u d.toNat j = s.scanCode incl (fixedFmt n) q a k m j % 2 ^ s.me.sewBits := by
  have hrc : (s.takeToken t).me.rc = s.me.rc := takeToken_rc s t
  have hd : d.toNat + (s.takeToken t).me.rc ≤ 32 := by
    simp only [Strand.vtypeIll, List.any_cons, Bool.or_eq_false_iff, decide_eq_false_iff_not] at hill
    omega
  rw [← takeToken_noTraps s t] at htraps
  rw [← takeToken_groupTags s t] at hgroup
  rw [← takeToken_myCtx s t] at hacc
  rw [← takeToken_vtypeIll s t] at hill
  have hconf' : (s.takeToken t).me.configured = true := (congrArg (fun x => x.me.configured) (takeToken_noTok s t)).trans hconf
  have hover' : (s.takeToken t).me.overlap d a = false := by rw [Strand.overlap, hrc]; exact hover
  have hq' : resultTag (s.takeToken t) g g none = .ok q := (takeToken_resultTag ..).trans hq
  obtain ⟨tot, u, hrun, hscan⟩ := scanRows_runs (incl := incl) (f := fixedFmt n) (k := k) (m := m) hd (configured_fits hconf') hover' hq'
    (s.takeToken t).me.rc 0 Num.zero (s.takeToken t) (Nat.zero_add _) (by rw [Nat.zero_mul]; exact scanned_start htraps)
  have hslot : ∀ j, s.slot u.clearStart d.toNat j = (s.takeToken t).slot u d.toNat j := fun j => by rw [takeToken_slot]; rfl
  refine ⟨u.clearStart, ?_, ?_, ?_, fun j hj => ?_, fun j hj hja => ?_⟩
  · rw [hexec, scanV, runOrdered]
    refine runInstr_retires hready ?_
    simp only [vecOp, hill, hover', Bool.or_self, Bool.false_eq_true, if_false, withGroups_one hgroup, List.headD_cons, hacc, hrun]
  · have hloops := hscan.only
    rw [hloops]
    rfl
  · intro v hv
    exact hscan.rows v (by rw [hrc]; exact hv)
  · rw [hslot, hscan.kept j (by rw [takeToken_act, hj]; exact fun h => Bool.false_ne_true h.2), takeToken_slot]
    unfold State.slot
    rw [takeToken_row]
  · rw [hslot, hscan.wrote j (by rw [takeToken_count]; exact hj) (by rw [takeToken_act]; exact hja), takeToken_scanCode, takeToken_sewBits]

end

/-! ### Together -/

/-- The identities of Table 6 of R286 in the accumulation formats. -/
theorem accIdentity_min {n : Nat} : n = 1 ∨ n = 2 ∨ n = 11 ∨ n = 17 → BitVec.ofNat 64 (accIdentity (fixedFmt n) false)
    = (match n with
      | 1 => 0x7FF0000000000000
      | 2 => 0x7F800000
      | 11 => 0x7FFFFFFFFFFFFFFF
      | _ => 0xFFFFFFFFFFFFFFFF : Word) := by
  rintro (rfl | rfl | rfl | rfl) <;> decide

theorem accIdentity_max {n : Nat} : n = 1 ∨ n = 2 ∨ n = 11 ∨ n = 17 → BitVec.ofNat 64 (accIdentity (fixedFmt n) true)
    = (match n with
      | 1 => 0xFFF0000000000000
      | 2 => 0xFF800000
      | 11 => 0x8000000000000000
      | _ => 0 : Word) := by
  rintro (rfl | rfl | rfl | rfl) <;> decide

/-- The canonical NaN of the floating accumulation formats. -/
theorem nanCode_accumulation {n : Nat} (hn : n = 1 ∨ n = 2) :
    BitVec.ofNat 64 (fixedFmt n).nanCode = if n = 1 then 0x7FF8000000000000 else 0x7FC00000 := by
  rcases hn with rfl | rfl <;> decide

/-- No element of a group of integers is a NaN. -/
theorem elemNum_isNan_integers {s : State} {a : BitVec 5} {g : Tag} (hgroup : groupTag (s.me.groupTags a.toNat) = .ok g)
    (hint : (s.myCtx.fmt (fmtOf g)).isInt = true) {j : Nat} (hj : j < s.me.count) : (s.elemNum a j).isNan = false := by
  have hrow : j / s.me.vl < s.me.rc := Nat.div_lt_of_lt_mul hj
  have hmem : s.me.tag (a.toNat + j / s.me.vl) ∈ s.me.groupTags a.toNat :=
    List.mem_map.mpr ⟨j / s.me.vl, List.mem_range.mpr hrow, rfl⟩
  unfold State.elemNum rowValue
  dsimp only
  split
  · rfl
  next hclass =>
    have hfmt : fmtOf (s.me.row (a.toNat + j / s.me.vl)).tag = fmtOf g := groupTag_fmt hgroup hmem hclass
    rw [hfmt, elemValue, (fmt_isInt_container hint).1]
    obtain ⟨i, hi, -⟩ := decode_int? hint (getElem_ (s.me.row (a.toNat + j / s.me.vl)).bits s.me.sewBits (j % s.me.vl))
    simp only [Bool.false_eq_true, if_false]
    generalize (s.myCtx.fmt (fmtOf g)).decode _ = v at hi
    cases v with
    | nan sig => cases hi
    | _ => rfl

section
variable {s : State} {t : BitVec 2} {d a : BitVec 5} {k : BitVec 3} {m : BitVec 2} {g : Tag} {n : Nat}
  (hready : s.ready t false = true) (htraps : s.me.noTraps = true) (hill : s.me.vtypeIll [a] = false)
  (hgroup : groupTag (s.me.groupTags a.toNat) = .ok g) (hacc : accFormat s.myCtx (fmtOf g) = some n)

include hready htraps hill hgroup hacc

/-- The three results of an extreme: identity, canonical NaN, or an element that no other precedes (R291). -/
theorem extreme_results {i : Instr} {max : Bool} {op : Nat} (hexec : exec i s = reduceExtreme max op d a k m t s) :
    (s.me.activeBelow k s.me.count = [] → s.yields t d i (BitVec.ofNat 64 (accIdentity (fixedFmt n) max)))
    ∧ ((∃ j, j ∈ s.me.activeBelow k s.me.count ∧ (s.elemNum a j).isNan = true) →
        s.yields t d i (if n = 1 then 0x7FF8000000000000 else 0x7FC00000))
    ∧ (s.me.activeBelow k s.me.count ≠ [] → (∀ j, j ∈ s.me.activeBelow k s.me.count → (s.elemNum a j).isNan = false) →
        ∃ j, j ∈ s.me.activeBelow k s.me.count
          ∧ (∀ l, l ∈ s.me.activeBelow k s.me.count → precedes max (s.elemNum a l) (s.elemNum a j) = false)
          ∧ ((n = 11 ∨ n = 17) → ∀ x, (s.elemNum a j).int? = some x → s.yields t d i (BitVec.ofInt 64 x))
          ∧ (¬(n = 11 ∨ n = 17) → s.yields t d i
              (BitVec.ofNat 64 (roundTo (fixedFmt n) 127 (s.me.rounding m 0 0) (s.elemNum a j)).1))) := by
  refine ⟨extreme_identity hready htraps hill hgroup hacc hexec, fun hnan => ?_, fun hsome hnan => ?_⟩
  · rcases accFormat_cases hacc with ⟨hn, hint⟩ | ⟨-, -, -, hint⟩
    · rw [← nanCode_accumulation hn]
      exact extreme_nan hready htraps hill hgroup hacc hexec hint hnan
    · obtain ⟨j, hj, hn⟩ := hnan
      rw [elemNum_isNan_integers hgroup hint (List.mem_range.mp (List.mem_filter.mp hj).1)] at hn
      cases hn
  · obtain ⟨j, hj, hfirst, hints, hfloats⟩ := extreme_value hready htraps hill hgroup hacc hexec hsome hnan
    refine ⟨j, hj, hfirst, fun hn => ?_, fun hn => ?_⟩
    · rcases accFormat_cases hacc with ⟨hn', -⟩ | ⟨-, hint, hm, -⟩
      · omega
      · exact hints hint hm
    · exact hfloats (Bool.eq_false_iff.mpr fun h => hn ((accFormat_isInt_iff hacc).mpr h))

end

theorem fixedFmt_accInt {n : Nat} (hn : n = 11 ∨ n = 17) : (fixedFmt n).isInt = true ∧ (fixedFmt n).m = 64 := by
  rcases hn with rfl | rfl <;> exact ⟨rfl, rfl⟩

theorem accFormat_float {c : FmtCtx} {f n : Nat} (h : accFormat c f = some n) (hn : ¬(n = 11 ∨ n = 17)) : (fixedFmt n).isInt = false :=
  Bool.eq_false_iff.mpr fun hint => hn ((accFormat_isInt_iff h).mpr hint)

/-- What a scan writes, in numbers: sums of integers modulo the width of the result's format, rounded totals in a floating one. -/
theorem scan_clauses {s : State} {t : BitVec 2} {d a : BitVec 5} {k : BitVec 3} {m : BitVec 2} {g q : Tag} {n : Nat}
    {i : Instr} {incl : Bool} {op : Nat} (hready : s.ready t false = true) (hconf : s.me.configured = true)
    (htraps : s.me.noTraps = true) (hgroup : groupTag (s.me.groupTags a.toNat) = .ok g) (hacc : accFormat s.myCtx (fmtOf g) = some n)
    (hill : s.me.vtypeIll [d, a] = false) (hover : s.me.overlap d a = false) (hq : resultTag s g g none = .ok q)
    (hexec : exec i s = scanV incl op d a k m t s) :
    let tgt := s.myCtx.fmt (fmtOf q)
    ∃ u : State, exec i s = .next (u.retires t) ∧ (s.takeToken t).rowsOnly u ∧ (s.takeToken t).rowsKept u d.toNat s.me.rc
      ∧ (∀ j, j < s.me.count → s.me.act k j = false → s.slot u d.toNat j = s.slot s d.toNat j)
      ∧ (∀ (j : Nat) (x : Nat → Int), j < s.me.count → s.me.act k j = true → (n = 11 ∨ n = 17) → m ≠ 1 → tgt.isInt = true →
          (∀ j, j ∈ s.me.activeBelow k s.me.count → (s.elemNum a j).int? = some (x j)) →
          s.slot u d.toNat j = (((s.me.activeBelow k (j + incl.toNat)).foldl (fun y j => y + x j) 0) % (2 ^ tgt.m : Int)).toNat)
      ∧ (∀ j, j < s.me.count → s.me.act k j = true → ¬(n = 11 ∨ n = 17) → tgt.isInt = false → s.slot u d.toNat j
          = (roundTo tgt (bscOf q) (s.me.rounding m (j / s.me.vl) (j % s.me.vl)) ((s.me.activeBelow k (j + incl.toNat)).foldl
            (fun y j => (fixedFmt n).decode (roundTo (fixedFmt n) 127 ⟨0, 0, false⟩ (y.add 0 (s.elemNum a j)).1).1) .zero)).1
              % 2 ^ s.me.sewBits) := by
  intro tgt
  obtain ⟨u, hnext, honly, hrows, hkept, hwrote⟩ := scan_runs hready hconf htraps hgroup hacc hill hover hq hexec
  refine ⟨u, hnext, honly, hrows, fun j _ => hkept j, fun j x hj hact hn hwrap htgt hx => ?_, fun j hj hact hn htgt => ?_⟩
  · have hcode := scanCode_integers (incl := incl) (fixedFmt_accInt hn).1 (fixedFmt_accInt hn).2 hwrap htgt hx hj
    have hpos : (0 : Int) < 2 ^ tgt.m := by positivity
    have hlt : s.scanCode incl (fixedFmt n) q a k m j < 2 ^ tgt.m := by
      rw [hcode, Int.toNat_lt (Int.emod_nonneg _ hpos.ne')]
      exact_mod_cast Int.emod_lt_of_pos _ hpos
    have hfits : tgt.m ≤ s.me.sewBits := (fmt_isInt_container htgt).2.2 s.me.sewBits ▸ resultTag_fits hq
    rw [hwrote j hj hact, Nat.mod_eq_of_lt (hlt.trans_le (Nat.pow_le_pow_right Nat.two_pos hfits)), hcode]
  · rw [hwrote j hj hact, scanCode_floats (accFormat_float hacc hn) htgt]

/-- Settles O41: each instruction's law above gives its clauses. -/
theorem reductionsAndScans : Obligations.ReductionsAndScans := by
  intro s d a b k m t hready hconf htraps w scalar gives val js rnd isInt ints code ordered under extreme hill
  refine ⟨fun g n hgroup hacc => ?_, vredxor_runs hready hill⟩
  have hcases : n = 1 ∨ n = 2 ∨ n = 11 ∨ n = 17 := by rcases accFormat_cases hacc with ⟨hn, -⟩ | ⟨hn, -⟩ <;> omega
  refine ⟨vredsum_scalarOnly hready htraps hill hgroup hacc,
    extreme_scalarOnly hready htraps hill hgroup hacc (exec_vredmin ..),
    extreme_scalarOnly hready htraps hill hgroup hacc (exec_vredmax ..),
    vredarg_scalarOnly hready htraps hill hgroup hacc, fun x hn hm hx => ?sum, fun hn hrepro => ?sumFloat, ?min, ?max,
    vredarg_none hready htraps hill hgroup hacc, fun j hj hnan hmax => vredarg_index hready htraps hill hgroup hacc hj hnan hmax,
    fun q l hillb hgroupb hga hqa hjoin => ?dot, fun q hilld hover hq => ⟨?scan, ?scanx⟩⟩
  case sum => exact vredsum_integers hready htraps hill hgroup hacc (fixedFmt_accInt hn).1 (fixedFmt_accInt hn).2 hm hx
  case sumFloat => exact vredsum_reproducible hready htraps hill hgroup hacc (accFormat_float hacc hn) hrepro
  case min =>
    have h := extreme_results hready htraps hill hgroup hacc (exec_vredmin d a k m t s)
    rw [accIdentity_min hcases] at h
    exact h
  case max =>
    have h := extreme_results hready htraps hill hgroup hacc (exec_vredmax d a k m t s)
    rw [accIdentity_max hcases] at h
    exact h
  case dot =>
    obtain ⟨r, -, hacc'⟩ := Option.bind_eq_some_iff.mp hjoin
    exact ⟨vdot_scalarOnly hready htraps hillb hgroup hgroupb hga hqa hjoin,
      fun x y hn hm hx hy => vdot_integers hready htraps hillb hgroup hgroupb hga hqa hjoin (fixedFmt_accInt hn).1 (fixedFmt_accInt hn).2 hm hx hy,
      fun hn hrepro => vdot_reproducible hready htraps hillb hgroup hgroupb hga hqa hjoin (accFormat_float hacc' hn) hrepro⟩
  case scan => exact scan_clauses (incl := true) hready hconf htraps hgroup hacc hilld hover hq (exec_vscan ..)
  case scanx => exact scan_clauses (incl := false) hready hconf htraps hgroup hacc hilld hover hq (exec_vscanx ..)

end Sys2Proof.Machine
end

section
/-!
SUPPORT. What a write at a line's home leaves alone (R132, R163, R405), growth and the L1s included (R91, R92, R131).
-/
namespace Sys2Proof.Machine

/-- The tag of a function's capsule that waits for its reset. -/
def State.resetTag? (s : State) (vf : Nat) : Option Nat := (s.vf? vf).bind (fun v => v.resetTag)

/-- What writes at homes leave of the strands and functions: links and segments apart, all. -/
structure HomesOnly (s u : State) : Prop where
  writes : s.writesOnly u
  resets : ∀ k, u.resetTag? k = s.resetTag? k

theorem writesOnly_refl (s : State) : s.writesOnly s := ⟨rfl, rfl⟩

theorem writesOnly_trans {s t u : State} (h : s.writesOnly t) (k : t.writesOnly u) : s.writesOnly u := by
  obtain ⟨hme, hpairs⟩ := h
  obtain ⟨kme, kpairs⟩ := k
  exact ⟨by rw [kme, hme], kpairs.trans hpairs⟩

namespace HomesOnly

theorem refl (s : State) : HomesOnly s s := ⟨writesOnly_refl s, fun _ => rfl⟩

theorem trans {s t u : State} (h : HomesOnly s t) (k : HomesOnly t u) : HomesOnly s u :=
  ⟨writesOnly_trans h.writes k.writes, fun n => (k.resets n).trans (h.resets n)⟩

theorem foldl {α : Type} (f : State → α → State) (h : ∀ s x, HomesOnly s (f s x)) (l : List α) : ∀ s, HomesOnly s (l.foldl f s) := by
  induction l with
  | nil => exact refl
  | cons x l ih => exact fun s => (h s x).trans (ih _)

/-- A step that leaves strands, pairs and functions. -/
theorem of_eq {s u : State} (hme : u.me = s.me) (hpairs : u.pairs = s.pairs) (hvfs : u.vfs = s.vfs) : HomesOnly s u :=
  ⟨⟨by rw [hme], hpairs⟩, fun k => by rw [State.resetTag?, State.vf?, hvfs]; rfl⟩

end HomesOnly

theorem LinesOnly.homes {s u : State} (h : LinesOnly s u) : HomesOnly s u := .of_eq h.me h.pairs h.vfs

theorem updCore_homes (s : State) (c : Nat) (f : Core → Core) : HomesOnly s (s.updCore c f) := .of_eq rfl rfl rfl
theorem updPart_homes (s : State) (p : Nat) (f : Part → Part) : HomesOnly s (s.updPart p f) := .of_eq rfl rfl rfl

theorem breakLinks_homes (s : State) (k : Nat) (keep : Option (Nat × Nat)) : HomesOnly s (s.breakLinks k keep) := by
  refine ⟨writesOnly_breakLinks (.rfl' s) k keep, fun n => ?_⟩
  rw [breakLinks_only]
  rfl

@[simp] theorem breakLinks_cores (s : State) (k : Nat) (keep : Option (Nat × Nat)) : (s.breakLinks k keep).cores = s.cores := by
  rw [breakLinks_only]

/-! ## Segments -/

@[simp] theorem updSeg_me (s : State) (vf i : Nat) (f : Seg → Seg) : (s.updSeg vf i f).me = s.me := updVf_me ..
@[simp] theorem updSeg_cores (s : State) (vf i : Nat) (f : Seg → Seg) : (s.updSeg vf i f).cores = s.cores := updVf_cores ..
@[simp] theorem updSeg_hanks (s : State) (vf i : Nat) (f : Seg → Seg) : (s.updSeg vf i f).hanks = s.hanks := updVf_hanks ..

theorem updVf_lookup (s : State) (vf k : Nat) (f : Vf → Vf) :
    (s.updVf vf f).vfs.lookup k = if k = vf then (s.vfs.lookup vf).map f else s.vfs.lookup k := by
  unfold State.updVf
  by_cases hk : k = vf
  · subst hk
    rw [if_pos rfl]
    cases h : s.vfs.lookup k with
    | none => exact h
    | some v => exact lookup_put_same ..
  · rw [if_neg hk]
    cases s.vfs.lookup vf with
    | none => rfl
    | some v => exact lookup_put_other _ _ _ _ hk

theorem updVf_homes (s : State) (vf : Nat) (f : Vf → Vf) (hf : ∀ v, (f v).resetTag = v.resetTag) : HomesOnly s (s.updVf vf f) := by
  refine ⟨⟨by simp, by simp⟩, fun k => ?_⟩
  simp only [State.resetTag?, State.vf?, updVf_lookup]
  split
  · rename_i hk
    subst hk
    cases s.vfs.lookup k with
    | none => rfl
    | some v => exact hf v
  · rfl

theorem updSeg_homes (s : State) (vf i : Nat) (f : Seg → Seg) : HomesOnly s (s.updSeg vf i f) :=
  updVf_homes _ _ _ (fun v => by split <;> rfl)

/-- The descriptor of a segment after it has been changed. -/
theorem updSeg_seg {s : State} {vf i : Nat} {v : Vf} {g : Seg} (f : Seg → Seg) (hv : s.vf? vf = some v) (hg : v.segs.lookup i = some g) :
    (s.updSeg vf i f).vf? vf = some { v with segs := put v.segs i (f g) } ∧ (s.updSeg vf i f).seg? vf i = some (f g) := by
  have hvf : (s.updSeg vf i f).vf? vf = some { v with segs := put v.segs i (f g) } := by
    rw [State.vf?, State.updSeg, updVf_lookup, if_pos rfl, show s.vfs.lookup vf = some v from hv]
    simp [hg]
  refine ⟨hvf, ?_⟩
  rw [State.seg?, hvf]
  simp [lookup_put_same]

/-- A descriptor that is no host window's is one of its function's table. -/
theorem seg_of_not_host {s : State} {vf i : Nat} {g : Seg} (hg : s.seg? vf i = some g) (hhost : g.host = false) :
    ∃ v, s.vf? vf = some v ∧ v.segs.lookup i = some g := by
  unfold State.seg? at hg
  split at hg
  · cases hg
  · rename_i v hv
    split at hg
    · rename_i w hw
      exact ⟨v, hv, by rw [hw, hg]⟩
    · unfold Vf.hostSeg? at hg
      split at hg
      · obtain ⟨-, -, rfl⟩ := Option.map_eq_some_iff.1 hg
        cases hhost
      · cases hg

theorem seg_congr {s u : State} (h : u.vfs = s.vfs) (vf i : Nat) : u.seg? vf i = s.seg? vf i := by
  unfold State.seg? State.vf?; rw [h]

/-! ## Writes at their homes (R132) -/

/-- The home write of a line: what `applyHome` and `fitWrite` do once the line has been met. -/
theorem putAndBreak_homes (s : State) (l : LineLoc) (d : Line) (t : Tag) (m : ByteMask) (k : Nat) (keep : Option (Nat × Nat)) :
    HomesOnly s ((s.putHome l d t m).breakLinks k keep) :=
  (putHome_lines ..).homes.trans (breakLinks_homes ..)

theorem applyHome_homes (s : State) (l : LineLoc) (w : Write) (keep : Option (Nat × Nat)) (r : Reader) :
    HomesOnly s (s.applyHome l w keep r) := by
  have hput := (meetHome_lines s l (w.typed && w.mask == fullMask) r).homes.trans (putAndBreak_homes _ l
    (mergeWrite (s.meetHome l (w.typed && w.mask == fullMask) r).1 (s.meetHome l (w.typed && w.mask == fullMask) r).2.1 w).1
    (mergeWrite (s.meetHome l (w.typed && w.mask == fullMask) r).1 (s.meetHome l (w.typed && w.mask == fullMask) r).2.1 w).2 w.mask l.key keep)
  cases l with
  | store c i => exact hput
  | page e j => exact hput.trans (updSeg_homes ..)

@[simp] theorem applyHome_cores (s : State) (l : LineLoc) (w : Write) (keep : Option (Nat × Nat)) (r : Reader) :
    (s.applyHome l w keep r).cores = s.cores := by
  have hput (d : Line) (t : Tag) := (breakLinks_cores _ l.key keep).trans
    ((meetHome_lines s l (w.typed && w.mask == fullMask) r).trans (putHome_lines _ l d t w.mask)).cores
  cases l with
  | store c i => exact hput _ _
  | page e j => exact (updSeg_cores ..).trans (hput _ _)

@[simp] theorem applyHome_core (s : State) (l : LineLoc) (w : Write) (keep : Option (Nat × Nat)) (r : Reader) (c : Nat) :
    (s.applyHome l w keep r).core c = s.core c := by
  rw [State.core, applyHome_cores, State.core]

/-! ## Growth (R92, R94) -/

theorem initChunks_lines (s : State) (part : Nat) (chunks : List Nat) (m : Nat) : LinesOnly s (s.initChunks part chunks m) :=
  LinesOnly.foldl _ (fun _ _ => putBank_lines ..) _ s

theorem copySeg_lines (s : State) (part : Nat) (src dst : Seg) (n : Nat) : LinesOnly s (s.copySeg part src dst n) := by
  induction n with
  | zero => exact .rfl' s
  | succ n ih =>
    unfold State.copySeg
    dsimp only
    exact ih.trans ((readStored_lines ..).trans ((reach_lines ..).trans (writeStored_lines ..)))

/-- A segment that grows: its new chunks, and every strand as it was. -/
theorem growSeg_seg {s : State} {vf i : Nat} {v : Vf} {g : Seg} (new : List Nat) (hv : s.vf? vf = some v) (hg : v.segs.lookup i = some g) :
    (s.growSeg vf i new).seg? vf i = some { g with pw := g.lw, chunks := new } ∧ (s.growSeg vf i new).me = s.me := by
  unfold State.growSeg
  simp only [hv, hg]
  have hlines (x : State) := (initChunks_lines x v.part new 1).trans
    (copySeg_lines (x.initChunks v.part new 1) v.part g { g with pw := g.lw, chunks := new } 2048)
  have hx := hlines (s.updPart v.part (fun p => { p with used := p.used ++ new }))
  generalize ((s.updPart v.part (fun p => { p with used := p.used ++ new })).initChunks v.part new 1).copySeg v.part g
    { g with pw := g.lw, chunks := new } 2048 = x at hx
  have hvx : x.vf? vf = some v := by rw [State.vf?, hx.vfs]; exact hv
  constructor
  · exact (seg_congr rfl _ _).trans (updSeg_seg _ hvx hg).2
  · show (x.updSeg vf i _).me = s.me
    rw [updSeg_me, hx.me]
    rfl

theorem growSeg_homes (s : State) (vf i : Nat) (new : List Nat) : HomesOnly s (s.growSeg vf i new) := by
  unfold State.growSeg
  dsimp only
  split
  · exact .refl s
  · split
    · exact .refl s
    · exact (updPart_homes ..).trans (((initChunks_lines ..).trans (copySeg_lines ..)).homes.trans
        ((updSeg_homes ..).trans (updPart_homes ..)))

theorem endPasses_homes (s : State) (vf i : Nat) : HomesOnly s (s.endPasses vf i) := .of_eq rfl rfl rfl

theorem grantChunks_lines (s : State) (part need : Nat) (priv : Bool) (r : Reader) (va : Word) :
    LinesOnly s (s.grantChunks part need priv r va).2 := by
  unfold State.grantChunks
  dsimp only
  by_cases h : (if priv = true then 0 else (s.part part).reserveNow) + need ≤ (s.part part).freeCount
  · rw [if_pos h]
    dsimp only
    split
    · exact logEvent_lines ..
    · exact .rfl' s
  · rw [if_neg h]
    exact logEvent_lines ..

/-- A grant is refused where fewer chunks are free than are needed. -/
theorem grantChunks_refused {s : State} {part need : Nat} (h : (s.part part).freeCount < need) (priv : Bool) (r : Reader) (va : Word) :
    s.grantChunks part need priv r va = (none, s.logEvent part 0x07 r.vf r.coord va (BitVec.ofNat 64 need)) := by
  unfold State.grantChunks
  dsimp only
  rw [if_neg (by omega)]

end Sys2Proof.Machine
end

section
/-!
SUPPORT. Stores by cores (R131, R132), and dirty lines of L1s written back (R132, R175, R317).
-/
namespace Sys2Proof.Machine

theorem core_updCore_same (s : State) (c : Nat) (f : Core → Core) : (s.updCore c f).core c = f (s.core c) := look_put_same ..

theorem core_updCore_other (s : State) (c k : Nat) (f : Core → Core) (h : k ≠ c) : (s.updCore c f).core k = s.core k :=
  look_put_other _ _ _ _ _ h

/-! ### Lines of an L1 by their keys -/

theorem line_mem {c : Core} {key : Nat} {l : L1Line} (h : c.line? key = some l) : l ∈ c.l1 ∧ l.key = key :=
  ⟨List.mem_of_find?_eq_some h, by simpa using List.find?_some h⟩

theorem line_none {c : Core} {key : Nat} (h : c.line? key = none) (l : L1Line) (hl : l ∈ c.l1) : l.key ≠ key := by
  simpa using List.find?_eq_none.1 h l hl

@[simp] theorem dropLine_line (c : Core) (key : Nat) : (c.dropLine key).line? key = none := by
  simp [Core.line?, Core.dropLine, List.find?_eq_none]

theorem line_map (c : Core) (key : Nat) (f : L1Line → L1Line) (hf : ∀ x, (f x).key = x.key) :
    ({ c with l1 := c.l1.map f } : Core).line? key = (c.line? key).map f := by
  simp [Core.line?, List.find?_map, hf]

theorem mem_dropLine {c : Core} {key : Nat} {l : L1Line} : l ∈ (c.dropLine key).l1 ↔ l ∈ c.l1 ∧ l.key ≠ key := by
  simp [Core.dropLine]

/-! ### Write-backs -/

theorem writeBackLine_homes (s : State) (core key : Nat) : HomesOnly s (s.writeBackLine core key) := by
  unfold State.writeBackLine
  split
  · exact .refl s
  · split
    · exact .refl s
    · exact (applyHome_homes ..).trans (updCore_homes ..)

/-- A clean line, and one that the L1 does not hold, is not written back. -/
theorem writeBackLine_clean {s : State} {core key : Nat} (h : ∀ l, (s.core core).line? key = some l → l.dirty = 0) :
    s.writeBackLine core key = s := by
  unfold State.writeBackLine
  split
  · rfl
  · rename_i l hl
    exact if_pos (h l hl)

/-- An L1 line with its bytes written back, of which the home now holds the tag `tag`. -/
def L1Line.clean (l : L1Line) (tag : Tag) : L1Line := { l with valid := fullMask, dirty := 0, fill := tag, typed := false, whole := false }

/-- The line stays after a write-back: the L1 held it whole, and its home has the tag that a read saw (assumption 70). -/
def L1Line.stays (l : L1Line) (tag : Tag) : Bool := l.filled && l.valid ||| l.dirty == fullMask && tag == l.seen

theorem stays_iff (l : L1Line) (tag : Tag) :
    l.stays tag = true ↔ l.valid ||| l.dirty = fullMask ∧ l.filled = true ∧ tag = l.seen := by
  simp only [L1Line.stays, Bool.and_eq_true, beq_iff_eq]
  tauto

/-- An L1 whose line of a key has been written back. -/
def Core.cleanLine (c : Core) (key : Nat) (tag : Tag) : Core :=
  { c with l1 := c.l1.map (fun x => if x.key = key then x.clean tag else x) }

/-- A dirty line written back: its home merges its bytes, and the L1 keeps it clean or not at all. -/
theorem writeBackLine_dirty {s : State} {core key : Nat} {l : L1Line} (h : (s.core core).line? key = some l) (hd : l.dirty ≠ 0) :
    let home := s.applyHome l.loc l.write none {}
    let tag := (home.readHome l.loc {}).2.1
    s.writeBackLine core key = home.updCore core (fun c => if l.stays tag = true then c.cleanLine key tag else c.dropLine key) := by
  intro home tag
  unfold State.writeBackLine
  simp only [h, if_neg hd]
  rfl

theorem cleanLine_line {c : Core} {key : Nat} {l : L1Line} (h : c.line? key = some l) (tag : Tag) :
    (c.cleanLine key tag).line? key = some (l.clean tag) := by
  rw [Core.cleanLine, line_map _ _ _ (fun x => by split <;> rfl), h, Option.map_some, if_pos (line_mem h).2]

/-- What a write-back leaves of its line. -/
theorem writeBackLine_line {s : State} {core key : Nat} {l : L1Line} (h : (s.core core).line? key = some l) (hd : l.dirty ≠ 0) :
    let home := s.applyHome l.loc l.write none {}
    let tag := (home.readHome l.loc {}).2.1
    ((s.writeBackLine core key).core core).line? key
      = if l.valid ||| l.dirty = fullMask ∧ l.filled = true ∧ tag = l.seen then some (l.clean tag) else none := by
  intro home tag
  rw [writeBackLine_dirty h hd, core_updCore_same, applyHome_core]
  simp only [← stays_iff]
  by_cases hk : l.stays tag = true
  · rw [if_pos hk, if_pos hk]
    exact cleanLine_line h tag
  · rw [if_neg hk, if_neg hk]
    exact dropLine_line ..

/-! ### What write-backs leave in the L1s -/

/-- The L1s hold no new line, and each that they still hold is clean or as it was. -/
def State.cleansL1 (s u : State) : Prop :=
  ∀ c, ((u.core c).l1.map (fun l => l.key)).Sublist ((s.core c).l1.map (fun l => l.key))
    ∧ ∀ l, l ∈ (u.core c).l1 → l.dirty = 0 ∨ l ∈ (s.core c).l1

theorem cleansL1_refl (s : State) : s.cleansL1 s := fun _ => ⟨List.Sublist.refl _, fun _ hl => .inr hl⟩

theorem cleansL1_trans {s t u : State} (h : s.cleansL1 t) (k : t.cleansL1 u) : s.cleansL1 u := fun c =>
  ⟨(k c).1.trans (h c).1, fun l hl => ((k c).2 l hl).elim .inl ((h c).2 l)⟩

theorem cleansL1_updCore (s : State) (c : Nat) (f : Core → Core)
    (hkeys : ((f (s.core c)).l1.map (fun l => l.key)).Sublist ((s.core c).l1.map (fun l => l.key)))
    (hclean : ∀ l, l ∈ (f (s.core c)).l1 → l.dirty = 0 ∨ l ∈ (s.core c).l1) : s.cleansL1 (s.updCore c f) := by
  intro k
  by_cases hk : k = c
  · subst hk
    rw [core_updCore_same]
    exact ⟨hkeys, hclean⟩
  · rw [core_updCore_other _ _ _ _ hk]
    exact cleansL1_refl s k

theorem dropLine_cleansL1 (s : State) (c key : Nat) : s.cleansL1 (s.updCore c (fun x => x.dropLine key)) :=
  cleansL1_updCore s c _ (List.filter_sublist.map _) (fun _ hl => .inr (mem_dropLine.1 hl).1)

theorem cleanLine_keys (c : Core) (key : Nat) (tag : Tag) :
    (c.cleanLine key tag).l1.map (fun l => l.key) = c.l1.map (fun l => l.key) := by
  simp only [Core.cleanLine, List.map_map]
  exact List.map_congr_left (fun x _ => by dsimp only [Function.comp_apply]; split <;> rfl)

theorem mem_cleanLine {c : Core} {key : Nat} {tag : Tag} {l : L1Line} (h : l ∈ (c.cleanLine key tag).l1) :
    l.dirty = 0 ∨ l ∈ c.l1 ∧ l.key ≠ key := by
  obtain ⟨x, hx, rfl⟩ := List.mem_map.1 h
  by_cases hk : x.key = key
  · rw [if_pos hk]; exact .inl rfl
  · rw [if_neg hk]; exact .inr ⟨hx, hk⟩

theorem writeBackLine_cleansL1 (s : State) (core key : Nat) : s.cleansL1 (s.writeBackLine core key) := by
  by_cases h : ∀ l, (s.core core).line? key = some l → l.dirty = 0
  · rw [writeBackLine_clean h]
    exact cleansL1_refl s
  · push Not at h
    obtain ⟨l, hl, hd⟩ := h
    rw [writeBackLine_dirty hl hd]
    have hhome : s.cleansL1 (s.applyHome l.loc l.write none {}) := fun c => by rw [applyHome_core]; exact cleansL1_refl s c
    refine cleansL1_trans hhome (cleansL1_updCore _ _ _ ?_ ?_)
    · split
      · rw [cleanLine_keys]
      · exact List.filter_sublist.map _
    · intro x hx
      split at hx
      · exact (mem_cleanLine hx).imp_right And.left
      · exact .inr (mem_dropLine.1 hx).1

/-- A line of the key that is left after a write-back is clean, where the L1 lists each key once. -/
theorem writeBackLine_cleans {s : State} {core key : Nat} (hnodup : ((s.core core).l1.map (fun l => l.key)).Nodup) (l : L1Line)
    (hl : l ∈ ((s.writeBackLine core key).core core).l1) (hkey : l.key = key) : l.dirty = 0 := by
  by_cases h : ∀ l, (s.core core).line? key = some l → l.dirty = 0
  · rw [writeBackLine_clean h] at hl
    cases hfind : (s.core core).line? key with
    | none => exact absurd hkey (line_none hfind l hl)
    | some x =>
      obtain ⟨hx, hxkey⟩ := line_mem hfind
      rw [List.inj_on_of_nodup_map hnodup hl hx (hkey.trans hxkey.symm)]
      exact h x hfind
  · push Not at h
    obtain ⟨x, hx, hd⟩ := h
    rw [writeBackLine_dirty hx hd, core_updCore_same] at hl
    split at hl
    · exact (mem_cleanLine hl).resolve_right (fun h => h.2 hkey)
    · exact absurd hkey (mem_dropLine.1 hl).2

/-- Write-backs of lines among which each dirty one of the core's L1 is leave none dirty. -/
theorem foldl_writeBackLine_clean (core : Nat) (ls : List L1Line) : ∀ s : State,
    ((s.core core).l1.map (fun l => l.key)).Nodup → (∀ l, l ∈ (s.core core).l1 → l.dirty ≠ 0 → ∃ x, x ∈ ls ∧ x.key = l.key) →
      ∀ l, l ∈ ((ls.foldl (fun s l => s.writeBackLine core l.key) s).core core).l1 → l.dirty = 0 := by
  induction ls with
  | nil =>
    intro s _ hall l hl
    by_contra hd
    obtain ⟨x, hx, -⟩ := hall l hl hd
    cases hx
  | cons x ls ih =>
    intro s hnodup hall
    obtain ⟨hkeys, hclean⟩ := writeBackLine_cleansL1 s core x.key core
    refine ih _ (hkeys.nodup hnodup) (fun l hl hd => ?_)
    obtain ⟨y, hy, hykey⟩ := hall l ((hclean l hl).resolve_left hd) hd
    rcases List.mem_cons.1 hy with rfl | hy
    · exact absurd (writeBackLine_cleans hnodup l hl hykey.symm) hd
    · exact ⟨y, hy, hykey⟩

/-- The sweep of a core's L1 leaves no line of it dirty (R175). -/
theorem writeBackCore_clean {s : State} {core : Nat} (hnodup : ((s.core core).l1.map (fun l => l.key)).Nodup) (l : L1Line)
    (hl : l ∈ ((s.writeBackCore core).core core).l1) : l.dirty = 0 :=
  foldl_writeBackLine_clean core _ s hnodup (fun l hl hd => ⟨l, List.mem_filter.2 ⟨hl, by simpa using hd⟩, rfl⟩) l hl

/-! ### A key that no L1 holds any more (R317) -/

/-- Write back a core's line of a key, and drop it. -/
def State.evictKey (s : State) (core key : Nat) : State := (s.writeBackLine core key).updCore core (fun c => c.dropLine key)

theorem evictKey_homes (s : State) (core key : Nat) : HomesOnly s (s.evictKey core key) :=
  (writeBackLine_homes ..).trans (updCore_homes ..)

theorem evictKey_cleansL1 (s : State) (core key : Nat) : s.cleansL1 (s.evictKey core key) :=
  cleansL1_trans (writeBackLine_cleansL1 s core key) (dropLine_cleansL1 _ core key)

theorem evictKey_gone (s : State) (core key : Nat) : key ∉ ((s.evictKey core key).core core).l1.map (fun l => l.key) := by
  rw [State.evictKey, core_updCore_same]
  intro h
  obtain ⟨l, hl, hkey⟩ := List.mem_map.1 h
  exact (mem_dropLine.1 hl).2 hkey

/-- Evicted from each core of a list that names every holder, a key is held by none. -/
theorem foldl_evictKey_gone (key : Nat) (cs : List (Nat × Core)) : ∀ s : State,
    (∀ c, key ∈ (s.core c).l1.map (fun l => l.key) → ∃ e, e ∈ cs ∧ e.1 = c) →
      ∀ c, key ∉ ((cs.foldl (fun s e => s.evictKey e.1 key) s).core c).l1.map (fun l => l.key) := by
  induction cs with
  | nil =>
    intro s hall c hc
    obtain ⟨e, he, -⟩ := hall c hc
    cases he
  | cons e cs ih =>
    intro s hall
    refine ih _ (fun c hc => ?_)
    have hold := (evictKey_cleansL1 s e.1 key c).1.subset hc
    obtain ⟨x, hx, rfl⟩ := hall c hold
    rcases List.mem_cons.1 hx with rfl | hx
    · exact absurd hc (evictKey_gone s x.1 key)
    · exact ⟨x, hx, rfl⟩

/-- A core that holds a line is listed. -/
theorem listed_of_key {s : State} {c key : Nat} (h : key ∈ (s.core c).l1.map (fun l => l.key)) : ∃ e, e ∈ s.cores ∧ e.1 = c := by
  cases hc : s.cores.lookup c with
  | none => simp [State.core, look, hc] at h
  | some x =>
    obtain ⟨l, r, hcores, -⟩ := List.lookup_eq_some_iff.1 hc
    exact ⟨(c, x), by simp [hcores], rfl⟩

theorem holdsHost_false {c : Core} {line : Nat} (h : hostKey (128 * line) ∉ c.l1.map (fun l => l.key)) : c.holdsHost line = false := by
  unfold Core.holdsHost
  rw [List.any_eq_false]
  intro l hl
  rw [beq_iff_eq]
  exact fun hk => h (List.mem_map.2 ⟨l, hl, hk⟩)

/-- A host snoop: the L1s that are listed give the line up, and the answer says whether one held it dirty. -/
theorem execHostSnoop_eq (line : Nat) (s : State) :
    let u := s.cores.foldl (fun s e => s.evictKey e.1 (hostKey (128 * line))) s
    execHostSnoop line s = .next { u with outbox := u.outbox ++ [.snoop line
      (s.cores.any (fun c => c.2.l1.any (fun l => l.key == hostKey (128 * line) && l.dirty != 0)))] } := by
  unfold State.evictKey
  rfl

/-! ### Stores by a core (R131) -/

theorem install_writes (s : State) (core : Nat) (l : L1Line) : s.writesOnly (s.install core l) := by
  unfold State.install
  dsimp only
  refine (HomesOnly.trans ?_ (updCore_homes ..)).writes
  split
  · split
    · exact updCore_homes ..
    · exact (updCore_homes ..).trans (applyHome_homes ..)
  · exact .refl s

theorem refreshL1_writes (s : State) (core : Nat) (e : TlbEntry) (j : Nat) (w : Write) : s.writesOnly (s.refreshL1 core e j w) := by
  unfold State.refreshL1
  dsimp only
  split
  · exact writesOnly_refl s
  · exact (updCore_homes ..).writes

theorem storeL1_writes (s : State) (core : Nat) (e : TlbEntry) (j : Nat) (w : Write) (hint : Nat) :
    s.writesOnly (s.storeL1 core e j w hint) := by
  unfold State.storeL1
  dsimp only
  split
  · have hback := (writeBackLine_homes s (s.l1Core core e j) (LineLoc.page e j).key).writes
    split
    · exact writesOnly_trans hback (applyHome_homes ..).writes
    · exact writesOnly_trans hback (install_writes ..)
  · split
    · exact (applyHome_homes ..).writes
    · exact install_writes ..

/-! ### Fit-checked writes (R91) -/

/-- A page line as a write of it finds it. -/
def State.metPage (s : State) (e : TlbEntry) (j : Nat) (w : Write) (r : Reader) : Line × Tag × State :=
  s.meetHome (.page e j) (w.typed && w.mask == fullMask) r

/-- A page line put as a write of it leaves it: its links break, and its segment is dirty. -/
def State.putPage (s : State) (e : TlbEntry) (j : Nat) (x : Line × Tag) (mask : ByteMask) (keep : Option (Nat × Nat)) : State :=
  ((s.putHome (.page e j) x.1 x.2 mask).breakLinks (LineLoc.page e j).key keep).updSeg e.vf e.iseg (fun g => { g with dirty := true })

/-- The line that a write of a page line leaves. -/
def State.mergedPage (s : State) (e : TlbEntry) (j : Nat) (w : Write) (r : Reader) : Line × Tag :=
  mergeWrite (s.metPage e j w r).1 (s.metPage e j w r).2.1 w

/-- The write fits the segment as it is stored. -/
def State.fitsPage (s : State) (e : TlbEntry) (j : Nat) (w : Write) (r : Reader) : Bool :=
  (s.metPage e j w r).2.2.fitsWrite ((s.metPage e j w r).2.2.stored e j) (s.mergedPage e j w r).2 w

/-- The request for the chunks that a write which does not fit needs. -/
def State.growthFor (s : State) (e : TlbEntry) (j : Nat) (w : Write) (priv : Bool) (r : Reader) (va : Word) : Option (List Nat) × State :=
  ((s.metPage e j w r).2.2.endPasses e.vf e.iseg).grantChunks ((s.metPage e j w r).2.2.vfPart e.vf) 16 priv r va

section
variable {s : State} {e : TlbEntry} {j : Nat} {w : Write} {keep : Option (Nat × Nat)} {priv : Bool} {r : Reader} {va : Word}

theorem fitWrite_fits (h : s.fitsPage e j w r = true) : s.fitWrite e j w keep priv r va
    = (some ((s.metPage e j w r).2.2.putPage e j (s.mergedPage e j w r) w.mask keep), (s.metPage e j w r).2.2) := if_pos h

theorem fitWrite_denied {u : State} (h : s.fitsPage e j w r = false) (hg : s.growthFor e j w priv r va = (none, u)) :
    s.fitWrite e j w keep priv r va = (none, u) := by
  unfold State.fitsPage State.mergedPage State.metPage at h
  unfold State.growthFor State.metPage at hg
  simp only [State.fitWrite, h, hg]
  rfl

theorem fitWrite_grown {u : State} {new : List Nat} (h : s.fitsPage e j w r = false)
    (hg : s.growthFor e j w priv r va = (some new, u)) : s.fitWrite e j w keep priv r va
      = (some ((u.growSeg e.vf e.iseg new).putPage e j (s.mergedPage e j w r) w.mask keep), u) := by
  unfold State.fitsPage State.mergedPage State.metPage at h
  unfold State.growthFor State.metPage at hg
  simp only [State.fitWrite, h, hg]
  rfl

end

theorem metPage_lines (s : State) (e : TlbEntry) (j : Nat) (w : Write) (r : Reader) : LinesOnly s (s.metPage e j w r).2.2 :=
  meetHome_lines ..

theorem putPage_homes (s : State) (e : TlbEntry) (j : Nat) (x : Line × Tag) (mask : ByteMask) (keep : Option (Nat × Nat)) :
    HomesOnly s (s.putPage e j x mask keep) := (putAndBreak_homes ..).trans (updSeg_homes ..)

theorem growthFor_homes (s : State) (e : TlbEntry) (j : Nat) (w : Write) (priv : Bool) (r : Reader) (va : Word) :
    HomesOnly s (s.growthFor e j w priv r va).2 :=
  (metPage_lines s e j w r).homes.trans ((endPasses_homes ..).trans (grantChunks_lines ..).homes)

theorem fitWrite_writes (s : State) (e : TlbEntry) (j : Nat) (w : Write) (keep : Option (Nat × Nat)) (priv : Bool) (r : Reader) (va : Word) :
    s.writesOnly ((s.fitWrite e j w keep priv r va).1.getD (s.fitWrite e j w keep priv r va).2) := by
  cases hfits : s.fitsPage e j w r with
  | true =>
    rw [fitWrite_fits hfits]
    exact ((metPage_lines ..).homes.trans (putPage_homes ..)).writes
  | false =>
    have hgrowth := growthFor_homes s e j w priv r va
    rcases hg : s.growthFor e j w priv r va with ⟨_ | new, u⟩
    · rw [hg] at hgrowth
      rw [fitWrite_denied hfits hg]
      exact hgrowth.writes
    · rw [hg] at hgrowth
      rw [fitWrite_grown hfits hg]
      exact (hgrowth.trans ((growSeg_homes ..).trans (putPage_homes ..))).writes

theorem storeLine_writes (s : State) (core : Nat) (l : LineLoc) (w : Write) (hint : Nat) (priv : Bool) (r : Reader) (va : Word) :
    s.writesOnly ((s.storeLine core l w hint priv r va).1.getD (s.storeLine core l w hint priv r va).2) := by
  cases l with
  | store c i => exact (applyHome_homes s (.store c i) w none r).writes
  | page e j =>
    unfold State.storeLine
    dsimp only
    split
    · have hfit := fitWrite_writes s e j w none priv r va
      split
      · rename_i t u hu
        rw [hu] at hfit
        exact writesOnly_trans hfit (refreshL1_writes ..)
      · rename_i u hu
        rw [hu] at hfit
        exact hfit
    · split
      · exact storeL1_writes ..
      · exact writesOnly_trans (applyHome_homes ..).writes (refreshL1_writes ..)

end Sys2Proof.Machine
end

section
/-!
PROOFS. Recoding requests, and the homes of lines (R91, R92, R132, R175, R239, R240, R317, R335).
-/
namespace Sys2Proof.Machine

/-! ### RCREQ (R239) -/

/-- The policy of the strand's function permits a format. -/
def State.demotes (s : State) (f : Nat) : Prop := ∃ v, s.vfs.lookup s.me.vf = some v ∧ v.policy.demFmt.getLsbD f = true

/-- An RCREQ of `n` segments under operand `x` is one that queues requests. -/
def State.recodes (s : State) (n x : Nat) : Prop :=
  0 < n ∧ n ≤ 4096 ∧ x < 2 ^ 15 ∧ (s.myCtx.fmt (x % 64)).isReal = true ∧ s.demotes (x % 64)

/-- The requests of an RCREQ at `va` under operand `x`. -/
def State.requestsFor (s : State) (va x k : Nat) : List RceReq :=
  (List.range k).map (fun i =>
    { vf := s.me.vf, part := s.me.part, vseg := va / 2 ^ 18 + i, fmt := x % 64, bsc := x / 2 ^ 6 % 2 ^ 8,
      auto := x / 2 ^ 14 % 2 == 1, fmts := s.myCtx.fmts })

/-- The number of segments that an RCREQ queues: those asked for, as far as the address space and the queue go. -/
def State.requestRoom (s : State) (va n : Nat) : Nat := min (min n (2 ^ 38 - va / 2 ^ 18)) (256 - (s.hank (hankOf s.me.core)).rce.length)

section
variable {s : State} {d a b c : BitVec 5} {t : BitVec 2} (hready : s.ready t false = true)
include hready

theorem rcreq_traps (hva : 2 ^ 56 ≤ (s.reg a).toNat) :
    exec (.rcreq d a b c t) s = (s.takeToken t).takeTrap { cause := 5, val := s.reg a } := by
  rw [exec_rcreq, execRcreq, runOrdered, runInstr_ready _ _ _ _ hready]
  simp only [takeToken_reg, if_pos hva]
  rfl

theorem rcreq_refused (hva : (s.reg a).toNat < 2 ^ 56) (hbad : ¬ s.recodes (s.reg b).toNat (s.reg c).toNat) :
    exec (.rcreq d a b c t) s = .next (((s.takeToken t).setReg d 0).retires t) := by
  rw [exec_rcreq, execRcreq, runOrdered, runInstr_ready _ _ _ _ hready]
  simp only [takeToken_reg, takeToken_myCtx, takeToken_vf, State.vf?, takeToken_vfs, if_neg (Nat.not_le_of_lt hva)]
  rw [if_pos, settle_retires]
  by_contra hgood
  push Not at hgood
  obtain ⟨hpos, hmost, hx, hreal, hdem⟩ := hgood
  refine hbad ⟨by omega, hmost, hx, by simpa using hreal, ?_⟩
  cases hv : s.vfs.lookup s.me.vf with
  | none => simp [hv] at hdem
  | some v => exact ⟨v, hv, by simpa [hv] using hdem⟩

theorem rcreq_queues (hva : (s.reg a).toNat < 2 ^ 56) (hok : s.recodes (s.reg b).toNat (s.reg c).toNat) :
    let k := s.requestRoom (s.reg a).toNat (s.reg b).toNat
    let v := (s.takeToken t).updHank (hankOf s.me.core) (fun q => { q with rce := q.rce ++ s.requestsFor (s.reg a).toNat (s.reg c).toNat k })
    exec (.rcreq d a b c t) s = .next ((v.setReg d (BitVec.ofNat 64 k)).retires t) := by
  intro k v
  obtain ⟨hpos, hmost, hx, hreal, f, hf, hdem⟩ := hok
  rw [exec_rcreq, execRcreq, runOrdered, runInstr_ready _ _ _ _ hready]
  simp only [takeToken_reg, takeToken_myCtx, takeToken_vf, State.vf?, takeToken_vfs, if_neg (Nat.not_le_of_lt hva), hf]
  rw [if_neg, settle_retires]
  · simp only [takeToken_core, takeToken_part, State.hank, takeToken_hanks]
    rfl
  · rw [hreal, hdem]
    rintro (h | h | h | h | h)
    · omega
    · omega
    · omega
    · cases h
    · cases h

end

/-! ### The engine's requests (R240) -/

theorem hank_updHank_same (s : State) (h : Nat) (f : Hank → Hank) : (s.updHank h f).hank h = f (s.hank h) := look_put_same ..

theorem hank_updHank_other (s : State) (h k : Nat) (f : Hank → Hank) (hk : k ≠ h) : (s.updHank h f).hank k = s.hank k :=
  look_put_other _ _ _ _ _ hk

/-- The requests of every engine are as they were. -/
def State.keepsRequests (s u : State) : Prop := ∀ h, (u.hank h).rce = (s.hank h).rce

theorem keepsRequests_trans {s t u : State} (h : s.keepsRequests t) (k : t.keepsRequests u) : s.keepsRequests u :=
  fun n => (k n).trans (h n)

theorem LinesOnly.keepsRequests {s u : State} (h : LinesOnly s u) : s.keepsRequests u := fun n => by
  rw [State.hank, h.hanks, State.hank]

theorem updHank_keepsRequests (s : State) (h : Nat) (f : Hank → Hank) (hf : ∀ x, (f x).rce = x.rce) : s.keepsRequests (s.updHank h f) := by
  intro k
  by_cases hk : k = h
  · subst hk
    rw [hank_updHank_same, hf]
  · rw [hank_updHank_other _ _ _ _ hk]

theorem s2Find_keepsRequests (s : State) (hank vf i : Nat) : s.keepsRequests (s.s2Find hank vf i).2 := by
  unfold State.s2Find
  dsimp only
  split
  · exact fun _ => rfl
  · exact updHank_keepsRequests _ _ _ (fun _ => rfl)

theorem holdTable_keepsRequests (s : State) (hank vf va lvl next : Nat) : s.keepsRequests (s.holdTable hank vf va lvl next) :=
  updHank_keepsRequests _ _ _ (fun _ => rfl)

/-- A fold of steps that change lines alone, and gather something as they go, changes lines alone. -/
theorem LinesOnly.foldl_snd {α β : Type} (f : α × State → β → α × State) (h : ∀ x b, LinesOnly x.2 (f x b).2) (l : List β) :
    ∀ x : α × State, LinesOnly x.2 (l.foldl f x).2 := by
  induction l with
  | nil => exact fun x => .rfl' x.2
  | cons b l ih => exact fun x => (h x b).trans (ih _)

theorem rceRead_lines (s : State) (vf i j n : Nat) : LinesOnly s (s.rceRead vf i j n).2 := by
  unfold State.rceRead
  refine LinesOnly.foldl_snd (α := List (Line × Tag)) (β := Nat) _ (fun x k => ?_) _ ([], s)
  exact readHome_lines ..

theorem rceWanted_lines (s : State) (q : RceReq) (i dem : Nat) (g : Seg) : LinesOnly s (s.rceWanted q i dem g).2 := by
  have hread := rceRead_lines s q.vf i 0 2048
  unfold State.rceWanted
  generalize hx : s.rceRead q.vf i 0 2048 = x at hread ⊢
  obtain ⟨lines, u⟩ := x
  by_cases h : dem = 2 ∧ q.newPw g.lw < g.pw
  · rw [if_pos h]
    exact hread
  · rw [if_neg h]
    exact .rfl' s

theorem leafFrom_keepsRequests (hank : Nat) (q : RceReq) (va n : Nat) : ∀ (s : State) (ia : Nat),
    s.keepsRequests (s.leafFrom hank q va n ia).2 := by
  induction n with
  | zero => exact fun _ _ _ => rfl
  | succ n ih =>
    intro s ia
    have hfind := s2Find_keepsRequests s hank q.vf ((ia + 8 * s1Index va n) / 2 ^ 18)
    unfold State.leafFrom
    dsimp only
    split
    · rename_i u hu
      rw [hu] at hfind
      exact hfind
    · rename_i g u hu
      rw [hu] at hfind
      split
      · exact hfind
      · have hread := keepsRequests_trans hfind (keepsRequests_trans
          (updHank_keepsRequests u hank (fun h => { h with refs := h.refs + 1 }) (fun _ => rfl)) (readHome_lines _ (.page
            (g.homeEntry q.vf ((ia + 8 * s1Index va n) / 2 ^ 18)) ((ia + 8 * s1Index va n) % 2 ^ 18 / 128)) {}).keepsRequests)
        generalize State.readHome _ (.page (g.homeEntry q.vf ((ia + 8 * s1Index va n) / 2 ^ 18))
          ((ia + 8 * s1Index va n) % 2 ^ 18 / 128)) {} = x at hread ⊢
        generalize (if classOf x.2.1 = 0 then x.1.toNat / 2 ^ (8 * ((ia + 8 * s1Index va n) % 128)) % 2 ^ 64 else 0) = e
        split
        · exact hread
        · split
          · exact hread
          · exact keepsRequests_trans hread (keepsRequests_trans (holdTable_keepsRequests _ hank q.vf va n _) (ih _ _))

theorem rceTarget_keepsRequests (s : State) (hank : Nat) (q : RceReq) : s.keepsRequests (s.rceTarget hank q).2 := by
  have hleaf : s.keepsRequests (s.rceLeaf hank q).2 := leafFrom_keepsRequests hank q _ _ s _
  unfold State.rceTarget
  split
  · exact fun _ => rfl
  · split
    · rename_i u hu
      rw [hu] at hleaf
      exact hleaf
    · rename_i i dem u hu
      rw [hu] at hleaf
      split
      · exact hleaf
      · rename_i g _
        split
        · exact hleaf
        · exact keepsRequests_trans hleaf (rceWanted_lines _ q i dem g).keepsRequests

theorem rceHead_drops {s : State} {hank : Nat} {q : RceReq} {rest : List RceReq} (h : (s.hank hank).rce = q :: rest) :
    ((s.rceHead hank (fun _ => none)).hank hank).rce = rest := by
  rw [State.rceHead, hank_updHank_same]
  simp only [h]

@[simp] theorem rceHead_vfs (s : State) (hank : Nat) (f : RceReq → Option RceReq) : (s.rceHead hank f).vfs = s.vfs := rfl

/-- Lines packed at PW′ into the chunks that a segment keeps. -/
def State.packInto (s : State) (part : Nat) (keep : List Nat) (lw pw : Nat) (lines : List (Line × Tag)) : State :=
  (List.range (2048 / (lw / pw))).foldl (fun s k =>
    let a := (s.part part).chunkLine keep k
    let grp := packGroup lines (lw / pw) k
    (s.reach false a {}).writeLine false a (packPayload lw pw grp) (packWord grp)) s

theorem packInto_lines (s : State) (part : Nat) (keep : List Nat) (lw pw : Nat) (lines : List (Line × Tag)) :
    LinesOnly s (s.packInto part keep lw pw lines) :=
  LinesOnly.foldl _ (fun _ _ => (reach_lines ..).trans (writeLine_lines ..)) _ s

/-- Every machine line of a segment fits at PW′. -/
def RceReq.packs (q : RceReq) (lw : Nat) (lines : List (Line × Tag)) : Bool :=
  (List.range (2048 / (lw / q.newPw lw))).all (fun k => packFits q.ctx lw (q.newPw lw) (packGroup lines (lw / q.newPw lw) k))

/-- The head request's segment, packed: the request is done, and the chunks that it frees return. -/
def State.packed (s : State) (hank : Nat) (q : RceReq) (i : Nat) (g : Seg) (lines : List (Line × Tag)) : State :=
  let m := g.lw / q.newPw g.lw
  let keep := g.chunks.take (16 / m)
  (((s.packInto (s.vfPart q.vf) keep g.lw (q.newPw g.lw) lines).updSeg q.vf i (fun x => { x with pw := q.newPw g.lw, chunks := keep })).updPart
    (s.vfPart q.vf) (fun p => { p with used := p.used.filter (fun c => !(g.chunks.drop (16 / m)).contains c) })).rceHead hank (fun _ => none)

section
variable {s : State} {hank : Nat} {q : RceReq} {rest : List RceReq} (h : (s.hank hank).rce = q :: rest)
include h

theorem rceLine_ended (hended : q.ended = true) : exec (.rceLineRecode hank) s = .next (s.rceHead hank (fun _ => none)) := by
  rw [exec_rceLineRecode, execRceLineRecode, State.rceLine]
  simp only [h, hended, if_true]

theorem rceLine_skips (hended : q.ended = false) {u : State} (hu : s.rceTarget hank q = (none, u)) :
    exec (.rceLineRecode hank) s = .next (u.rceHead hank (fun _ => none)) := by
  rw [exec_rceLineRecode, execRceLineRecode, State.rceLine]
  simp only [h, hended, hu, Bool.false_eq_true, if_false]

variable {i : Nat} {g : Seg} (hended : q.ended = false) (hseg : q.iseg = some i) (hg : s.seg? q.vf i = some g)
include hended hseg hg

theorem rceLine_rewrites (hnext : q.next < 2048) : exec (.rceLineRecode hank) s
    = .next ((s.rceHead hank (fun y => some { y with iseg := some i })).rceRewrite hank q i g) := by
  have htarget : s.rceTarget hank q = (some (i, g), s) := by simp [State.rceTarget, hseg, hg]
  rw [exec_rceLineRecode, execRceLineRecode, State.rceLine]
  simp only [h, hended, htarget, Bool.false_eq_true, if_false, if_pos hnext]

theorem rcePack_full (hnext : 2048 ≤ q.next) {lines : List (Line × Tag)} {u : State} (hread : s.rceRead q.vf i 0 2048 = (lines, u)) :
    exec (.rcePack hank) s
      = .next (if q.packs g.lw lines = true then u.packed hank q i g lines else u.rceHead hank (fun _ => none)) := by
  have hready : ¬(q.ended = true ∨ q.next < 2048) := by simp [hended, hnext]
  rw [exec_rcePack, execRcePack, State.rcePack]
  simp only [h, hseg, if_neg hready, hg, hread, RceReq.packs, State.packed, State.packInto]
  rfl

end

theorem rcePack_waits {s : State} {hank : Nat} {q : RceReq} {rest : List RceReq} (h : (s.hank hank).rce = q :: rest) {i : Nat}
    (hseg : q.iseg = some i) (hnext : q.next < 2048) : exec (.rcePack hank) s = .next s := by
  rw [exec_rcePack, execRcePack, State.rcePack]
  simp only [h, hseg, if_pos (Or.inr hnext : q.ended = true ∨ q.next < 2048)]

/-- A packed segment: its request is gone, and it has PW′ and the first of its chunks. -/
theorem packed_seg {s : State} {hank : Nat} {q : RceReq} {rest : List RceReq} (h : (s.hank hank).rce = q :: rest) {i : Nat} {g : Seg}
    (hg : s.seg? q.vf i = some g) (hhost : g.host = false) (lines : List (Line × Tag)) :
    ((s.packed hank q i g lines).hank hank).rce = rest
    ∧ (s.packed hank q i g lines).seg? q.vf i
      = some { g with pw := q.newPw g.lw, chunks := g.chunks.take (16 / (g.lw / q.newPw g.lw)) } := by
  obtain ⟨v, hv, hlookup⟩ := seg_of_not_host hg hhost
  have hlines := packInto_lines s (s.vfPart q.vf) (g.chunks.take (16 / (g.lw / q.newPw g.lw))) g.lw (q.newPw g.lw) lines
  constructor
  · refine rceHead_drops (q := q) ?_
    rw [State.hank, updPart_hanks, updSeg_hanks, hlines.hanks]
    exact h
  · refine (seg_congr (rceHead_vfs ..) _ _).trans ((seg_congr (updPart_vfs ..) _ _).trans ?_)
    refine (updSeg_seg _ (v := v) ?_ hlookup).2
    rw [State.vf?, hlines.vfs]
    exact hv

/-! ### Homes (R91, R92) -/

theorem fitCheckedWrite_eq (w : HomeWrite) (s : State) : exec (.fitCheckedWrite w) s = .next
    ((s.fitWrite (s.homeEntry w.vf w.seg) w.line ⟨w.data, w.mask, w.tag, w.typed, w.width, false⟩ none w.priv
        { vf := w.vf, coord := 8 * w.core + w.ctx } (BitVec.ofNat 64 w.va)).1.getD
      (s.fitWrite (s.homeEntry w.vf w.seg) w.line ⟨w.data, w.mask, w.tag, w.typed, w.width, false⟩ none w.priv
        { vf := w.vf, coord := 8 * w.core + w.ctx } (BitVec.ofNat 64 w.va)).2) := rfl

/-- A write that does not fit, where fewer chunks than a segment's are free, changes no line but as its reading does. -/
theorem fitWrite_short {s : State} {e : TlbEntry} {j : Nat} {w : Write} {keep : Option (Nat × Nat)} {priv : Bool} {r : Reader} {va : Word}
    (h : s.fitsPage e j w r = false) (hfree : ((s.metPage e j w r).2.2.part (s.vfPart e.vf)).freeCount < 16) :
    ∃ u, s.fitWrite e j w keep priv r va = (none, u) ∧ u.mem = (s.metPage e j w r).2.2.mem ∧ u.vfs = s.vfs ∧ u.me = s.me := by
  have hlines := metPage_lines s e j w r
  have hpart : (s.metPage e j w r).2.2.vfPart e.vf = s.vfPart e.vf := by rw [State.vfPart, State.vf?, hlines.vfs]; rfl
  have hrefused := grantChunks_refused (s := (s.metPage e j w r).2.2.endPasses e.vf e.iseg) (part := s.vfPart e.vf) hfree priv r va
  rw [← hpart] at hrefused
  exact ⟨_, fitWrite_denied h hrefused, rfl, hlines.vfs, hlines.me⟩

theorem segmentSwitch_grows {s : State} {vf i : Nat} {g : Seg} (hg : s.seg? vf i = some g) (hlt : g.pw < g.lw)
    (hfree : 16 ≤ (s.part (s.vfPart vf)).freeCount) : ∃ v : State, exec (.segmentSwitch vf i) s = .next v
      ∧ v.seg? vf i = some { g with pw := g.lw, chunks := (s.part (s.vfPart vf)).chooseChunks 16 } ∧ v.me = s.me := by
  have hhost : g.host = false := by
    simp only [Seg.host, beq_eq_false_iff_ne]
    omega
  obtain ⟨v, hv, hlookup⟩ := seg_of_not_host hg hhost
  obtain ⟨hseg, hme⟩ := growSeg_seg ((s.part (s.vfPart vf)).chooseChunks 16) hv hlookup
  refine ⟨_, ?_, hseg, hme⟩
  rw [exec_segmentSwitch, execSegmentSwitch]
  simp only [hg, hlt, hfree, and_self, if_true]

theorem segmentSwitch_full {s : State} {vf i : Nat} {g : Seg} (hg : s.seg? vf i = some g) (hle : g.lw ≤ g.pw) :
    exec (.segmentSwitch vf i) s = .next s := by
  rw [exec_segmentSwitch, execSegmentSwitch]
  simp only [hg, Nat.not_lt.2 hle, false_and, if_false]

/-! ### The scalar store queue (R335) -/

/-- A strand that is stepping goes on stepping. -/
theorem switchTo_me {s : State} {core ctx : Nat} (hlive : s.me.live = true) (hcore : s.me.core = core) (hctx : s.me.ctx = ctx) :
    s.switchTo core ctx = s := if_pos ⟨hlive, hcore, hctx⟩

/-- Whose front end it is, and its registers, stay where only links may change. -/
theorem writesOnly_strand {s u : State} (h : s.writesOnly u) :
    u.me.live = s.me.live ∧ u.me.core = s.me.core ∧ u.me.ctx = s.me.ctx ∧ u.me.regs = s.me.regs := by
  rw [h.1]
  exact ⟨rfl, rfl, rfl, rfl⟩

theorem scalarStorePerform_oldest {s : State} {e : SsqEntry} {rest : List SsqEntry} (hlive : s.me.live = true) (hssq : s.me.ssq = e :: rest)
    (hfirst : s.me.olderThan (e.older + 1) = false) :
    let x := s.storeLine s.me.core (e.loc s.me) (untyped e.value.toNat (e.addr.toNat % 128) e.bytes) 0 e.priv s.reader e.addr
    exec (.scalarStorePerform s.me.core s.me.ctx) s
      = .next { x.1.getD x.2 with waiting := false, me := { (x.1.getD x.2).me with ssq := rest } } := by
  intro x
  have hperform : s.performOldest = { x.1.getD x.2 with waiting := false, me := { (x.1.getD x.2).me with ssq := rest } } := by
    rw [State.performOldest]
    simp only [hssq, hfirst, Bool.not_false, if_true]
    rfl
  obtain ⟨klive, kcore, kctx, -⟩ := writesOnly_strand (storeLine_writes s s.me.core (e.loc s.me)
    (untyped e.value.toNat (e.addr.toNat % 128) e.bytes) 0 e.priv s.reader e.addr)
  rw [exec_scalarStorePerform, execScalarStorePerform, switchTo_me hlive rfl rfl, hperform, switchTo_me]
  · exact klive.trans hlive
  · exact kcore
  · exact kctx

/-! ### Snoops (R317) -/

theorem hostSnoop_answers (s : State) (line : Nat) : ∃ v d, exec (.hostSnoop line) s = .next v ∧ v.me.regs = s.me.regs
    ∧ (∀ c, (v.core c).holdsHost line = false) ∧ v.outbox.getLast? = some (.snoop line d)
    ∧ (d = true ↔ ∃ c, c ∈ s.cores ∧ ∃ l, l ∈ c.2.l1 ∧ l.key = hostKey (128 * line) ∧ l.dirty ≠ 0) := by
  have hhomes := HomesOnly.foldl (fun s (e : Nat × Core) => s.evictKey e.1 (hostKey (128 * line))) (fun _ _ => evictKey_homes ..) s.cores s
  have hgone := foldl_evictKey_gone (hostKey (128 * line)) s.cores s (fun c => listed_of_key)
  refine ⟨_, _, (exec_hostSnoop line s).trans (execHostSnoop_eq line s), ?_, fun c => holdsHost_false (hgone c), List.getLast?_concat, ?_⟩
  · exact (writesOnly_strand hhomes.writes).2.2.2
  · simp only [List.any_eq_true, Bool.and_eq_true, beq_iff_eq, bne_iff_ne]

/-! ### Together -/

/-- Settles O52: each event's law above gives its clause. -/
theorem recodingAndHomes : Obligations.RecodingAndHomes := by
  refine ⟨fun s d a b c t hready => ?rcreq, fun s hank q rest hrce => ?engine, fun s w => ?fit, fun s vf seg g hg => ?switch,
    fun s core key => ?copies, fun s e rest hlive hssq hfirst => scalarStorePerform_oldest hlive hssq hfirst⟩
  case rcreq =>
    intro w va n x q ok k
    refine ⟨rcreq_traps hready, rcreq_refused hready, fun hva hok => ⟨_, rcreq_queues hready hva hok, rfl, takeToken_mem .., ?_⟩⟩
    rw [hank_updHank_same, State.hank, takeToken_hanks]
    rfl
  case engine =>
    intro drops
    refine ⟨fun hended => ⟨rceLine_ended hrce hended, rceHead_drops hrce⟩, fun hended hseg u hu => ?_, fun i g hended hseg hg => ?_⟩
    · have hkeep := rceTarget_keepsRequests s hank q hank
      rw [hu] at hkeep
      exact ⟨rceLine_skips hrce hended hu, rceHead_drops (hkeep.trans hrce)⟩
    · refine ⟨fun hnext => ⟨rceLine_rewrites hrce hended hseg hg hnext, rcePack_waits hrce hseg hnext⟩, fun hnext hhost => ?_⟩
      intro pw m r fits
      rcases hread : s.rceRead q.vf i 0 2048 with ⟨lines, u⟩
      have hr : r = (lines, u) := hread
      have hlines : LinesOnly s u := by
        have h := rceRead_lines s q.vf i 0 2048
        rwa [hread] at h
      have hru : (r.2.hank hank).rce = q :: rest := by rw [hr, State.hank, hlines.hanks]; exact hrce
      have hrg : r.2.seg? q.vf i = some g := by rw [hr]; exact (seg_congr hlines.vfs _ _).trans hg
      have hpacks : fits = q.packs g.lw r.1 := rfl
      have hexec : exec (.rcePack hank) s = .next (if fits = true then r.2.packed hank q i g r.1 else r.2.rceHead hank (fun _ => none)) := by
        rw [hpacks, hr]
        exact rcePack_full hrce hended hseg hg hnext hread
      refine ⟨fun hfits => ⟨?_, rceHead_drops hru⟩, fun hfits => ⟨_, hexec.trans (by rw [if_pos hfits]), ?_⟩⟩
      · rw [hexec, if_neg (ne_true_of_eq_false hfits)]
      · obtain ⟨hrest, hseg'⟩ := packed_seg hru hrg hhost r.1
        exact ⟨hrest, by rw [hseg']; rfl⟩
  case fit =>
    intro e l wr h x fits
    refine ⟨fun hfits => ?_, fun hfits hfree => ?_⟩
    · have hdone := fitWrite_fits (s := s) (e := e) (j := w.line) (w := wr) (keep := none) (priv := w.priv)
        (r := { vf := w.vf, coord := 8 * w.core + w.ctx }) (va := BitVec.ofNat 64 w.va) hfits
      rw [fitCheckedWrite_eq, hdone]
      rfl
    · obtain ⟨u, hu, hmem, hvfs, hme⟩ := fitWrite_short (s := s) (e := e) (j := w.line) (w := wr) (keep := none) (priv := w.priv)
        (r := { vf := w.vf, coord := 8 * w.core + w.ctx }) (va := BitVec.ofNat 64 w.va) hfits hfree
      refine ⟨u, ?_, hmem, hvfs, hme⟩
      rw [fitCheckedWrite_eq, hu]
      rfl
  case switch => exact ⟨segmentSwitch_grows hg, segmentSwitch_full hg⟩
  case copies =>
    refine ⟨fun l hl hd => ?_, fun l hl hd => ?_, fun hnodup => ⟨_, rfl, writeBackCore_clean hnodup⟩, hostSnoop_answers s key⟩
    · intro home tag
      refine ⟨⟨_, rfl, ?_, writeBackLine_line hl hd⟩, ⟨_, rfl, ?_, ?_⟩⟩
      · rw [writeBackLine_dirty hl hd]; rfl
      · rw [writeBackLine_dirty hl hd]; rfl
      · rw [core_updCore_same]; exact dropLine_line ..
    · have hclean : s.writeBackLine core key = s := writeBackLine_clean (fun x hx => by rw [hl] at hx; cases hx; exact hd)
      rw [exec_writebackMerge, execWritebackMerge, exec_l1Eviction, execL1Eviction, hclean]
      exact ⟨rfl, rfl⟩

end Sys2Proof.Machine
end

section
/-!
SUPPORT. What the accesses of a channel leave of its slice and banks (Machine/Banks.lean), and of a line's contents.
-/
namespace Sys2Proof.Machine

/-! ## Channels -/

/-- A channel but for the counts and states of its rows. -/
structure Channel.RowsOnly (c d : Channel) : Prop where
  bank : d.bank = c.bank
  l2 : d.l2 = c.l2
  queue : d.queue = c.queue
  scrub : d.scrub = c.scrub
  corrected : d.corrected = c.corrected
  trained : d.trained = c.trained

theorem openFor_rows (c : Channel) (threshold bank row : Nat) : c.RowsOnly (c.openFor threshold bank row) := by
  unfold Channel.openFor
  split
  · constructor <;> rfl
  · dsimp only
    split <;> constructor <;> rfl

/-- A line of a bank that a channel still keeps after an access, it kept before; and no read or scrub is asked for. -/
structure Channel.Keeps (c d : Channel) : Prop where
  bank : ∀ off b, d.bank.lookup off = some b → c.bank.lookup off = some b
  queue : c.queue = [] → d.queue = []
  scrub : d.scrub = c.scrub
  corrected : d.corrected = c.corrected

namespace Channel.Keeps

theorem refl (c : Channel) : c.Keeps c := ⟨fun _ _ h => h, id, rfl, rfl⟩

theorem trans {c d e : Channel} (h : c.Keeps d) (k : d.Keeps e) : c.Keeps e :=
  ⟨fun off b hb => h.bank off b (k.bank off b hb), fun hq => k.queue (h.queue hq), k.scrub.trans h.scrub, k.corrected.trans h.corrected⟩

end Channel.Keeps

theorem Channel.RowsOnly.keeps {c d : Channel} (h : c.RowsOnly d) : c.Keeps d :=
  ⟨fun off b hb => by rwa [h.bank] at hb, fun hq => h.queue.trans hq, h.scrub, h.corrected⟩

/-- A table of which entries are dropped by their numbers. -/
theorem lookup_filter {α : Type} (f : Nat → Bool) (l : List (Nat × α)) (k : Nat) :
    (l.filter (fun e => f e.1)).lookup k = if f k = true then l.lookup k else none := by
  induction l with
  | nil => simp
  | cons e t ih =>
    obtain ⟨i, v⟩ := e
    rw [List.lookup_cons, List.filter_cons]
    by_cases hk : k = i
    · subst hk
      rw [beq_self_eq_true]
      split
      · rw [List.lookup_cons, beq_self_eq_true]
      · rename_i hf
        rw [ih, if_neg hf]
    · rw [beq_eq_false_iff_ne.2 hk, ← ih]
      split
      · rw [List.lookup_cons, beq_eq_false_iff_ne.2 hk]
      · rfl

theorem lookup_del {α : Type} (l : List (Nat × α)) (k j : Nat) : (del l k).lookup j = if j = k then none else l.lookup j := by
  rw [del, lookup_filter (fun i => i != k)]
  by_cases h : j = k
  · simp [h]
  · simp [h]

/-- The bank and the slice of a channel hold a line as before. -/
def Channel.sameLine (c d : Channel) (off : Nat) : Prop := d.bank.lookup off = c.bank.lookup off ∧ d.l2? off = c.l2? off

theorem Channel.RowsOnly.sameLine {c d : Channel} (h : c.RowsOnly d) (off : Nat) : c.sameLine d off :=
  ⟨by rw [h.bank], by rw [Channel.l2?, h.l2]; rfl⟩

theorem l2_filter_other (ls : List L2Line) {off k : Nat} (h : off ≠ k) :
    (ls.filter (fun x => x.off != k)).find? (fun l => l.off == off) = ls.find? (fun l => l.off == off) := by
  rw [List.find?_filter]
  congr 1
  funext l
  by_cases hl : l.off = off
  · simp [hl, h]
  · simp [hl]

theorem leave_keeps (c : Channel) (threshold : Nat) (l : L2Line) : c.Keeps (c.leave threshold l) := by
  unfold Channel.leave
  dsimp only
  split
  · refine Channel.Keeps.trans ?_ (openFor_rows ..).keeps
    refine ⟨fun off b hb => ?_, fun hq => by simp [Channel.overtake, hq], rfl, rfl⟩
    replace hb : (del c.bank l.off).lookup off = some b := hb
    rw [lookup_del] at hb
    split at hb
    · cases hb
    · exact hb
  · exact ⟨fun _ _ h => h, id, rfl, rfl⟩

/-- Another line than the one that leaves stays as it was. -/
theorem leave_sameLine (c : Channel) (threshold : Nat) (l : L2Line) {off : Nat} (h : off ≠ l.off) : c.sameLine (c.leave threshold l) off := by
  have hl2 := l2_filter_other c.l2 h
  unfold Channel.leave
  dsimp only
  split
  · obtain ⟨hbank, hslice⟩ := (openFor_rows (({ c with bank := del c.bank l.off, l2 := c.l2.filter (fun x => x.off != l.off) } : Channel).overtake
      l.off) threshold (bankOf l.off) (rowOf l.off)).sameLine off
    refine ⟨hbank.trans ?_, hslice.trans hl2⟩
    exact (lookup_del ..).trans (if_neg h)
  · exact ⟨rfl, hl2⟩

theorem l2Victim_mem {set : List L2Line} {v : L2Line} (h : l2Victim set = some v) : v ∈ set := by
  unfold l2Victim at h
  split at h
  · rename_i l hl
    cases h
    exact List.mem_reverse.1 (List.mem_of_find?_eq_some hl)
  · split at h
    · rename_i l hl
      cases h
      exact List.mem_reverse.1 (List.mem_of_find?_eq_some hl)
    · exact List.mem_of_getLast? h

/-- The line that makes room is another one. -/
theorem victim_off {c : Channel} {off : Nat} {v : L2Line} (h : c.victim? off = some v) : off ≠ v.off := by
  unfold Channel.victim? at h
  dsimp only at h
  split at h
  · cases h
  · have hmem := (List.mem_filter.1 (l2Victim_mem h)).2
    simp only [Bool.and_eq_true, bne_iff_ne] at hmem
    exact hmem.1.symm

theorem enter_keeps (c : Channel) (threshold : Nat) (l : L2Line) : c.Keeps (c.enter threshold l) := by
  unfold Channel.enter
  dsimp only
  split
  · exact (leave_keeps ..).trans ⟨fun _ _ h => h, id, rfl, rfl⟩
  · exact ⟨fun _ _ h => h, id, rfl, rfl⟩

/-- A line that enters the slice is there, and its bank holds it as before. -/
theorem enter_line (c : Channel) (threshold : Nat) (l : L2Line) :
    (c.enter threshold l).bank.lookup l.off = c.bank.lookup l.off ∧ (c.enter threshold l).l2? l.off = some l := by
  unfold Channel.enter
  dsimp only
  split
  · rename_i v hv
    exact ⟨(leave_sameLine c threshold v (victim_off hv)).1, by simp [Channel.l2?]⟩
  · exact ⟨rfl, by simp [Channel.l2?]⟩

theorem access_keeps (c : Channel) (threshold key off hint : Nat) : c.Keeps (c.access threshold key off hint) := by
  unfold Channel.access
  split
  · split
    · exact enter_keeps ..
    · exact (leave_keeps ..).trans ((openFor_rows ..).keeps.trans (enter_keeps ..))
  · exact (openFor_rows ..).keeps.trans (enter_keeps ..)

/-- A line that the slice does not hold is fetched: the bank keeps it, and the slice holds it. -/
theorem access_fetch {c : Channel} {off : Nat} (h : c.l2? off = none) (threshold key hint : Nat) :
    (c.access threshold key off hint).bank.lookup off = c.bank.lookup off
    ∧ ∃ l, (c.access threshold key off hint).l2? off = some l ∧ l.key = key := by
  unfold Channel.access
  simp only [h]
  obtain ⟨hbank, hslice⟩ := enter_line (c.openFor threshold (bankOf off) (rowOf off)) threshold
    { off := off, key := key, hint := hint, asBank := (c.bank.lookup off).isSome }
  exact ⟨hbank.trans (by rw [(openFor_rows ..).bank]), _, hslice, rfl⟩

/-- A write of a line leaves the bank's copies of others, and what the bank holds of it is what it held. -/
theorem written_bank {c : Channel} {near : Bool} {off k : Nat} {old b : Line × Tag} (h : (c.written near off old).bank.lookup k = some b) :
    k = off ∧ b = old ∨ c.bank.lookup k = some b := by
  unfold Channel.written at h
  split at h
  · dsimp only at h
    rw [lookup_del] at h
    split at h
    · cases h
    · exact .inr h
  · dsimp only at h
    by_cases hk : k = off
    · subst hk
      rw [lookup_put_same] at h
      exact .inl ⟨rfl, (Option.some.inj h).symm⟩
    · rw [lookup_put_other _ _ _ _ hk] at h
      exact .inr h

theorem written_scrub_queue (c : Channel) (near : Bool) (off : Nat) (old : Line × Tag) :
    (c.written near off old).scrub = c.scrub ∧ (c.written near off old).queue = c.queue := by
  unfold Channel.written
  split <;> exact ⟨rfl, rfl⟩

end Sys2Proof.Machine
end

section
/-!
SUPPORT. A device line as its bank and its slice hold it (R82, R83, R122): what reads, their reports and rewrites leave of it.
-/
namespace Sys2Proof.Machine

/-! ### The partition that owns a channel -/

/-- The partition that owns a channel: its number, channels and tenant. -/
def State.owner (s : State) (g : Nat) : Option (Nat × List Nat × Option Nat) :=
  (s.parts.find? (fun q => q.2.chans.contains g)).map (fun q => (q.1, q.2.chans, q.2.tenant))

theorem owner_of_find {s : State} {g : Nat} {q : Nat × Part} (h : s.parts.find? (fun q => q.2.chans.contains g) = some q) :
    s.owner g = some (q.1, q.2.chans, q.2.tenant) := by
  rw [State.owner, h]; rfl

/-- The entry that a table finds first among those that a property names is also the first of its number. -/
theorem lookup_of_find {α : Type} (p : α → Bool) : ∀ (l : List (Nat × α)) {k : Nat} {v w : α}, l.find? (fun e => p e.2) = some (k, v) →
    l.lookup k = some w → p w = true → v = w
  | [], _, _, _, h, _, _ => by cases h
  | (j, x) :: t, k, v, w, h, hl, hw => by
    rw [List.lookup_cons] at hl
    rw [List.find?_cons] at h
    by_cases hk : k = j
    · subst hk
      rw [beq_self_eq_true] at hl
      obtain rfl := Option.some.inj hl
      simp only [hw] at h
      exact (Prod.mk.inj (Option.some.inj h)).2.symm
    · simp only [beq_eq_false_iff_ne.2 hk] at hl
      cases hx : p x with
      | true =>
        simp only [hx] at h
        exact absurd (Prod.mk.inj (Option.some.inj h)).1.symm hk
      | false =>
        simp only [hx] at h
        exact lookup_of_find p t h hl hw

/-- An entry put under a number, of which the property holds as of the entry that stood there: none is found where none was. -/
theorem find_put_none {α : Type} (p : α → Bool) (l : List (Nat × α)) (k : Nat) (v : α) (hp : p v = true → ∃ w, l.lookup k = some w ∧ p w = true)
    (h : l.find? (fun e => p e.2) = none) : (put l k v).find? (fun e => p e.2) = none := by
  have hv : p v = false := by
    by_contra hv
    obtain ⟨w, hw, hpw⟩ := hp (by simpa using hv)
    obtain ⟨a, b, rfl, -⟩ := List.lookup_eq_some_iff.1 hw
    simp [hpw] at h
  clear hp
  induction l with
  | nil => simp [put, hv]
  | cons e t ih =>
    obtain ⟨j, x⟩ := e
    rw [List.find?_cons] at h
    cases hx : p x with
    | true => simp [hx] at h
    | false =>
      simp only [hx] at h
      unfold put
      split
      · simp [hv, hx, h]
      · split
        · simp [hv, h]
        · simp [hx, ih h]

/-- Put under the number that was found, it is found itself, or what was. -/
theorem find_put_found {α : Type} (p : α → Bool) : ∀ (l : List (Nat × α)) (k : Nat) (v w : α),
    (p v = true → ∃ w, l.lookup k = some w ∧ p w = true) → (∀ w, l.lookup k = some w → p w = true → p v = true) →
    l.find? (fun e => p e.2) = some (k, w) →
      (put l k v).find? (fun e => p e.2) = some (k, w) ∨ l.lookup k = some w ∧ (put l k v).find? (fun e => p e.2) = some (k, v)
  | [], _, _, _, _, _, h => by cases h
  | (j, x) :: t, k, v, w, hp, hq, h => by
    have hfirst (hv : p v = true) : ((j, x) :: t).lookup k = some w := by
      obtain ⟨y, hy, hpy⟩ := hp hv
      rw [hy, lookup_of_find p _ h hy hpy]
    unfold put
    split
    · cases hv : p v with
      | true => exact .inr ⟨hfirst hv, by simp [hv]⟩
      | false => exact .inl (by rw [List.find?_cons, hv]; exact h)
    · split
      · rename_i hkj
        subst hkj
        cases hv : p v with
        | true => exact .inr ⟨hfirst hv, by simp [hv]⟩
        | false =>
          have hx : p x = false := by
            by_contra hx
            exact absurd (hq x (by simp) (by simpa using hx)) (by simp [hv])
          left
          rw [List.find?_cons, hx] at h
          rw [List.find?_cons, hv]
          exact h
      · rename_i hlt hne
        have hlook : ((j, x) :: t).lookup k = t.lookup k := by
          rw [List.lookup_cons]
          simp [beq_eq_false_iff_ne.2 hne]
        rw [hlook] at hp hq ⊢
        cases hx : p x with
        | true =>
          rw [List.find?_cons, hx] at h
          exact absurd (Prod.mk.inj (Option.some.inj h)).1.symm hne
        | false =>
          rw [List.find?_cons, hx] at h
          rw [List.find?_cons, hx]
          exact find_put_found p t k v w hp hq h

/-- An event logged to the owner of a channel, or where it has none anywhere, leaves the owner. -/
theorem logEvent_owner {s : State} {g part : Nat} (h : ∀ q, s.owner g = some q → q.1 = part) (event vf coord : Nat) (a d : Word) :
    (s.logEvent part event vf coord a d).owner g = s.owner g := by
  obtain ⟨v, hv, hchans, htenant⟩ : ∃ v, (s.logEvent part event vf coord a d).parts = put s.parts part v
      ∧ v.chans = (s.part part).chans ∧ v.tenant = (s.part part).tenant := by
    refine ⟨_, rfl, ?_, ?_⟩ <;> split <;> rfl
  have hpart {w : Part} (hw : s.parts.lookup part = some w) : s.part part = w := by rw [State.part, look, hw]; rfl
  have hp (hg : v.chans.contains g = true) : ∃ w, s.parts.lookup part = some w ∧ w.chans.contains g = true := by
    rw [hchans] at hg
    cases hl : s.parts.lookup part with
    | none => simp [State.part, look, hl] at hg
    | some w => exact ⟨w, rfl, by rwa [hpart hl] at hg⟩
  cases hfind : s.parts.find? (fun q => q.2.chans.contains g) with
  | none =>
    have hput := find_put_none (fun q : Part => q.chans.contains g) s.parts part v hp hfind
    rw [State.owner, State.owner, hv, hput, hfind]
  | some q =>
    obtain ⟨k, w⟩ := q
    obtain rfl : k = part := h _ (owner_of_find hfind)
    rcases find_put_found (fun q : Part => q.chans.contains g) s.parts k v w hp
      (fun y hy hyg => by rw [hchans, hpart hy]; exact hyg) hfind with hput | ⟨hl, hput⟩
    · rw [State.owner, State.owner, hv, hput, hfind]
    · rw [State.owner, State.owner, hv, hput, hfind]
      simp only [Option.map_some, hchans, htenant, hpart hl]

/-- What is known of a partition that owns a channel, where the owner is the same. -/
theorem find_of_owner_eq {s u : State} {g : Nat} (h : u.owner g = s.owner g) :
    (s.parts.find? (fun q => q.2.chans.contains g) = none ∧ u.parts.find? (fun q => q.2.chans.contains g) = none)
    ∨ ∃ q r, s.parts.find? (fun q => q.2.chans.contains g) = some q ∧ u.parts.find? (fun q => q.2.chans.contains g) = some r
        ∧ r.1 = q.1 ∧ r.2.chans = q.2.chans ∧ r.2.tenant = q.2.tenant := by
  unfold State.owner at h
  cases hs : s.parts.find? (fun q => q.2.chans.contains g) with
  | none =>
    rw [hs] at h
    exact .inl ⟨rfl, Option.map_eq_none_iff.1 h⟩
  | some q =>
    rw [hs] at h
    obtain ⟨r, hr, heq⟩ := Option.map_eq_some_iff.1 h
    simp only [Prod.mk.injEq] at heq
    exact .inr ⟨q, r, rfl, hr, heq.1, heq.2.1, heq.2.2⟩

theorem keySlot_congr {s u : State} {g : Nat} (h : u.owner g = s.owner g) (hhanks : u.hanks = s.hanks) : u.keySlot g = s.keySlot g := by
  unfold State.keySlot State.hank
  rw [hhanks]
  rcases find_of_owner_eq h with ⟨hs, hu⟩ | ⟨q, r, hs, hu, -, -, htenant⟩
  · rw [hs, hu]
  · simp only [hs, hu, Option.bind_some, htenant]

theorem partOfLine_congr {s u : State} {p : Nat} (h : u.owner (chanOf p) = s.owner (chanOf p)) : u.partOfLine p = s.partOfLine p := by
  unfold State.partOfLine
  rcases find_of_owner_eq h with ⟨hs, hu⟩ | ⟨q, r, hs, hu, hnum, -⟩
  · rw [hs, hu]
  · simp only [hs, hu, hnum]

theorem packingOf_congr {s u : State} {p : Nat} (h : u.owner (chanOf p) = s.owner (chanOf p)) (hvfs : u.vfs = s.vfs) :
    u.packingOf p = s.packingOf p := by
  unfold State.packingOf
  rw [hvfs]
  rcases find_of_owner_eq h with ⟨hs, hu⟩ | ⟨q, r, hs, hu, hnum, hchans, -⟩
  · rw [hs, hu]
  · simp only [hs, hu, hnum, hchans]

theorem logLine_owner (s : State) (p event : Nat) (r : Reader) (d g : Nat) (hg : g = chanOf p) :
    (s.logLine p event r d).owner g = s.owner g := by
  subst hg
  unfold State.logLine
  split
  · rename_i q hq
    exact logEvent_owner (fun o ho => by rw [owner_of_find hq] at ho; cases ho; rfl) ..
  · rfl

theorem logPart_owner (s : State) (p event vf coord : Nat) (a d : Word) :
    (s.logEvent (s.partOfLine p) event vf coord a d).owner (chanOf p) = s.owner (chanOf p) := by
  refine logEvent_owner (fun q hq => ?_) ..
  obtain ⟨x, hx, rfl⟩ := Option.map_eq_some_iff.1 hq
  rw [State.partOfLine, hx]

/-! ### Lines of memory as they were written -/

theorem line_ext {a b : Line} (h : ∀ i, i < 128 → lineByte a i = lineByte b i) : a = b := by
  apply BitVec.eq_of_getLsbD_eq
  intro k hk
  have hbyte := lineByte_getLsbD a (k / 8) (k % 8) (Nat.mod_lt k (by omega))
  rw [h _ (by omega), lineByte_getLsbD _ _ _ (Nat.mod_lt k (by omega)), show 8 * (k / 8) + k % 8 = k by omega] at hbyte
  exact hbyte.symm

/-- Canonical memories that hold the same bytes hold the same lines. -/
theorem memLine_congr {m m' : List Host.Cell} (hm : Memory.wf m = true) (hm' : Memory.wf m' = true) {a : Nat}
    (h : ∀ i, i < 128 → memGet m (a + i) = memGet m' (a + i)) : memLine m a = memLine m' a :=
  line_ext fun i hi => by rw [lineByte_memLine _ hm _ _ hi, lineByte_memLine _ hm' _ _ hi, h i hi]

theorem tagAt_setTag_same (s : State) (k : Nat) (t : Tag) : (s.setTag k t).tagAt k = t := by
  unfold State.tagAt State.setTag look
  split
  · rename_i h
    rw [lookup_del, if_pos rfl, h]
    rfl
  · rw [lookup_put_same]
    rfl

/-- A line that is listed is read back. -/
theorem rawLine_putRaw {s : State} (hw : Memory.wf s.mem = true) (k : Nat) (d : Line) (t : Tag) : (s.putRaw k d t).rawLine k = (d, t) := by
  refine Prod.ext ?_ (tagAt_setTag_same _ k t)
  show memLine (s.putRaw k d t).mem (128 * k) = d
  refine line_ext fun i hi => ?_
  rw [lineByte_memLine _ (putRaw_wf s k d t hw) _ _ hi, memGet_putRaw _ _ _ _ _ hw, if_pos (by omega)]
  congr 1
  omega

/-! ### The copies of a line -/

theorem chan_updChan_same (s : State) (g : Nat) (f : Channel → Channel) : (s.updChan g f).chan g = f (s.chan g) := look_put_same ..

theorem chan_updChan_other (s : State) (g k : Nat) (f : Channel → Channel) (h : k ≠ g) : (s.updChan g f).chan k = s.chan k :=
  look_put_other _ _ _ _ _ h

@[simp] theorem putRaw_chan (s : State) (k : Nat) (d : Line) (t : Tag) (g : Nat) : (s.putRaw k d t).chan g = s.chan g := by
  rw [State.chan, State.putRaw, setTag_chans, State.chan]

@[simp] theorem putRaw_parts (s : State) (k : Nat) (d : Line) (t : Tag) : (s.putRaw k d t).parts = s.parts := by
  rw [State.putRaw, setTag_parts]

theorem owner_congr {s u : State} (h : u.parts = s.parts) (g : Nat) : u.owner g = s.owner g := by
  rw [State.owner, h]; rfl

/-- The slice serves a device line: it holds the line under its owner's key. -/
def State.served (s : State) (p : Nat) (l : L2Line) : Prop :=
  (s.chan (chanOf p)).l2? (p % 2 ^ 25) = some l ∧ l.key = s.keySlot (chanOf p)

section
variable {s : State} {p : Nat} (hp : p < 2 ^ 35)
include hp

theorem homeLine_served {l : L2Line} (h : s.served p l) : s.homeLine p = if l.asBank = true then s.bankLine p else s.rawLine p := by
  unfold State.homeLine State.bankLine
  rw [if_neg (Nat.not_le.2 hp)]
  dsimp only
  cases hb : (s.chan (chanOf p)).bank.lookup (p % 2 ^ 25) with
  | none => exact (ite_self _).symm
  | some b =>
    rw [h.1]
    simp [h.2]

end

/-- A step that leaves a device line and its copies, and of other things what lines can change. -/
structure SameLine (p : Nat) (s u : State) : Prop where
  raw : u.rawLine p = s.rawLine p
  chan : (s.chan (chanOf p)).sameLine (u.chan (chanOf p)) (p % 2 ^ 25)
  owner : u.owner (chanOf p) = s.owner (chanOf p)
  lines : LinesOnly s u
  wf : Memory.wf s.mem = true → Memory.wf u.mem = true

namespace SameLine

theorem refl (p : Nat) (s : State) : SameLine p s s := ⟨rfl, ⟨rfl, rfl⟩, rfl, .rfl' s, id⟩

theorem trans {p : Nat} {s t u : State} (h : SameLine p s t) (k : SameLine p t u) : SameLine p s u :=
  ⟨k.raw.trans h.raw, ⟨k.chan.1.trans h.chan.1, k.chan.2.trans h.chan.2⟩, k.owner.trans h.owner, h.lines.trans k.lines,
   fun hw => k.wf (h.wf hw)⟩

variable {p : Nat} {s u : State} (h : SameLine p s u)
include h

theorem bankLine : u.bankLine p = s.bankLine p := by rw [State.bankLine, State.bankLine, h.chan.1, h.raw]

theorem keySlot : u.keySlot (chanOf p) = s.keySlot (chanOf p) := keySlot_congr h.owner h.lines.hanks

theorem packingOf : u.packingOf p = s.packingOf p := packingOf_congr h.owner h.lines.vfs

theorem homeLine : u.homeLine p = s.homeLine p := by
  unfold State.homeLine
  dsimp only
  rw [h.raw, h.keySlot, h.chan.1, h.chan.2]

end SameLine

theorem updChan_sameLine (s : State) (p : Nat) (f : Channel → Channel)
    (hf : (s.chan (chanOf p)).sameLine (f (s.chan (chanOf p))) (p % 2 ^ 25)) : SameLine p s (s.updChan (chanOf p) f) :=
  ⟨rfl, by rw [chan_updChan_same]; exact hf, rfl, updChan_lines .., id⟩

theorem logLine_sameLine (s : State) (p event : Nat) (r : Reader) (d : Nat) : SameLine p s (s.logLine p event r d) := by
  refine ⟨?_, ?_, logLine_owner s p event r d _ rfl, logLine_lines .., fun hw => ?_⟩ <;> unfold State.logLine <;> split
  · rfl
  · rfl
  · exact ⟨rfl, rfl⟩
  · exact ⟨rfl, rfl⟩
  · exact hw
  · exact hw

theorem logPart_sameLine (s : State) (p event vf coord : Nat) (a d : Word) :
    SameLine p s (s.logEvent (s.partOfLine p) event vf coord a d) :=
  ⟨rfl, ⟨rfl, rfl⟩, logPart_owner .., logEvent_lines .., id⟩

end Sys2Proof.Machine
end

section
/-!
SUPPORT. A read that its bank answers (R82, R83, R85): what it stores again, what it delivers, and what it counts.
-/
namespace Sys2Proof.Machine

/-- Lines of a slice of which one is changed: it is found as changed, and every other as it was. -/
theorem l2_map (ls : List L2Line) (off k : Nat) (f : L2Line → L2Line) (hf : ∀ l, (f l).off = l.off) :
    (ls.map (fun l => if l.off = off then f l else l)).find? (fun l => l.off == k)
      = (ls.find? (fun l => l.off == k)).map (fun l => if l.off = off then f l else l) := by
  rw [List.find?_map]
  congr 2
  funext l
  dsimp only [Function.comp_apply]
  split
  · rw [hf]
  · rfl

/-! ### A bank's copy changed (R83, R85) -/

theorem setBank_wf {s : State} (hw : Memory.wf s.mem = true) (p : Nat) (d : Line) (t : Tag) : Memory.wf (s.setBank p d t).mem = true := by
  unfold State.setBank
  dsimp only
  split <;> exact putRaw_wf _ _ _ _ hw

theorem setBank_owner (s : State) (p : Nat) (d : Line) (t : Tag) (g : Nat) : (s.setBank p d t).owner g = s.owner g := by
  unfold State.setBank
  dsimp only
  split <;> exact owner_congr (putRaw_parts ..) g

theorem setBank_corrected (s : State) (p : Nat) (d : Line) (t : Tag) :
    ((s.setBank p d t).chan (chanOf p)).corrected = (s.chan (chanOf p)).corrected := by
  unfold State.setBank
  dsimp only
  split <;> rw [putRaw_chan, chan_updChan_same]

theorem setBank_bankLine {s : State} (hw : Memory.wf s.mem = true) (p : Nat) (d : Line) (t : Tag) :
    (s.setBank p d t).bankLine p = (d, t) := by
  unfold State.setBank
  dsimp only
  split
  · rw [State.bankLine, putRaw_chan, chan_updChan_same]
    dsimp only
    rw [lookup_del, if_pos rfl]
    exact rawLine_putRaw hw p d t
  · rw [State.bankLine, putRaw_chan, chan_updChan_same]
    dsimp only
    rw [lookup_put_same]
    rfl

theorem setBank_absent {s : State} {p : Nat} (h : (s.chan (chanOf p)).l2? (p % 2 ^ 25) = none) (d : Line) (t : Tag) :
    ((s.setBank p d t).chan (chanOf p)).l2? (p % 2 ^ 25) = none := by
  unfold State.setBank
  simp only [h]
  rw [putRaw_chan, chan_updChan_same]
  exact h

/-! ### A line that the slice serves (R122) -/

/-- In `u` the slice serves a line as `home`, of which the bank holds `bank`; its owner and the count of corrected errors are as in `s`. -/
structure ServedAs (p : Nat) (s u : State) (home bank : Line × Tag) : Prop where
  home : u.homeLine p = home
  served : ∃ l, u.served p l
  bank : u.bankLine p = bank
  owner : u.owner (chanOf p) = s.owner (chanOf p)
  wf : Memory.wf u.mem = true
  corrected : (u.chan (chanOf p)).corrected = (s.chan (chanOf p)).corrected

/-- The bank of a line has a copy of its own, and the slice holds the one that is listed. -/
def State.keepApart (s : State) (p : Nat) (bank home : Line × Tag) : State :=
  (s.updChan (chanOf p) (fun c => { c with
    bank := put c.bank (p % 2 ^ 25) bank
    l2 := c.l2.map (fun l => if l.off = p % 2 ^ 25 then { l with asBank := false } else l) })).putRaw p home.1 home.2

section
variable {s : State} {p : Nat} (hp : p < 2 ^ 35) (hw : Memory.wf s.mem = true)
include hp hw

theorem keepApart_served {l : L2Line} (h : s.served p l) (bank home : Line × Tag) : ServedAs p s (s.keepApart p bank home) home bank := by
  have hchan : (s.keepApart p bank home).chan (chanOf p) = { s.chan (chanOf p) with
      bank := put (s.chan (chanOf p)).bank (p % 2 ^ 25) bank
      l2 := (s.chan (chanOf p)).l2.map (fun l => if l.off = p % 2 ^ 25 then { l with asBank := false } else l) } := by
    rw [State.keepApart, putRaw_chan, chan_updChan_same]
  have howner : (s.keepApart p bank home).owner (chanOf p) = s.owner (chanOf p) := owner_congr (putRaw_parts ..) _
  have hraw : (s.keepApart p bank home).rawLine p = home := rawLine_putRaw hw p home.1 home.2
  have hoff : l.off = p % 2 ^ 25 := by simpa using List.find?_some h.1
  have hserved : (s.keepApart p bank home).served p { l with asBank := false } := by
    constructor
    · rw [hchan]
      refine (l2_map _ _ _ (fun l => { l with asBank := false }) (fun _ => rfl)).trans ?_
      show Option.map _ ((s.chan (chanOf p)).l2? (p % 2 ^ 25)) = _
      rw [h.1, Option.map_some, if_pos hoff]
    · exact h.2.trans (keySlot_congr howner ((updChan_lines ..).trans (putRaw_lines ..)).hanks).symm
  refine ⟨?_, ⟨_, hserved⟩, ?_, howner, putRaw_wf _ _ _ _ hw, by rw [hchan]⟩
  · rw [homeLine_served hp hserved, if_neg (by simp), hraw]
  · rw [State.bankLine, hchan]
    dsimp only
    rw [lookup_put_same]
    rfl

/-- The bank's copy changed, the slice serves the line as before. -/
theorem setBank_served {l : L2Line} (h : s.served p l) (d : Line) (t : Tag) : ServedAs p s (s.setBank p d t) (s.homeLine p) (d, t) := by
  have heq : s.setBank p d t = s.keepApart p (d, t) (s.homeLine p) := by
    unfold State.setBank
    simp only [h.1, homeLine_served hp h]
    rfl
  rw [heq]
  exact keepApart_served hp hw h ..

/-- A line that the slice does not hold is delivered: the slice serves it so, and the bank holds it as before. -/
theorem deliverLine_served (hnone : (s.chan (chanOf p)).l2? (p % 2 ^ 25) = none) (x : Line × Tag) :
    ServedAs p s (s.deliverLine p x) x (s.bankLine p) := by
  obtain ⟨hbank, l, hl, hkey⟩ := access_fetch hnone s.anchor.actThreshold (s.keySlot (chanOf p)) 0
  have hcorrected := (access_keeps (s.chan (chanOf p)) s.anchor.actThreshold (s.keySlot (chanOf p)) (p % 2 ^ 25) 0).corrected
  let v := s.updChan (chanOf p) (fun c => c.access s.anchor.actThreshold (s.keySlot (chanOf p)) (p % 2 ^ 25) 0)
  have hchan : v.chan (chanOf p) = (s.chan (chanOf p)).access s.anchor.actThreshold (s.keySlot (chanOf p)) (p % 2 ^ 25) 0 :=
    chan_updChan_same ..
  rw [← hchan] at hbank hl hcorrected
  have hserved : v.served p l := ⟨hl, hkey⟩
  have hvbank : v.bankLine p = s.bankLine p := by rw [State.bankLine, hbank]; rfl
  by_cases hx : v.homeLine p = x
  · have heq : s.deliverLine p x = v := if_pos hx
    rw [heq]
    exact ⟨hx, ⟨l, hserved⟩, hvbank, rfl, hw, hcorrected⟩
  · have heq : s.deliverLine p x = v.keepApart p (v.bankLine p) x := if_neg hx
    have hapart := keepApart_served (s := v) hp hw hserved (v.bankLine p) x
    rw [heq]
    exact ⟨hapart.home, hapart.served, hapart.bank.trans hvbank, hapart.owner, hapart.wf, hapart.corrected.trans hcorrected⟩

end

/-! ### What a read counts (R83) -/

theorem noteRead_sameLine (s : State) (e : ReadError) (p : Nat) (r : Reader) : SameLine p s (s.noteRead e p r) := by
  unfold State.noteRead
  dsimp only
  split
  · exact .refl p s
  · split
    · exact (updChan_sameLine _ _ _ ⟨rfl, rfl⟩).trans (logLine_sameLine ..)
    · exact logLine_sameLine ..

@[simp] theorem logLine_chan (s : State) (p event : Nat) (r : Reader) (d g : Nat) : (s.logLine p event r d).chan g = s.chan g := by
  unfold State.logLine
  split <;> rfl

/-- An error that is corrected, or taken for one that is, is counted. -/
theorem noteRead_corrected {e : ReadError} (h : symbolsOf e = 1 ∨ (4 ≤ symbolsOf e ∧ e.missed = 2)) (s : State) (p : Nat) (r : Reader) :
    ((s.noteRead e p r).chan (chanOf p)).corrected = (s.chan (chanOf p)).corrected + 1 := by
  unfold State.noteRead
  dsimp only
  rw [if_neg (by omega), if_pos h, logLine_chan, chan_updChan_same]

/-- Nothing is noted of a read without error. -/
theorem noteRead_none {e : ReadError} (h : symbolsOf e = 0) (s : State) (p : Nat) (r : Reader) : s.noteRead e p r = s := by
  unfold State.noteRead
  exact if_pos (.inl h)

/-! ### What a read stores again (R82, R83) -/

/-- The line stored again as it was found, unless a write has entered since. -/
def State.storeFound (s : State) (e : ReadError) (p : Nat) : State :=
  if (e.written || s.foundLine e p == s.bankLine p) = true then s else s.setBank p (s.foundLine e p).1 (s.foundLine e p).2

section
variable {s : State} (e : ReadError) (p : Nat)

theorem storeFound_bankLine (hw : Memory.wf s.mem = true) :
    (s.storeFound e p).bankLine p = if e.written = true then s.bankLine p else s.foundLine e p := by
  unfold State.storeFound
  cases hwritten : e.written with
  | true => rfl
  | false =>
    by_cases hsame : s.foundLine e p = s.bankLine p
    · rw [if_pos (by simp [hsame]), if_neg (by simp), hsame]
    · rw [if_neg (by simpa using hsame), if_neg (by simp)]
      exact setBank_bankLine hw ..

theorem storeFound_unchanged (h : s.foundLine e p = s.bankLine p) : s.storeFound e p = s := if_pos (by simp [h])

theorem storeFound_lines : LinesOnly s (s.storeFound e p) := by
  unfold State.storeFound
  split
  · exact .rfl' s
  · exact setBank_lines ..

theorem storeFound_wf (hw : Memory.wf s.mem = true) : Memory.wf (s.storeFound e p).mem = true := by
  unfold State.storeFound
  split
  · exact hw
  · exact setBank_wf hw ..

theorem storeFound_owner (g : Nat) : (s.storeFound e p).owner g = s.owner g := by
  unfold State.storeFound
  split
  · rfl
  · exact setBank_owner ..

theorem storeFound_corrected : ((s.storeFound e p).chan (chanOf p)).corrected = (s.chan (chanOf p)).corrected := by
  unfold State.storeFound
  split
  · rfl
  · exact setBank_corrected ..

theorem storeFound_absent (h : (s.chan (chanOf p)).l2? (p % 2 ^ 25) = none) :
    ((s.storeFound e p).chan (chanOf p)).l2? (p % 2 ^ 25) = none := by
  unfold State.storeFound
  split
  · exact h
  · exact setBank_absent h ..

end

/-- A bad tag of a line that was delivered is logged, and unless a write has entered since the line is stored with the tag that it was
given (R48). -/
def State.fixGiven (s : State) (written : Bool) (p : Nat) (x : Line × Tag) (bad : Option Tag) (r : Reader) : State :=
  match bad with
  | none => s
  | some t => (if written then s else s.setBank p x.1 t).logEvent (s.partOfLine p) 0x03 r.vf r.coord (BitVec.ofNat 64 p)
      (BitVec.ofNat 64 x.2.toNat)

section
variable {s : State} (written : Bool) (p : Nat) (x : Line × Tag) (bad : Option Tag) (r : Reader)

theorem fixGiven_some (t : Tag) : SameLine p (if written = true then s else s.setBank p x.1 t) (s.fixGiven written p x (some t) r) := by
  have hpart : s.partOfLine p = (if written = true then s else s.setBank p x.1 t).partOfLine p := by
    split
    · rfl
    · exact (partOfLine_congr (setBank_owner ..)).symm
  unfold State.fixGiven
  dsimp only
  rw [hpart]
  exact logPart_sameLine ..

/-- The bank holds the line as it was given. -/
theorem fixGiven_bankLine (hw : Memory.wf s.mem = true) {b : Line × Tag} (h : s.bankLine p = if written = true then b else x) :
    (s.fixGiven written p x bad r).bankLine p = if written = true then b else (x.1, bad.getD x.2) := by
  cases bad with
  | none => exact h
  | some t =>
    rw [(fixGiven_some written p x r t).bankLine]
    cases written with
    | true => exact h
    | false => exact setBank_bankLine hw ..

theorem fixGiven_corrected :
    ((s.fixGiven written p x bad r).chan (chanOf p)).corrected = (s.chan (chanOf p)).corrected := by
  cases bad with
  | none => rfl
  | some t =>
    show (State.chan (if written = true then s else s.setBank p x.1 t) (chanOf p)).corrected = _
    split
    · rfl
    · exact setBank_corrected ..

/-- A line that the slice serves is served as before. -/
theorem fixGiven_homeLine (hp : p < 2 ^ 35) (hw : Memory.wf s.mem = true) {l : L2Line} (h : s.served p l) :
    (s.fixGiven written p x bad r).homeLine p = s.homeLine p := by
  cases bad with
  | none => rfl
  | some t =>
    rw [(fixGiven_some written p x r t).homeLine]
    split
    · rfl
    · exact (setBank_served hp hw h ..).home

end

/-! ### A read that its bank answers -/

/-- The line as a read gives it: as it was found, with a good tag (R48). -/
def State.givenLine (s : State) (e : ReadError) (p : Nat) : Line × Tag :=
  ((s.foundLine e p).1, (badTag? (s.packingOf p) (s.foundLine e p).2).getD (s.foundLine e p).2)

def ChanReq.reader (q : ChanReq) : Reader := { vf := q.vf, coord := q.coord }

/-- The line stored again, and its error noted. -/
def State.checked (s : State) (q : ChanReq) (p : Nat) : State := (s.storeFound q.err p).noteRead q.err p q.reader

theorem readDone_patrol {q : ChanReq} (h : q.patrol = true) (s : State) (p : Nat) : s.readDone q p = s.checked q p := by
  unfold State.readDone
  simp only [h, if_true]
  rfl

theorem readDone_delivers {q : ChanReq} (h : q.patrol = false) (s : State) (p : Nat) :
    s.readDone q p = (if q.near = true then s.checked q p else (s.checked q p).deliverLine p
        ((s.foundLine q.err p).1, (badTag? ((s.checked q p).packingOf p) (s.foundLine q.err p).2).getD (s.foundLine q.err p).2)).fixGiven
      q.err.written p (s.foundLine q.err p) (badTag? ((s.checked q p).packingOf p) (s.foundLine q.err p).2) q.reader := by
  unfold State.readDone
  simp only [h, Bool.false_eq_true, if_false]
  rfl

section
variable {s : State} (q : ChanReq) (p : Nat)

theorem checked_packingOf : (s.checked q p).packingOf p = s.packingOf p :=
  (noteRead_sameLine ..).packingOf.trans (packingOf_congr (storeFound_owner ..) (storeFound_lines ..).vfs)

theorem checked_bankLine (hw : Memory.wf s.mem = true) :
    (s.checked q p).bankLine p = if q.err.written = true then s.bankLine p else s.foundLine q.err p :=
  (noteRead_sameLine ..).bankLine.trans (storeFound_bankLine _ _ hw)

theorem checked_wf (hw : Memory.wf s.mem = true) : Memory.wf (s.checked q p).mem = true :=
  (noteRead_sameLine ..).wf (storeFound_wf _ _ hw)

theorem checked_absent (h : (s.chan (chanOf p)).l2? (p % 2 ^ 25) = none) : ((s.checked q p).chan (chanOf p)).l2? (p % 2 ^ 25) = none :=
  (noteRead_sameLine ..).chan.2.trans (storeFound_absent _ _ h)

theorem checked_corrected (h : symbolsOf q.err = 1 ∨ (4 ≤ symbolsOf q.err ∧ q.err.missed = 2)) :
    ((s.checked q p).chan (chanOf p)).corrected = (s.chan (chanOf p)).corrected + 1 := by
  rw [State.checked, noteRead_corrected h, storeFound_corrected]

end

/-- What a read that serves an access leaves: the bank holds the line as given, unless a write has entered since; the slice serves it
so, where the page is not NEAR. -/
theorem readDone_copies {s : State} {q : ChanReq} {p : Nat} (hp : p < 2 ^ 35) (hw : Memory.wf s.mem = true) (hpatrol : q.patrol = false)
    (hnone : (s.chan (chanOf p)).l2? (p % 2 ^ 25) = none) :
    (s.readDone q p).bankLine p = (if q.err.written = true then s.bankLine p else s.givenLine q.err p)
    ∧ (q.near = false → (s.readDone q p).homeLine p = s.givenLine q.err p)
    ∧ ((s.readDone q p).chan (chanOf p)).corrected = ((s.checked q p).chan (chanOf p)).corrected := by
  have hcw := checked_wf q p hw
  have hbank := checked_bankLine q p hw
  rw [readDone_delivers hpatrol, checked_packingOf]
  cases hnear : q.near with
  | true => exact ⟨fixGiven_bankLine _ _ _ _ _ hcw hbank, fun h => Bool.noConfusion h, fixGiven_corrected ..⟩
  | false =>
    have hserved := deliverLine_served hp hcw (checked_absent q p hnone) (s.givenLine q.err p)
    obtain ⟨l, hl⟩ := hserved.served
    exact ⟨fixGiven_bankLine _ _ _ _ _ hserved.wf (hserved.bank.trans hbank),
      fun _ => (fixGiven_homeLine _ _ _ _ _ hp hserved.wf hl).trans hserved.home, (fixGiven_corrected ..).trans hserved.corrected⟩

end Sys2Proof.Machine
end

section
/-!
PROOFS. Line reads, activations, scrubs, walks, page requests and replays (O53).
-/
namespace Sys2Proof.Machine

/-! ### Reads (R83, R85, R98, R99) -/

section
variable {s : State} {p : Nat} {e : ReadError} {patrol near : Bool} {r : Reader}

/-- The row of a line opened in its bank, as an access of it does (R98). -/
def State.opened (s : State) (p : Nat) : State :=
  s.updChan (chanOf p) (fun c => c.openFor s.anchor.actThreshold (bankOf p) (rowOf p))

theorem opened_sameLine (s : State) (p : Nat) : SameLine p s (s.opened p) :=
  updChan_sameLine _ _ _ ((openFor_rows ..).sameLine _)

theorem opened_corrected (s : State) (p : Nat) : ((s.opened p).chan (chanOf p)).corrected = (s.chan (chanOf p)).corrected := by
  rw [State.opened, chan_updChan_same, (openFor_rows ..).corrected]

theorem foundLine_congr {s u : State} (h : SameLine p s u) : u.foundLine e p = s.foundLine e p := by
  unfold State.foundLine
  rw [h.bankLine, h.packingOf]

theorem givenLine_congr {s u : State} (h : SameLine p s u) : u.givenLine e p = s.givenLine e p := by
  rw [State.givenLine, foundLine_congr h, h.packingOf, State.givenLine]

theorem foundLine_clean (h : symbolsOf e = 0) (s : State) (p : Nat) : s.foundLine e p = s.bankLine p := if_pos (by omega)

theorem lineRead_untrained (h : (s.chan (chanOf p)).trained = false) : s.lineRead p e patrol near r = s :=
  if_pos (by rw [h]; simp)

theorem lineRead_hit {l : L2Line} (hl : (s.chan (chanOf p)).l2? (p % 2 ^ 25) = some l) (hkey : l.key = s.keySlot (chanOf p)) :
    s.lineRead p e false false r = s := by
  unfold State.lineRead
  simp only [hl, hkey]
  simp

/-- The request of a read at its channel. -/
def readReq (p : Nat) (e : ReadError) (patrol near : Bool) (r : Reader) : ChanReq := ⟨p % 2 ^ 25, e, patrol, near, r.vf, r.coord⟩

/-- A read that the slice does not answer asks the bank. -/
theorem lineRead_asks (ht : (s.chan (chanOf p)).trained = true) (h : (s.chan (chanOf p)).l2? (p % 2 ^ 25) = none ∨ patrol = true) :
    s.lineRead p e patrol near r = s.serveReads (chanOf p) [readReq p e patrol near r] := by
  unfold State.lineRead
  dsimp only
  refine if_neg ?_
  rcases h with hnone | rfl
  · simp only [hnone, ht]
    simp
  · simp [ht]

theorem bankOf_readReq (p : Nat) (e : ReadError) (patrol near : Bool) (r : Reader) : bankOf (readReq p e patrol near r).off = bankOf p :=
  congrArg (fun off => off / 8 % 64) (Nat.mod_mod p (2 ^ 25))

theorem rowOf_readReq (p : Nat) (e : ReadError) (patrol near : Bool) (r : Reader) : rowOf (readReq p e patrol near r).off = rowOf p :=
  congrArg (fun off => off / 512) (Nat.mod_mod p (2 ^ 25))

theorem serveReads_held {g : Nat} {q : ChanReq} (h : (s.chan g).holds (bankOf q.off) (rowOf q.off) = true) :
    s.serveReads g [q] = s.updChan g (fun c => { c with queue := c.queue ++ [q] }) := if_pos h

theorem serveReads_made {g : Nat} {q : ChanReq} (h : (s.chan g).holds (bankOf q.off) (rowOf q.off) = false) :
    s.serveReads g [q] = (s.updChan g (fun c => c.openFor s.anchor.actThreshold (bankOf q.off) (rowOf q.off))).readDone q (g * 2 ^ 25 + q.off) :=
  if_neg (by rw [h]; exact Bool.false_ne_true)

theorem lineRead_made (ht : (s.chan (chanOf p)).trained = true) (h : (s.chan (chanOf p)).l2? (p % 2 ^ 25) = none ∨ patrol = true)
    (hfree : (s.chan (chanOf p)).holds (bankOf p) (rowOf p) = false) :
    s.lineRead p e patrol near r = (s.opened p).readDone (readReq p e patrol near r) p := by
  have hline : chanOf p * 2 ^ 25 + (readReq p e patrol near r).off = p := Nat.div_add_mod' p _
  rw [lineRead_asks ht h, serveReads_made (by rw [bankOf_readReq, rowOf_readReq, hfree]), hline, bankOf_readReq, rowOf_readReq,
    State.opened]

/-- A patrol read that finds no error leaves memory. -/
theorem patrol_clean {u : State} {q : ChanReq} (hpatrol : q.patrol = true) (h : symbolsOf q.err = 0) : u.readDone q p = u := by
  rw [readDone_patrol hpatrol, State.checked, noteRead_none h, storeFound_unchanged _ _ (foundLine_clean h ..)]

/-- A read that its bank answers, corrected: it is counted. -/
theorem readDone_corrected {u : State} {q : ChanReq} (hp : p < 2 ^ 35) (hw : Memory.wf u.mem = true)
    (hq : (u.chan (chanOf p)).l2? (p % 2 ^ 25) = none ∨ q.patrol = true)
    (h : symbolsOf q.err = 1 ∨ (4 ≤ symbolsOf q.err ∧ q.err.missed = 2)) :
    ((u.readDone q p).chan (chanOf p)).corrected = (u.chan (chanOf p)).corrected + 1 := by
  rw [← checked_corrected q p h]
  cases hpatrol : q.patrol with
  | true => rw [readDone_patrol hpatrol]
  | false =>
    obtain ⟨-, -, hcorrected⟩ := readDone_copies hp hw hpatrol (hq.resolve_right (by simp [hpatrol]))
    exact hcorrected

/-- What the bank holds of a line after a read that it answers. -/
theorem readDone_bankLine {u : State} {q : ChanReq} (hp : p < 2 ^ 35) (hw : Memory.wf u.mem = true)
    (hq : (u.chan (chanOf p)).l2? (p % 2 ^ 25) = none ∨ q.patrol = true) :
    (u.readDone q p).bankLine p = if q.err.written = true then u.bankLine p
      else ((u.foundLine q.err p).1, if q.patrol = true then (u.foundLine q.err p).2 else (u.givenLine q.err p).2) := by
  cases hpatrol : q.patrol with
  | true => rw [readDone_patrol hpatrol, checked_bankLine q p hw]; rfl
  | false =>
    obtain ⟨hbank, -⟩ := readDone_copies hp hw hpatrol (hq.resolve_right (by simp [hpatrol]))
    exact hbank

/-- What an instruction does that reads a stored line: nothing where the slice answers or the channel failed its training; else the
read waits, or its bank answers. -/
theorem lineRead_does {i : Instr} (hp : p < 2 ^ 35) (hw : Memory.wf s.mem = true) (hi : exec i s = .next (s.lineRead p e patrol near r)) :
    ((s.chan (chanOf p)).trained = false → exec i s = .next s)
    ∧ (∀ l, patrol = false → near = false → (s.chan (chanOf p)).l2? (p % 2 ^ 25) = some l → l.key = s.keySlot (chanOf p) → exec i s = .next s)
    ∧ ((s.chan (chanOf p)).trained = true → (s.chan (chanOf p)).l2? (p % 2 ^ 25) = none ∨ patrol = true →
        ((s.chan (chanOf p)).holds (bankOf p) (rowOf p) = true → ∃ v q, exec i s = .next v
            ∧ (v.chan (chanOf p)).queue = (s.chan (chanOf p)).queue ++ [q] ∧ q.off = p % 2 ^ 25 ∧ q.err = e ∧ q.patrol = patrol
            ∧ q.near = near ∧ v.mem = s.mem ∧ v.tags = s.tags ∧ v.me = s.me)
        ∧ ((s.chan (chanOf p)).holds (bankOf p) (rowOf p) = false → ∃ v : State, exec i s = .next v ∧ v.me = s.me ∧ v.pairs = s.pairs
            ∧ (symbolsOf e = 0 → patrol = true → v.mem = s.mem ∧ v.tags = s.tags)
            ∧ (symbolsOf e = 1 ∨ (4 ≤ symbolsOf e ∧ e.missed = 2) → (v.chan (chanOf p)).corrected = (s.chan (chanOf p)).corrected + 1)
            ∧ v.bankLine p = (if e.written = true then s.bankLine p
                else ((s.foundLine e p).1, if patrol = true then (s.foundLine e p).2 else (s.givenLine e p).2))
            ∧ (patrol = false → near = false → v.homeLine p = s.givenLine e p))) := by
  rw [hi]
  refine ⟨fun ht => by rw [lineRead_untrained ht], ?_, fun ht hq => ⟨fun hheld => ?_, fun hfree => ?_⟩⟩
  · rintro l rfl rfl hl hkey
    rw [lineRead_hit hl hkey]
  · rw [lineRead_asks ht hq, serveReads_held (by rw [bankOf_readReq, rowOf_readReq, hheld])]
    exact ⟨_, readReq p e patrol near r, rfl, by rw [chan_updChan_same], rfl, rfl, rfl, rfl, rfl, rfl, rfl⟩
  · have hsame := opened_sameLine s p
    have hlines := hsame.lines.trans (readDone_lines (s.opened p) (readReq p e patrol near r) p)
    have hw' := hsame.wf hw
    have hnone : (s.chan (chanOf p)).l2? (p % 2 ^ 25) = none → ((s.opened p).chan (chanOf p)).l2? (p % 2 ^ 25) = none := hsame.chan.2.trans
    have hq' := hq.imp_left hnone
    rw [lineRead_made ht hq hfree]
    refine ⟨_, rfl, hlines.me, hlines.pairs, ?_, fun hc => ?_, ?_, ?_⟩
    · rintro hclean rfl
      rw [patrol_clean (q := readReq p e true near r) rfl hclean]
      exact ⟨rfl, rfl⟩
    · rw [readDone_corrected (q := readReq p e patrol near r) hp hw' hq' hc, opened_corrected]
    · rw [readDone_bankLine (q := readReq p e patrol near r) hp hw' hq', hsame.bankLine, givenLine_congr hsame, foundLine_congr hsame]
      rfl
    · rintro rfl rfl
      obtain ⟨-, hserved, -⟩ := readDone_copies (q := readReq p e false false r) hp hw' rfl (hnone (hq.resolve_right Bool.false_ne_true))
      exact (hserved rfl).trans (givenLine_congr hsame)

theorem exec_lineReadComplete_reads (hp : p < 2 ^ 35) (q : StoredRead) (s : State) :
    ∃ r, exec (.lineReadComplete p q) s = .next (s.lineRead p q.err false q.near r) := by
  rw [exec_lineReadComplete, execLineReadComplete, if_pos hp]
  exact ⟨_, rfl⟩

theorem exec_patrolRead_reads (hp : p < 2 ^ 35) (huser : p % 2 ^ 25 < userLines) (e : ReadError) (s : State) :
    exec (.patrolRead p e) s = .next (s.lineRead p e true false {}) := by
  rw [exec_patrolRead, execPatrolRead, if_pos ⟨hp, huser⟩]

end

end Sys2Proof.Machine
end

section
/-!
PROOFS. Activation alerts, back-offs and scrubs (O53).
-/
namespace Sys2Proof.Machine

/-! ### Alerts (R98) -/

theorem look_filter {α : Type} (f : Nat → Bool) (l : List (Nat × α)) (k : Nat) (d : α) :
    look (l.filter (fun e => f e.1)) k d = if f k = true then look l k d else d := by
  rw [look, lookup_filter]
  split <;> rfl

/-- The counts that an alert clears: of the row and its neighbours. -/
def nearRows (bank row : Nat) : List Nat :=
  ([row - 2, row - 1, row, row + 1, row + 2].filter (fun r => decide (r < 65536 ∧ r ≤ row + 2 ∧ row ≤ r + 2))).map (rowKey bank)

theorem mem_nearRows (bank row k : Nat) : k ∈ nearRows bank row ↔ ∃ r, row ≤ r + 2 ∧ r ≤ row + 2 ∧ r < 65536 ∧ k = rowKey bank r := by
  unfold nearRows
  simp only [List.mem_map, List.mem_filter, decide_eq_true_eq, List.mem_cons, List.not_mem_nil, or_false]
  constructor
  · rintro ⟨r, ⟨-, hr, hle, hge⟩, rfl⟩
    exact ⟨r, hge, hle, hr, rfl⟩
  · rintro ⟨r, hge, hle, hr, rfl⟩
    exact ⟨r, ⟨by omega, hr, hle, hge⟩, rfl⟩

theorem alert_act (c : Channel) (bank row k : Nat) :
    look (c.alert bank row).act k 0 = if k ∈ nearRows bank row then 0 else look c.act k 0 := by
  refine (look_filter (fun k => !(nearRows bank row).contains k) c.act k 0).trans ?_
  by_cases h : k ∈ nearRows bank row <;> simp [h]

theorem alert_backoff (c : Channel) (bank row : Nat) : bank ∈ (c.alert bank row).backoff := by
  unfold Channel.alert
  dsimp only
  split
  · rename_i h
    exact List.contains_iff_mem.1 h
  · exact List.mem_append_right _ (List.mem_singleton_self _)

/-- An alert clears the counts of the row and its neighbours, and holds the bank. -/
theorem activationAlert_does {s : State} {chan bank row : Nat} (hchan : chan < 1024) (hbank : bank < 64) (hrow : row < 65536) :
    ((s.chan chan).trained = false → exec (.activationAlert chan bank row) s = .next s)
    ∧ ((s.chan chan).trained = true → ∃ v : State, exec (.activationAlert chan bank row) s = .next v ∧ v.mem = s.mem ∧ v.me = s.me
      ∧ bank ∈ (v.chan chan).backoff
      ∧ (∀ r, row ≤ r + 2 → r ≤ row + 2 → r < 65536 → look (v.chan chan).act (rowKey bank r) 0 = 0)
      ∧ (∀ k, (∀ r, row ≤ r + 2 → r ≤ row + 2 → k ≠ rowKey bank r) → look (v.chan chan).act k 0 = look (s.chan chan).act k 0)) := by
  rw [exec_activationAlert, execActivationAlert]
  refine ⟨fun ht => by rw [if_neg (by simp [ht])], fun ht => ?_⟩
  rw [if_pos ⟨hchan, hbank, hrow, ht⟩]
  refine ⟨_, rfl, rfl, rfl, ?_, fun r hge hle hr => ?_, fun k hk => ?_⟩
  · rw [chan_updChan_same]
    exact alert_backoff ..
  · rw [chan_updChan_same, alert_act, if_pos ((mem_nearRows ..).2 ⟨r, hge, hle, hr, rfl⟩)]
  · rw [chan_updChan_same, alert_act, if_neg]
    rintro hmem
    obtain ⟨r, hge, hle, -, rfl⟩ := (mem_nearRows ..).1 hmem
    exact hk r hge hle rfl

/-! ### Scrubs (R100) -/

theorem memLine_unlisted {m : List Host.Cell} {a : Nat} (h : ∀ c ∈ m, ¬(a ≤ c.1 ∧ c.1 < a + 128)) : memLine m a = 0 := by
  unfold memLine
  refine congrArg (BitVec.ofNat 1024) ?_
  induction m with
  | nil => rfl
  | cons c t ih =>
    rw [List.foldl_cons, if_neg (h c List.mem_cons_self)]
    exact ih fun c hc => h c (List.mem_cons_of_mem _ hc)

/-- A line that the ZE clears: of the channel's bank, in the user rows. -/
def scrubs (g b p : Nat) : Bool := chanOf p == g && bankOf p == b && decide (p % 2 ^ 25 < userLines)

/-- The user lines of a scrubbed bank hold zeros. -/
theorem scrubBank_rawLine {s : State} {g b p : Nat} (hg : g < 1024) (h : scrubs g b p = true) : (s.scrubBank g b).rawLine p = (0, zeroTag) := by
  have hp : p < 2 ^ 35 := by
    simp only [scrubs, Bool.and_eq_true, beq_iff_eq] at h
    have hchan : p / 2 ^ 25 = g := h.1.1
    omega
  refine Prod.ext (memLine_unlisted fun c hc hrange => ?_) ?_
  · obtain ⟨-, hkept⟩ := List.mem_filter.1 hc
    have hline : c.1 / 128 = p := by omega
    have hdrop : (!(decide (c.1 < 2 ^ 42) && scrubs g b (c.1 / 128))) = true := hkept
    rw [hline, h, decide_eq_true (by omega)] at hdrop
    exact Bool.false_ne_true hdrop
  · refine (look_filter (fun k => !(decide (k < 2 ^ 35) && scrubs g b k)) s.tags p zeroTag).trans (if_neg ?_)
    rw [h, decide_eq_true hp]
    exact Bool.false_ne_true

theorem scrubBank_chan (s : State) (g b : Nat) : (s.scrubBank g b).chan g = (s.chan g).scrubbed b := look_put_same ..

theorem scrubbed_act (c : Channel) {b r : Nat} (hr : r < 65536) : look (c.scrubbed b).act (rowKey b r) 0 = 0 := by
  refine (look_filter (fun k => k / 65536 != b) c.act _ 0).trans (if_neg ?_)
  have hkey : rowKey b r / 65536 = b := by unfold rowKey; omega
  simp [hkey]

theorem endReset_lines (s : State) : s.endReset.mem = s.mem ∧ s.endReset.tags = s.tags ∧ s.endReset.chans = s.chans := by
  unfold State.endReset
  split <;> exact ⟨rfl, rfl, rfl⟩

/-- No read waits: none is tried again. -/
theorem retryReads_idle {s : State} {g : Nat} (h : (s.chan g).queue = []) :
    s.retryReads g = s.updChan g (fun c => { c with queue := [] }) := by
  unfold State.retryReads
  rw [h]
  rfl

/-- A scrub of a bank whose channel has no waiting read. -/
theorem scrubBank_does {s : State} {chan b : Nat} (hchan : chan < 1024) (hb : (s.chan chan).nextScrub = some b)
    (hq : (s.chan chan).queue = []) :
    ∃ v : State, exec (.scrubBank chan) s = .next v
      ∧ (v.chan chan).scrub = (s.chan chan).scrub.erase b
      ∧ (∀ r, r < 65536 → look (v.chan chan).act (rowKey b r) 0 = 0)
      ∧ ∀ p, chanOf p = chan → bankOf p = b → p % 2 ^ 25 < userLines → v.rawLine p = (0, zeroTag) := by
  have hidle : ((s.scrubBank chan b).chan chan).queue = [] := by rw [scrubBank_chan]; exact hq
  obtain ⟨hmem, htags, hchans⟩ := endReset_lines ((s.scrubBank chan b).retryReads chan)
  have hv : ((s.scrubBank chan b).retryReads chan).endReset.chan chan = { (s.chan chan).scrubbed b with queue := [] } := by
    rw [State.chan, hchans, retryReads_idle hidle]
    exact (chan_updChan_same ..).trans (by rw [scrubBank_chan])
  rw [retryReads_idle hidle] at hmem htags
  rw [exec_scrubBank, execScrubBank]
  simp only [hb]
  refine ⟨_, rfl, congrArg Channel.scrub hv, fun r hr => ?_, fun p hp hbank huser => ?_⟩
  · exact (congrArg (fun c => look c.act (rowKey b r) 0) hv).trans (scrubbed_act _ hr)
  · have hraw := scrubBank_rawLine (s := s) (b := b) (p := p) hchan (by rw [scrubs, hp, hbank, decide_eq_true huser]; simp)
    refine Eq.trans ?_ hraw
    rw [retryReads_idle hidle]
    exact Prod.ext (congrArg (fun m => memLine m (128 * p)) hmem) (congrArg (fun t => look t p zeroTag) htags)

theorem backoffEnd_does (chan bank : Nat) (s : State) : exec (.backoffEnd chan bank) s
    = .next { (s.updChan chan (fun c => { c with backoff := c.backoff.erase bank })).retryReads chan with waiting := false } := rfl

end Sys2Proof.Machine
end

section
/-!
SUPPORT. What reading a line at its home leaves (R48, R82, R122): every strand and, where no bank has work of its own to finish first,
every byte of memory.
-/
namespace Sys2Proof.Machine

/-- A step that leaves strands and pairs and, where the banks are quiet, every byte of memory and the banks quiet. -/
structure QuietRead (s u : State) : Prop where
  me : u.me = s.me
  others : u.others = s.others
  pairs : u.pairs = s.pairs
  quiet : s.banksQuiet → Memory.wf s.mem = true → u.banksQuiet ∧ Memory.wf u.mem = true ∧ ∀ b, memGet u.mem b = memGet s.mem b

namespace QuietRead

theorem refl (s : State) : QuietRead s s := ⟨rfl, rfl, rfl, fun hq hw => ⟨hq, hw, fun _ => rfl⟩⟩

theorem trans {s t u : State} (h : QuietRead s t) (k : QuietRead t u) : QuietRead s u := by
  refine ⟨k.me.trans h.me, k.others.trans h.others, k.pairs.trans h.pairs, fun hq hw => ?_⟩
  obtain ⟨hq, hw, hmem⟩ := h.quiet hq hw
  obtain ⟨hq, hw, hmem'⟩ := k.quiet hq hw
  exact ⟨hq, hw, fun b => (hmem' b).trans (hmem b)⟩

/-- A step that keeps channels and memory as well. -/
theorem of_same {s u : State} (hme : u.me = s.me) (hothers : u.others = s.others) (hpairs : u.pairs = s.pairs)
    (hchans : u.chans = s.chans) (hmem : u.mem = s.mem) : QuietRead s u := by
  refine ⟨hme, hothers, hpairs, fun hq hw => ?_⟩
  unfold State.banksQuiet State.chan
  rw [hchans, hmem]
  exact ⟨hq, hw, fun _ => rfl⟩

theorem readsOnly {s u : State} (h : QuietRead s u) : s.readsOnly u :=
  ⟨by rw [h.me], h.pairs, fun _ => ⟨h.me, h.others, fun hq hw => (h.quiet hq hw).2.2⟩⟩

end QuietRead

theorem logEvent_quiet (s : State) (part event vf coord : Nat) (a d : Word) : QuietRead s (s.logEvent part event vf coord a d) :=
  .of_same rfl rfl rfl rfl rfl

theorem updHank_quiet (s : State) (h : Nat) (f : Hank → Hank) : QuietRead s (s.updHank h f) := .of_same rfl rfl rfl rfl rfl

theorem updCore_quiet (s : State) (c : Nat) (f : Core → Core) : QuietRead s (s.updCore c f) := .of_same rfl rfl rfl rfl rfl

/-! ### Channels -/

theorem updChan_quiet (s : State) (g : Nat) (f : Channel → Channel) (hf : (s.chan g).Keeps (f (s.chan g))) : QuietRead s (s.updChan g f) := by
  refine ⟨rfl, rfl, rfl, fun hq hw => ⟨fun k => ?_, hw, fun _ => rfl⟩⟩
  by_cases hk : k = g
  · subst hk
    obtain ⟨hscrub, hqueue, hbank⟩ := hq k
    rw [chan_updChan_same]
    exact ⟨hf.scrub.trans hscrub, hf.queue hqueue, fun off b hb => hbank off b (hf.bank off b hb)⟩
  · rw [chan_updChan_other _ _ _ _ hk]
    exact hq k

theorem State.banksQuiet.idle {s : State} (h : s.banksQuiet) : s.idleBanks := fun g => ⟨(h g).1, (h g).2.1⟩

/-- Quiet banks have nothing to finish before an access. -/
theorem drainBank_quiet (s : State) (g bank : Nat) : QuietRead s (s.drainBank g bank) := by
  have hlines := drainBank_lines s g bank
  refine ⟨hlines.me, hlines.others, hlines.pairs, fun hq hw => ?_⟩
  rw [drainBank_of_idleBanks hq.idle]
  exact ⟨hq, hw, fun _ => rfl⟩

theorem drainFor_quiet (s : State) (g : Nat) (l : Option L2Line) : QuietRead s (s.drainFor g l) := by
  unfold State.drainFor
  split
  · split
    · exact drainBank_quiet ..
    · exact .refl s
  · exact .refl s

theorem quiet_ite {s u v : State} (c : Prop) [Decidable c] (hu : QuietRead s u) (hv : QuietRead s v) : QuietRead s (if c then u else v) := by
  split
  · exact hu
  · exact hv

theorem reach_quiet (s : State) (near : Bool) (k : Nat) (r : Reader) : QuietRead s (s.reach near k r) := by
  unfold State.reach
  split
  · exact .refl s
  · dsimp only
    refine (quiet_ite _ (.refl s) (drainBank_quiet ..)).trans ((quiet_ite _ (.refl _) (drainFor_quiet ..)).trans (updChan_quiet _ _ _ ?_))
    split
    · exact (openFor_rows ..).keeps
    · exact access_keeps ..

/-! ### A line written again as it is read (R48) -/

section
variable {s : State} (hq : s.banksQuiet)
include hq

theorem bankLine_bytes (p : Nat) : (s.bankLine p).1 = memLine s.mem (128 * p) := by
  unfold State.bankLine
  cases hb : (s.chan (chanOf p)).bank.lookup (p % 2 ^ 25) with
  | none => rfl
  | some b =>
    have hline : chanOf p * 2 ^ 25 + p % 2 ^ 25 = p := Nat.div_add_mod' p _
    rw [Option.getD_some, (hq _).2.2 _ b hb, hline]

theorem homeLine_bytes (k : Nat) : (s.homeLine k).1 = memLine s.mem (128 * k) := by
  have hbank := bankLine_bytes hq k
  unfold State.homeLine
  split
  · rfl
  · dsimp only
    cases hb : (s.chan (chanOf k)).bank.lookup (k % 2 ^ 25) with
    | none => rfl
    | some b =>
      rw [State.bankLine, hb] at hbank
      dsimp only
      split
      · split
        · exact hbank
        · rfl
      · exact hbank

/-- The banks stay quiet where their copies and the bytes of memory stay. -/
theorem banksQuiet_of_bytes {u : State} (hw : Memory.wf s.mem = true) (hw' : Memory.wf u.mem = true)
    (hmem : ∀ b, memGet u.mem b = memGet s.mem b)
    (hchan : ∀ g, (u.chan g).scrub = (s.chan g).scrub ∧ (u.chan g).queue = (s.chan g).queue
      ∧ ∀ off b, (u.chan g).bank.lookup off = some b → (s.chan g).bank.lookup off = some b ∨ b.1 = memLine s.mem (128 * (g * 2 ^ 25 + off))) :
    u.banksQuiet := by
  intro g
  obtain ⟨hscrub, hqueue, hbank⟩ := hq g
  obtain ⟨hs, hk, hb⟩ := hchan g
  refine ⟨hs.trans hscrub, hk.trans hqueue, fun off b h => ?_⟩
  have hline : memLine s.mem (128 * (g * 2 ^ 25 + off)) = memLine u.mem (128 * (g * 2 ^ 25 + off)) :=
    memLine_congr hw hw' fun i _ => (hmem _).symm
  rw [← hline]
  exact (hb off b h).elim (hbank off b) id

theorem putRaw_bytes (hw : Memory.wf s.mem = true) (k : Nat) (t : Tag) :
    (s.putRaw k (s.homeLine k).1 t).banksQuiet ∧ Memory.wf (s.putRaw k (s.homeLine k).1 t).mem = true
    ∧ ∀ b, memGet (s.putRaw k (s.homeLine k).1 t).mem b = memGet s.mem b := by
  rw [homeLine_bytes hq]
  have hw' := putRaw_wf s k (memLine s.mem (128 * k)) t hw
  have hmem (b : Nat) := memGet_putRaw_same s k t b hw
  exact ⟨banksQuiet_of_bytes hq hw hw' hmem fun g => by rw [putRaw_chan]; exact ⟨rfl, rfl, fun _ _ h => .inl h⟩, hw', hmem⟩

theorem written_quiet (near : Bool) (k : Nat) (hw : Memory.wf s.mem = true) :
    (s.updChan (chanOf k) (fun c => c.written near (k % 2 ^ 25) (s.bankLine k))).banksQuiet := by
  refine banksQuiet_of_bytes hq hw hw (fun _ => rfl) fun g => ?_
  by_cases hg : g = chanOf k
  · subst hg
    rw [chan_updChan_same]
    obtain ⟨hscrub, hqueue⟩ := written_scrub_queue (s.chan (chanOf k)) near (k % 2 ^ 25) (s.bankLine k)
    refine ⟨hscrub, hqueue, fun off b hb => ?_⟩
    rcases written_bank hb with ⟨rfl, rfl⟩ | hb
    · have hline : chanOf k * 2 ^ 25 + k % 2 ^ 25 = k := Nat.div_add_mod' k _
      exact .inr (by rw [hline, bankLine_bytes hq])
    · exact .inl hb
  · rw [chan_updChan_other _ _ _ _ hg]
    exact ⟨rfl, rfl, fun _ _ h => .inl h⟩

end

/-- A line written again as its home serves it, with another tag. -/
theorem writeLine_quiet (s : State) (near : Bool) (k : Nat) (t : Tag) : QuietRead s (s.writeLine near k (s.homeLine k).1 t) := by
  have hlines := writeLine_lines s near k (s.homeLine k).1 t
  refine ⟨hlines.me, hlines.others, hlines.pairs, fun hq hw => ?_⟩
  unfold State.writeLine
  split
  · exact putRaw_bytes hq hw k t
  · have hv := written_quiet hq near k hw
    have hput := putRaw_bytes hv hw k t
    rw [homeLine_bytes hv] at hput
    rw [homeLine_bytes hq]
    exact hput

/-! ### Reads -/

theorem fixTag_quiet (s : State) (near : Bool) (part k m : Nat) (r : Reader) : QuietRead s (s.fixTag near part k m r).2 := by
  unfold State.fixTag
  dsimp only
  split
  · exact (writeLine_quiet ..).trans (logEvent_quiet ..)
  · exact .refl s

theorem readStored_quiet (s : State) (near : Bool) (part : Nat) (h : Stored) (r : Reader) : QuietRead s (s.readStored near part h r).2.2 := by
  unfold State.readStored
  dsimp only
  split <;> exact (reach_quiet ..).trans (fixTag_quiet ..)

theorem readHost_quiet (s : State) (part vf a : Nat) (r : Reader) : QuietRead s (s.readHost part vf a r).2.2 := by
  unfold State.readHost
  dsimp only
  split <;> exact .of_same rfl rfl rfl rfl rfl

theorem unsettled_quiet {s t : State} {e : TlbEntry} {j : Nat} {x : Line × Tag × State} (h : QuietRead t x.2.2) :
    QuietRead t (s.unsettled e j x).2.2 := by
  unfold State.unsettled
  split
  · exact h
  · exact h.trans (.of_same rfl rfl rfl rfl rfl)

theorem readHome_quiet (s : State) (l : LineLoc) (r : Reader) : QuietRead s (s.readHome l r).2.2 := by
  cases l with
  | store c i => exact (reach_quiet ..).trans (fixTag_quiet ..)
  | page e j =>
    refine unsettled_quiet ?_
    split
    · exact readHost_quiet ..
    · exact readStored_quiet ..

/-! ### Walks (R110) -/

theorem s2Find_quiet (s : State) (hank vf iseg : Nat) : QuietRead s (s.s2Find hank vf iseg).2 := by
  unfold State.s2Find
  dsimp only
  split
  · exact .refl s
  · exact updHank_quiet ..

/-- A translation that succeeds has read lines alone. -/
def XRes.quiet (s : State) : XRes → Prop
  | .ok u _ => QuietRead s u
  | .fail _ _ => True
  | .park _ _ => True

theorem xres_ite {s : State} {c : Prop} [Decidable c] {a b : XRes} (ha : a.quiet s) (hb : b.quiet s) : (if c then a else b).quiet s := by
  split
  · exact ha
  · exact hb

theorem walkFrom_quiet (w : Walker) (va : Nat) (acc : Access) (n : Nat) : ∀ (s t : State) (ia : Nat), QuietRead s t →
    (t.walkFrom w va acc n ia).quiet s := by
  induction n with
  | zero => exact fun s t ia h => trivial
  | succ n ih =>
    intro s t ia h
    unfold State.walkFrom
    dsimp only
    generalize ia + 8 * s1Index va n = a
    have hdesc := h.trans (s2Find_quiet t (hankOf w.core) w.vf (a / 2 ^ 18))
    generalize t.s2Find (hankOf w.core) w.vf (a / 2 ^ 18) = desc at hdesc ⊢
    obtain ⟨_ | g, t⟩ := desc
    · trivial
    refine xres_ite trivial ?_
    have hread := hdesc.trans ((updHank_quiet t (hankOf w.core) (fun h => { h with refs := h.refs + 1 })).trans
      (readHome_quiet _ (.page (g.homeEntry w.vf (a / 2 ^ 18)) (a % 2 ^ 18 / 128)) w.reader))
    generalize State.readHome _ _ _ = x at hread ⊢
    refine xres_ite trivial ?_
    generalize (if classOf x.2.1 = 0 then _ else _ : Nat) = entry
    refine xres_ite trivial (xres_ite trivial (xres_ite (xres_ite trivial ?_) ?_))
    · have hleaf := hread.trans (s2Find_quiet x.2.2 (hankOf w.core) w.vf ((entry / 2 ^ 20 % 2 ^ 34 * 2 ^ 18 + va % pageSize n) / 2 ^ 18))
      generalize x.2.2.s2Find (hankOf w.core) w.vf _ = leaf at hleaf ⊢
      obtain ⟨_ | d, v⟩ := leaf
      · trivial
      · exact xres_ite trivial (xres_ite trivial (xres_ite trivial hleaf))
    · exact ih _ _ _ (hread.trans (updHank_quiet ..))

/-- A walk that succeeds has read tables and descriptors alone (R110). -/
theorem walk_quiet {s u : State} {w : Walker} {va : Nat} {acc : Access} {e : TlbEntry} (h : s.walk w va acc = .ok u e) : QuietRead s u := by
  have hfrom := walkFrom_quiet w va acc (s.walkStart (hankOf w.core) w.vf va).1 s s (s.walkStart (hankOf w.core) w.vf va).2 (.refl s)
  unfold State.walk at h
  dsimp only at h
  generalize s.walkFrom w va acc _ _ = r at h hfrom
  cases r with
  | ok t f =>
    cases h
    exact QuietRead.trans hfrom ((updCore_quiet ..).trans (updHank_quiet ..))
  | fail t c => cases h
  | park t i => cases h

end Sys2Proof.Machine
end

section
/-!
PROOFS. Walks, page requests, replays, stalls and the return of chunks (O53), and its theorem.
-/
namespace Sys2Proof.Machine

/-! ### Walks, replays and stalls (R110, R119, R121) -/

section
variable {s : State} {core ctx : Nat} {st : Strand} (hst : s.strand? core ctx = some st)
include hst

theorem walkComplete_does {va : Nat} {acc : Access} {u : State} {e : TlbEntry} (hva : va < 2 ^ 56)
    (hwalk : s.walk (s.walkerOf st) va acc = .ok u e) : exec (.walkComplete core ctx va acc) s = .next u ∧ s.readsOnly u := by
  refine ⟨?_, (walk_quiet hwalk).readsOnly⟩
  rw [exec_walkComplete, execWalkComplete]
  simp only [hst, if_neg (Nat.not_le.2 hva), hwalk]

theorem elementReplay_does {p : Parked} (hp : s.wokenOf st = some p) (htrap : p.trap = none) (hfree : st.dispatched = false)
    (hrun : st.run = .running) :
    exec (.elementReplay core ctx) s = .next { s.mapStrand core ctx (fun y => y.unissue.resumeParked p) with waiting := false } := by
  rw [exec_elementReplay, execElementReplay, State.replayParked]
  simp [hst, hp, htrap, hfree, hrun]

theorem longStallTimeout_does {v : Vf} (hv : s.vfs.lookup st.vf = some v) (htmo : v.policy.pgTmo ≠ 0)
    (hwaits : (st.held.isSome || !st.parked.isEmpty) = true) :
    exec (.longStallTimeout core ctx) s = .next { s.mapStrand core ctx Strand.stall with waiting := false } := by
  have hvf : s.vf? st.vf = some v := hv
  rw [exec_longStallTimeout, execLongStallTimeout]
  simp [hst, hvf, htmo, hwaits]

end

theorem stall_denied {st : Strand} {h : Nat × Nat} (hheld : st.held = some h) (hanchor : st.anchorHold = false) :
    st.stall.denied = (h.1 / 2 ^ 18, 0x16) :: st.denied := by
  simp [Strand.stall, hheld, hanchor, causeLongStall]

/-! ### Page requests (R117) -/

theorem pageRequestDeliver_does {s : State} {vf : Nat} {v : Vf} {q : PageReq} (hv : s.vfs.lookup vf = some v)
    (hq : v.pgq.find? (fun r => !r.delivered) = some q) :
    ∃ u : State, exec (.pageRequestDeliver vf) s = .next u ∧ u.mem = s.mem ∧ u.me = s.me ∧ u.vfs.lookup vf = some { v with
      pgq := v.pgq.map (fun r => if r.id = q.id then { r with delivered := true } else r)
      mailbox := v.mailbox ++ [BitVec.ofNat 128 (q.record vf)] } := by
  rw [exec_pageRequestDeliver, execPageRequestDeliver]
  refine ⟨_, rfl, updVf_mem .., updVf_me .., ?_⟩
  rw [updVf_lookup, if_pos rfl, hv]
  simp only [Option.map_some, hq]

/-! ### The return of unmapped chunks (R413) -/

/-- A step towards the return of chunks: strands keep all but links, and with no line in an L1 memory stays. -/
structure Returns (s u : State) : Prop where
  homes : HomesOnly s u
  empty : (∀ c, (s.core c).l1 = []) → (∀ c, (u.core c).l1 = []) ∧ u.mem = s.mem

namespace Returns

theorem refl (s : State) : Returns s s := ⟨.refl s, fun h => ⟨h, rfl⟩⟩

theorem trans {s t u : State} (h : Returns s t) (k : Returns t u) : Returns s u := by
  refine ⟨h.homes.trans k.homes, fun he => ?_⟩
  obtain ⟨he, hmem⟩ := h.empty he
  obtain ⟨he, hmem'⟩ := k.empty he
  exact ⟨he, hmem'.trans hmem⟩

theorem foldl {α : Type} (f : State → α → State) (h : ∀ s x, Returns s (f s x)) (l : List α) : ∀ s, Returns s (l.foldl f s) := by
  induction l with
  | nil => exact refl
  | cons x l ih => exact fun s => (h s x).trans (ih _)

end Returns

theorem updCore_returns (s : State) (c : Nat) (f : Core → Core) (hf : ∀ x : Core, x.l1 = [] → (f x).l1 = []) : Returns s (s.updCore c f) := by
  refine ⟨updCore_homes .., fun h => ⟨fun k => ?_, rfl⟩⟩
  by_cases hk : k = c
  · subst hk
    rw [core_updCore_same]
    exact hf _ (h k)
  · rw [core_updCore_other _ _ _ _ hk]
    exact h k

theorem updHank_returns (s : State) (h : Nat) (f : Hank → Hank) : Returns s (s.updHank h f) := ⟨.of_eq rfl rfl rfl, fun h => ⟨h, rfl⟩⟩

theorem refreshTlb_returns (s : State) (core vf : Nat) : Returns s (s.refreshTlb core vf) := by
  unfold State.refreshTlb
  split
  · exact .refl s
  · dsimp only
    refine (updCore_returns _ _ _ fun x hx => ?_).trans (updHank_returns ..)
    exact hx

theorem refreshAll_returns (s : State) (part vf : Nat) : Returns s (s.refreshAll part vf) := by
  unfold State.refreshAll
  dsimp only
  refine (Returns.foldl _ (fun s c => refreshTlb_returns s c vf) (s.part part).cores s).trans ?_
  split
  · exact .refl _
  · exact ⟨.of_eq rfl rfl rfl, fun h => ⟨h, rfl⟩⟩

theorem writeBackLine_returns (s : State) (core key : Nat) : Returns s (s.writeBackLine core key) := by
  refine ⟨writeBackLine_homes .., fun h => ?_⟩
  rw [writeBackLine_clean fun l hl => absurd (line_mem hl).1 (by rw [h]; exact List.not_mem_nil)]
  exact ⟨h, rfl⟩

theorem dropChunkL1_returns (s : State) (vf : Nat) (chunks : List Nat) : Returns s (s.dropChunkL1 vf chunks) := by
  refine Returns.foldl _ (fun s c => Returns.foldl _ (fun s l => ?_) _ s) _ s
  exact (writeBackLine_returns ..).trans (updCore_returns _ _ _ fun x hx => by rw [Core.dropLine, hx]; rfl)

/-- The chunks of a partition return; no function waits for that with its reset. -/
theorem unmapChunkReturn_does {s : State} {part : Nat} (hreset : ∀ v x, s.vfs.lookup v = some x → x.resetTag = none) :
    ∃ u : State, exec (.unmapChunkReturn part) s = .next u ∧ (u.part part).returning = [] ∧ s.writesOnly u
      ∧ ((∀ c, (s.core c).l1 = []) → u.mem = s.mem) := by
  rw [exec_unmapChunkReturn, execUnmapChunkReturn]
  refine ⟨_, rfl, ?_⟩
  unfold State.returnChunks
  dsimp only
  generalize ((s.part part).returning.map (fun r => r.1)).eraseDups = vfs
  have hrefresh := Returns.foldl (fun s v => s.refreshAll part v) (fun s v => refreshAll_returns s part v) vfs s
  generalize vfs.foldl (fun s v => s.refreshAll part v) s = t at hrefresh
  have hdrop := hrefresh.trans (Returns.foldl (fun s (r : Nat × Nat × List Nat) => s.dropChunkL1 r.1 r.2.2)
    (fun s r => dropChunkL1_returns s r.1 r.2.2) (t.part part).returning t)
  generalize (t.part part).returning.foldl (fun s r => s.dropChunkL1 r.1 r.2.2) t = w at hdrop
  have hnone (v : Nat) : (w.updPart part (fun p => { p with returning := [] })).resetTag? v = none := by
    rw [(updPart_homes ..).resets, hdrop.homes.resets]
    cases hv : s.vfs.lookup v with
    | none => simp [State.resetTag?, State.vf?, hv]
    | some x => simp [State.resetTag?, State.vf?, hv, hreset v x hv]
  have hfinal := hdrop.homes.trans (updPart_homes w part (fun p => { p with returning := [] }))
  rw [List.foldl_fixed' (fun v => by rw [show (State.vf? _ v).bind _ = none from hnone v])]
  exact ⟨congrArg Part.returning (look_put_same ..), hfinal.writes, fun h => (hdrop.empty h).2⟩

/-- Settles O53: each event's rule as its own lemma; a read through the copies of its line, a walk through what quiet reads leave. -/
theorem memoryEvents : Obligations.MemoryEvents := by
  unfold Obligations.MemoryEvents
  refine ⟨fun s p r hp hw => ?_, fun s chan bank row hchan hbank hrow => ?_, fun s core ctx va acc st hst => ?_, fun s vf part => ?_⟩
  · obtain ⟨reader, hread⟩ := exec_lineReadComplete_reads hp r s
    exact ⟨lineRead_does hp hw hread, fun huser => lineRead_does hp hw (exec_patrolRead_reads hp huser r.err s)⟩
  · obtain ⟨huntrained, htrained⟩ := activationAlert_does (s := s) hchan hbank hrow
    exact ⟨huntrained, htrained, backoffEnd_does chan bank s, fun b hb hq => scrubBank_does hchan hb hq⟩
  · exact ⟨fun u e hva hwalk => walkComplete_does hst hva hwalk, fun p hp => elementReplay_does hst hp,
      fun v hv => longStallTimeout_does hst hv, fun h => stall_denied⟩
  · exact ⟨fun v q hv hq => pageRequestDeliver_does hv hq, unmapChunkReturn_does⟩

end Sys2Proof.Machine
end

section
/-!
PROOFS. ASSIGN to a partition that lists a coil of number 128 (R132, R163, R403).
-/
namespace Sys2Proof.Machine

/-- The links of the front end's strand that an outcome leaves. -/
def linksAfter (o : Out) : List Nat :=
  match o with
  | .next u => u.me.links
  | _ => []

/-- A completion in the physical function's mailbox leaves the strand's links (R403). -/
theorem linksAfter_answerPf (u : State) (tag st : Nat) (r : Word) : linksAfter (.next (u.answerPf tag st r)) = u.me.links := rfl

/-- A function whose policy permits ASSIGN alone of the host's commands. -/
def strayVf : Vf := { loadVf with policy := { loadPolicy with hostOps := 4 } }

/-- Partition 0 lists coil 128 beside channels 0 to 7, and the machine's coils are 0 to 127. The L1 of that coil's first core, 1,024,
holds a dirty byte of line 0 of the function's segment, and the strand of core 0 has a link on this line, of key 0. -/
def strayCoil : State :=
  { State.reset with
    me := { loadStrand with links := [0] }
    vfs := [(0, strayVf)]
    parts := [(0, { loadPart with coils := [128], chans := List.range 8 })]
    cores := [(1024, { l1 := [{ key := 0, page := loadTlb, line := 0, data := 1, dirty := 1 }] })]
    anchor := { stage := 4 } }

/-- Start-up is over, the mailbox is idle, the policy permits ASSIGN, and the operands name a free coil and no channel. -/
theorem strayCoil_ready :
    strayCoil.boxQueue none = [] ∧ strayCoil.boxBusy none = false ∧ 3 ≤ strayCoil.anchor.stage
    ∧ (∀ v, v ∈ strayCoil.policies 0 → v.policy.hostOps.getLsbD 2 = true) ∧ strayCoil.grantable {} [0] [] = true := by decide +kernel

/-- Of coils 128 and 0 the partition is to hold 0 alone; its channels stay, and no link is overloaded. -/
theorem strayCoil_grant :
    merged (strayCoil.part 0).coils [0] 128 = [0] ∧ merged (strayCoil.part 0).chans [] 1024 = List.range 8
    ∧ strayCoil.chansHeld 0 (List.range 8) = false ∧ (strayCoil.endow 0 [0] (List.range 8)).overloads 0 = false := by decide +kernel

/-- Coil 128 leaves with the assignment, and the write-back of its core's L1 breaks the strand's link (R163). -/
theorem linksAfter_assign_strayCoil : linksAfter (exec (.assign 0 0 [0] []) strayCoil) = [] := by decide +kernel

/-- Refutes O60, in its clause on ASSIGN, which says `u.me = s.me`: no premise bounds the coil numbers that a partition lists
already, as ASSIGN bounds those of its operands. In `strayCoil` the partition loses coil 128, whose L1s are flushed, and a link of the
strand breaks. -/
theorem not_hostCommands : ¬ Obligations.HostCommands := by
  intro h
  obtain ⟨hqueue, hidle, hstage, hmay, hgrant⟩ := strayCoil_ready
  obtain ⟨hcoils, hchans, hheld, hloads⟩ := strayCoil_grant
  obtain ⟨-, -, hpf, -⟩ := h
  obtain ⟨-, hbox⟩ := hpf strayCoil 0 0 0 0 loadPolicy [0] [] (by decide)
  obtain ⟨-, hstarted, -⟩ := hbox hqueue hidle
  obtain ⟨-, hassign, -⟩ := hstarted hstage
  obtain ⟨-, hserved⟩ := hassign (by decide) hmay
  rw [hcoils, hchans] at hserved
  obtain ⟨-, -, heffect⟩ := hserved hgrant (by decide) (by decide)
  obtain ⟨u, hexec, hme, -⟩ := heffect (by rw [hheld, Bool.and_false]) hloads
  have hlinks : linksAfter (exec (.assign 0 0 [0] []) strayCoil) = strayCoil.me.links := by
    rw [hexec, linksAfter_answerPf, hme]
  rw [linksAfter_assign_strayCoil] at hlinks
  exact absurd hlinks (by decide)

end Sys2Proof.Machine
end

section
/-!
SUPPORT. The coils of each partition, which no access of memory changes (Machine/Banks.lean, Machine/Mem.lean).
-/
namespace Sys2Proof.Machine

/-- The coils that each partition holds, and those taken from it whose plies still have to move (R398, R399). -/
def State.coilsOf (s : State) (part : Nat) : List Nat × List Nat := ((s.part part).coils, (s.part part).parkedCoils)

/-- A step that leaves the table of partitions. -/
theorem coilsOf_congr {s u : State} (h : u.parts = s.parts) : u.coilsOf = s.coilsOf := by
  unfold State.coilsOf State.part; rw [h]

/-- A partition changed in what is not its coils. -/
theorem coilsOf_put {s u : State} {part : Nat} {p : Part} (h : u.parts = put s.parts part p)
    (hcoils : (p.coils, p.parkedCoils) = s.coilsOf part) : u.coilsOf = s.coilsOf := by
  funext k
  rw [State.coilsOf, State.part, h]
  by_cases hk : k = part
  · subst hk
    rw [look_put_same, hcoils]
  · rw [look_put_other _ _ _ _ _ hk]
    rfl

/-- What no step of a fold changes, the fold does not. -/
theorem foldl_keeps {α β : Type} (g : State → β) (f : State → α → State) (h : ∀ s x, g (f s x) = g s) (l : List α) :
    ∀ s, g (l.foldl f s) = g s := by
  induction l with
  | nil => exact fun _ => rfl
  | cons x l ih => exact fun s => (ih _).trans (h s x)

theorem coilsOf_foldl {α : Type} (f : State → α → State) (h : ∀ s x, (f s x).coilsOf = s.coilsOf) (l : List α) :
    ∀ s, (l.foldl f s).coilsOf = s.coilsOf := foldl_keeps State.coilsOf f h l

theorem updPart_coilsOf (s : State) (p : Nat) (f : Part → Part)
    (hf : ((f (s.part p)).coils, (f (s.part p)).parkedCoils) = s.coilsOf p) : (s.updPart p f).coilsOf = s.coilsOf :=
  coilsOf_put rfl hf

@[simp] theorem updChan_coilsOf (s : State) (g : Nat) (f : Channel → Channel) : (s.updChan g f).coilsOf = s.coilsOf := rfl
@[simp] theorem putRaw_coilsOf (s : State) (k : Nat) (d : Line) (t : Tag) : (s.putRaw k d t).coilsOf = s.coilsOf :=
  coilsOf_congr (by unfold State.putRaw State.setTag; dsimp only)
@[simp] theorem scrubBank_coilsOf (s : State) (g b : Nat) : (s.scrubBank g b).coilsOf = s.coilsOf := rfl

@[simp] theorem logEvent_coilsOf (s : State) (p e v c : Nat) (a d : Word) : (s.logEvent p e v c a d).coilsOf = s.coilsOf :=
  coilsOf_put rfl (by split <;> rfl)

@[simp] theorem logLine_coilsOf (s : State) (p e : Nat) (r : Reader) (d : Nat) : (s.logLine p e r d).coilsOf = s.coilsOf := by
  unfold State.logLine
  split
  · exact logEvent_coilsOf ..
  · rfl

@[simp] theorem scrubFor_coilsOf (s : State) (g b : Nat) : (s.scrubFor g b).coilsOf = s.coilsOf := by
  unfold State.scrubFor
  dsimp only
  split
  · exact coilsOf_foldl _ (fun s x => scrubBank_coilsOf s g x) _ s
  · rfl

@[simp] theorem writeLine_coilsOf (s : State) (near : Bool) (k : Nat) (d : Line) (t : Tag) :
    (s.writeLine near k d t).coilsOf = s.coilsOf := by
  unfold State.writeLine
  dsimp only
  split <;> simp

@[simp] theorem setBank_coilsOf (s : State) (p : Nat) (d : Line) (t : Tag) : (s.setBank p d t).coilsOf = s.coilsOf := by
  unfold State.setBank
  dsimp only
  split <;> simp

@[simp] theorem fixTag_coilsOf (s : State) (near : Bool) (part k m : Nat) (r : Reader) :
    (s.fixTag near part k m r).2.coilsOf = s.coilsOf := by
  unfold State.fixTag
  dsimp only
  split <;> simp

@[simp] theorem deliverLine_coilsOf (s : State) (p : Nat) (x : Line × Tag) : (s.deliverLine p x).coilsOf = s.coilsOf := by
  unfold State.deliverLine
  dsimp only
  split <;> simp

@[simp] theorem noteRead_coilsOf (s : State) (e : ReadError) (p : Nat) (r : Reader) : (s.noteRead e p r).coilsOf = s.coilsOf := by
  unfold State.noteRead
  dsimp only
  split
  · rfl
  · split <;> simp

@[simp] theorem readDone_coilsOf (s : State) (q : ChanReq) (p : Nat) : (s.readDone q p).coilsOf = s.coilsOf := by
  unfold State.readDone
  dsimp only
  split
  · simp [apply_ite State.coilsOf]
  · split <;> simp [apply_ite State.coilsOf]

@[simp] theorem drainBank_coilsOf (s : State) (g bank : Nat) : (s.drainBank g bank).coilsOf = s.coilsOf := by
  unfold State.drainBank
  dsimp only
  split
  · simp
  · exact (coilsOf_foldl _ (fun s q => by simp) _ _).trans (by simp)

@[simp] theorem putBank_coilsOf (s : State) (p : Nat) (d : Line) (t : Tag) : (s.putBank p d t).coilsOf = s.coilsOf := by
  simp [State.putBank]

@[simp] theorem drainFor_coilsOf (s : State) (g : Nat) (l : Option L2Line) : (s.drainFor g l).coilsOf = s.coilsOf := by
  unfold State.drainFor
  split
  · simp [apply_ite State.coilsOf]
  · rfl

@[simp] theorem reach_coilsOf (s : State) (near : Bool) (k : Nat) (r : Reader) : (s.reach near k r).coilsOf = s.coilsOf := by
  unfold State.reach
  split
  · rfl
  · simp [apply_ite State.coilsOf]

@[simp] theorem readRaw_coilsOf (s : State) (near : Bool) (part k : Nat) (r : Reader) :
    (s.readRaw near part k r).2.2.coilsOf = s.coilsOf := by
  simp [State.readRaw]

@[simp] theorem readStored_coilsOf (s : State) (near : Bool) (part : Nat) (h : Stored) (r : Reader) :
    (s.readStored near part h r).2.2.coilsOf = s.coilsOf := by
  unfold State.readStored
  dsimp only
  split <;> simp

@[simp] theorem meetHome_coilsOf (s : State) (l : LineLoc) (full : Bool) (r : Reader) : (s.meetHome l full r).2.2.coilsOf = s.coilsOf := by
  cases l with
  | store c i =>
    unfold State.meetHome
    dsimp only
    split <;> simp
  | page e j =>
    unfold State.meetHome
    dsimp only
    split
    · rfl
    · split <;> simp

@[simp] theorem writeStored_coilsOf (s : State) (near : Bool) (h : Stored) (d : Line) (t : Tag) :
    (s.writeStored near h d t).coilsOf = s.coilsOf := by
  unfold State.writeStored
  dsimp only
  split <;> simp

@[simp] theorem putHome_coilsOf (s : State) (l : LineLoc) (d : Line) (t : Tag) (m : ByteMask) : (s.putHome l d t m).coilsOf = s.coilsOf := by
  cases l with
  | store c i => exact putRaw_coilsOf ..
  | page e j =>
    unfold State.putHome
    dsimp only
    split
    · unfold State.putHost
      dsimp only
      split <;> rfl
    · exact writeStored_coilsOf ..

end Sys2Proof.Machine
end

section
/-!
SUPPORT. The strands but for their links, with what cores and partitions hold of them: what accesses, write-backs and the journal
leave (R132, R163, R205).
-/
namespace Sys2Proof.Machine

/-- A strand without its links, which any write to a linked line breaks (R163). -/
def Strand.bare (t : Strand) : Strand := { t with links := [] }

/-- What a core holds beside its L1, TLBs and engines: its saved context and its round counters. -/
def Core.held (c : Core) : Option Saved × Nat × Nat := (c.saved, c.vecRound, c.vlsuRound)

/-- The strands but for their links, and where they may be: what no access of memory changes. -/
structure Outline where
  me : Strand
  others : List Strand
  held : Nat → Option Saved × Nat × Nat
  coils : Nat → List Nat × List Nat

def State.outline (s : State) : Outline := ⟨s.me.bare, s.others.map Strand.bare, fun c => (s.core c).held, s.coilsOf⟩

/-! ### What an outline tells -/

theorem bare_eq_iff {t u : Strand} : u.bare = t.bare ↔ u = { t with links := u.links } := by
  constructor
  · intro h
    calc u = { u.bare with links := u.links } := rfl
      _ = { t.bare with links := u.links } := by rw [h]
  · intro h
    rw [h]
    rfl

theorem outline_others {s u : State} (h : u.outline = s.outline) : u.others.map Strand.bare = s.others.map Strand.bare :=
  congrArg Outline.others h

theorem outline_held {s u : State} (h : u.outline = s.outline) (c : Nat) : (u.core c).held = (s.core c).held :=
  congrFun (congrArg Outline.held h) c

theorem outline_saved {s u : State} (h : u.outline = s.outline) (c : Nat) : (u.core c).saved = (s.core c).saved :=
  congrArg Prod.fst (outline_held h c)

theorem outline_coils {s u : State} (h : u.outline = s.outline) : u.coilsOf = s.coilsOf := congrArg Outline.coils h

theorem outline_regs {s u : State} (h : u.outline = s.outline) : u.me.regs = s.me.regs :=
  congrArg (fun o => o.me.regs) h

/-! ### Updates -/

theorem outline_congr {s u : State} (hme : u.me = s.me) (hothers : u.others = s.others) (hcores : u.cores = s.cores)
    (hcoils : u.coilsOf = s.coilsOf) : u.outline = s.outline := by
  unfold State.outline State.core
  rw [hme, hothers, hcores, hcoils]

theorem LinesOnly.outline {s u : State} (h : LinesOnly s u) (hcoils : u.coilsOf = s.coilsOf) : u.outline = s.outline :=
  outline_congr h.me h.others h.cores hcoils

theorem outline_foldl {α : Type} (f : State → α → State) (h : ∀ s x, (f s x).outline = s.outline) (l : List α) :
    ∀ s, (l.foldl f s).outline = s.outline := foldl_keeps State.outline f h l

theorem updCore_outline (s : State) (c : Nat) (f : Core → Core) (hf : ∀ x, (f x).held = x.held) :
    (s.updCore c f).outline = s.outline := by
  have hheld (k : Nat) : ((s.updCore c f).core k).held = (s.core k).held := by
    by_cases hk : k = c
    · subst hk
      rw [core_updCore_same, hf]
    · rw [core_updCore_other _ _ _ _ hk]
  show Outline.mk _ _ (fun k => ((s.updCore c f).core k).held) _ = _
  simp only [hheld]
  rfl

/-- The same after another step. -/
theorem updCore_outline_of {s t : State} (h : t.outline = s.outline) {c : Nat} {f : Core → Core} (hf : ∀ x, (f x).held = x.held) :
    (t.updCore c f).outline = s.outline := (updCore_outline t c f hf).trans h

theorem mapStrands_outline (s : State) (p : Strand → Bool) (f : Strand → Strand) (hf : ∀ t, (f t).bare = t.bare) :
    (s.mapStrands p f).outline = s.outline := by
  have hite (c : Prop) [Decidable c] (t : Strand) : (if c then f t else t).bare = t.bare := by split <;> simp [hf]
  simp only [State.outline, State.mapStrands, hite, List.map_map, Function.comp_def]
  rfl

@[simp] theorem breakLinks_outline (s : State) (k : Nat) (keep : Option (Nat × Nat)) : (s.breakLinks k keep).outline = s.outline :=
  mapStrands_outline _ _ _ (fun _ => rfl)

@[simp] theorem updHank_outline (s : State) (h : Nat) (f : Hank → Hank) : (s.updHank h f).outline = s.outline := rfl
@[simp] theorem setTag_outline (s : State) (k : Nat) (t : Tag) : (s.setTag k t).outline = s.outline := rfl
@[simp] theorem setPair_outline (s : State) (n : Nat) (p : Pair) : (s.setPair n p).outline = s.outline := rfl

@[simp] theorem updVf_outline (s : State) (v : Nat) (f : Vf → Vf) : (s.updVf v f).outline = s.outline :=
  outline_congr (by simp) (by simp) (by simp) (coilsOf_congr (by simp))

@[simp] theorem updSeg_outline (s : State) (vf i : Nat) (f : Seg → Seg) : (s.updSeg vf i f).outline = s.outline := updVf_outline ..

theorem updPart_outline (s : State) (p : Nat) (f : Part → Part)
    (hf : ((f (s.part p)).coils, (f (s.part p)).parkedCoils) = s.coilsOf p) : (s.updPart p f).outline = s.outline :=
  outline_congr rfl rfl rfl (updPart_coilsOf s p f hf)

/-! ### Homes and write-backs (R132) -/

@[simp] theorem putHome_outline (s : State) (l : LineLoc) (d : Line) (t : Tag) (m : ByteMask) :
    (s.putHome l d t m).outline = s.outline := (putHome_lines ..).outline (putHome_coilsOf ..)

@[simp] theorem meetHome_outline (s : State) (l : LineLoc) (full : Bool) (r : Reader) :
    (s.meetHome l full r).2.2.outline = s.outline := (meetHome_lines ..).outline (meetHome_coilsOf ..)

@[simp] theorem applyHome_outline (s : State) (l : LineLoc) (w : Write) (keep : Option (Nat × Nat)) (r : Reader) :
    (s.applyHome l w keep r).outline = s.outline := by
  cases l <;> simp [State.applyHome]

@[simp] theorem writeBackLine_outline (s : State) (core key : Nat) : (s.writeBackLine core key).outline = s.outline := by
  unfold State.writeBackLine
  split
  · rfl
  · split
    · rfl
    · exact updCore_outline_of (applyHome_outline ..) (fun x => by split <;> rfl)

@[simp] theorem writeBackCore_outline (s : State) (core : Nat) : (s.writeBackCore core).outline = s.outline :=
  outline_foldl (fun s (l : L1Line) => s.writeBackLine core l.key) (fun s l => writeBackLine_outline s core l.key) _ s

@[simp] theorem flushL1_outline (s : State) (core : Nat) : (s.flushL1 core).outline = s.outline :=
  updCore_outline_of (writeBackCore_outline ..) (fun _ => rfl)

@[simp] theorem setFusion_outline (s : State) (coil : Nat) (fuse : Bool) : (s.setFusion coil fuse).outline = s.outline := by
  unfold State.setFusion
  split
  · rfl
  · have hflush := outline_foldl (fun s i => s.flushL1 (8 * coil + i)) (fun s i => flushL1_outline s (8 * coil + i)) (List.range 8) s
    dsimp only
    generalize (List.range 8).foldl (fun s i => s.flushL1 (8 * coil + i)) s = u at hflush
    exact hflush

@[simp] theorem refreshTlb_outline (s : State) (core vf : Nat) : (s.refreshTlb core vf).outline = s.outline := by
  unfold State.refreshTlb
  split
  · rfl
  · exact (updHank_outline ..).trans (updCore_outline_of rfl (fun _ => rfl))

/-! ### Growth, and stores by a core (R91, R92, R131) -/

@[simp] theorem endPasses_outline (s : State) (vf i : Nat) : (s.endPasses vf i).outline = s.outline := rfl

theorem initChunks_coilsOf (s : State) (part : Nat) (chunks : List Nat) (m : Nat) :
    (s.initChunks part chunks m).coilsOf = s.coilsOf := coilsOf_foldl _ (fun _ _ => putBank_coilsOf ..) _ s

theorem copySeg_coilsOf (s : State) (part : Nat) (src dst : Seg) (n : Nat) : (s.copySeg part src dst n).coilsOf = s.coilsOf := by
  induction n with
  | zero => rfl
  | succ n ih => simp [State.copySeg, ih]

@[simp] theorem growSeg_outline (s : State) (vf i : Nat) (new : List Nat) : (s.growSeg vf i new).outline = s.outline := by
  unfold State.growSeg
  dsimp only
  split
  · rfl
  · split
    · rfl
    · refine (updPart_outline _ _ _ rfl).trans ((updSeg_outline ..).trans ?_)
      exact (((initChunks_lines ..).trans (copySeg_lines ..)).outline ((copySeg_coilsOf ..).trans (initChunks_coilsOf ..))).trans
        (updPart_outline _ _ _ rfl)

@[simp] theorem grantChunks_outline (s : State) (part need : Nat) (priv : Bool) (r : Reader) (va : Word) :
    (s.grantChunks part need priv r va).2.outline = s.outline := by
  refine (grantChunks_lines ..).outline ?_
  unfold State.grantChunks
  dsimp only
  by_cases h : (if priv = true then 0 else (s.part part).reserveNow) + need ≤ (s.part part).freeCount
  · rw [if_pos h]
    simp [apply_ite State.coilsOf]
  · rw [if_neg h]
    exact logEvent_coilsOf ..

@[simp] theorem putPage_outline (s : State) (e : TlbEntry) (j : Nat) (x : Line × Tag) (mask : ByteMask) (keep : Option (Nat × Nat)) :
    (s.putPage e j x mask keep).outline = s.outline := by
  simp [State.putPage]

/-- A write that is checked for fit, applied or refused. -/
theorem fitWrite_outline (s : State) (e : TlbEntry) (j : Nat) (w : Write) (keep : Option (Nat × Nat)) (priv : Bool) (r : Reader) (va : Word) :
    (s.fitWrite e j w keep priv r va).2.outline = s.outline
    ∧ ∀ u, (s.fitWrite e j w keep priv r va).1 = some u → u.outline = s.outline := by
  have hmet : (s.metPage e j w r).2.2.outline = s.outline := meetHome_outline ..
  cases hfits : s.fitsPage e j w r with
  | true =>
    rw [fitWrite_fits hfits]
    exact ⟨hmet, fun u hu => by rw [← Option.some.inj hu, putPage_outline, hmet]⟩
  | false =>
    have hgrowth : (s.growthFor e j w priv r va).2.outline = s.outline :=
      (grantChunks_outline ..).trans ((endPasses_outline ..).trans hmet)
    rcases hg : s.growthFor e j w priv r va with ⟨_ | new, t⟩
    · rw [hg] at hgrowth
      rw [fitWrite_denied hfits hg]
      exact ⟨hgrowth, fun u hu => by cases hu⟩
    · rw [hg] at hgrowth
      rw [fitWrite_grown hfits hg]
      exact ⟨hgrowth, fun u hu => by rw [← Option.some.inj hu, putPage_outline, growSeg_outline, hgrowth]⟩

@[simp] theorem install_outline (s : State) (core : Nat) (l : L1Line) : (s.install core l).outline = s.outline := by
  unfold State.install
  refine updCore_outline_of ?_ (fun _ => rfl)
  split
  · dsimp only
    split
    · exact updCore_outline_of rfl (fun _ => rfl)
    · exact (applyHome_outline ..).trans (updCore_outline_of rfl (fun _ => rfl))
  · rfl

@[simp] theorem refreshL1_outline (s : State) (core : Nat) (e : TlbEntry) (j : Nat) (w : Write) :
    (s.refreshL1 core e j w).outline = s.outline := by
  unfold State.refreshL1
  dsimp only
  split
  · rfl
  · exact updCore_outline _ _ _ (fun _ => rfl)

@[simp] theorem storeL1_outline (s : State) (core : Nat) (e : TlbEntry) (j : Nat) (w : Write) (hint : Nat) :
    (s.storeL1 core e j w hint).outline = s.outline := by
  unfold State.storeL1
  dsimp only
  split <;> split
  · exact (applyHome_outline ..).trans (writeBackLine_outline ..)
  · exact (install_outline ..).trans (writeBackLine_outline ..)
  · exact applyHome_outline ..
  · exact install_outline ..

/-- A store by a core, performed or refused. -/
theorem storeLine_outline (s : State) (core : Nat) (l : LineLoc) (w : Write) (hint : Nat) (priv : Bool) (r : Reader) (va : Word) :
    ((s.storeLine core l w hint priv r va).1.getD (s.storeLine core l w hint priv r va).2).outline = s.outline := by
  cases l with
  | store c i => exact applyHome_outline s (.store c i) w none r
  | page e j =>
    unfold State.storeLine
    dsimp only
    split
    · obtain ⟨hrefused, hdone⟩ := fitWrite_outline s e j w none priv r va
      rcases hfit : s.fitWrite e j w none priv r va with ⟨_ | t, u⟩
      · rw [hfit] at hrefused
        exact hrefused
      · rw [hfit] at hdone
        exact (refreshL1_outline ..).trans (hdone t rfl)
    · split
      · exact storeL1_outline ..
      · exact (refreshL1_outline ..).trans (applyHome_outline ..)

/-! ### The scalar store queue (R335) -/

/-- An outline without what the front end's store queue holds. -/
def Outline.noStores (o : Outline) : Outline := { o with me := { o.me with ssq := [] } }

theorem performOldest_noStores (s : State) : s.performOldest.outline.noStores = s.outline.noStores := by
  unfold State.performOldest
  split
  · rfl
  · rename_i e rest hssq
    dsimp only
    split
    · have hstore := congrArg Outline.noStores (storeLine_outline s s.me.core (e.loc s.me)
        (untyped e.value.toNat (e.addr.toNat % 128) e.bytes) 0 e.priv s.reader e.addr)
      exact hstore
    · rfl

theorem performAll_noStores (s : State) : s.performAll.outline.noStores = s.outline.noStores := by
  unfold State.performAll
  generalize List.range s.me.ssq.length = l
  induction l generalizing s with
  | nil => rfl
  | cons _ l ih => exact (ih s.performOldest).trans (performOldest_noStores s)

/-! ### The journal (R205–R218) -/

@[simp] theorem jWrite_outline (s : State) (a v n : Nat) : (s.jWrite a v n).outline = s.outline := by
  unfold State.jWrite
  exact breakLinks_outline ..

@[simp] theorem jSetState_outline (s : State) (t : Strand) (n st fcode : Nat) : (s.jSetState t n st fcode).outline = s.outline :=
  jWrite_outline ..

@[simp] theorem updEngine_outline (s : State) (core e : Nat) (f : Engine → Engine) : (s.updEngine core e f).outline = s.outline :=
  updCore_outline _ _ _ (fun _ => rfl)

@[simp] theorem replay_outline (s : State) (t : Strand) (e last : Nat) : (s.replay t e last).outline = s.outline :=
  outline_foldl _ (fun s n => by simp) _ s

@[simp] theorem pendingToReplay_outline (s : State) (core : Nat) (ts : List Strand) : (s.pendingToReplay core ts).outline = s.outline :=
  outline_foldl _ (fun s p => by split <;> simp) _ s

@[simp] theorem leaveGroup_outline (s : State) (core e : Nat) : (s.leaveGroup core e).outline = s.outline := by
  unfold State.leaveGroup State.endGroups
  split
  · split
    · split <;> rfl
    · rfl
  · rfl

@[simp] theorem withdraw_outline (s : State) (t : Strand) (head n : Nat) : (s.withdraw t head n).outline = s.outline := by
  induction n with
  | zero => rfl
  | succ n ih =>
    unfold State.withdraw
    dsimp only
    split
    · exact updCore_outline_of ((jSetState_outline ..).trans ih) (fun _ => rfl)
    · exact ih

/-! ### Images of local stores (R392) -/

@[simp] theorem zeroStore_outline (s : State) (core : Nat) : (s.zeroStore core).outline = s.outline := rfl

@[simp] theorem putStore_outline (s : State) (core : Nat) (bytes : List (Nat × BitVec 8)) (tags : List (Nat × Tag)) :
    (s.putStore core bytes tags).outline = s.outline := by
  unfold State.putStore
  exact outline_foldl _ (fun s t => setTag_outline ..) _ _

end Sys2Proof.Machine
end

section
/-!
SUPPORT. Where the live strands are: what another strand's turn (R334), a squash (R390) and a halt leave of that.
-/
namespace Sys2Proof.Machine

/-- A strand's context, and its partition. -/
def Strand.place (t : Strand) : (Nat × Nat) × Nat := ((t.core, t.ctx), t.part)

/-- The places of the live strands. -/
def State.places (s : State) : List ((Nat × Nat) × Nat) := s.strands.map Strand.place

/-- No two live strands have the same context. -/
def State.apart (s : State) : Prop := (s.strands.map (fun y => (y.core, y.ctx))).Nodup

theorem apart_iff (s : State) : s.apart ↔ (s.places.map Prod.fst).Nodup := by
  unfold State.apart State.places
  rw [List.map_map]
  rfl

theorem mem_strands {s : State} {y : Strand} : y ∈ s.strands ↔ (y = s.me ∨ y ∈ s.others) ∧ y.live = true := by
  simp [State.strands]

theorem mem_places {s : State} {x : (Nat × Nat) × Nat} : x ∈ s.places ↔ ∃ y, y ∈ s.strands ∧ y.place = x := by
  simp [State.places]

/-- The first strand of a context among the live ones. -/
theorem strand?_eq_find (s : State) (core ctx : Nat) : s.strand? core ctx = s.strands.find? (fun t => t.core == core && t.ctx == ctx) := by
  unfold State.strand? State.strands
  have hothers : s.others.find? (fun t => t.live && t.core == core && t.ctx == ctx)
      = (s.others.filter (fun t => t.live)).find? (fun t => t.core == core && t.ctx == ctx) := by
    simp only [List.find?_filter, Bool.decide_and, Bool.decide_eq_true, Bool.and_assoc]
  rw [hothers, List.filter_cons]
  by_cases hlive : s.me.live = true
  · by_cases hat : s.me.core = core ∧ s.me.ctx = ctx
    · simp [hlive, hat.1, hat.2]
    · have hne : (s.me.core == core && s.me.ctx == ctx) = false := by simpa using hat
      simp [hlive, hat, hne]
  · simp [hlive]

/-- A strand that shares its context with no other is the one that its context names. -/
theorem strand?_of_apart {s : State} (h : s.apart) {y : Strand} (hy : y ∈ s.strands) : s.strand? y.core y.ctx = some y := by
  rw [strand?_eq_find]
  cases hfind : s.strands.find? (fun t => t.core == y.core && t.ctx == y.ctx) with
  | none => exact absurd (List.find?_eq_none.1 hfind y hy) (by simp)
  | some x =>
    have hat : x.core = y.core ∧ x.ctx = y.ctx := by simpa using List.find?_some hfind
    rw [List.inj_on_of_nodup_map h (List.mem_of_find?_eq_some hfind) hy (by rw [hat.1, hat.2])]

/-! ### Steps that keep every place -/

/-- The strands without their links determine the places. -/
theorem places_eq (s : State) : s.places = (((s.me :: s.others).map Strand.bare).filter (fun t => t.live)).map Strand.place := by
  rw [List.filter_map, List.map_map]
  rfl

theorem outline_places {s u : State} (h : u.outline = s.outline) : u.places = s.places := by
  rw [places_eq, places_eq, List.map_cons, List.map_cons, outline_others h, show u.me.bare = s.me.bare from congrArg Outline.me h]

/-- A step by which strands come to no new place, and where no two share a context, none leaves its own; what cores hold saved, and
the coils of partitions, stay. -/
structure State.keepsPlaces (s u : State) : Prop where
  within : u.places ⊆ s.places
  all : s.apart → u.places.Perm s.places
  held : ∀ c, (u.core c).held = (s.core c).held
  coils : u.coilsOf = s.coilsOf

namespace State.keepsPlaces

theorem of_places {s u : State} (h : u.places = s.places) (hheld : ∀ c, (u.core c).held = (s.core c).held)
    (hcoils : u.coilsOf = s.coilsOf) : s.keepsPlaces u := ⟨by rw [h]; exact List.Subset.refl _, fun _ => by rw [h], hheld, hcoils⟩

theorem of_outline {s u : State} (h : u.outline = s.outline) : s.keepsPlaces u :=
  .of_places (outline_places h) (outline_held h) (outline_coils h)

theorem refl (s : State) : s.keepsPlaces s := .of_outline rfl

theorem apart {s u : State} (h : s.keepsPlaces u) (hs : s.apart) : u.apart :=
  (apart_iff u).2 (((h.all hs).map Prod.fst).nodup_iff.2 ((apart_iff s).1 hs))

theorem trans {s t u : State} (h : s.keepsPlaces t) (k : t.keepsPlaces u) : s.keepsPlaces u :=
  ⟨fun _ hx => h.within (k.within hx), fun hs => (k.all (h.apart hs)).trans (h.all hs), fun c => (k.held c).trans (h.held c),
    k.coils.trans h.coils⟩

theorem foldl {α : Type} (f : State → α → State) (h : ∀ (s : State) x, s.keepsPlaces (f s x)) (l : List α) :
    ∀ s : State, s.keepsPlaces (l.foldl f s) := by
  induction l with
  | nil => exact refl
  | cons x l ih => exact fun s => (h s x).trans (ih _)

end State.keepsPlaces

/-- A change of strands that keeps them live changes the live ones. -/
theorem mapStrands_strands (s : State) (p : Strand → Bool) (f : Strand → Strand) (hlive : ∀ t, (f t).live = t.live) :
    (s.mapStrands p f).strands = s.strands.map (fun t => if p t then f t else t) := by
  have hif (t : Strand) : (if t.live && p t then f t else t).live = t.live := by split <;> simp [hlive]
  show (((s.me :: s.others).map (fun t => if t.live && p t then f t else t)).filter (fun t => t.live)) = _
  rw [List.filter_map, State.strands]
  simp only [Function.comp_def, hif]
  refine List.map_congr_left (fun t ht => ?_)
  simp [(List.mem_filter.1 ht).2]

theorem mapStrands_keepsPlaces (s : State) (p : Strand → Bool) (f : Strand → Strand) (hlive : ∀ t, (f t).live = t.live)
    (hplace : ∀ t, (f t).place = t.place) : s.keepsPlaces (s.mapStrands p f) := by
  refine .of_places ?_ (fun _ => rfl) rfl
  rw [State.places, mapStrands_strands s p f hlive, List.map_map]
  exact List.map_congr_left (fun t _ => by dsimp only [Function.comp_apply]; split <;> simp [hplace])

/-! ### Another strand's turn -/

/-- The strand is in a context. -/
def Strand.sits (t : Strand) (core ctx : Nat) : Bool := t.live && t.core == core && t.ctx == ctx

theorem sits_iff {t : Strand} {core ctx : Nat} : t.sits core ctx = true ↔ t.live = true ∧ t.core = core ∧ t.ctx = ctx := by
  simp [Strand.sits, and_assoc]

theorem switchTo_self {s : State} {core ctx : Nat} (h : s.me.sits core ctx = true) : s.switchTo core ctx = s := by
  obtain ⟨hlive, hcore, hctx⟩ := sits_iff.1 h
  exact switchTo_me hlive hcore hctx

theorem switchTo_absent {s : State} {core ctx : Nat} (h : s.strand? core ctx = none) : s.switchTo core ctx = s := by
  unfold State.strand? at h
  unfold State.switchTo
  split at h
  · cases h
  · rename_i hat
    rw [if_neg hat, h]

/-- The front end of another strand comes to step: that one's place is taken by the strand that stepped, where that one is live. -/
theorem switchTo_other {s : State} {core ctx : Nat} {t : Strand} (hme : s.me.sits core ctx = false) (ht : s.strand? core ctx = some t) :
    t ∈ s.others ∧ t.sits core ctx = true ∧ s.switchTo core ctx = { s with
      me := t
      others := s.others.filter (fun u => !u.sits core ctx) ++ [s.me].filter (fun u => u.live) } := by
  have hat : ¬(s.me.live = true ∧ s.me.core = core ∧ s.me.ctx = ctx) := fun h => by rw [sits_iff.2 h] at hme; cases hme
  rw [State.strand?, if_neg hat] at ht
  refine ⟨List.mem_of_find?_eq_some ht, List.find?_some (p := fun t : Strand => t.sits core ctx) ht, ?_⟩
  unfold State.switchTo
  rw [if_neg hat, ht]
  cases hlive : s.me.live <;> simp [hlive, Strand.sits]

/-- The strands of a context, where no two share one. -/
theorem filter_sits_of_nodup {l : List Strand} (h : (l.map (fun y => (y.core, y.ctx))).Nodup) {t : Strand} (ht : t ∈ l) {core ctx : Nat}
    (hat : t.sits core ctx = true) : l.filter (fun u => u.sits core ctx) = [t] := by
  refine List.perm_singleton.1 ((List.perm_ext_iff_of_nodup (h.of_map.filter _) (List.nodup_singleton t)).2 fun u => ?_)
  rw [List.mem_filter, List.mem_singleton]
  constructor
  · rintro ⟨hu, hat'⟩
    obtain ⟨-, hcore, hctx⟩ := sits_iff.1 hat
    obtain ⟨-, hcore', hctx'⟩ := sits_iff.1 hat'
    exact List.inj_on_of_nodup_map h hu ht (by rw [hcore, hctx, hcore', hctx'])
  · rintro rfl
    exact ⟨ht, hat⟩

theorem switchTo_keepsPlaces (s : State) (core ctx : Nat) : s.keepsPlaces (s.switchTo core ctx) := by
  by_cases hme : s.me.sits core ctx = true
  · rw [switchTo_self hme]
    exact .refl s
  cases ht : s.strand? core ctx with
  | none =>
    rw [switchTo_absent ht]
    exact .refl s
  | some t =>
    have hme : s.me.sits core ctx = false := by simpa using hme
    obtain ⟨hmem, hat, heq⟩ := switchTo_other hme ht
    rw [heq]
    have hlive := (sits_iff.1 hat).1
    refine ⟨fun x hx => ?_, fun hapart => ?_, fun _ => rfl, rfl⟩
    · obtain ⟨y, hy, rfl⟩ := mem_places.1 hx
      refine mem_places.2 ⟨y, mem_strands.2 ⟨?_, (mem_strands.1 hy).2⟩, rfl⟩
      rcases (mem_strands.1 hy).1 with rfl | hy
      · exact .inr hmem
      · rcases List.mem_append.1 hy with hy | hy
        · exact .inr (List.mem_filter.1 hy).1
        · exact .inl (List.mem_singleton.1 (List.mem_filter.1 hy).1)
    · refine List.Perm.map _ ?_
      have hthere : s.strands.filter (fun u => u.sits core ctx) = [t] :=
        filter_sits_of_nodup hapart (mem_strands.2 ⟨.inr hmem, hlive⟩) hat
      have hrest : List.Perm ((s.others.filter (fun u => !u.sits core ctx)).filter (fun u => u.live) ++ [s.me].filter (fun u => u.live))
          (s.strands.filter (fun u => !u.sits core ctx)) := by
        have hsplit : s.strands = [s.me].filter (fun u => u.live) ++ s.others.filter (fun u => u.live) := by
          rw [← List.filter_append]; rfl
        have hkeep : ([s.me].filter (fun u => u.live)).filter (fun u => !u.sits core ctx) = [s.me].filter (fun u => u.live) := by
          rw [List.filter_eq_self]
          intro u hu
          rw [List.mem_singleton.1 (List.mem_filter.1 hu).1, hme]
          rfl
        rw [hsplit, List.filter_append, hkeep, List.filter_comm]
        exact List.perm_append_comm
      have hall := List.filter_append_perm (fun u : Strand => u.sits core ctx) s.strands
      rw [hthere] at hall
      refine List.Perm.trans ?_ hall
      have hself : ([s.me].filter (fun u => u.live)).filter (fun u => u.live) = [s.me].filter (fun u => u.live) := by
        rw [List.filter_filter]
        simp only [Bool.and_self]
      show List.Perm ((t :: _).filter _) _
      rw [List.filter_cons, if_pos hlive, List.filter_append, hself]
      exact hrest.cons t

/-- A step of the front end's strand that leaves it live, or not, at its place. -/
structure State.stepsInPlace (s u : State) : Prop where
  live : u.me.live = s.me.live
  place : u.me.place = s.me.place
  others : u.others.map Strand.bare = s.others.map Strand.bare
  held : ∀ c, (u.core c).held = (s.core c).held
  coils : u.coilsOf = s.coilsOf

theorem State.stepsInPlace.keepsPlaces {s u : State} (h : s.stepsInPlace u) : s.keepsPlaces u := by
  refine .of_places ?_ h.held h.coils
  rw [places_eq, places_eq, List.map_cons, List.map_cons, h.others, List.filter_cons, List.filter_cons,
    show u.me.bare.live = s.me.bare.live from h.live]
  split
  · rw [List.map_cons, List.map_cons, show u.me.bare.place = s.me.bare.place from h.place]
  · rfl

theorem onStrand_keepsPlaces (s : State) (core ctx : Nat) (f : State → State) (hf : ∀ v : State, v.stepsInPlace (f v)) :
    s.keepsPlaces (s.onStrand core ctx f) := by
  unfold State.onStrand
  dsimp only
  split
  · exact .refl s
  · exact (switchTo_keepsPlaces ..).trans ((hf _).keepsPlaces.trans (switchTo_keepsPlaces ..))

/-! ### Squashes (R336, R390) -/

/-- What undoing a checkpoint record changes of a strand. -/
theorem undoRec_only (t : Strand) (r : CkptRec) : undoRec t r = { t with regs := (undoRec t r).regs, fcsr := (undoRec t r).fcsr } := by
  unfold undoRec
  split
  · unfold Strand.setReg
    split <;> rfl
  · split <;> rfl

theorem foldl_undoRec_only (l : List CkptRec) : ∀ t : Strand,
    l.foldl undoRec t = { t with regs := (l.foldl undoRec t).regs, fcsr := (l.foldl undoRec t).fcsr } := by
  induction l with
  | nil => exact fun _ => rfl
  | cons r l ih =>
    intro t
    rw [List.foldl_cons, ih, undoRec_only]

/-- What a rollback changes of the front end's strand. -/
theorem rollback_me (s : State) (k : Nat) : (s.rollback k).me = { s.me with
    regs := (s.rollback k).me.regs, fcsr := (s.rollback k).me.fcsr, jrnlHead := (s.rollback k).me.jrnlHead
    ckpt := (s.rollback k).me.ckpt, ssq := (s.rollback k).me.ssq, entered := k } := by
  unfold State.rollback
  dsimp only
  rw [foldl_undoRec_only]

theorem rollback_stepsInPlace (s : State) (k : Nat) : s.stepsInPlace (s.rollback k) := by
  have hwithdraw (head : Nat) := withdraw_outline s s.me head 64
  refine ⟨?_, ?_, ?_, ?_, ?_⟩
  · rw [rollback_me]
  · rw [rollback_me]
    rfl
  · exact (congrArg Outline.others (hwithdraw _) :)
  · exact (outline_held (hwithdraw _) :)
  · exact (outline_coils (hwithdraw _) :)

theorem squashMe_stepsInPlace (s : State) : s.stepsInPlace s.squashMe := by
  unfold State.squashMe
  dsimp only
  split
  · rename_i e rest _
    generalize hu : (if s.me.dispatched = true then s.me else s.me.putAside) = u
    have hplace : u.live = s.me.live ∧ u.place = s.me.place := by
      rw [← hu]
      split <;> exact ⟨rfl, rfl⟩
    obtain ⟨hlive', hplace', hothers, hheld, hcoils⟩ := rollback_stepsInPlace { s with me := { u with dq := [] } } (e.seq - 1)
    generalize ({ s with me := { u with dq := [] } } : State).rollback (e.seq - 1) = v at hlive' hplace' hothers hheld hcoils
    refine ⟨?_, ?_, hothers, hheld, hcoils⟩
    · split <;> exact hlive'.trans hplace.1
    · split <;> exact hplace'.trans hplace.2
  · cases s.me.limm with
    | none => exact ⟨rfl, rfl, rfl, fun _ => rfl, rfl⟩
    | some l =>
      dsimp only
      split <;> exact ⟨rfl, rfl, rfl, fun _ => rfl, rfl⟩

theorem squash_keepsPlaces (s : State) (core ctx : Nat) : s.keepsPlaces (s.squash core ctx) := by
  refine onStrand_keepsPlaces s core ctx _ (fun v => ?_)
  split
  · exact squashMe_stepsInPlace v
  · exact ⟨rfl, rfl, rfl, fun _ => rfl, rfl⟩

theorem haltFor_keepsPlaces (s : State) (p : Strand → Bool) : s.keepsPlaces (s.haltFor p) := by
  refine (State.keepsPlaces.foldl _ (fun s (t : Strand) => squash_keepsPlaces s t.core t.ctx) (s.strands.filter p) s).trans ?_
  unfold State.haltFor
  exact mapStrands_keepsPlaces _ _ _ (fun _ => rfl) (fun _ => rfl)

end Sys2Proof.Machine
end

section
/-!
PROOFS. Swaps (R392, R393): cores saved and restored, and the strands that leave and come back.
-/
namespace Sys2Proof.Machine

/-! ### Saving a core -/

/-- The strands of a partition, as a swap names them. -/
def ofPart (part : Nat) (t : Strand) : Bool := t.part == part

/-- The place is of a partition, on a core. -/
def placedOn (core part : Nat) (x : (Nat × Nat) × Nat) : Bool := x.1.1 == core && x.2 == part

/-- A core of a partition is saved: it holds a context then, its strands of the partition have left, and nothing else has moved. -/
structure State.Saves (s u : State) (core part : Nat) : Prop where
  places : u.places = s.places.filter (fun x => !placedOn core part x)
  saved : (u.core core).saved.isSome = true
  other : ∀ c, c ≠ core → (u.core c).saved = (s.core c).saved

/-- The strands at some places have left. -/
theorem places_without {s u : State} {g : (Nat × Nat) × Nat → Bool} (hme : u.me = if s.me.live && g s.me.place then {} else s.me)
    (hothers : u.others = s.others.filter (fun t => !(t.live && g t.place))) : u.places = s.places.filter (fun x => !g x) := by
  have hrest : (s.others.filter (fun t => !(t.live && g t.place))).filter (fun t => t.live)
      = (s.others.filter (fun t => t.live)).filter (fun t => !g t.place) := by
    simp only [List.filter_filter]
    refine List.filter_congr (fun t _ => ?_)
    cases t.live <;> simp
  unfold State.places
  rw [List.filter_map]
  congr 1
  unfold State.strands
  rw [hothers, List.filter_cons, hrest, List.filter_cons, hme]
  simp only [Function.comp_def]
  cases hlive : s.me.live
  · simp [hlive]
  · cases hg : g s.me.place <;> simp [hlive, hg]

theorem saveCore_saves (s : State) (core part : Nat) (owner tenant : Option Nat) (copy : Bool) :
    s.Saves (s.saveCore core (ofPart part) owner tenant copy) core part := by
  unfold State.saveCore
  dsimp only
  generalize ((s.strands.filter (fun t => t.core == core)).filter (ofPart part)).map (fun t => ({ t with links := [] } : Strand)) = mine
  have hreplay := pendingToReplay_outline s core mine
  generalize s.pendingToReplay core mine = t at hreplay
  have hleft : (if ((t.engine core 0).only (mine.map (fun t => t.ctx))).running.isSome = true then t.leaveGroup core 0 else t).outline
      = s.outline := by
    split
    · exact (leaveGroup_outline ..).trans hreplay
    · exact hreplay
  generalize (if ((t.engine core 0).only (mine.map (fun t => t.ctx))).running.isSome = true then t.leaveGroup core 0 else t) = v at hleft
  have hflush := (outline_foldl State.flushL1 flushL1_outline (v.levelCores core) v).trans hleft
  generalize (v.levelCores core).foldl State.flushL1 v = w at hflush
  generalize hx : w.updCore core _ = x
  have hsame : x.me = w.me ∧ x.others = w.others := by rw [← hx]; exact ⟨rfl, rfl⟩
  have hheld : (x.core core).saved.isSome = true ∧ ∀ c, c ≠ core → (x.core c).saved = (w.core c).saved := by
    rw [← hx, core_updCore_same]
    exact ⟨rfl, fun c hc => by rw [core_updCore_other _ _ _ _ hc]⟩
  refine ⟨?_, hheld.1, fun c hc => (hheld.2 c hc).trans (outline_saved hflush c)⟩
  rw [← outline_places hflush]
  refine places_without ?_ ?_
  · rw [← hsame.1]
    rfl
  · rw [← hsame.2]
    rfl

/-! ### Swapping a partition out (R392) -/

/-- What a swap of a whole partition does to each of its cores. -/
def State.swapCore (s : State) (part core : Nat) : State :=
  if s.savesCore (ofPart part) true core then s.saveCore core (ofPart part) none (s.part part).tenant true else s.flushL1 core

theorem swapOut_eq (s : State) (part : Nat) : s.swapOut part (ofPart part) true
    = ((s.haltFor (ofPart part)).part part).cores.foldl (fun u c => u.swapCore part c) (s.haltFor (ofPart part)) := rfl

/-- The partition's strands leave the core, which is saved if it held one; what is saved elsewhere stays. -/
theorem swapCore_does (s : State) (part core : Nat) :
    (s.swapCore part core).places = s.places.filter (fun x => !placedOn core part x)
    ∧ ((∃ x, x ∈ s.places ∧ placedOn core part x = true) → ((s.swapCore part core).core core).saved.isSome = true)
    ∧ ∀ c, (s.core c).saved.isSome = true → ((s.swapCore part core).core c).saved.isSome = true := by
  unfold State.swapCore
  by_cases hsaves : s.savesCore (ofPart part) true core = true
  · rw [if_pos hsaves]
    obtain ⟨hplaces, hsaved, hother⟩ := saveCore_saves s core part none (s.part part).tenant true
    refine ⟨hplaces, fun _ => hsaved, fun c hc => ?_⟩
    by_cases hcore : c = core
    · rw [hcore, hsaved]
    · rw [hother c hcore, hc]
  · rw [if_neg hsaves]
    have hnone : ∀ x, x ∈ s.places → placedOn core part x = false := by
      intro x hx
      obtain ⟨y, hy, rfl⟩ := mem_places.1 hx
      by_contra hon
      refine hsaves ?_
      rw [State.savesCore, Bool.or_eq_true]
      exact .inl (List.any_eq_true.2 ⟨y, hy, (Bool.eq_false_or_eq_true _).resolve_right hon⟩)
    refine ⟨?_, fun ⟨x, hx, hon⟩ => ?_, fun c hc => ?_⟩
    · rw [outline_places (flushL1_outline s core), List.filter_eq_self.2 (fun x hx => by rw [hnone x hx]; rfl)]
    · rw [hnone x hx] at hon
      cases hon
    · rw [outline_saved (flushL1_outline s core), hc]

theorem foldl_swapCore_does (part : Nat) (cores : List Nat) : ∀ s : State,
    let u := cores.foldl (fun u c => u.swapCore part c) s
    (∀ x, x ∈ u.places → x ∈ s.places ∧ ∀ c, c ∈ cores → placedOn c part x = false)
    ∧ (∀ c, c ∈ cores → (∃ x, x ∈ s.places ∧ placedOn c part x = true) → (u.core c).saved.isSome = true)
    ∧ ∀ c, (s.core c).saved.isSome = true → (u.core c).saved.isSome = true := by
  induction cores with
  | nil => exact fun s => ⟨fun x hx => ⟨hx, fun c hc => absurd hc List.not_mem_nil⟩, fun c hc => absurd hc List.not_mem_nil, fun c hc => hc⟩
  | cons k cores ih =>
    intro s
    obtain ⟨hplaces, hsaved, hkept⟩ := swapCore_does s part k
    obtain ⟨hleft, hall, hmono⟩ := ih (s.swapCore part k)
    rw [hplaces] at hleft hall
    refine ⟨fun x hx => ?_, fun c hc ⟨x, hx, hon⟩ => ?_, fun c hc => hmono c (hkept c hc)⟩
    · obtain ⟨hx, hoff⟩ := hleft x hx
      obtain ⟨hx, hk⟩ := List.mem_filter.1 hx
      refine ⟨hx, fun c hc => ?_⟩
      rcases List.mem_cons.1 hc with rfl | hc
      · simpa using hk
      · exact hoff c hc
    · by_cases hck : c = k
      · rw [hck] at hon ⊢
        exact hmono k (hsaved ⟨x, hx, hon⟩)
      · refine hall c ((List.mem_cons.1 hc).resolve_left hck) ⟨x, List.mem_filter.2 ⟨hx, ?_⟩, hon⟩
        simp only [placedOn, Bool.and_eq_true, beq_iff_eq] at hon
        simp [placedOn, hon.1, hck]

theorem cores_of_coilsOf {s u : State} (h : u.coilsOf = s.coilsOf) (part : Nat) : (u.part part).cores = (s.part part).cores := by
  have hpart := congrFun h part
  simp only [State.coilsOf, Prod.mk.injEq] at hpart
  rw [Part.cores, Part.cores, hpart.1, hpart.2]

/-- A partition is swapped out. -/
theorem partitionContextSwap_does {s : State} {part : Nat} (hmay : ((s.strands.filter (fun y => y.part == part)).all (fun y => s.permits y.vf 2)
      && !s.swapBlocked part (fun y => y.part == part) true && !s.swapWaits (fun y => y.part == part)) = true) :
    ∃ u : State, exec (.partitionContextSwap part) s = .next u
      ∧ (∀ y, y ∈ u.strands → y.part = part → y.core ∉ (s.part part).cores)
      ∧ (s.apart → ∀ c, c ∈ (s.part part).cores → (∃ y, y ∈ s.strands ∧ y.core = c ∧ y.part = part) → (u.core c).saved.isSome = true) := by
  have hexec : exec (.partitionContextSwap part) s = .next { s.swapOut part (ofPart part) true with waiting := false } := by
    rw [exec_partitionContextSwap, execPartitionContextSwap]
    exact congrArg _ (if_pos hmay)
  refine ⟨_, hexec, ?_⟩
  have hhalt := haltFor_keepsPlaces s (ofPart part)
  obtain ⟨hleft, hsaved, -⟩ := foldl_swapCore_does part (s.part part).cores (s.haltFor (ofPart part))
  rw [← cores_of_coilsOf hhalt.coils, ← swapOut_eq] at hleft hsaved
  rw [cores_of_coilsOf hhalt.coils] at hleft hsaved
  refine ⟨fun y hy hpart hcore => ?_, fun hapart c hc ⟨y, hy, hcore, hpart⟩ => ?_⟩
  · have hoff := (hleft y.place (mem_places.2 ⟨y, hy, rfl⟩)).2 y.core hcore
    simp [placedOn, Strand.place, hpart] at hoff
  · refine hsaved c hc ⟨y.place, (hhalt.all hapart).mem_iff.2 (mem_places.2 ⟨y, hy, rfl⟩), ?_⟩
    simp [placedOn, Strand.place, hcore, hpart]

/-! ### Bringing a partition back (R393) -/

/-- The state in which a core's saved context is put back: the coil fused as its plies asked, and its local store there again. -/
def State.preparedFor (s : State) (core : Nat) (v : Saved) : State :=
  let fused := match s.savedFuse v with
    | some f => s.setFusion (coilOf core) f
    | none => s
  match v.store with
  | some x => fused.putStore core x.1 x.2
  | none => fused

/-- Every engine replays the commands of the strands named. -/
def State.replayAll (s : State) (ts : List Strand) : State :=
  ts.foldl (fun s t => (List.range 4).foldl (fun s e => s.replay t e t.jrnlHead.toNat) s) s

theorem restoreCore_eq {s : State} {core : Nat} {v : Saved} (h : (s.core core).saved = some v) :
    ∃ f : Core → Core, (∀ c, (f c).saved = none) ∧ s.restoreCore core
      = ((v.pairs.foldl (fun (u : State) q => u.setPair q.1 q.2) { s.preparedFor core v with others := (s.preparedFor core v).others ++ v.strands }
        ).updCore core f).replayAll v.strands := by
  unfold State.restoreCore
  simp only [h]
  exact ⟨_, fun _ => rfl, rfl⟩

theorem preparedFor_outline (s : State) (core : Nat) (v : Saved) : (s.preparedFor core v).outline = s.outline := by
  have hfused : (match s.savedFuse v with
      | some f => s.setFusion (coilOf core) f
      | none => s).outline = s.outline := by split <;> simp
  unfold State.preparedFor
  dsimp only
  split
  · exact (putStore_outline ..).trans hfused
  · exact hfused

theorem replayAll_outline (s : State) (ts : List Strand) : (s.replayAll ts).outline = s.outline :=
  outline_foldl _ (fun s (t : Strand) => outline_foldl _ (fun s e => replay_outline s t e _) _ s) ts s

/-- A core's saved context comes back: its strands stand in their contexts again, and what other cores hold saved stays. -/
theorem restoreCore_does {s : State} {core : Nat} {v : Saved} (h : (s.core core).saved = some v) :
    (s.restoreCore core).me.bare = s.me.bare
    ∧ (s.restoreCore core).others.map Strand.bare = (s.others ++ v.strands).map Strand.bare
    ∧ ∀ c, ((s.restoreCore core).core c).saved = if c = core then none else (s.core c).saved := by
  obtain ⟨f, hf, heq⟩ := restoreCore_eq h
  rw [heq]
  have hready := preparedFor_outline s core v
  generalize s.preparedFor core v = w at hready
  have hpairs := outline_foldl (fun (u : State) (q : Nat × Pair) => u.setPair q.1 q.2) (fun u q => setPair_outline u q.1 q.2) v.pairs
    { w with others := w.others ++ v.strands }
  generalize v.pairs.foldl (fun (u : State) (q : Nat × Pair) => u.setPair q.1 q.2) { w with others := w.others ++ v.strands } = x at hpairs
  have hreplay := replayAll_outline (x.updCore core f) v.strands
  refine ⟨?_, ?_, fun c => ?_⟩
  · have hme : w.me.bare = s.me.bare := congrArg Outline.me hready
    exact (congrArg Outline.me hreplay).trans ((congrArg Outline.me hpairs).trans hme)
  · rw [outline_others hreplay, updCore_others, outline_others hpairs, List.map_append, List.map_append, outline_others hready]
  · rw [outline_saved hreplay]
    by_cases hc : c = core
    · rw [if_pos hc, hc, core_updCore_same, hf]
    · rw [if_neg hc, core_updCore_other _ _ _ _ hc, outline_saved hpairs]
      exact outline_saved hready c

/-- Cores that hold nothing saved have nothing brought back. -/
theorem swapIn_none (p : Saved → Bool) (cores : List Nat) : ∀ s : State, (∀ k, k ∈ cores → (s.core k).saved = none) → s.swapIn cores p = s := by
  induction cores with
  | nil => exact fun _ _ => rfl
  | cons k cores ih =>
    intro s h
    unfold State.swapIn
    rw [List.foldl_cons]
    simp only [h k List.mem_cons_self]
    exact ih s (fun j hj => h j (List.mem_cons_of_mem _ hj))

/-- Of cores of which one holds a saved context, and it can come back, that one is restored. -/
theorem swapIn_one {p : Saved → Bool} {c : Nat} {v : Saved} (howner : v.owner = none) (hp : p v = true) (cores : List Nat) :
    ∀ s : State, c ∈ cores → (s.core c).saved = some v → s.restorable c v = true → (∀ k, k ∈ cores → k ≠ c → (s.core k).saved = none) →
      s.swapIn cores p = s.restoreCore c := by
  induction cores with
  | nil => exact fun s hc => absurd hc List.not_mem_nil
  | cons k cores ih =>
    intro s hc hsaved hcan hothers
    by_cases hk : k = c
    · subst hk
      obtain ⟨-, -, hheld⟩ := restoreCore_does hsaved
      have hfirst : s.swapIn (k :: cores) p = (s.restoreCore k).swapIn cores p := by
        unfold State.swapIn
        rw [List.foldl_cons]
        simp only [hsaved, howner, hp, hcan, Option.isNone_none, Bool.and_self, if_true]
      rw [hfirst]
      refine swapIn_none p cores _ (fun j hj => ?_)
      rw [hheld]
      split
      · rfl
      · rename_i hne
        exact hothers j (List.mem_cons_of_mem _ hj) hne
    · have hfirst : s.swapIn (k :: cores) p = s.swapIn cores p := by
        unfold State.swapIn
        rw [List.foldl_cons]
        simp only [hothers k List.mem_cons_self hk]
      rw [hfirst]
      exact ih s ((List.mem_cons.1 hc).resolve_left (Ne.symm hk)) hsaved hcan (fun j hj => hothers j (List.mem_cons_of_mem _ hj))

/-- A strand of one list stands in the other, but for its links. -/
theorem exists_of_bare_eq {l k : List Strand} (h : l.map Strand.bare = k.map Strand.bare) {y : Strand} (hy : y ∈ k) :
    ∃ z, z ∈ l ∧ z = { y with links := z.links } := by
  obtain ⟨z, hz, heq⟩ := List.mem_map.1 (h ▸ List.mem_map_of_mem hy : y.bare ∈ l.map Strand.bare)
  exact ⟨z, hz, bare_eq_iff.1 heq⟩

/-- A partition's one saved context comes back. -/
theorem partitionContextRestore_does {s : State} {part c : Nat} {v : Saved} (hc : c ∈ (s.part part).cores) (hsaved : (s.core c).saved = some v)
    (howner : v.owner = none) (hcan : s.restorable c v = true) (hcurrent : s.savedCurrent part v = true)
    (hothers : ∀ k, k ∈ (s.part part).cores → k ≠ c → (s.core k).saved = none) :
    ∃ u : State, exec (.partitionContextRestore part) s = .next u ∧ u.me = { s.me with links := u.me.links } ∧ (u.core c).saved = none
      ∧ ∀ y, y ∈ s.others ++ v.strands → ∃ z, z ∈ u.others ∧ z = { y with links := z.links } := by
  obtain ⟨hme, hback, hheld⟩ := restoreCore_does hsaved
  rw [exec_partitionContextRestore, execPartitionContextRestore, swapIn_one howner hcurrent _ s hc hsaved hcan hothers]
  exact ⟨_, rfl, bare_eq_iff.1 hme, (hheld c).trans (if_pos rfl), fun y hy => exists_of_bare_eq hback hy⟩

end Sys2Proof.Machine
end

section
/-!
PROOFS. The arbiters' rounds (R334, R370), and the queue squash of the strand that steps (R390).
-/
namespace Sys2Proof.Machine

/-! ### The least of some -/

/-- A fold that keeps, of what it meets, the one of the lower key, and of two with the same key the first. -/
def keepLeast {α K : Type} [LinearOrder K] (key : α → K) (best : Option α) (x : α) : Option α :=
  match best with
  | none => some x
  | some b => if key x < key b then some x else some b

section
variable {α K : Type} [LinearOrder K] (key : α → K)

theorem foldl_keepLeast_some (l : List α) : ∀ b, ∃ r, l.foldl (keepLeast key) (some b) = some r ∧ r ∈ b :: l
    ∧ ∀ x, x ∈ b :: l → key r ≤ key x := by
  induction l with
  | nil => exact fun b => ⟨b, rfl, List.mem_cons_self, fun x hx => by rw [List.mem_singleton.1 hx]⟩
  | cons y l ih =>
    intro b
    have hstep : keepLeast key (some b) y = some (if key y < key b then y else b) := by
      unfold keepLeast
      dsimp only
      split <;> rfl
    obtain ⟨r, hr, hmem, hle⟩ := ih (if key y < key b then y else b)
    refine ⟨r, by rw [List.foldl_cons, hstep, hr], ?_, fun x hx => ?_⟩
    · split at hmem <;> simp only [List.mem_cons] at hmem ⊢ <;> tauto
    · have hbest := hle _ List.mem_cons_self
      simp only [List.mem_cons] at hx
      split at hbest
      · rename_i hlt
        rcases hx with rfl | rfl | hx
        · exact hbest.trans hlt.le
        · exact hbest
        · exact hle x (List.mem_cons_of_mem _ hx)
      · rename_i hlt
        rcases hx with rfl | rfl | hx
        · exact hbest
        · exact hbest.trans (not_lt.1 hlt)
        · exact hle x (List.mem_cons_of_mem _ hx)

/-- What is kept is one of them, and none has a lower key. -/
theorem keepLeast_least {l : List α} {r : α} (h : l.foldl (keepLeast key) none = some r) : r ∈ l ∧ ∀ x, x ∈ l → key r ≤ key x := by
  cases l with
  | nil => cases h
  | cons b l =>
    obtain ⟨q, hq, hmem, hle⟩ := foldl_keepLeast_some key l b
    rw [List.foldl_cons, show keepLeast key none b = some b from rfl, hq] at h
    obtain rfl := Option.some.inj h
    exact ⟨hmem, hle⟩

theorem keepLeast_none {l : List α} (h : l.foldl (keepLeast key) none = none) : l = [] := by
  cases l with
  | nil => rfl
  | cons b l =>
    obtain ⟨q, hq, -⟩ := foldl_keepLeast_some key l b
    rw [List.foldl_cons, show keepLeast key none b = some b from rfl, hq] at h
    cases h

end

/-! ### The winner of a round (R370) -/

/-- How recently a strand issued on a unit, the context deciding among equals. -/
def Strand.recency (vlsu : Bool) (t : Strand) : Nat := t.lastIssued vlsu * 8 + t.ctx

theorem leastRecent_eq (vlsu : Bool) (ts : List Strand) : leastRecent vlsu ts = ts.foldl (keepLeast (Strand.recency vlsu)) none := by
  unfold leastRecent
  dsimp only
  congr 1
  funext best t
  cases best <;> rfl

/-- The strands of a class that a round may serve. -/
def State.contenders (s : State) (core : Nat) (vlsu : Bool) (k : Nat) : List Strand :=
  (s.strands.filter (s.candidate core vlsu)).filter (fun t => s.prioOf t == k)

theorem mem_contenders {s : State} {core : Nat} {vlsu : Bool} {k : Nat} {y : Strand} :
    y ∈ s.contenders core vlsu k ↔ y ∈ s.strands ∧ s.candidate core vlsu y = true ∧ s.prioOf y = k := by
  simp only [State.contenders, List.mem_filter, beq_iff_eq, and_assoc]

/-- The class that a round serves: it holds the winner, and those before it in the round's order hold no candidate. -/
theorem roundWinner_class {s : State} {core : Nat} {vlsu : Bool} {y : Strand} (h : s.roundWinner core vlsu = some y) :
    (s.contenders core vlsu (s.prioOf y)).foldl (keepLeast (Strand.recency vlsu)) none = some y
    ∧ ∃ before after, classOrder ((s.core core).round vlsu) = before ++ s.prioOf y :: after
      ∧ ∀ k, k ∈ before → s.contenders core vlsu k = [] := by
  obtain ⟨before, k, after, horder, hwin, hnone⟩ := List.findSome?_eq_some_iff.1 h
  change leastRecent vlsu (s.contenders core vlsu k) = some y at hwin
  rw [leastRecent_eq] at hwin
  have hk : s.prioOf y = k := (mem_contenders.1 (keepLeast_least (Strand.recency vlsu) hwin).1).2.2
  subst hk
  exact ⟨hwin, before, after, horder, fun k hk => keepLeast_none (Strand.recency vlsu) ((leastRecent_eq ..).symm.trans (hnone k hk))⟩

/-- The winner is a candidate; none of its class issued less recently, and outside every 16th round none is of a lower class. -/
theorem roundWinner_least {s : State} {core : Nat} {vlsu : Bool} {y : Strand} (h : s.roundWinner core vlsu = some y) :
    y ∈ s.strands ∧ s.candidate core vlsu y = true ∧ ∀ x, x ∈ s.strands → s.candidate core vlsu x = true →
      ((s.core core).round vlsu % 16 ≠ 15 → s.prioOf y ≤ s.prioOf x)
      ∧ (s.prioOf x = s.prioOf y → y.recency vlsu ≤ x.recency vlsu) := by
  obtain ⟨hwin, before, after, horder, hnone⟩ := roundWinner_class h
  obtain ⟨hmem, hleast⟩ := keepLeast_least (Strand.recency vlsu) hwin
  obtain ⟨hy, hcand, -⟩ := mem_contenders.1 hmem
  refine ⟨hy, hcand, fun x hx hxcand => ⟨fun hround => ?_, fun hprio => hleast x (mem_contenders.2 ⟨hx, hxcand, hprio⟩)⟩⟩
  by_contra hlt
  rw [classOrder, if_neg hround] at horder
  have hsorted : (before ++ s.prioOf y :: after).Pairwise (· < ·) := by rw [← horder]; decide
  have hin : s.prioOf x ∈ before ++ s.prioOf y :: after := by
    have hy4 : s.prioOf y ∈ [0, 1, 2, 3] := by rw [horder]; simp
    rw [← horder]
    simp only [List.mem_cons, List.not_mem_nil, or_false] at hy4 ⊢
    omega
  have hbefore : s.prioOf x ∈ before := by
    rcases List.mem_append.1 hin with hb | ha
    · exact hb
    · rcases List.mem_cons.1 ha with heq | ha
      · omega
      · exact absurd ((List.pairwise_cons.1 (List.pairwise_append.1 hsorted).2.1).1 _ ha) (by omega)
  have hempty := hnone _ hbefore
  rw [List.eq_nil_iff_forall_not_mem] at hempty
  exact hempty x (mem_contenders.2 ⟨hx, hxcand, rfl⟩)

/-! ### The dispatch of the winner -/

/-- Whether a strand sits in a context does not turn on its links. -/
theorem sits_bare (t : Strand) (core ctx : Nat) : t.bare.sits core ctx = t.sits core ctx := rfl

/-- The other strands, where one of a context steps, sit elsewhere. -/
theorem others_elsewhere {s : State} {core ctx : Nat} {y : Strand} (hy : s.strand? core ctx = some y) (hme : s.me.sits core ctx = false) :
    ∀ u, u ∈ (s.switchTo core ctx).others → u.sits core ctx = false := by
  obtain ⟨-, -, heq⟩ := switchTo_other hme hy
  rw [heq]
  intro u hu
  rcases List.mem_append.1 hu with hu | hu
  · simpa using (List.mem_filter.1 hu).2
  · rw [List.mem_singleton.1 (List.mem_filter.1 hu).1, hme]

theorem strand?_me {s : State} {core ctx : Nat} (h : s.me.sits core ctx = true) : s.strand? core ctx = some s.me := if_pos (sits_iff.1 h)

/-- The strand that a context names steps after the change to it. -/
theorem switchTo_steps {s : State} {core ctx : Nat} {y : Strand} (hy : s.strand? core ctx = some y) :
    (s.switchTo core ctx).me = y ∧ y.sits core ctx = true := by
  by_cases hme : s.me.sits core ctx = true
  · rw [strand?_me hme] at hy
    rw [switchTo_self hme, ← Option.some.inj hy]
    exact ⟨rfl, hme⟩
  · obtain ⟨-, hsits, heq⟩ := switchTo_other (by simpa using hme) hy
    rw [heq]
    exact ⟨rfl, hsits⟩

/-- A strand that steps and sits in a context of which no other strand is stays the one that the context names, whichever steps next. -/
theorem switchTo_strand? {v : State} {core ctx c k : Nat} (hme : v.me.sits core ctx = true)
    (hothers : (∀ u, u ∈ v.others → u.sits core ctx = false) ∨ c = core ∧ k = ctx) : (v.switchTo c k).strand? core ctx = some v.me := by
  by_cases hhome : v.me.sits c k = true
  · rw [switchTo_self hhome, strand?_me hme]
  have hhome : v.me.sits c k = false := by simpa using hhome
  rcases hothers with hothers | ⟨rfl, rfl⟩
  swap
  · rw [hme] at hhome
    cases hhome
  cases ht : v.strand? c k with
  | none => rw [switchTo_absent ht, strand?_me hme]
  | some t =>
    obtain ⟨hmem, -, heq⟩ := switchTo_other hhome ht
    rw [heq]
    have hlive := (sits_iff.1 hme).1
    unfold State.strand?
    have hnot : ¬(t.live = true ∧ t.core = core ∧ t.ctx = ctx) := fun h => by
      rw [← sits_iff, hothers t hmem] at h
      cases h
    rw [if_neg hnot]
    have hrest : (v.others.filter (fun u => !u.sits c k)).find? (fun u => u.sits core ctx) = none :=
      List.find?_eq_none.2 (fun u hu => by rw [hothers u (List.mem_filter.1 hu).1]; decide)
    show (v.others.filter (fun u => !u.sits c k) ++ [v.me].filter (fun u => u.live)).find? (fun u => u.sits core ctx) = _
    rw [List.find?_append, hrest]
    simp [hlive, hme]

/-- Work done as the strand of a context, at whose place it leaves the strand, is found in that context. -/
theorem onStrand_strand? {s : State} {core ctx : Nat} {y : Strand} (hy : s.strand? core ctx = some y) {f : State → State}
    (hf : (s.switchTo core ctx).stepsInPlace (f (s.switchTo core ctx))) :
    (s.onStrand core ctx f).strand? core ctx = some (f (s.switchTo core ctx)).me := by
  obtain ⟨hsteps, hsits⟩ := switchTo_steps hy
  have hstays : (f (s.switchTo core ctx)).me.sits core ctx = true := by
    obtain ⟨hlive, hcore, hctx⟩ := sits_iff.1 (hsteps ▸ hsits)
    have hplace := Prod.mk.inj (Prod.mk.inj hf.place).1
    exact sits_iff.2 ⟨hf.live.trans hlive, hplace.1.trans hcore, hplace.2.trans hctx⟩
  unfold State.onStrand
  dsimp only
  rw [hy]
  refine switchTo_strand? hstays ?_
  by_cases hme : s.me.sits core ctx = true
  · exact .inr (sits_iff.1 hme).2
  · have helse := others_elsewhere hy (by simpa using hme)
    refine .inl (fun u hu => ?_)
    obtain ⟨w, hw, hwu⟩ := exists_of_bare_eq hf.others.symm hu
    rw [← sits_bare, ← bare_eq_iff.2 hwu, sits_bare]
    exact helse w hw

theorem markRound_lastIssued (t : Strand) (vlsu : Bool) (n : Nat) : (t.markRound vlsu n).lastIssued vlsu = n + 1 := by
  cases vlsu <;> rfl

theorem markRound_only (t : Strand) (vlsu : Bool) (n : Nat) : t.markRound vlsu n
    = { t with lastVec := (t.markRound vlsu n).lastVec, lastVlsu := (t.markRound vlsu n).lastVlsu } := by
  cases vlsu <;> rfl

/-- What performing the store queue leaves. -/
theorem performAll_stepsInPlace (s : State) : s.stepsInPlace s.performAll := by
  have h := performAll_noStores s
  exact ⟨congrArg (fun o => o.me.live) h, congrArg (fun o => o.me.place) h, congrArg Outline.others h,
    fun c => congrFun (congrArg Outline.held h) c, congrArg Outline.coils h⟩

theorem stepsInPlace_trans {s t u : State} (h : s.stepsInPlace t) (k : t.stepsInPlace u) : s.stepsInPlace u :=
  ⟨k.live.trans h.live, k.place.trans h.place, k.others.trans h.others, fun c => (k.held c).trans (h.held c), k.coils.trans h.coils⟩

/-- A dispatch leaves the front end's strand at its place. -/
theorem dispatchHead_stepsInPlace (s : State) : s.stepsInPlace s.dispatchHead := by
  refine stepsInPlace_trans (performAll_stepsInPlace s) ?_
  unfold State.dispatchHead
  dsimp only
  split <;> exact ⟨rfl, rfl, rfl, fun _ => rfl, rfl⟩

/-- A dispatch takes the oldest instruction of the queue. -/
theorem dispatchHead_takes {s : State} {e : DqEntry} {l : List DqEntry} (h : s.me.dq = e :: l) (vlsu : Bool) :
    s.dispatchHead.me.dq = l ∧ s.dispatchHead.me.issued = some e ∧ s.dispatchHead.me.lastIssued vlsu = s.me.lastIssued vlsu := by
  have hstores := performAll_noStores s
  have hdq : s.performAll.me.dq = e :: l := (congrArg (fun o => o.me.dq) hstores).trans h
  have hlast : s.performAll.me.lastIssued vlsu = s.me.lastIssued vlsu := congrArg (fun o => o.me.lastIssued vlsu) hstores
  unfold State.dispatchHead
  simp only [hdq]
  exact ⟨rfl, rfl, hlast⟩

/-- The winner's turn of a round: it is marked, and its oldest instruction is dispatched. -/
def State.winnersTurn (vlsu : Bool) (n : Nat) (s : State) : State :=
  ({ s with me := s.me.markRound vlsu n } : State).dispatchHead

theorem winnersTurn_stepsInPlace (vlsu : Bool) (n : Nat) (s : State) : s.stepsInPlace (s.winnersTurn vlsu n) := by
  refine stepsInPlace_trans ?_ (dispatchHead_stepsInPlace _)
  exact ⟨by dsimp only; rw [markRound_only], by dsimp only; rw [markRound_only]; rfl, rfl, fun _ => rfl, rfl⟩

/-- The core's round counters, the one of a unit set. -/
def Core.countRound (vlsu : Bool) (n : Nat) (c : Core) : Core := if vlsu then { c with vlsuRound := n } else { c with vecRound := n }

theorem countRound_round (vlsu : Bool) (n : Nat) (c : Core) : (c.countRound vlsu n).round vlsu = n := by cases vlsu <;> rfl

theorem round_of_held {c d : Core} (h : c.held = d.held) (vlsu : Bool) : c.round vlsu = d.round vlsu := by
  have hrounds := Prod.mk.inj (Prod.mk.inj h).2
  cases vlsu
  · exact hrounds.1
  · exact hrounds.2

/-- A round of a core's arbiter. -/
theorem issueRound_does {s : State} (hapart : s.apart) (core : Nat) (vlsu : Bool) :
    ∃ u : State, exec (.issueRound core vlsu) s = .next u ∧ (u.core core).round vlsu = (s.core core).round vlsu + 1
      ∧ (s.roundWinner core vlsu = none → u.me = s.me ∧ u.others = s.others ∧ u.mem = s.mem)
      ∧ ∀ y, s.roundWinner core vlsu = some y → ∀ e l, y.dq = e :: l → ∃ z, u.strand? core y.ctx = some z ∧ z.dq = l ∧ z.issued = some e
          ∧ z.lastIssued vlsu = (s.core core).round vlsu + 1 := by
  rw [exec_issueRound, execIssueRound]
  refine ⟨_, rfl, ?_⟩
  generalize hn : (s.core core).round vlsu = n
  have hcounted : ((s.updCore core (Core.countRound vlsu (n + 1))).core core).round vlsu = n + 1 := by
    rw [core_updCore_same, countRound_round]
  cases hw : s.roundWinner core vlsu with
  | none =>
    have heq : s.holdRound core vlsu = s.updCore core (Core.countRound vlsu (n + 1)) := by
      unfold State.holdRound
      rw [hw, hn]
      rfl
    rw [heq]
    exact ⟨hcounted, fun _ => ⟨rfl, rfl, rfl⟩, fun y hy => by cases hy⟩
  | some y =>
    have heq : s.holdRound core vlsu = (s.updCore core (Core.countRound vlsu (n + 1))).onStrand core y.ctx (State.winnersTurn vlsu n) := by
      unfold State.holdRound
      rw [hw, hn]
      rfl
    rw [heq]
    refine ⟨?_, fun h => (by cases h), fun z hz e l hdq => ?_⟩
    · refine Eq.trans ?_ hcounted
      exact round_of_held ((onStrand_keepsPlaces _ core y.ctx _ (winnersTurn_stepsInPlace vlsu n)).held core) vlsu
    · obtain rfl := Option.some.inj hz
      obtain ⟨hy, hcand, -⟩ := roundWinner_least hw
      have hcore : y.core = core := by
        simp only [State.candidate, Bool.and_eq_true, beq_iff_eq] at hcand
        exact hcand.1.1.1
      have hfind : (s.updCore core (Core.countRound vlsu (n + 1))).strand? core y.ctx = some y := by
        have hthere := strand?_of_apart hapart hy
        rw [hcore] at hthere
        exact hthere
      refine ⟨_, onStrand_strand? hfind (winnersTurn_stepsInPlace vlsu n _), ?_⟩
      obtain ⟨hsteps, -⟩ := switchTo_steps hfind
      generalize (s.updCore core (Core.countRound vlsu (n + 1))).switchTo core y.ctx = v at hsteps
      have hmarked : ({ v with me := v.me.markRound vlsu n } : State).me.dq = e :: l := by
        show (v.me.markRound vlsu n).dq = _
        rw [markRound_only, hsteps, ← hdq]
      obtain ⟨hrest, hissued, hlast⟩ := dispatchHead_takes hmarked vlsu
      exact ⟨hrest, hissued, hlast.trans (markRound_lastIssued ..)⟩

/-! ### The squash of the strand that steps (R390) -/

/-- A squash with an instruction queued and none dispatched: back to the oldest one queued. -/
theorem squashMe_queued {s : State} (hissued : s.me.issued = none) {e : DqEntry} {l : List DqEntry} (hdq : s.me.dq = e :: l) :
    s.squashMe.me.dq = [] ∧ s.squashMe.me.rows = s.me.rows ∧ s.squashMe.me.links = [] ∧ s.squashMe.me.pc = e.pc
      ∧ s.squashMe.me.entered = e.seq - 1 := by
  have hdiscards : s.me.discards = e :: l := by simp [Strand.discards, Strand.underWay, hissued, hdq]
  have hdispatched : s.me.dispatched = false := by simp [Strand.dispatched, hissued]
  have hback := rollback_me { s with me := { s.me.putAside with dq := [] } } (e.seq - 1)
  have hme : s.squashMe.me
      = { ({ s with me := { s.me.putAside with dq := [] } } : State).rollback (e.seq - 1) |>.me.abandon with
          pc := e.pc, fellOff := false, atVec := false, tkSat := e.tkSat, resume := s.squashMe.me.resume, resumeUse := e.use.isSome } := by
    unfold State.squashMe
    simp only [hdiscards, hdispatched, Bool.false_eq_true, if_false]
  rw [hme]
  generalize ({ s with me := { s.me.putAside with dq := [] } } : State).rollback (e.seq - 1) = v at hback
  rw [hback]
  exact ⟨rfl, rfl, rfl, rfl, rfl⟩

/-- A squash with nothing queued or dispatched: the front end's instruction is abandoned, unless only its signal is outstanding. -/
theorem squashMe_idle {s : State} (hissued : s.me.issued = none) (hdq : s.me.dq = []) :
    s.squashMe.me.dq = [] ∧ s.squashMe.me.rows = s.me.rows ∧ s.squashMe.me.links = [] ∧ s.squashMe.mem = s.mem
      ∧ s.squashMe.me.regs = s.me.regs
      ∧ s.squashMe.me.pc = (match s.me.sigPend, s.me.limm with | none, some l => l.2 | _, _ => s.me.pc) := by
  have hdiscards : s.me.discards = [] := by simp [Strand.discards, Strand.underWay, hissued, hdq]
  have hsignalling : s.me.signalling = s.me.sigPend.isSome := by simp [Strand.signalling, hissued]
  cases hlimm : s.me.limm with
  | none =>
    have heq : s.squashMe = { s with waiting := false, me := s.me.abandon } := by
      unfold State.squashMe
      simp only [hdiscards, hlimm]
    rw [heq]
    cases s.me.sigPend <;> exact ⟨hdq, rfl, rfl, rfl, rfl, rfl⟩
  | some l =>
    have heq : s.squashMe = { s with waiting := false, me :=
        if s.me.sigPend.isSome then s.me.abandon else { s.me.abandon with pc := l.2, fellOff := false, atVec := false } } := by
      unfold State.squashMe
      simp only [hdiscards, hlimm, hsignalling]
    rw [heq]
    cases s.me.sigPend <;> exact ⟨hdq, rfl, rfl, rfl, rfl, rfl⟩

/-- A squash of the strand that steps, which has no instruction dispatched: back to the oldest instruction discarded. -/
theorem squash_me {s : State} (hlive : s.me.live = true) (hrun : s.me.run = .running) (hissued : s.me.issued = none) :
    let u := s.squash s.me.core s.me.ctx
    u.me.dq = [] ∧ u.me.rows = s.me.rows ∧ u.me.links = [] ∧ u.others.map Strand.bare = s.others.map Strand.bare
      ∧ (∀ e l, s.me.dq = e :: l → u.me.pc = e.pc ∧ u.me.entered = e.seq - 1)
      ∧ (s.me.dq = [] → u.mem = s.mem ∧ u.me.regs = s.me.regs
          ∧ u.me.pc = (match s.me.sigPend, s.me.limm with | none, some l => l.2 | _, _ => s.me.pc)) := by
  have hself : s.me.sits s.me.core s.me.ctx = true := sits_iff.2 ⟨hlive, rfl, rfl⟩
  have hsquash : s.squash s.me.core s.me.ctx = s.squashMe := by
    have hstays := squashMe_stepsInPlace s
    have hplace := Prod.mk.inj (Prod.mk.inj hstays.place).1
    unfold State.squash State.onStrand
    simp only [strand?_me hself, switchTo_self hself, if_pos hrun]
    exact switchTo_self (sits_iff.2 ⟨hstays.live.trans hlive, hplace.1, hplace.2⟩)
  intro u
  have hothers := (squashMe_stepsInPlace s).others
  have hu : u = s.squashMe := hsquash
  rw [hu]
  cases hdq : s.me.dq with
  | nil =>
    obtain ⟨hempty, hrows, hlinks, hidle⟩ := squashMe_idle hissued hdq
    exact ⟨hempty, hrows, hlinks, hothers, fun e l h => absurd h (List.cons_ne_nil e l).symm, fun _ => hidle⟩
  | cons e l =>
    obtain ⟨hempty, hrows, hlinks, hback⟩ := squashMe_queued hissued hdq
    exact ⟨hempty, hrows, hlinks, hothers, fun e' l' h => (by cases h; exact hback), fun h => absurd h (List.cons_ne_nil e l)⟩

end Sys2Proof.Machine
end

section
/-!
PROOFS. Braids, their stages and their plies (R361, R364, R366, R368), and barriers (R375).
-/
namespace Sys2Proof.Machine

/-! ### A braid's entry -/

theorem updBraid_eq {s : State} {part slot : Nat} {b : Braid} (h : s.braidOf? part slot = some b) (f : Braid → Braid) :
    s.updBraid part slot f = s.updPart part (fun p => { p with braids := put p.braids slot (f b) }) := by
  unfold State.updBraid
  rw [h]

theorem braidOf?_updBraid {s : State} {part slot : Nat} {b : Braid} (h : s.braidOf? part slot = some b) (f : Braid → Braid) :
    (s.updBraid part slot f).braidOf? part slot = some (f b) := by
  rw [updBraid_eq h, State.braidOf?, State.part, updPart_parts, upd, look_put_same, lookup_put_same]

@[simp] theorem updBraid_coilsOf (s : State) (part slot : Nat) (f : Braid → Braid) : (s.updBraid part slot f).coilsOf = s.coilsOf := by
  unfold State.updBraid
  split
  · exact updPart_coilsOf _ _ _ rfl
  · rfl

@[simp] theorem updBraid_everyStrand (s : State) (part slot : Nat) (f : Braid → Braid) :
    (s.updBraid part slot f).everyStrand = s.everyStrand := by
  simp only [State.everyStrand, updBraid_me, updBraid_others, updBraid_cores]

@[simp] theorem updBraid_permits (s : State) (part slot : Nat) (f : Braid → Braid) (vf kind : Nat) :
    (s.updBraid part slot f).permits vf kind = s.permits vf kind := by
  simp only [State.permits, State.vf?, updBraid_vfs]

@[simp] theorem updBraid_plyAway (s : State) (part slot : Nat) (f : Braid → Braid) : (s.updBraid part slot f).plyAway part slot = s.plyAway part slot := by
  have hcoils := congrArg Prod.snd (congrFun (updBraid_coilsOf s part slot f) part)
  funext p
  simp only [State.plyAway, updBraid_everyStrand]
  rw [show ((s.updBraid part slot f).part part).parkedCoils = (s.part part).parkedCoils from hcoils]

/-- Which coil is chosen turns on the strands, the coils and the partition's coils. -/
theorem chooseCoil_congr {s u : State} (hme : u.me = s.me) (hothers : u.others = s.others) (hcoils : u.coils = s.coils)
    (hof : u.coilsOf = s.coilsOf) : u.chooseCoil = s.chooseCoil := by
  have hstrands : u.strands = s.strands := by rw [State.strands, hme, hothers]; rfl
  have hcoil : u.coil = s.coil := by funext c; rw [State.coil, hcoils]; rfl
  have htake : u.canTake = s.canTake := by
    funext fuse n c
    have hfree : u.freePairs c = s.freePairs c := by simp only [State.freePairs, State.pairFree, hstrands]
    have hbusy : u.coilBusy c = s.coilBusy c := by simp only [State.coilBusy, hstrands]
    rw [State.canTake, hfree, hbusy, hcoil]
    rfl
  have hpart (part : Nat) : (u.part part).coils = (s.part part).coils := congrArg Prod.fst (congrFun hof part)
  funext part fuse n
  simp only [State.chooseCoil, State.coolest, htake, hcoil, hpart]

@[simp] theorem updBraid_chooseCoil (s : State) (part slot : Nat) (f : Braid → Braid) : (s.updBraid part slot f).chooseCoil = s.chooseCoil :=
  chooseCoil_congr (updBraid_me ..) (updBraid_others ..) (updBraid_coils ..) (updBraid_coilsOf ..)

/-! ### Start (R361, R364) -/

/-- Plies of a stage. -/
def Braid.pliesOf (b : Braid) (st : Nat) : List Ply := b.plies.filter (fun p => p.stage == st)

theorem addPlies_pliesOf_same (b : Braid) (st n : Nat) : ((b.addPlies st n).pliesOf st).length = (b.pliesOf st).length + n := by
  have hnew (m : Nat) (l : List Nat) : (l.map (fun i => ({ stage := st, id := m + i } : Ply))).filter (fun p => p.stage == st)
      = l.map (fun i => { stage := st, id := m + i }) :=
    List.filter_eq_self.2 (fun p hp => by
      obtain ⟨i, -, rfl⟩ := List.mem_map.1 hp
      exact beq_self_eq_true st)
  simp only [Braid.pliesOf, Braid.addPlies, List.filter_append, hnew, List.length_append, List.length_map, List.length_range]

theorem addPlies_pliesOf_other (b : Braid) {st k : Nat} (h : k ≠ st) (n : Nat) : (b.addPlies k n).pliesOf st = b.pliesOf st := by
  have hnone (m : Nat) (l : List Nat) : (l.map (fun i => ({ stage := k, id := m + i } : Ply))).filter (fun p => p.stage == st) = [] :=
    List.filter_eq_nil_iff.2 (fun p hp => by
      obtain ⟨i, -, rfl⟩ := List.mem_map.1 hp
      simpa using h)
  simp only [Braid.pliesOf, Braid.addPlies, List.filter_append, hnone, List.append_nil]

/-- Plies that a stage starts with. -/
def StageDesc.firstPlies (d : StageDesc) : Nat := if d.inQ.isNone then Nat.min d.minPly d.nPly else d.minPly

/-- The stages before the one in question add none of its plies. -/
theorem addStages_pliesOf_other {st : Nat} (ds : List StageDesc) : ∀ (o : Nat) (b : Braid), st < o →
    ((ds.zipIdx o).foldl (fun b d => b.addPlies d.2 d.1.firstPlies) b).pliesOf st = b.pliesOf st := by
  induction ds with
  | nil => exact fun _ _ _ => rfl
  | cons d ds ih =>
    intro o b ho
    rw [List.zipIdx_cons, List.foldl_cons, ih (o + 1) _ (by omega)]
    exact addPlies_pliesOf_other b (by simpa using (by omega : o ≠ st)) _

theorem addStages_pliesOf (ds : List StageDesc) : ∀ (o j : Nat) (b : Braid) (d : StageDesc), ds[j]? = some d →
    (((ds.zipIdx o).foldl (fun b d => b.addPlies d.2 d.1.firstPlies) b).pliesOf (o + j)).length = (b.pliesOf (o + j)).length + d.firstPlies := by
  induction ds with
  | nil => exact fun _ _ _ _ h => by simp at h
  | cons e ds ih =>
    intro o j b d h
    rw [List.zipIdx_cons, List.foldl_cons]
    cases j with
    | zero =>
      rw [List.getElem?_cons_zero] at h
      obtain rfl := Option.some.inj h
      rw [addStages_pliesOf_other ds (o + 1) _ (by omega)]
      exact addPlies_pliesOf_same b o _
    | succ j =>
      rw [List.getElem?_cons_succ] at h
      have hrest := ih (o + 1) j (b.addPlies o e.firstPlies) d h
      rw [show o + 1 + j = o + (j + 1) by omega] at hrest
      rw [hrest, addPlies_pliesOf_other b (by omega)]

theorem start_pliesOf (b : Braid) {st : Nat} {d : StageDesc} (h : b.stages[st]? = some d) :
    (b.start.pliesOf st).length = (b.pliesOf st).length + d.firstPlies := by
  have hall := addStages_pliesOf b.stages 0 st { b with running := true } d h
  rw [Nat.zero_add] at hall
  exact hall

theorem start_running (b : Braid) : b.start.running = true := by
  have hkeeps (l : List (StageDesc × Nat)) : ∀ b : Braid, (l.foldl (fun b d => b.addPlies d.2 d.1.firstPlies) b).running = b.running := by
    induction l with
    | nil => exact fun _ => rfl
    | cons d l ih => exact fun b => ih _
  exact hkeeps b.stages.zipIdx _

theorem braidStart_starts {s : State} {part slot : Nat} {b : Braid} (h : s.braidOf? part slot = some b)
    (hready : (!b.running && (s.part part).ready b) = true) : exec (.braidStart part slot) s = .next (s.updBraid part slot Braid.start) := by
  rw [exec_braidStart, execBraidStart, State.startBraid, h]
  exact congrArg Host.Outcome.next (if_pos hready)

theorem braidStart_waits {s : State} {part slot : Nat} {b : Braid} (h : s.braidOf? part slot = some b)
    (hready : (!b.running && (s.part part).ready b) = false) : exec (.braidStart part slot) s = .next s := by
  rw [exec_braidStart, execBraidStart, State.startBraid, h]
  exact congrArg Host.Outcome.next (if_neg (Bool.eq_false_iff.1 hready))

/-! ### The end of a braid (R368) -/

theorem braidComplete_waits {s : State} {part slot : Nat} {b : Braid} (h : s.braidOf? part slot = some b) (hdone : b.complete = false) :
    exec (.braidComplete part slot) s = .next s := by
  rw [exec_braidComplete, execBraidComplete, State.completeBraid, h]
  exact congrArg Host.Outcome.next (if_neg (Bool.eq_false_iff.1 hdone))

/-- A braid whose stages have all ended leaves the table, and no register changes. -/
theorem braidComplete_ends {s : State} {part slot : Nat} {b : Braid} (h : s.braidOf? part slot = some b) (hdone : b.complete = true) :
    ∃ u : State, exec (.braidComplete part slot) s = .next u ∧ u.braidOf? part slot = none ∧ u.me.regs = s.me.regs := by
  rw [exec_braidComplete, execBraidComplete, State.completeBraid, h]
  refine ⟨_, congrArg Host.Outcome.next (if_pos hdone), ?_, ?_⟩
  · rw [State.braidOf?, State.part, updPart_parts, upd, look_put_same, lookup_del, if_pos rfl]
  · rw [updPart_me]
    exact outline_regs (outline_foldl _ (fun s (c : Nat) => writeBackCore_outline s c) _ s)

/-! ### Barriers (R375) -/

theorem barrierComplete_waits {s : State} {part slot st ply n : Nat} (h : 16 ≤ n ∨ s.barFull part slot st ply n = false) :
    exec (.barrierComplete part slot st ply n) s = .next s := by
  rw [exec_barrierComplete, execBarrierComplete, State.completeBar]
  rcases h with h | h
  · rw [if_neg (by omega)]
  · simp [h]

/-- A full barrier: every resident strand of the ply has its completion. -/
theorem barrierComplete_completes {s : State} {part slot st ply n : Nat} (hn : n < 16) (h : s.barFull part slot st ply n = true) :
    ∃ u : State, exec (.barrierComplete part slot st ply n) s = .next u ∧ u.mem = s.mem
      ∧ u.me = (if s.me.live && s.me.ofPly part slot st ply then { s.me with barAt := some (16 + n) } else s.me)
      ∧ u.others = s.others.map (fun y => if y.live && y.ofPly part slot st ply then { y with barAt := some (16 + n) } else y) := by
  rw [exec_barrierComplete, execBarrierComplete, State.completeBar, if_pos hn, if_pos h]
  exact ⟨_, rfl, updBraid_mem .., updBraid_me .., updBraid_others ..⟩

end Sys2Proof.Machine
end

section
/-!
PROOFS. Rebalancing on a noted crossing (R369): what RISE, FULL and DRAIN do, and what REBAL counts (R377).
-/
namespace Sys2Proof.Machine

/-- A braid without a crossing that has been handled. -/
def Braid.handled (ev q : Nat) (b : Braid) : Braid := { b with crossed := b.crossed.erase (ev, q) }

/-- A braid with one more rebalancing action of a stage counted. -/
def Braid.countAction (st : Nat) (b : Braid) : Braid := { b with rebal := upd b.rebal st 0 (fun n => Nat.min (n + 1) 0xFFFFFFFF) }

/-- From `b` to `z` a crossing was handled, and an action of a stage counted where one was applied. -/
def Braid.counts (b : Braid) (q : Nat) (z : Braid) (ev st : Nat) (acts : Bool) : Prop :=
  z.crossed = b.crossed.erase (ev, q) ∧ look z.rebal st 0 = if acts then Nat.min (look b.rebal st 0 + 1) 0xFFFFFFFF else look b.rebal st 0

theorem handled_counts (b : Braid) (ev q st : Nat) : b.counts q (b.handled ev q) ev st false := ⟨rfl, rfl⟩

theorem countAction_counts {b z : Braid} {ev q : Nat} (st : Nat) (hcrossed : z.crossed = (b.handled ev q).crossed) (hrebal : z.rebal = b.rebal) :
    b.counts q (z.countAction st) ev st true :=
  ⟨hcrossed, by rw [Braid.countAction, upd, look_put_same, hrebal]; rfl⟩

section
variable {s : State} {part slot ev q : Nat} {b : Braid} (hb : s.braidOf? part slot = some b)
include hb

/-- A crossing that is not noted is no event. -/
theorem rebalance_unnoted (h : b.crossed.contains (ev, q) = false) (act : State → Braid → StageQueue → Option (Nat × State)) :
    s.rebalance part slot ev q act = s := by
  rw [State.rebalance, hb]
  exact if_neg (Bool.eq_false_iff.1 h)

/-- A noted crossing is handled: its action applies, and is counted, or there is none to apply. -/
theorem rebalance_noted (h : b.crossed.contains (ev, q) = true) {x : StageQueue} (hx : b.queues.find? (fun y => y.num == q) = some x)
    (act : State → Braid → StageQueue → Option (Nat × State)) :
    s.rebalance part slot ev q act = (act (s.updBraid part slot (Braid.handled ev q)) b x).elim (s.updBraid part slot (Braid.handled ev q))
      (fun r => r.2.updBraid part slot (Braid.countAction r.1)) := by
  rw [State.rebalance, hb]
  simp only [h, if_true, hx]
  change (match act (s.updBraid part slot (Braid.handled ev q)) b x with
    | none => s.updBraid part slot (Braid.handled ev q)
    | some r => r.2.updBraid part slot (Braid.countAction r.1)) = _
  cases act (s.updBraid part slot (Braid.handled ev q)) b x <;> rfl

end

/-! ### RISE -/

section
variable {s : State} {part slot q : Nat} {b : Braid} {x : StageQueue} (hb : s.braidOf? part slot = some b)
  (hx : b.queues.find? (fun y => y.num == q) = some x)
include hb hx

/-- The TO stage may gain a ply. -/
def State.mayRise (s : State) (part : Nat) (b : Braid) (x : StageQueue) (d : StageDesc) : Bool :=
  decide ((b.resident x.dst).length < d.maxPly) && (s.chooseCoil part b.fuse d.pairs).isSome && !b.ended.contains x.dst && !b.queueEnded x

omit hb hx in
theorem mayRise_iff {d : StageDesc} : s.mayRise part b x d = true ↔ (b.resident x.dst).length < d.maxPly
    ∧ (s.chooseCoil part b.fuse d.pairs).isSome = true ∧ b.ended.contains x.dst = false ∧ b.queueEnded x = false := by
  simp only [State.mayRise, Bool.and_eq_true, decide_eq_true_eq, Bool.not_eq_true', and_assoc]

theorem rebalanceRise_does {d : StageDesc} (hnoted : b.crossed.contains (0, q) = true) (hd : b.stages[x.dst]? = some d) :
    ∃ (u : State) (z : Braid), exec (.rebalanceRise part slot q) s = .next u ∧ u.me = s.me ∧ u.others = s.others
      ∧ u.braidOf? part slot = some z ∧ b.counts q z 0 x.dst (s.mayRise part b x d)
      ∧ z.plies = if s.mayRise part b x d then b.plies ++ [{ stage := x.dst, id := look b.nextPly x.dst 0 }] else b.plies := by
  have hhandled := braidOf?_updBraid hb (Braid.handled 0 q)
  rw [exec_rebalanceRise, execRebalanceRise, rebalance_noted hb hnoted hx]
  simp only [hd, updBraid_chooseCoil]
  by_cases h : s.mayRise part b x d = true
  · rw [if_pos (mayRise_iff.1 h), h]
    refine ⟨_, _, rfl, by simp, by simp, braidOf?_updBraid (braidOf?_updBraid hhandled _) _, countAction_counts _ rfl rfl, rfl⟩
  · rw [if_neg (fun hmay => h (mayRise_iff.2 hmay)), Bool.eq_false_iff.2 h]
    exact ⟨_, _, rfl, updBraid_me .., updBraid_others .., hhandled, handled_counts .., rfl⟩

/-! ### FULL -/

/-- A strand of a stage. -/
def Strand.ofStage (t : Strand) (part slot st : Nat) : Bool := t.part == part && t.braid == slot && t.stage == st

/-- Every strand of a stage has a grant of one slice. -/
def State.leastGrants (s : State) (part slot st : Nat) : Bool := (s.everyStrand.filter (fun y => y.ofStage part slot st)).all (fun y => y.pend == 1)

/-- The resident strands of a stage have been changed. -/
def State.stageChanged (s : State) (part slot st : Nat) (u : State) (f : Strand → Strand) : Prop :=
  u.me = (if s.me.live && s.me.ofStage part slot st then f s.me else s.me)
    ∧ u.others = s.others.map (fun y => if y.live && y.ofStage part slot st then f y else y)

omit hb hx in
theorem stageChanged_of_mapEvery {w u : State} {st : Nat} {f : Strand → Strand} (hwme : w.me = s.me) (hwothers : w.others = s.others)
    (hme : u.me = (w.mapEvery (fun y => y.ofStage part slot st) f).me) (hothers : u.others = (w.mapEvery (fun y => y.ofStage part slot st) f).others) :
    s.stageChanged part slot st u f := by
  refine ⟨hme.trans ?_, hothers.trans ?_⟩
  · rw [← hwme]
    rfl
  · rw [← hwothers]
    rfl

/-- FULL where no grant can be lowered: a ply is parked, if one can be. -/
theorem rebalanceFull_parks (hnoted : b.crossed.contains (1, q) = true) (hleast : s.leastGrants part slot x.src = true) :
    ∃ (u : State) (z : Braid), exec (.rebalanceFull part slot q) s = .next u ∧ u.braidOf? part slot = some z
      ∧ b.counts q z 1 x.src (b.parkable x.src (s.plyAway part slot)).isSome ∧ u.me = s.me ∧ u.others = s.others
      ∧ z.plies = b.plies.map (fun p => if (b.parkable x.src (s.plyAway part slot)).any (fun y => p.stage == x.src && p.id == y.id)
          then { p with parked := true } else p) := by
  have hhandled := braidOf?_updBraid hb (Braid.handled 1 q)
  rw [exec_rebalanceFull, execRebalanceFull, rebalance_noted hb hnoted hx]
  simp only [updBraid_everyStrand, updBraid_plyAway]
  simp only [State.leastGrants, Strand.ofStage] at hleast
  rw [if_pos hleast]
  cases b.parkable x.src (s.plyAway part slot) with
  | none =>
    refine ⟨_, _, rfl, hhandled, handled_counts .., updBraid_me .., updBraid_others .., ?_⟩
    exact (List.map_id' b.plies).symm
  | some y => exact ⟨_, _, rfl, braidOf?_updBraid (braidOf?_updBraid hhandled _) _, countAction_counts _ rfl rfl, by simp, by simp, rfl⟩

/-- FULL where the function's policy does not permit lane reclaim (R402). -/
theorem rebalanceFull_refused (hnoted : b.crossed.contains (1, q) = true) (hleast : s.leastGrants part slot x.src = false)
    (hpermits : s.permits b.vf 0 = false) :
    ∃ (u : State) (z : Braid), exec (.rebalanceFull part slot q) s = .next u ∧ u.braidOf? part slot = some z
      ∧ b.counts q z 1 x.src false ∧ u.me = s.me ∧ u.others = s.others ∧ z.plies = b.plies ∧ z.lowered = b.lowered := by
  have hhandled := braidOf?_updBraid hb (Braid.handled 1 q)
  rw [exec_rebalanceFull, execRebalanceFull, rebalance_noted hb hnoted hx]
  simp only [updBraid_everyStrand, updBraid_permits, hpermits]
  simp only [State.leastGrants, Strand.ofStage] at hleast
  rw [if_neg (Bool.eq_false_iff.1 hleast)]
  exact ⟨_, _, rfl, hhandled, handled_counts .., updBraid_me .., updBraid_others .., rfl, rfl⟩

/-- FULL halves the grants of the stage. -/
theorem rebalanceFull_lowers (hnoted : b.crossed.contains (1, q) = true) (hleast : s.leastGrants part slot x.src = false)
    (hpermits : s.permits b.vf 0 = true) :
    ∃ (u : State) (z : Braid), exec (.rebalanceFull part slot q) s = .next u ∧ u.braidOf? part slot = some z
      ∧ b.counts q z 1 x.src true ∧ s.stageChanged part slot x.src u (fun y => { y with pend := Nat.max 1 (y.pend / 2) })
      ∧ z.plies = b.plies ∧ x.src ∈ z.lowered := by
  have hhandled := braidOf?_updBraid hb (Braid.handled 1 q)
  rw [exec_rebalanceFull, execRebalanceFull, rebalance_noted hb hnoted hx]
  simp only [updBraid_everyStrand, updBraid_permits, hpermits]
  simp only [State.leastGrants, Strand.ofStage] at hleast
  rw [if_neg (Bool.eq_false_iff.1 hleast), if_neg (by decide)]
  refine ⟨_, _, rfl, braidOf?_updBraid (braidOf?_updBraid (s := State.mapEvery _ _ _) hhandled _) _, countAction_counts _ rfl rfl, ?_, rfl, ?_⟩
  · exact stageChanged_of_mapEvery (updBraid_me ..) (updBraid_others ..) ((updBraid_me ..).trans (updBraid_me ..))
      ((updBraid_others ..).trans (updBraid_others ..))
  · show x.src ∈ if b.lowered.contains x.src then b.lowered else b.lowered ++ [x.src]
    split
    · exact List.contains_iff_mem.1 ‹_›
    · exact List.mem_append_right _ (List.mem_singleton_self _)

/-! ### DRAIN -/

omit hb hx in
theorem setParked_plies (b : Braid) (st : Nat) : (b.setParked (fun p => p.stage == st) false).plies
    = b.plies.map (fun p => if p.stage = st then { p with parked := false } else p) := by
  simp only [Braid.setParked, beq_iff_eq]

omit hb hx in
/-- A stage with no parked ply has none to go on. -/
theorem unpark_none {b : Braid} {st : Nat} (h : b.plies.any (fun p => p.stage == st && p.parked) = false) :
    b.plies.map (fun p => if p.stage = st then { p with parked := false } else p) = b.plies := by
  refine (List.map_congr_left (fun p hp => ?_)).trans (List.map_id' b.plies)
  split
  · have hparked : p.parked = false := by simpa [*] using List.any_eq_false.1 h p hp
    rw [← hparked]
  · rfl

theorem rebalanceDrain_does (hnoted : b.crossed.contains (2, q) = true) :
    ∃ (u : State) (z : Braid), exec (.rebalanceDrain part slot q) s = .next u ∧ u.braidOf? part slot = some z
      ∧ b.counts q z 2 x.src (b.lowered.contains x.src || b.plies.any (fun p => p.stage == x.src && p.parked))
      ∧ (b.lowered.contains x.src = true → s.stageChanged part slot x.src u (fun y => { y with pend := 8 }))
      ∧ (b.lowered.contains x.src = false → u.me = s.me ∧ u.others = s.others)
      ∧ z.plies = b.plies.map (fun p => if p.stage = x.src then { p with parked := false } else p) := by
  have hhandled := braidOf?_updBraid hb (Braid.handled 2 q)
  rw [exec_rebalanceDrain, execRebalanceDrain, rebalance_noted hb hnoted hx]
  dsimp only
  cases hlowered : b.lowered.contains x.src with
  | true =>
    rw [if_pos (.inl rfl), if_pos rfl]
    refine ⟨_, _, rfl, braidOf?_updBraid (braidOf?_updBraid (s := State.mapEvery _ _ _) hhandled _) _, countAction_counts _ rfl rfl, fun _ => ?_,
      nofun, setParked_plies b x.src⟩
    exact stageChanged_of_mapEvery (updBraid_me ..) (updBraid_others ..) ((updBraid_me ..).trans (updBraid_me ..))
      ((updBraid_others ..).trans (updBraid_others ..))
  | false =>
    cases hparked : b.plies.any (fun p => p.stage == x.src && p.parked) with
    | true =>
      rw [if_pos (.inr rfl), if_neg Bool.false_ne_true]
      exact ⟨_, _, rfl, braidOf?_updBraid (braidOf?_updBraid hhandled _) _, countAction_counts _ rfl rfl, nofun, fun _ => ⟨by simp, by simp⟩,
        setParked_plies b x.src⟩
    | false =>
      rw [if_neg (by simp)]
      exact ⟨_, _, rfl, hhandled, handled_counts .., nofun, fun _ => ⟨updBraid_me .., updBraid_others ..⟩, (unpark_none hparked).symm⟩

end

end Sys2Proof.Machine
end

section
/-!
PROOFS. The placement of a ply (R363), and the fusion of an empty coil (R129).
-/
namespace Sys2Proof.Machine

/-! ### The strands of a ply -/

/-- A strand as a ply's pair starts it, at a core and pair of a core: pair i of the ply, and a role. -/
def Strand.startsAs (b : Braid) (d : StageDesc) (ply : Ply) (i role : Nat) (x : Nat × Nat) (y : Strand) : Prop :=
  y.live = true ∧ y.core = x.1 ∧ y.ctx = 2 * x.2 + role ∧ y.role = role ∧ y.strandId = 2 * i + role ∧ y.plyId = ply.id ∧ y.vf = b.vf
    ∧ y.stage = ply.stage ∧ y.pm = false ∧ y.image = b.image ∧ y.pc = b.image + BitVec.ofNat 64 (if role = 0 then d.accEnt else d.exeEnt)

theorem startsAs_of_bare {b : Braid} {d : StageDesc} {ply : Ply} {i role : Nat} {x : Nat × Nat} {y z : Strand} (h : z.bare = y.bare)
    (hy : y.startsAs b d ply i role x) : z.startsAs b d ply i role x := by
  have hbare : z.bare.startsAs b d ply i role x := by
    rw [h]
    exact hy
  exact hbare

section
variable (part slot : Nat) (b : Braid) (d : StageDesc) (ply : Ply)

/-- Strands of a ply's pair. -/
def StageDesc.perPair (d : StageDesc) : Nat := if d.exeOnly then 1 else 2

/-- The strands that a ply's pair starts. -/
def State.newPair (s : State) (i : Nat) (x : Nat × Nat) : List Strand :=
  (if d.exeOnly then [] else [s.newStrand part slot b d ply i 0 x.1 x.2]) ++ [s.newStrand part slot b d ply i 1 x.1 x.2]

theorem newPair_length (s : State) (i : Nat) (x : Nat × Nat) : (s.newPair part slot b d ply i x).length = d.perPair := by
  unfold State.newPair StageDesc.perPair
  cases d.exeOnly <;> rfl

theorem newStrand_startsAs (s : State) (i role : Nat) (x : Nat × Nat) : (s.newStrand part slot b d ply i role x.1 x.2).startsAs b d ply i role x :=
  ⟨rfl, rfl, rfl, rfl, rfl, rfl, rfl, rfl, rfl, rfl, rfl⟩

theorem newPair_starts (s : State) (i : Nat) (x : Nat × Nat) {role : Nat} (hrole : role ≤ 1) (hacc : role = 1 ∨ d.exeOnly = false) :
    ∃ y, y ∈ s.newPair part slot b d ply i x ∧ y.startsAs b d ply i role x := by
  refine ⟨_, ?_, newStrand_startsAs part slot b d ply s i role x⟩
  rcases Nat.le_one_iff_eq_zero_or_eq_one.1 hrole with rfl | rfl
  · have hexe : d.exeOnly = false := hacc.resolve_left (by decide)
    simp [State.newPair, hexe]
  · exact List.mem_append_right _ (List.mem_singleton_self _)

/-- A pair is placed: its strands stand beside those there were. -/
theorem placePair_outline (s : State) (i : Nat) (x : Nat × Nat) : (s.placePair part slot b d ply i x).outline
    = ({ s with others := s.others ++ (s.setPair (4 * x.1 + x.2) { qcfg := if d.exeOnly then 0x93 else 0 }).newPair part slot b d ply i x
        } : State).outline := by
  unfold State.placePair
  dsimp only
  rw [refreshTlb_outline]
  refine (outline_foldl _ (fun u (c : Nat) => updCore_outline u c Core.dropClean (fun _ => rfl)) _ _).trans ?_
  rw [List.append_assoc]
  rfl

/-- What placing pairs of a ply, from pair `o` on, makes of a state. -/
structure State.placed (s : State) (o : Nat) (l : List (Nat × Nat)) (u : State) : Prop where
  me : u.me.bare = s.me.bare
  count : u.others.length = s.others.length + l.length * d.perPair
  stay : ∀ y, y ∈ s.others → ∃ z, z ∈ u.others ∧ z.bare = y.bare
  start : ∀ i x, l[i]? = some x → ∀ role, role ≤ 1 → (role = 1 ∨ d.exeOnly = false) → ∃ y, y ∈ u.others ∧ y.startsAs b d ply (o + i) role x

theorem placePairs_placed (l : List (Nat × Nat)) : ∀ (o : Nat) (s : State),
    s.placed b d ply o l ((l.zipIdx o).foldl (fun s x => s.placePair part slot b d ply x.2 x.1) s) := by
  induction l with
  | nil => exact fun o s => ⟨rfl, by simp, fun y hy => ⟨y, hy, rfl⟩, fun i x h => by simp at h⟩
  | cons p l ih =>
    intro o s
    rw [List.zipIdx_cons, List.foldl_cons]
    have hpair := placePair_outline part slot b d ply s o p
    generalize (s.setPair (4 * p.1 + p.2) { qcfg := if d.exeOnly then 0x93 else 0 }) = w at hpair
    obtain ⟨hme, hcount, hstay, hstart⟩ := ih (o + 1) (s.placePair part slot b d ply o p)
    have hothers := outline_others hpair
    refine ⟨hme.trans (congrArg Outline.me hpair), ?_, fun y hy => ?_, fun i x hx role hrole hacc => ?_⟩
    · have hlen := congrArg List.length hothers
      simp only [List.length_map, List.length_append, newPair_length] at hlen
      rw [hcount, hlen, List.length_cons, Nat.succ_mul]
      omega
    · obtain ⟨z, hz, hzy⟩ := exists_of_bare_eq hothers (List.mem_append_left _ hy)
      obtain ⟨v, hv, hvz⟩ := hstay z hz
      exact ⟨v, hv, hvz.trans (bare_eq_iff.2 hzy)⟩
    · cases i with
      | zero =>
        rw [List.getElem?_cons_zero] at hx
        obtain rfl := Option.some.inj hx
        obtain ⟨y, hy, hstarts⟩ := newPair_starts part slot b d ply w o p hrole hacc
        obtain ⟨z, hz, hzy⟩ := exists_of_bare_eq hothers (List.mem_append_right _ hy)
        obtain ⟨v, hv, hvz⟩ := hstay z hz
        exact ⟨v, hv, startsAs_of_bare (hvz.trans (bare_eq_iff.2 hzy)) hstarts⟩
      | succ i =>
        rw [List.getElem?_cons_succ] at hx
        obtain ⟨y, hy, hstarts⟩ := hstart i x hx role hrole hacc
        exact ⟨y, hy, by rwa [show o + 1 + i = o + (i + 1) by omega] at hstarts⟩

end

/-! ### The step -/

/-- What the dispatcher does by itself before it places a ply. -/
def State.refilled (s : State) (part : Nat) : State :=
  s.updPart part (fun p => { p with braids := p.braids.map (fun b => (b.1, b.2.refill)) })

/-- The ply to place first. -/
def State.plyToPlace (s : State) (part : Nat) : Option (Nat × Braid × Ply) :=
  (s.part part).nextPly? (fun v => match s.vf? v with
    | some x => x.st == .resident
    | none => false)

theorem plyPlacement_none {s : State} {part : Nat} {at_ : List (Nat × Nat)} (h : (s.refilled part).plyToPlace part = none) :
    exec (.plyPlacement part at_) s = .next (s.refilled part) := by
  rw [exec_plyPlacement, execPlyPlacement]
  unfold State.placePly
  dsimp only
  split
  · rfl
  · rename_i heq
    cases h.symm.trans heq

theorem plyPlacement_places {s : State} {part slot coil : Nat} {b : Braid} {ply : Ply} {d : StageDesc} {at_ : List (Nat × Nat)}
    (h : (s.refilled part).plyToPlace part = some (slot, b, ply)) (hd : b.stages[ply.stage]? = some d)
    (hcoil : (s.refilled part).chooseCoil part b.fuse d.pairs = some coil) (hgood : (s.refilled part).goodPairs coil d.pairs at_ = true) :
    ∃ u : State, exec (.plyPlacement part at_) s = .next u ∧ u.me.regs = s.me.regs
      ∧ u.others.length = s.others.length + (if d.exeOnly then d.pairs else 2 * d.pairs)
      ∧ ∀ i x, at_[i]? = some x → ∀ role, role ≤ 1 → (role = 1 ∨ d.exeOnly = false) → ∃ y, y ∈ u.others ∧ y.startsAs b d ply i role x := by
  have hlen : at_.length = d.pairs := by
    simp only [State.goodPairs, Bool.and_eq_true, beq_iff_eq] at hgood
    exact hgood.1.1
  have hstep : ∃ f, exec (.plyPlacement part at_) s = .next ((at_.zipIdx.foldl (fun s x => s.placePair part slot b d ply x.2 x.1)
      ((s.refilled part).setFusion coil b.fuse)).updBraid part slot f) := by
    rw [exec_plyPlacement, execPlyPlacement]
    unfold State.placePly
    dsimp only
    split
    · rename_i heq
      cases h.symm.trans heq
    · rename_i heq
      cases h.symm.trans heq
      rw [hd]
      dsimp only
      rw [show (s.updPart part _).chooseCoil part b.fuse d.pairs = some coil from hcoil]
      exact ⟨_, congrArg Host.Outcome.next (if_pos hgood)⟩
  obtain ⟨f, hstep⟩ := hstep
  obtain ⟨hme, hcount, -, hstart⟩ := placePairs_placed part slot b d ply at_ 0 ((s.refilled part).setFusion coil b.fuse)
  have hfusion := setFusion_outline (s.refilled part) coil b.fuse
  refine ⟨_, hstep, ?_, ?_, ?_⟩
  · rw [updBraid_me]
    exact (congrArg Strand.regs hme).trans ((outline_regs hfusion).trans rfl)
  · have hothers := congrArg List.length (outline_others hfusion)
    rw [List.length_map, List.length_map] at hothers
    rw [updBraid_others, hcount, hothers, hlen, StageDesc.perPair]
    cases d.exeOnly
    · exact congrArg (s.others.length + ·) (Nat.mul_comm ..)
    · exact congrArg (s.others.length + ·) (Nat.mul_one _)
  · rw [updBraid_others]
    intro i x hx role hrole hacc
    obtain ⟨y, hy, hstarts⟩ := hstart i x hx role hrole hacc
    exact ⟨y, hy, by rwa [Nat.zero_add] at hstarts⟩

/-! ### Fusion (R129) -/

theorem setFusion_coil {s : State} {coil : Nat} {fuse : Bool} (hempty : s.coilBusy coil = false) (hchange : (s.coil coil).fused ≠ fuse) :
    ((s.setFusion coil fuse).coil coil).fused = fuse := by
  unfold State.setFusion
  rw [if_neg (by simp [hempty, hchange])]
  dsimp only [State.coil]
  rw [upd, look_put_same]

theorem coilFusionChange_stays {s : State} {coil : Nat} {fuse : Bool} (h : s.coilBusy coil = true ∨ (s.coil coil).fused = fuse) :
    exec (.coilFusionChange coil fuse) s = .next s := by
  rw [exec_coilFusionChange, execCoilFusionChange, State.setFusion, if_pos h]

end Sys2Proof.Machine
end

section
/-!
PROOFS. Plies that move with their coil to an empty one (R398).
-/
namespace Sys2Proof.Machine

/-! ### The coil that is chosen (R363) -/

/-- A coil's forecast, the number deciding among equals. -/
def State.heat (s : State) (c : Nat) : Nat ×ₗ Nat := toLex ((s.coil c).temp.toNat, c)

theorem heat_lt {s : State} {c k : Nat} : s.heat c < s.heat k ↔ (s.coil c).temp.toNat < (s.coil k).temp.toNat
    ∨ ((s.coil c).temp.toNat = (s.coil k).temp.toNat ∧ c < k) := Prod.Lex.toLex_lt_toLex

theorem heat_le {s : State} {c k : Nat} (h : s.heat c ≤ s.heat k) : (s.coil c).temp.toNat < (s.coil k).temp.toNat
    ∨ ((s.coil c).temp = (s.coil k).temp ∧ c ≤ k) :=
  (Prod.Lex.toLex_le_toLex.1 h).imp_right (fun h => ⟨BitVec.eq_of_toNat_eq h.1, h.2⟩)

/-- The coils of some to choose from: those whose forecast is not over the limit, if there are any. -/
def State.coolPool (s : State) (all : List Nat) : List Nat :=
  if (all.filter (fun c => !(s.coil c).overLimit)).isEmpty then all else all.filter (fun c => !(s.coil c).overLimit)

theorem coolest_eq (s : State) (all : List Nat) : s.coolest all = (s.coolPool all).foldl (keepLeast s.heat) none := by
  unfold State.coolest
  dsimp only
  congr 1
  funext best c
  cases best with
  | none => rfl
  | some b => exact if_congr heat_lt.symm rfl rfl

theorem mem_of_coolPool {s : State} {all : List Nat} {c : Nat} (h : c ∈ s.coolPool all) : c ∈ all := by
  unfold State.coolPool at h
  split at h
  · exact h
  · exact List.mem_of_mem_filter h

/-- A coil over the limit is in the pool only where all are. -/
theorem coolPool_over {s : State} {all : List Nat} {c k : Nat} (h : c ∈ s.coolPool all) (hc : (s.coil c).overLimit = true) (hk : k ∈ all) :
    (s.coil k).overLimit = true := by
  unfold State.coolPool at h
  split at h
  · rename_i hempty
    have hnone := List.filter_eq_nil_iff.1 (List.isEmpty_iff.1 hempty) k hk
    simpa using hnone
  · simp [hc] at h

/-- The pool holds every coil that stands to the limit as one of its own. -/
theorem coolPool_same {s : State} {all : List Nat} {c k : Nat} (h : c ∈ s.coolPool all) (hk : k ∈ all)
    (hsame : (s.coil c).overLimit = (s.coil k).overLimit) : k ∈ s.coolPool all := by
  unfold State.coolPool at h ⊢
  split
  · exact hk
  · rename_i hsome
    rw [if_neg hsome] at h
    have hcool := (List.mem_filter.1 h).2
    rw [hsame] at hcool
    exact List.mem_filter.2 ⟨hk, hcool⟩

/-- The coil chosen of some: over the limit only where all are, then of the lowest forecast, then of the lowest number. -/
theorem coolest_least {s : State} {all : List Nat} {c : Nat} (h : s.coolest all = some c) : c ∈ all ∧ ∀ k, k ∈ all →
    ((s.coil c).overLimit = true → (s.coil k).overLimit = true)
    ∧ ((s.coil c).overLimit = (s.coil k).overLimit → (s.coil c).temp.toNat < (s.coil k).temp.toNat
        ∨ ((s.coil c).temp = (s.coil k).temp ∧ c ≤ k)) := by
  rw [coolest_eq] at h
  obtain ⟨hmem, hleast⟩ := keepLeast_least s.heat h
  exact ⟨mem_of_coolPool hmem, fun k hk => ⟨fun hover => coolPool_over hmem hover hk, fun hsame => heat_le (hleast k (coolPool_same hmem hk hsame))⟩⟩

theorem chooseEmpty_least {s : State} {part c : Nat} (h : s.chooseEmpty part = some c) : c ∈ (s.part part).coils ∧ s.coilEmpty c = true
    ∧ ∀ k, k ∈ (s.part part).coils → s.coilEmpty k = true → ((s.coil c).overLimit = true → (s.coil k).overLimit = true)
      ∧ ((s.coil c).overLimit = (s.coil k).overLimit → (s.coil c).temp.toNat < (s.coil k).temp.toNat
          ∨ ((s.coil c).temp = (s.coil k).temp ∧ c ≤ k)) := by
  obtain ⟨hmem, hleast⟩ := coolest_least h
  obtain ⟨hcoil, hempty⟩ := List.mem_filter.1 hmem
  exact ⟨hcoil, hempty, fun k hk hkempty => hleast k (List.mem_filter.2 ⟨hk, hkempty⟩)⟩

/-! ### What stands on a coil -/

theorem coilBusy_iff {s : State} {c : Nat} : s.coilBusy c = true ↔ ∃ x, x ∈ s.places ∧ coilOf x.1.1 = c := by
  simp only [State.coilBusy, List.any_eq_true, beq_iff_eq]
  constructor
  · exact fun ⟨y, hy, hc⟩ => ⟨y.place, mem_places.2 ⟨y, hy, rfl⟩, hc⟩
  · rintro ⟨x, hx, hc⟩
    obtain ⟨y, hy, rfl⟩ := mem_places.1 hx
    exact ⟨y, hy, hc⟩

theorem not_busy_of_empty {s : State} {c : Nat} (h : s.coilEmpty c = true) : s.coilBusy c = false := by
  simp only [State.coilEmpty, Bool.and_eq_true, Bool.not_eq_true'] at h
  exact h.1

theorem moveTo_core (t : Strand) (dst : Nat) : coilOf (t.moveTo dst).core = dst := by
  show (8 * dst + t.core % 8) / 8 = dst
  omega

/-! ### The move -/

/-- A state whose strands of a coil are squashed, their commands given back, its L1s and those of the coil they go to flushed, and
that one's fusion made the same. -/
def State.readyToMove (s : State) (src dst : Nat) : State :=
  let squashed := (s.strands.filter (fun t => coilOf t.core == src)).foldl (fun s t => s.squash t.core t.ctx) s
  let given := (List.range 8).foldl (fun s i => s.pendingToReplay (8 * src + i) (s.strands.filter (fun t => t.core == 8 * src + i))) squashed
  let left := (List.range 8).foldl (fun s i => s.leaveGroup (8 * src + i) 0) given
  let flushed := (coilCores src ++ coilCores dst).foldl State.flushL1 left
  flushed.setFusion dst (flushed.coil src).fused

theorem readyToMove_keepsPlaces (s : State) (src dst : Nat) : s.keepsPlaces (s.readyToMove src dst) := by
  refine (State.keepsPlaces.foldl _ (fun s (t : Strand) => squash_keepsPlaces s t.core t.ctx)
    (s.strands.filter (fun t => coilOf t.core == src)) s).trans (.of_outline ?_)
  refine (setFusion_outline ..).trans ((outline_foldl _ flushL1_outline _ _).trans ?_)
  refine (outline_foldl _ (fun s (i : Nat) => leaveGroup_outline s (8 * src + i) 0) _ _).trans ?_
  exact outline_foldl _ (fun s (i : Nat) => pendingToReplay_outline s (8 * src + i) _) _ _

/-- What a core's move leaves: the strands' places, and the partitions' coils. -/
theorem moveCore_keeps (s : State) (src dst i : Nat) : ((s.moveCore src dst i).places, (s.moveCore src dst i).coilsOf) = (s.places, s.coilsOf) := by
  have hstores : ((s.putStore (8 * dst + i) (s.storeBytes (8 * src + i)) (s.storeTags (8 * src + i))).zeroStore (8 * src + i)).outline = s.outline :=
    (zeroStore_outline ..).trans (putStore_outline ..)
  unfold State.moveCore
  dsimp only
  generalize (s.putStore (8 * dst + i) (s.storeBytes (8 * src + i)) (s.storeTags (8 * src + i))).zeroStore (8 * src + i) = v at hstores
  have hplaces := outline_places hstores
  have hcoils := outline_coils hstores
  exact Prod.ext hplaces hcoils

/-- A state whose cores of a coil are moved to another. -/
def State.coresMoved (s : State) (src dst : Nat) : State :=
  let moved := (List.range 8).foldl (fun s i => s.moveCore src dst i) s
  let away := moved.pairs.filter (fun q => q.1 / 32 == src)
  let stay := moved.pairs.filter (fun q => !(q.1 / 32 == src))
  { moved with pairs := away.foldl (fun (l : List (Nat × Pair)) q => put l (q.1 - 32 * src + 32 * dst) q.2) stay }

theorem coresMoved_keeps (s : State) (src dst : Nat) : (s.coresMoved src dst).places = s.places ∧ (s.coresMoved src dst).coilsOf = s.coilsOf := by
  have hmoved := foldl_keeps (fun s => (s.places, s.coilsOf)) (fun (s : State) i => s.moveCore src dst i)
    (fun s i => moveCore_keeps s src dst i) (List.range 8) s
  unfold State.coresMoved
  dsimp only
  generalize (List.range 8).foldl (fun (s : State) i => s.moveCore src dst i) s = v at hmoved
  obtain ⟨hplaces, hcoils⟩ := Prod.mk.inj hmoved
  exact ⟨hplaces, hcoils⟩

/-- A state whose strands have moved, and whose translations and commands there are brought up to date. -/
def State.strandsMoved (s : State) (src dst : Nat) : State :=
  let there := s.mapStrands (fun t => coilOf t.core == src) (fun t => t.moveTo dst)
  let fresh := (there.strands.filter (fun t => coilOf t.core == dst)).foldl (fun s t => s.refreshTlb t.core t.vf) there
  fresh.replayMoved dst

theorem replayMoved_outline (s : State) (dst : Nat) : (s.replayMoved dst).outline = s.outline := by
  unfold State.replayMoved
  dsimp only
  refine (replayAll_outline ..).trans ?_
  refine outline_foldl _ (fun u (i : Nat) => ?_) _ _
  exact updCore_outline u (8 * dst + i) _ (fun _ => rfl)

theorem strandsMoved_outline (s : State) (src dst : Nat) :
    (s.strandsMoved src dst).outline = (s.mapStrands (fun t => coilOf t.core == src) (fun t => t.moveTo dst)).outline :=
  (replayMoved_outline ..).trans (outline_foldl _ (fun u (t : Strand) => refreshTlb_outline u t.core t.vf) _ _)

theorem strandsMoved_coilsOf (s : State) (src dst : Nat) : (s.strandsMoved src dst).coilsOf = s.coilsOf :=
  (outline_coils (strandsMoved_outline s src dst)).trans (coilsOf_congr rfl)

/-- No strand stays on the coil, where the other coil is another if one stood there. -/
theorem strandsMoved_away {s : State} {src dst : Nat} (h : s.coilBusy src = true → dst ≠ src) : (s.strandsMoved src dst).coilBusy src = false := by
  by_contra hbusy
  obtain ⟨x, hx, hon⟩ := coilBusy_iff.1 (by simpa using hbusy)
  rw [outline_places (strandsMoved_outline s src dst), State.places, mapStrands_strands s _ _ (by exact fun _ => rfl), List.map_map] at hx
  obtain ⟨y, hy, rfl⟩ := List.mem_map.1 hx
  by_cases hsrc : coilOf y.core = src
  · have hbusy : s.coilBusy src = true := List.any_eq_true.2 ⟨y, hy, beq_iff_eq.2 hsrc⟩
    simp only [Function.comp_apply, hsrc, beq_self_eq_true, if_true] at hon
    exact h hbusy ((moveTo_core y dst).symm.trans hon)
  · simp only [Function.comp_apply, beq_iff_eq, if_neg hsrc] at hon
    exact hsrc hon

section
variable {s : State} {part src dst : Nat}

theorem replacePlies_eq (hparked : (s.part part).parkedCoils.contains src = true) (hdst : s.chooseEmpty part = some dst)
    (hwaits : s.swapWaits (fun y => coilOf y.core == src) = false) : s.replacePlies part src dst
      = { (((s.readyToMove src dst).coresMoved src dst).strandsMoved src dst).updPart part
            (fun p => { p with parkedCoils := p.parkedCoils.erase src }) with waiting := false } := by
  unfold State.replacePlies
  exact if_pos ⟨hparked, hdst, hwaits⟩

theorem plyReplace_moves (hparked : (s.part part).parkedCoils.contains src = true) (hdst : s.chooseEmpty part = some dst)
    (hwaits : s.swapWaits (fun y => coilOf y.core == src) = false) : ∃ u : State, exec (.plyReplace part src dst) s = .next u
      ∧ (∀ y, y ∈ u.strands → coilOf y.core ≠ src) ∧ (u.part part).parkedCoils = (s.part part).parkedCoils.erase src := by
  have hready := readyToMove_keepsPlaces s src dst
  obtain ⟨hplaces, hcoils⟩ := coresMoved_keeps (s.readyToMove src dst) src dst
  have hapart : ((s.readyToMove src dst).coresMoved src dst).coilBusy src = true → dst ≠ src := fun hbusy heq => by
    obtain ⟨x, hx, hon⟩ := coilBusy_iff.1 hbusy
    rw [hplaces] at hx
    have hsrc : s.coilBusy src = true := coilBusy_iff.2 ⟨x, hready.within hx, hon⟩
    have hfree := not_busy_of_empty (chooseEmpty_least hdst).2.1
    rw [heq, hsrc] at hfree
    cases hfree
  have hgone := strandsMoved_away hapart
  have hstay : (((s.readyToMove src dst).coresMoved src dst).strandsMoved src dst).coilsOf = s.coilsOf := by
    rw [strandsMoved_coilsOf, hcoils, hready.coils]
  have hmoved := replacePlies_eq hparked hdst hwaits
  generalize ((s.readyToMove src dst).coresMoved src dst).strandsMoved src dst = v at hgone hstay hmoved
  refine ⟨_, congrArg Host.Outcome.next hmoved, fun y hy hon => ?_, ?_⟩
  · exact Bool.eq_false_iff.1 hgone (List.any_eq_true.2 ⟨y, hy, beq_iff_eq.2 hon⟩)
  · dsimp only [State.part, updPart_parts, upd]
    rw [look_put_same]
    exact congrArg (fun p => List.erase p.2 src) (congrFun hstay part)

theorem plyReplace_stays (h : ¬((s.part part).parkedCoils.contains src = true ∧ s.chooseEmpty part = some dst
    ∧ s.swapWaits (fun y => coilOf y.core == src) = false)) : exec (.plyReplace part src dst) s = .next s := by
  rw [exec_plyReplace, execPlyReplace]
  unfold State.replacePlies
  exact congrArg Host.Outcome.next (if_neg h)

end

end Sys2Proof.Machine
end

section
/-!
PROOFS. The Dispatcher's and the Anchor's steps on strands, plies, stages and braids (O57).
-/
namespace Sys2Proof.Machine

theorem stageEnd_does {s : State} {part slot : Nat} {b : Braid} (h : s.braidOf? part slot = some b) (st : Nat) :
    ∃ u : State, exec (.stageEnd part slot st) s = .next u ∧ u.braidOf? part slot = some (b.endStage st) ∧ u.me = s.me ∧ u.mem = s.mem :=
  ⟨_, rfl, braidOf?_updBraid h _, updBraid_me .., updBraid_mem ..⟩

theorem rebalanceFull_does {s : State} {part slot q : Nat} {b : Braid} {x : StageQueue} (hb : s.braidOf? part slot = some b)
    (hx : b.queues.find? (fun y => y.num == q) = some x) (hnoted : b.crossed.contains (1, q) = true) :
    ∃ (u : State) (z : Braid), exec (.rebalanceFull part slot q) s = .next u ∧ u.braidOf? part slot = some z
      ∧ (s.leastGrants part slot x.src = true → b.counts q z 1 x.src (b.parkable x.src (s.plyAway part slot)).isSome
          ∧ u.me = s.me ∧ u.others = s.others
          ∧ z.plies = b.plies.map (fun p => if (b.parkable x.src (s.plyAway part slot)).any (fun y => p.stage == x.src && p.id == y.id)
              then { p with parked := true } else p))
      ∧ (s.leastGrants part slot x.src = false → s.permits b.vf 0 = false → b.counts q z 1 x.src false
          ∧ u.me = s.me ∧ u.others = s.others ∧ z.plies = b.plies ∧ z.lowered = b.lowered)
      ∧ (s.leastGrants part slot x.src = false → s.permits b.vf 0 = true → b.counts q z 1 x.src true
          ∧ s.stageChanged part slot x.src u (fun y => { y with pend := Nat.max 1 (y.pend / 2) }) ∧ z.plies = b.plies ∧ x.src ∈ z.lowered) := by
  cases hleast : s.leastGrants part slot x.src with
  | true =>
    obtain ⟨u, z, hu, hz, hdone⟩ := rebalanceFull_parks hb hx hnoted hleast
    exact ⟨u, z, hu, hz, fun _ => hdone, nofun, nofun⟩
  | false =>
    cases hpermits : s.permits b.vf 0 with
    | false =>
      obtain ⟨u, z, hu, hz, hdone⟩ := rebalanceFull_refused hb hx hnoted hleast hpermits
      exact ⟨u, z, hu, hz, nofun, fun _ _ => hdone, nofun⟩
    | true =>
      obtain ⟨u, z, hu, hz, hdone⟩ := rebalanceFull_lowers hb hx hnoted hleast hpermits
      exact ⟨u, z, hu, hz, nofun, nofun, fun _ _ => hdone⟩

/-- A squash that the Dispatcher may do, and one that it may not. -/
theorem queueSquash_does {s : State} {i : Instr × Bool}
    (hi : i ∈ [(Instr.queueSquash s.me.core s.me.ctx, false), (.sliceEnd s.me.core s.me.ctx, true)]) :
    exec i.1 s = .next (if s.mayQueueSquash s.me.core s.me.ctx i.2 then s.squash s.me.core s.me.ctx else s) := by
  simp only [List.mem_cons, List.not_mem_nil, or_false] at hi
  rcases hi with rfl | rfl <;> rfl

/-- Settles O57, step by step: the winner of a round is the least of its class; a squash, a swap, and a move of plies keep every strand at
its place until the strands named leave theirs; a braid's steps change its entry alone. -/
theorem placementAndScheduling : Obligations.PlacementAndScheduling := by
  unfold Obligations.PlacementAndScheduling
  refine ⟨?_, ?_, ?_, ?_, ?_, ?_, ?_⟩
  · intro s core vlsu hapart round rank
    obtain ⟨u, hu, hround, hnone, hwins⟩ := issueRound_does hapart core vlsu
    refine ⟨u, hu, hround, hnone, fun y hy => ?_⟩
    obtain ⟨-, hcand, hleast⟩ := roundWinner_least hy
    refine ⟨hcand, hwins y hy, fun x hx hxcand => ⟨(hleast x hx hxcand).1, fun hprio => ?_⟩⟩
    have hrecent := (hleast x hx hxcand).2 hprio
    simp only [Strand.recency] at hrecent
    show 8 * y.lastIssued vlsu + y.ctx ≤ 8 * x.lastIssued vlsu + x.ctx
    omega
  · intro s i hi
    rw [queueSquash_does hi]
    refine ⟨fun hmay => by rw [hmay]; rfl, fun hmay hlive hrun hissued => ?_⟩
    rw [hmay]
    exact ⟨_, rfl, squash_me hlive hrun hissued⟩
  · intro s part p cores may
    refine ⟨fun hmay => ?_, partitionContextSwap_does, ?_⟩
    · exact congrArg Host.Outcome.next (if_neg (Bool.eq_false_iff.1 hmay))
    · intro c v hc hsaved howner hback hcurrent hothers
      exact partitionContextRestore_does hc hsaved howner hback hcurrent hothers
  · intro s part slot b hb gives
    refine ⟨fun hready => ⟨_, braidStart_starts hb hready, braidOf?_updBraid hb _, updBraid_me .., updBraid_mem ..⟩, braidStart_waits hb,
      ⟨start_running b, fun st d => start_pliesOf b⟩, stageEnd_does hb, braidComplete_waits hb, braidComplete_ends hb,
      fun q => ⟨fun h => ?_, fun h => ?_, fun h => ?_⟩, fun q x hx => ⟨fun d => rebalanceRise_does hb hx, rebalanceFull_does hb hx,
      rebalanceDrain_does hb hx⟩, fun st ply n => ⟨barrierComplete_waits, barrierComplete_completes⟩⟩
    all_goals exact congrArg Host.Outcome.next (rebalance_unnoted hb h _)
  · exact fun s part at_ => ⟨plyPlacement_none, fun slot b ply d coil => plyPlacement_places⟩
  · exact fun s part src dst => ⟨fun c => chooseEmpty_least, plyReplace_stays, fun hmay => plyReplace_moves hmay.1 hmay.2.1 hmay.2.2⟩
  · exact fun s coil fuse => ⟨coilFusionChange_stays, fun hempty hchange =>
      ⟨_, rfl, setFusion_coil hempty hchange, outline_regs (setFusion_outline s coil fuse)⟩⟩

end Sys2Proof.Machine
end

section
/-!
PROOFS. Fences, releases, acquires and YIELD (R169, R171–R174, R351).
-/
namespace Sys2Proof.Machine

/-- Registers, rows, masks and flags stay. -/
def State.keepsData (s u : State) : Prop :=
  u.me.regs = s.me.regs ∧ u.me.rows = s.me.rows ∧ u.me.masks = s.me.masks ∧ u.me.fcsr = s.me.fcsr

theorem keepsData_refl (s : State) : s.keepsData s := ⟨rfl, rfl, rfl, rfl⟩

theorem keepsData_trans {s t u : State} (h : s.keepsData t) (k : t.keepsData u) : s.keepsData u := by
  obtain ⟨hregs, hrows, hmasks, hfcsr⟩ := h
  obtain ⟨kregs, krows, kmasks, kfcsr⟩ := k
  exact ⟨kregs.trans hregs, krows.trans hrows, kmasks.trans hmasks, kfcsr.trans hfcsr⟩

theorem takeToken_keepsData (s : State) (t : BitVec 2) : s.keepsData (s.takeToken t) := by simp [State.keepsData]

/-- What leaves the strand but for its links and its store queue leaves its data. -/
theorem keepsData_of_noStores {s u : State} (h : u.outline.noStores = s.outline.noStores) : s.keepsData u :=
  ⟨congrArg (fun o => o.me.regs) h, congrArg (fun o => o.me.rows) h, congrArg (fun o => o.me.masks) h, congrArg (fun o => o.me.fcsr) h⟩

theorem performAll_keepsData (s : State) : s.keepsData s.performAll := keepsData_of_noStores (performAll_noStores s)

/-! ### Write-back and self-invalidation (R133, R134) -/

@[simp] theorem release_outline (s : State) (scope : Nat) : (s.release scope).outline = s.outline := by
  unfold State.release
  dsimp only
  split
  · rfl
  · exact outline_foldl _ writeBackCore_outline _ s

@[simp] theorem acquire_outline (s : State) (scope : Nat) : (s.acquire scope).outline = s.outline := by
  have hdrop := outline_foldl (fun s c => s.updCore c Core.dropClean) (fun s c => updCore_outline s c _ fun _ => rfl)
    (s.levelCores s.me.core) s
  unfold State.acquire
  dsimp only
  split
  · rfl
  · split
    · exact (refreshTlb_outline ..).trans hdrop
    · exact hdrop

theorem release_keepsData (s : State) (scope : Nat) : s.keepsData (s.release scope) :=
  keepsData_of_noStores (congrArg Outline.noStores (release_outline s scope))

theorem acquire_keepsData (s : State) (scope : Nat) : s.keepsData (s.acquire scope) :=
  keepsData_of_noStores (congrArg Outline.noStores (acquire_outline s scope))

/-! ### The scope in effect (R169) -/

/-- The policy caps system scope: no function of the strand's number permits it. -/
def State.capsScope (s : State) : Prop := ∀ v, s.vfs.lookup s.me.vf = some v → v.policy.maxScope = false

/-- A capped use of system scope is counted. -/
def State.countScope (s : State) : State :=
  { s with me := { s.me with scopeCount := min (s.me.scopeCount + 1) 0xFFFFFFFF, scopeSticky := true } }

theorem countScope_keepsData (s : State) : s.keepsData s.countScope := ⟨rfl, rfl, rfl, rfl⟩

theorem clampScope_capped {s : State} (h : s.capsScope) : s.clampScope 5 = (4, s.countScope) := by
  unfold State.clampScope State.vf?
  cases hv : s.vfs.lookup s.me.vf with
  | none => rfl
  | some v => simp only [h v hv]; rfl

theorem clampScope_uncapped {s : State} {scope : BitVec 3} (h : ¬(scope = 5 ∧ s.capsScope)) : s.clampScope scope.toNat = (scope.toNat, s) := by
  unfold State.clampScope State.vf?
  refine if_neg fun ⟨hscope, hcap⟩ => h ⟨BitVec.eq_of_toNat_eq hscope, fun v hv => ?_⟩
  simpa [hv] using hcap

theorem takeToken_capsScope (s : State) (t : BitVec 2) : (s.takeToken t).capsScope ↔ s.capsScope := by
  simp [State.capsScope]

/-! ### The instructions -/

/-- An ordered instruction that issues, and is done with its data kept. -/
theorem done_keepsData {s u : State} {t : BitVec 2} {i : Instr} {body : State → Eff} (hready : s.ready t false = true)
    (hexec : exec i s = runOrdered t body s) (hbody : body (s.takeToken t) = .done u) (hkeeps : (s.takeToken t).keepsData u) :
    exec i s = .next (u.retires t) ∧ s.keepsData u :=
  ⟨hexec.trans (runInstr_retires hready hbody), keepsData_trans (takeToken_keepsData s t) hkeeps⟩

section
variable {s : State} {t : BitVec 2} (hready : s.ready t false = true)
include hready

/-- REL under the scope in effect. -/
theorem rel_does {scope : BitVec 3} {n : Nat} {c : State} (hclamp : (s.takeToken t).clampScope scope.toNat = (n, c))
    (hkeeps : (s.takeToken t).keepsData c) :
    exec (.rel scope t) s = .next ((c.performAll.release n).retires t) ∧ s.keepsData (c.performAll.release n) := by
  refine done_keepsData hready (exec_rel scope t s) ?_
    (keepsData_trans hkeeps (keepsData_trans (performAll_keepsData c) (release_keepsData _ n)))
  simp only [hclamp]

/-- ACQ under the scope in effect. -/
theorem acq_does {scope : BitVec 3} {n : Nat} {c : State} (hclamp : (s.takeToken t).clampScope scope.toNat = (n, c))
    (hkeeps : (s.takeToken t).keepsData c) : exec (.acq scope t) s = .next ((c.acquire n).retires t) ∧ s.keepsData (c.acquire n) := by
  refine done_keepsData hready (exec_acq scope t s) ?_ (keepsData_trans hkeeps (acquire_keepsData c n))
  simp only [hclamp]

/-- YIELD gives the strand, its token taken, the rounds after the last ones of its core (R351, R370). -/
theorem yield_does {w : State} {c : Core} (hw : w = s.takeToken t) (hc : c = s.core s.me.core) :
    exec (.yield t) s = .next (State.retires { w with me := { w.me with lastVec := c.vecRound + 1, lastVlsu := c.vlsuRound + 1 } } t)
    ∧ s.keepsData { w with me := { w.me with lastVec := c.vecRound + 1, lastVlsu := c.vlsuRound + 1 } } := by
  subst hw hc
  refine done_keepsData hready (exec_yield t s) ?_ ⟨rfl, rfl, rfl, rfl⟩
  simp only [State.core, takeToken_cores, takeToken_core]

end

/-- Settles O33: each instruction's body is done, and what it does to memory and the L1s leaves the strand's data; the policy's cap
decides between two values of the scope in effect. -/
theorem fences : Obligations.Fences := by
  unfold Obligations.Fences
  intro s scope t hready w done capped c
  have hkeeps := keepsData_refl w
  refine ⟨yield_does hready rfl rfl, done_keepsData hready (exec_fenceVs t s) rfl hkeeps,
    done_keepsData hready (exec_fenceVv t s) rfl hkeeps, done_keepsData hready (exec_fenceSv t s) rfl (performAll_keepsData w),
    fun hfree => ?_, fun ⟨hscope, hcap⟩ => ?_⟩
  · have hclamp : w.clampScope scope.toNat = (scope.toNat, w) :=
      clampScope_uncapped fun ⟨hscope, hcap⟩ => hfree ⟨hscope, (takeToken_capsScope s t).1 hcap⟩
    exact ⟨rel_does hready hclamp hkeeps, acq_does hready hclamp hkeeps⟩
  · have hclamp : w.clampScope scope.toNat = (4, w.countScope) := by
      rw [hscope]
      exact clampScope_capped ((takeToken_capsScope s t).2 hcap)
    exact ⟨rel_does hready hclamp (countScope_keepsData w), acq_does hready hclamp (countScope_keepsData w)⟩

end Sys2Proof.Machine
end

section
/-!
SUPPORT. Elements that are found, all of them, before a vector memory instruction performs any (R109–R115, R177, R184).
-/
namespace Sys2Proof.Machine

/-! ### Translations -/

theorem translate_quiet {s u : State} {w : Walker} {va : Nat} {acc : Access} {e : TlbEntry} (h : s.translate w va acc = .ok u e) :
    QuietRead s u := by
  unfold State.translate at h
  dsimp only at h
  split at h
  · cases h
  · split at h
    · exact walk_quiet h
    · cases h
      exact quiet_ite _ (.refl s) (updCore_quiet ..)
    · rename_i e es _ _
      cases h
      exact QuietRead.trans (t := (s.pick (es.length + 1)).2) (.of_same rfl rfl rfl rfl rfl) (quiet_ite _ (.refl _) (updCore_quiet ..))

theorem locate_quiet {s u : State} {w : Walker} {a : Nat} {acc : Access} {l : LineLoc} (h : s.locate w a acc = .ok u l) : QuietRead s u := by
  unfold State.locate at h
  split at h
  · cases h
  · cases h
    exact .refl s
  · split at h
    · rename_i ht
      cases h
      exact translate_quiet ht
    · cases h
    · cases h

theorem place_quiet {s u : State} {x : MemOp} {va at_ : Nat} {l : LineLoc} (h : s.place x va at_ = .ok u l) : QuietRead s u := by
  unfold State.place at h
  dsimp only at h
  split at h
  · cases h
  · split at h
    · rename_i hl
      split at h
      · cases h
      · cases h
        exact locate_quiet hl
    · rename_i hl
      split at h
      · cases h
      · cases h
        exact locate_quiet hl
    · cases h
    · cases h

/-! ### All of the elements -/

/-- Where no element faults and none waits for stage 2, every element has its place, in order. -/
def Found.AllOf (s : State) (js : List Nat) (r : Found) : Prop :=
  r.fault = none → r.pending = [] → QuietRead s r.s ∧ r.elems.map (fun e => e.j) = js

theorem findElems_allOf (x : MemOp) (pr : Progress) (inOrder : Bool) (js : List Nat) : ∀ s : State,
    (findElems x pr inOrder js s).AllOf s js := by
  induction js with
  | nil => exact fun s _ _ => ⟨.refl s, rfl⟩
  | cons j js ih =>
    intro s
    unfold findElems
    split
    · rename_i e he
      intro hfault hpending
      obtain ⟨hquiet, hjs⟩ := ih s hfault hpending
      have hj : e.j = j := by simpa using List.find?_some he
      exact ⟨hquiet, by rw [List.map_cons, hj, hjs]⟩
    · dsimp only
      split
      · rename_i t l hplace
        intro hfault hpending
        obtain ⟨hquiet, hjs⟩ := ih t hfault hpending
        exact ⟨(place_quiet hplace).trans hquiet, congrArg (List.cons j) hjs⟩
      · exact fun hfault => nomatch hfault
      · split <;> exact fun _ hpending => nomatch hpending

theorem takeToken_memIll (s : State) (t : BitVec 2) : (s.takeToken t).me.memIll = s.me.memIll := by
  unfold Strand.memIll
  rw [takeToken_vtypeIll, takeToken_sewBits]

theorem takeToken_indexPoison (s : State) (t : BitVec 2) : (s.takeToken t).indexPoison = s.indexPoison := by
  unfold State.indexPoison Strand.anyElem Strand.start
  rw [takeToken_groupTags, takeToken_count, takeToken_rstart, takeToken_vl, takeToken_vstart]

/-- The elements that an instruction of `s` finds, with its token taken, in a legal group of rows: none faults, none waits. -/
structure State.FindsAll (s : State) (t : BitVec 2) (x : MemOp) (d : BitVec 5) (r : Found) : Prop where
  legal : s.me.memIll x [d] = false
  clean : s.indexPoison x = false
  found : findElems x ((s.takeToken t).progress x.k) false ((s.takeToken t).todo x ((s.takeToken t).progress x.k)) (s.takeToken t) = r
  placed : r.fault = none
  settled : r.pending = []

section
variable {s : State} {t : BitVec 2} {x : MemOp} {d : BitVec 5} {r : Found} (h : s.FindsAll t x d r)
include h

theorem State.FindsAll.withAll (f : Found → Eff) : withAll x [d] f (s.takeToken t) = f r := by
  obtain ⟨hlegal, hclean, hfound, -, hsettled⟩ := h
  rw [← takeToken_memIll s t] at hlegal
  rw [← takeToken_indexPoison s t] at hclean
  simp only [Machine.withAll, withElems, withStart, hlegal, hclean, consume, hfound, hsettled]
  rfl

theorem State.FindsAll.me : r.s.me = (s.takeToken t).me := by
  obtain ⟨-, -, hfound, hplaced, hsettled⟩ := h
  subst hfound
  exact (findElems_allOf _ _ _ _ _ hplaced hsettled).1.me

theorem State.FindsAll.indices : r.elems.map (fun e => e.j) = (s.takeToken t).todo x ((s.takeToken t).progress x.k) := by
  obtain ⟨-, -, hfound, hplaced, hsettled⟩ := h
  subst hfound
  exact (findElems_allOf _ _ _ _ _ hplaced hsettled).2

/-- No element is found twice. -/
theorem State.FindsAll.nodup : (r.elems.map (fun e => e.j)).Nodup := by
  rw [h.indices]
  exact (List.nodup_range.filter _).filter _

/-- Every element is one of the group. -/
theorem State.FindsAll.lt_count {e : Elem} (he : e ∈ r.elems) : e.j < s.me.count := by
  have hj : e.j ∈ r.elems.map (fun e => e.j) := List.mem_map_of_mem he
  rw [h.indices] at hj
  have hrange := List.mem_of_mem_filter (List.mem_of_mem_filter hj)
  rw [← takeToken_count s t]
  exact List.mem_range.1 hrange

end

end Sys2Proof.Machine
end

section
/-!
SUPPORT. An element of a vector atomic or of VSC at its home (R135, R163, R199–R203): what it leaves of the strand.
-/
namespace Sys2Proof.Machine

/-- Of the strand, an access of lines changes links and flags at most. -/
def State.accessOnly (s u : State) : Prop := u.me = { s.me with links := u.me.links, fcsr := u.me.fcsr, ckpt := u.me.ckpt }

theorem accessOnly_refl (s : State) : s.accessOnly s := rfl

theorem accessOnly_trans {s t u : State} (h : s.accessOnly t) (k : t.accessOnly u) : s.accessOnly u := by
  unfold State.accessOnly at *
  rw [k, h]

theorem accessOnly_of_me {s u : State} (h : u.me = s.me) : s.accessOnly u := by
  unfold State.accessOnly
  rw [h]

theorem writesOnly_accessOnly {s u : State} (h : s.writesOnly u) : s.accessOnly u := by
  unfold State.accessOnly
  rw [h.1]

theorem raise_accessOnly (s : State) (fl : Nat) : s.accessOnly (s.raise fl) := by
  unfold State.accessOnly
  rw [raise_only]

theorem readHome_accessOnly (s : State) (l : LineLoc) (r : Reader) : s.accessOnly (s.readHome l r).2.2 :=
  accessOnly_of_me (readHome_lines s l r).me

/-! ### Write-backs and writes at homes -/

theorem writeBackAndDrop_accessOnly (s : State) (core : Nat) (l : LineLoc) : s.accessOnly (s.writeBackAndDrop core l) := by
  cases l with
  | store c i => exact accessOnly_refl s
  | page e j => exact writesOnly_accessOnly ((writeBackLine_homes ..).trans (updCore_homes ..)).writes

/-- The lines of the elements, written back and dropped (R135). -/
def Found.home (r : Found) : State := r.elems.foldl (fun u e => u.writeBackAndDrop u.me.core e.loc) r.s

theorem home_accessOnly (r : Found) : r.s.accessOnly r.home :=
  List.foldlRecOn r.elems _ (accessOnly_refl r.s) fun _ h _ _ => accessOnly_trans h (writeBackAndDrop_accessOnly ..)

/-- A write at a home leaves the strand, performed or refused. -/
theorem homeWrite_accessOnly (s : State) (l : LineLoc) (w : Write) (keep : Option (Nat × Nat)) (priv : Bool) (r : Reader) (va : Word) :
    s.accessOnly ((s.homeWrite l w keep priv r va).1.getD (s.homeWrite l w keep priv r va).2) := by
  refine writesOnly_accessOnly ?_
  cases l with
  | store c i => exact (applyHome_homes s (.store c i) w keep r).writes
  | page e j =>
    unfold State.homeWrite
    dsimp only
    split
    · exact fitWrite_writes ..
    · exact (applyHome_homes s (.page e j) w keep r).writes

theorem homeWrite_refused {s u : State} {l : LineLoc} {w : Write} {keep : Option (Nat × Nat)} {priv : Bool} {r : Reader} {va : Word}
    (h : s.homeWrite l w keep priv r va = (none, u)) : s.accessOnly u := by
  have hwrite := homeWrite_accessOnly s l w keep priv r va
  rw [h] at hwrite
  exact hwrite

theorem homeWrite_done {s t u : State} {l : LineLoc} {w : Write} {keep : Option (Nat × Nat)} {priv : Bool} {r : Reader} {va : Word}
    (h : s.homeWrite l w keep priv r va = (some t, u)) : s.accessOnly t := by
  have hwrite := homeWrite_accessOnly s l w keep priv r va
  rw [h] at hwrite
  exact hwrite

/-! ### An atomic's element -/

/-- What one element adds to a run: nothing of the strand but links and flags, and no old code but its own. -/
structure AtomRun.Step (x y : AtomRun) (e : Elem) : Prop where
  only : x.s.accessOnly y.s
  olds : ∀ p, p ∈ y.olds → p ∈ x.olds ∨ p.1 = e.j

theorem AtomRun.Step.of_olds {x y : AtomRun} {e : Elem} {old : Nat} (honly : x.s.accessOnly y.s) (h : y.olds = (e.j, old) :: x.olds) :
    x.Step y e :=
  ⟨honly, fun p hp => by rw [h] at hp; exact (List.mem_cons.1 hp).symm.imp id (congrArg Prod.fst)⟩

theorem atomElem_step (o : AtomOp) (rows : Nat → Row) (cas : Row) (x : AtomRun) (e : Elem) : x.Step (atomElem o rows cas x e) e := by
  unfold atomElem
  split
  · exact ⟨accessOnly_refl x.s, fun p hp => .inl hp⟩
  · extract_lets s _ _ _ _ _ h _ _ _ _ _ _ _ _ _ fr res done
    have hread : s.accessOnly h.2.2 := readHome_accessOnly ..
    split
    · exact ⟨hread, fun p hp => .inl hp⟩
    · have hdone : s.accessOnly done := by
        have hfree : s.accessOnly fr.2 := hread
        clear_value fr
        simp only [done, res]
        split
        case h_5 =>
          split
          · exact hread
          · exact hfree
        all_goals exact hread
      clear_value done
      split
      · exact .of_olds hdone rfl
      · split
        · rename_i hwrite
          exact ⟨accessOnly_trans hdone (homeWrite_refused hwrite), fun p hp => .inl hp⟩
        · rename_i hwrite
          exact .of_olds (accessOnly_trans hdone (homeWrite_done hwrite)) rfl

/-- The elements of an atomic change the strand no more than each of them, and old codes are theirs. -/
theorem foldl_atomElem (o : AtomOp) (rows : Nat → Row) (cas : Row) (es : List Elem) (s : State) :
    s.accessOnly (es.foldl (atomElem o rows cas) { s := s }).s
    ∧ ∀ p, p ∈ (es.foldl (atomElem o rows cas) { s := s }).olds → ∃ e, e ∈ es ∧ p.1 = e.j := by
  refine List.foldlRecOn (motive := fun y : AtomRun => s.accessOnly y.s ∧ ∀ p, p ∈ y.olds → ∃ e, e ∈ es ∧ p.1 = e.j) es _
    ⟨accessOnly_refl s, fun p hp => absurd hp List.not_mem_nil⟩ fun y ⟨honly, holds⟩ e he => ?_
  have hstep := atomElem_step o rows cas y e
  exact ⟨accessOnly_trans honly hstep.only, fun p hp => (hstep.olds p hp).elim (holds p) fun hj => ⟨e, he, hj⟩⟩

/-! ### The rows returned -/

/-- Flags and free values apart, the rows of a group of `n` from `d` alone change. -/
structure State.groupOnly (s u : State) (d n : Nat) : Prop where
  loops : s.loops u
  kept : s.rowsKept u d n

theorem groupOnly_refl (s : State) (d n : Nat) : s.groupOnly s d n := ⟨loops_refl s, fun _ _ => rfl⟩

theorem groupOnly_trans {s t u : State} {d n : Nat} (h : s.groupOnly t d n) (k : t.groupOnly u d n) : s.groupOnly u d n :=
  ⟨loops_trans h.loops k.loops, fun v hv => (k.kept v hv).trans (h.kept v hv)⟩

theorem raise_groupOnly (s : State) (fl d n : Nat) : s.groupOnly (s.raise fl) d n :=
  ⟨raise_loops s fl, fun v _ => congrFun (row_raise s fl) v⟩

theorem setCode_groupOnly (s : State) {d n r : Nat} (hr : r < n) (e c : Nat) : s.groupOnly (s.setCode (d + r) e c) d n :=
  ⟨setCode_loops .., fun _ hv => row_setCode_other (by omega) e c⟩

theorem setRowTag_groupOnly (s : State) {d n r : Nat} (hr : r < n) (t : Tag) : s.groupOnly (s.setRowTag (d + r) t) d n :=
  ⟨setRowTag_loops .., fun _ hv => row_setRow_other s.me _ _ _ (by omega)⟩

/-- Old codes of elements of the group are returned into its rows (R200). -/
theorem returnOlds_groupOnly (s : State) (d : Nat) (olds : List (Nat × Nat)) (poison : Bool)
    (holds : ∀ p, p ∈ olds → p.1 < s.me.count) : s.groupOnly (s.returnOlds d olds poison) d s.me.rc := by
  unfold State.returnOlds
  extract_lets vl u
  have hcodes : s.groupOnly u d s.me.rc :=
    List.foldlRecOn (motive := fun v => s.groupOnly v d s.me.rc) olds.reverse _ (groupOnly_refl ..) fun v hv p hp =>
      groupOnly_trans hv (setCode_groupOnly v (Nat.div_lt_of_lt_mul (holds p (List.mem_reverse.1 hp))) ..)
  have hrc : u.me.rc = s.me.rc := loops_rc hcodes.loops
  rw [hrc]
  refine List.foldlRecOn (motive := fun v => s.groupOnly v d s.me.rc) (List.range s.me.rc) _ hcodes fun v hv r hr => groupOnly_trans hv ?_
  have htag (t : Tag) : v.groupOnly (v.setRowTag (d + r) t) d s.me.rc := setRowTag_groupOnly v (List.mem_range.1 hr) t
  split
  · extract_lets t p w
    split
    · exact groupOnly_trans (htag _) (raise_groupOnly ..)
    · exact htag _
  · exact groupOnly_refl ..

/-! ### An element of VSC -/

/-- What one element adds to a VSC: nothing of the strand but links and flags, and its own success at most. -/
structure ScRun.Step (x y : ScRun) (e : Elem) : Prop where
  only : x.s.accessOnly y.s
  won : y.won = x.won ∨ y.won = e.j :: x.won

/-- A store's fault leaves what a refused write does. -/
theorem storeCause_accessOnly {put : LineWrite} {s : State} {row : Row} {e : Elem} {own : OutElem} {w : Write} {f : ElemFault × State}
    (hput : ∀ l w va u, put s l w va = (none, u) → s.accessOnly u) (h : storeCause put s row e own w = some f) : s.accessOnly f.2 := by
  unfold storeCause at h
  dsimp only at h
  split at h
  · cases h
    exact accessOnly_refl s
  · split at h
    · cases h
    · split at h
      · cases h
        exact accessOnly_refl s
      · rename_i hrefused
        cases h
        exact hput _ _ _ _ hrefused

theorem scElem_step (v : Nat) (x : ScRun) (e : Elem) : x.Step (scElem v x e) e := by
  unfold scElem
  extract_lets here s row w own wr linked put y
  split
  · exact ⟨accessOnly_refl x.s, .inl rfl⟩
  · have hput (l : LineLoc) (w : Write) (va : Word) (u : State) (h : put s l w va = (none, u)) : s.accessOnly u := by
      simp only [put] at h
      split at h
      · exact homeWrite_refused h
      · cases h
    have hdone (l : LineLoc) (w : Write) (va : Word) (t u : State) (h : put s l w va = (some t, u)) : s.accessOnly t := by
      simp only [put] at h
      split at h
      · exact homeWrite_done h
      · cases h
        exact accessOnly_refl s
    clear_value put
    split
    · rename_i hcause
      exact ⟨storeCause_accessOnly hput hcause, .inl rfl⟩
    · split
      · exact ⟨accessOnly_refl x.s, .inl rfl⟩
      · split
        · rename_i hwrite
          exact ⟨hput _ _ _ _ hwrite, .inl rfl⟩
        · rename_i hwrite
          exact ⟨accessOnly_trans (hdone _ _ _ _ _ hwrite) (raise_accessOnly ..), .inr rfl⟩

theorem foldl_scElem_accessOnly (v : Nat) (es : List Elem) (s : State) : s.accessOnly (es.foldl (scElem v) { s := s }).s :=
  List.foldlRecOn (motive := fun y : ScRun => s.accessOnly y.s) es _ (accessOnly_refl s) fun y hy e _ =>
    accessOnly_trans hy (scElem_step v y e).only

/-- No element succeeds twice. -/
theorem foldl_scElem_nodup (v : Nat) (es : List Elem) : ∀ x : ScRun, (x.won ++ es.map (fun e => e.j)).Nodup →
    (es.foldl (scElem v) x).won.Nodup := by
  induction es with
  | nil => exact fun x h => by simpa using h
  | cons e es ih =>
    intro x h
    refine ih _ ?_
    rcases (scElem_step v x e).won with hwon | hwon
    · rw [hwon]
      exact h.sublist ((List.sublist_cons_self ..).append_left _)
    · rw [hwon]
      exact (List.perm_middle.nodup_iff).1 h

/-- A number written as a sum of distinct powers of two has these bits. -/
theorem testBit_foldl_two_pow {l : List Nat} (h : l.Nodup) (i : Nat) : (l.foldl (fun acc j => acc + 2 ^ j) 0).testBit i = l.contains i := by
  have hsum : l.foldl (fun acc j => acc + 2 ^ j) 0 = ∑ j ∈ l.toFinset, 2 ^ j := by
    rw [List.sum_toFinset _ h, List.sum_eq_foldl, List.foldl_map]
  have hmem : i ∈ (∑ j ∈ l.toFinset, 2 ^ j).bitIndices.toFinset ↔ i ∈ l := by
    rw [Finset.toFinset_bitIndices_sum_two_pow, List.mem_toFinset]
  rw [Bool.eq_iff_iff, List.contains_iff_mem, hsum, ← hmem, List.mem_toFinset, Nat.mem_bitIndices]

/-- Mask `k`, not k0, without the bits of the elements that succeeded (R202). -/
theorem mask_clear {t : Strand} {k : Nat} (hk : k ≠ 0) (hk8 : k < 8) {won : List Nat} (h : won.Nodup) {j : Nat} (hj : j < 32768) :
    ((t.setMask k (t.mask k &&& ~~~BitVec.ofNat 32768 (won.foldl (fun acc j => acc + 2 ^ j) 0))).mask k).getLsbD j
      = ((t.mask k).getLsbD j && !won.contains j) := by
  have hset (v : MaskBits) : (t.setMask k v).mask k = v := by
    simp [Strand.setMask, Strand.mask, hk, Vector.getD, hk8]
  rw [hset, BitVec.getLsbD_and, BitVec.getLsbD_not, BitVec.getLsbD_ofNat, testBit_foldl_two_pow h]
  simp [hj]

end Sys2Proof.Machine
end

section
/-!
PROOFS. Vector atomics, near-memory scatter-reductions and conditional scatters (R163, R199, R200, R202, R203).
-/
namespace Sys2Proof.Machine

/-! ### Vector atomics and scatter-reductions (R199, R200, R203) -/

/-- The elements of an atomic performed in ascending order at their homes, with the rows of the group at `d`. -/
def Found.atomRun (r : Found) (o : AtomOp) (s : State) (d : Nat) : AtomRun :=
  r.elems.foldl (atomElem o (fun j => s.me.row (d + j)) (s.me.row (d + 1))) { s := r.home }

/-- What an atomic's elements come to: old codes are returned but to near memory, and flags are raised. -/
def AtomRun.result (q : AtomRun) (o : AtomOp) (d : Nat) : State :=
  State.raise (if o.isNear then (if q.poison then q.s.raise flagPSN else q.s) else q.s.returnOlds d q.olds q.poison) q.flags

theorem result_near (q : AtomRun) {o : AtomOp} (h : o.isNear = true) (d : Nat) : q.s.accessOnly (q.result o d) := by
  unfold AtomRun.result
  rw [if_pos h]
  refine accessOnly_trans ?_ (raise_accessOnly ..)
  split
  · exact raise_accessOnly ..
  · exact accessOnly_refl q.s

theorem result_returns {q : AtomRun} {o : AtomOp} (h : o.isNear = false) {d : Nat} (holds : ∀ p, p ∈ q.olds → p.1 < q.s.me.count) :
    q.s.groupOnly (q.result o d) d q.s.me.rc := by
  unfold AtomRun.result
  rw [if_neg (Bool.eq_false_iff.1 h)]
  exact groupOnly_trans (returnOlds_groupOnly _ d _ _ holds) (raise_groupOnly ..)

/-- Registers and masks stay, the rows outside a group of `n` from `d`, and all rows where `near`. -/
def State.keepsBeside (s u : State) (d n : Nat) (near : Bool) : Prop :=
  u.me.regs = s.me.regs ∧ u.me.masks = s.me.masks ∧ s.rowsKept u d n ∧ (near = true → u.me.rows = s.me.rows)

theorem accessOnly_keepsBeside {s u : State} (h : s.accessOnly u) (d n : Nat) (near : Bool) : s.keepsBeside u d n near := by
  unfold State.keepsBeside State.rowsKept
  rw [h]
  exact ⟨rfl, rfl, fun _ _ => rfl, fun _ => rfl⟩

theorem groupOnly_keepsBeside {s u : State} {d n : Nat} (h : s.groupOnly u d n) : s.keepsBeside u d n false :=
  ⟨by rw [h.loops], by rw [h.loops], h.kept, nofun⟩

theorem keepsBeside_trans {s t u : State} {d n : Nat} {near : Bool} (h : s.keepsBeside t d n near) (k : t.keepsBeside u d n near) :
    s.keepsBeside u d n near := by
  obtain ⟨hregs, hmasks, hrows, hall⟩ := h
  obtain ⟨kregs, kmasks, krows, kall⟩ := k
  exact ⟨kregs.trans hregs, kmasks.trans hmasks, fun v hv => (krows v hv).trans (hrows v hv), fun hn => (kall hn).trans (hall hn)⟩

theorem accessOnly_count {s u : State} (h : s.accessOnly u) : u.me.count = s.me.count := by
  rw [h]
  rfl

theorem takeToken_keepsBeside (s : State) (t : BitVec 2) (d n : Nat) (near : Bool) : s.keepsBeside (s.takeToken t) d n near :=
  ⟨takeToken_regs s t, takeToken_masks s t, fun v _ => congrFun (takeToken_row s t) v, fun _ => takeToken_rows s t⟩

section
variable {s : State} {t : BitVec 2} {x : MemOp} {d : BitVec 5} {r : Found} (h : s.FindsAll t x d r)
include h

theorem State.FindsAll.home : (s.takeToken t).accessOnly r.home := accessOnly_trans (accessOnly_of_me h.me) (home_accessOnly r)

theorem State.FindsAll.result (o : AtomOp) :
    s.keepsBeside ((r.atomRun o s d.toNat).result o d.toNat) d.toNat s.me.rc o.isNear := by
  obtain ⟨hrun, holds⟩ := foldl_atomElem o (fun j => s.me.row (d.toNat + j)) (s.me.row (d.toNat + 1)) r.elems r.home
  have honly : (s.takeToken t).accessOnly (r.atomRun o s d.toNat).s := accessOnly_trans h.home hrun
  refine keepsBeside_trans (takeToken_keepsBeside s t ..) (keepsBeside_trans (accessOnly_keepsBeside honly ..) ?_)
  cases hnear : o.isNear with
  | true => exact accessOnly_keepsBeside (result_near _ hnear _) ..
  | false =>
    have hrc : (r.atomRun o s d.toNat).s.me.rc = s.me.rc := by rw [honly, takeToken_rc]
    rw [← hrc]
    refine groupOnly_keepsBeside (result_returns hnear fun p hp => ?_)
    obtain ⟨e, he, hj⟩ := holds p hp
    rw [hj, accessOnly_count honly, takeToken_count]
    exact h.lt_count he

end

/-- An atomic whose elements are all found and none refused. -/
theorem atomicV_does {o : AtomOp} {n : Nat} {s : State} {d a b : BitVec 5} {k : BitVec 3} {t : BitVec 2} {r : Found}
    (hready : s.ready t false = true) (hcas : o = .cas → s.me.rc = 1)
    (h : s.FindsAll t ⟨wordVM n d a b k 0 t, .indexed, a, b, k, .atomic, o.isNear⟩ d r) (hdone : (r.atomRun o s d.toNat).fault = none) :
    atomicV o n d a b k t s = .next (((r.atomRun o s d.toNat).result o d.toNat).clearStart.retires t)
    ∧ s.keepsBeside ((r.atomRun o s d.toNat).result o d.toNat) d.toNat s.me.rc o.isNear := by
  refine ⟨?_, h.result o⟩
  rw [atomicV, runOrdered]
  refine runInstr_retires hready ?_
  have hrow : r.s.me.row = s.me.row := by rw [h.me, takeToken_row]
  rw [if_neg fun ⟨ho, hrc⟩ => hrc ((takeToken_rc s t).trans (hcas ho)), h.withAll]
  simp only [hrow, h.placed]
  exact congrArg (finishMem _) (congrArg (firstFault · none) hdone)

theorem vcas_traps {s : State} {d a b : BitVec 5} {k : BitVec 3} {t : BitVec 2} (hready : s.ready t false = true) (hrc : s.me.rc ≠ 1) :
    exec (.vcas d a b k t) s = (s.takeToken t).takeTrap { cause := 2, val := wordVM 0xD6 d a b k 0 t } := by
  rw [exec_vcas, execVcas, atomicV, runOrdered, runInstr_ready _ _ _ _ hready, if_pos ⟨rfl, by rwa [takeToken_rc]⟩]
  rfl

/-! ### Conditional scatters (R202) -/

/-- The elements of a VSC performed in ascending order at their homes. -/
def Found.scRun (r : Found) (d : Nat) : ScRun := r.elems.foldl (scElem d) { s := r.home }

/-- A VSC whose elements are all found and none refused. -/
theorem vsc_does {s : State} {d a b : BitVec 5} {k : BitVec 3} {t : BitVec 2} {r : Found} (hready : s.ready t false = true)
    (h : s.FindsAll t ⟨wordVM 0xD8 d a b k 0 t, .indexed, a, b, k, .write, false⟩ d r) (hdone : (r.scRun d.toNat).fault = none) :
    ∃ u : State, exec (.vsc d a b k t) s = .next (u.retires t) ∧ u.mem = (r.scRun d.toNat).s.mem
      ∧ u.me.regs = s.me.regs ∧ u.me.rows = s.me.rows
      ∧ (k ≠ 0 → ∀ j, j < 32768 →
        (u.me.mask k.toNat).getLsbD j = ((s.me.mask k.toNat).getLsbD j && !(r.scRun d.toNat).won.contains j)) := by
  have honly : (s.takeToken t).accessOnly (r.scRun d.toNat).s := accessOnly_trans h.home (foldl_scElem_accessOnly ..)
  obtain ⟨hregs, hmasks, -, hrows⟩ := keepsBeside_trans (takeToken_keepsBeside s t 0 0 true) (accessOnly_keepsBeside honly 0 0 true)
  have hwon : (r.scRun d.toNat).won.Nodup := foldl_scElem_nodup _ _ _ (by simpa using h.nodup)
  have hexec : exec (.vsc d a b k t) s = .next ((State.clearStart { (r.scRun d.toNat).s with
      me := (r.scRun d.toNat).s.me.setMask k.toNat ((r.scRun d.toNat).s.me.mask k.toNat
        &&& ~~~BitVec.ofNat 32768 ((r.scRun d.toNat).won.foldl (fun acc j => acc + 2 ^ j) 0)) }).retires t) := by
    refine runInstr_retires hready ?_
    rw [h.withAll]
    simp only [h.placed]
    exact congrArg (finishMem _) (congrArg (firstFault · none) hdone)
  refine ⟨_, hexec, rfl, ?_, ?_, fun hk j hj => ?_⟩
  · rw [setMask_only]
    exact hregs
  · rw [setMask_only]
    exact hrows rfl
  · have hk0 : k.toNat ≠ 0 := fun h0 => hk (BitVec.eq_of_toNat_eq h0)
    have hmask : (r.scRun d.toNat).s.me.mask k.toNat = s.me.mask k.toNat := by rw [Strand.mask, hmasks]; rfl
    refine (mask_clear hk0 k.isLt hwon hj).trans ?_
    rw [hmask]

/-- Settles O46: the elements that an atomic finds are distinct and lie in its group, each leaves the strand but for links and flags, and
old codes go to rows of the group. -/
theorem vectorAtomics : Obligations.VectorAtomics := by
  unfold Obligations.VectorAtomics
  intro s d a b k t hready w op pr finds home atomic
  have hfinds {x : MemOp} {r : Found} (hx : x.k = k) (h : finds x r) : s.FindsAll t x d r := by
    subst hx
    obtain ⟨hlegal, hclean, hfound, hplaced, hsettled⟩ := h
    exact ⟨hlegal, hclean, hfound, hplaced, hsettled⟩
  have hatomic {i : Instr} {o : AtomOp} {n : Nat} (hexec : exec i s = atomicV o n d a b k t s) : atomic i o n := by
    intro hcas r h rows q hdone
    obtain ⟨hdoes, hkept⟩ := atomicV_does hready hcas (hfinds rfl h) hdone
    exact ⟨hexec.trans hdoes, hkept⟩
  exact ⟨hatomic (exec_vamoadd ..), hatomic (exec_vamomin ..), hatomic (exec_vamomax ..), hatomic (exec_vamoswp ..),
    hatomic (exec_vamoand ..), hatomic (exec_vamoor ..), hatomic (exec_vcas ..), hatomic (exec_vsanm ..), hatomic (exec_vsxnm ..),
    vcas_traps hready, fun r h => vsc_does hready (hfinds rfl h)⟩

end Sys2Proof.Machine
end

section
/-!
SUPPORT. The partitions but for their error logs, which no access of memory changes (Machine/Banks.lean, Machine/Mem.lean): their
channels, buffers and braids among them.
-/
namespace Sys2Proof.Machine

/-- A partition without its error log (R410). -/
def Part.unlogged (p : Part) : Part := { p with errLog := [], errSeq := 0, errLost := 0 }

/-- The partitions without their error logs. -/
def State.unlogged (s : State) (part : Nat) : Part := (s.part part).unlogged

theorem unlogged_congr {s u : State} (h : u.parts = s.parts) : u.unlogged = s.unlogged := by
  unfold State.unlogged State.part; rw [h]

theorem unlogged_foldl {α : Type} (f : State → α → State) (h : ∀ s x, (f s x).unlogged = s.unlogged) (l : List α) :
    ∀ s, (l.foldl f s).unlogged = s.unlogged := foldl_keeps State.unlogged f h l

theorem unlogged_bufs {s u : State} (h : u.unlogged = s.unlogged) (p : Nat) : (u.part p).bufs = (s.part p).bufs :=
  congrArg (fun f => (f p).bufs) h

/-! ### Logs -/

@[simp] theorem logEvent_unlogged (s : State) (p e v c : Nat) (a d : Word) : (s.logEvent p e v c a d).unlogged = s.unlogged := by
  funext k
  unfold State.unlogged State.logEvent State.part
  dsimp only
  by_cases hk : k = p
  · subst hk
    rw [look_put_same]
    split <;> rfl
  · rw [look_put_other _ _ _ _ _ hk]

@[simp] theorem logLine_unlogged (s : State) (p e : Nat) (r : Reader) (d : Nat) : (s.logLine p e r d).unlogged = s.unlogged := by
  unfold State.logLine
  split
  · exact logEvent_unlogged ..
  · rfl

/-! ### Channels -/

@[simp] theorem updChan_unlogged (s : State) (g : Nat) (f : Channel → Channel) : (s.updChan g f).unlogged = s.unlogged := rfl
@[simp] theorem putRaw_unlogged (s : State) (k : Nat) (d : Line) (t : Tag) : (s.putRaw k d t).unlogged = s.unlogged :=
  unlogged_congr (putRaw_parts ..)
@[simp] theorem scrubBank_unlogged (s : State) (g b : Nat) : (s.scrubBank g b).unlogged = s.unlogged := rfl

@[simp] theorem scrubFor_unlogged (s : State) (g b : Nat) : (s.scrubFor g b).unlogged = s.unlogged := by
  unfold State.scrubFor
  dsimp only
  split
  · exact unlogged_foldl _ (fun s x => scrubBank_unlogged s g x) _ s
  · rfl

@[simp] theorem writeLine_unlogged (s : State) (near : Bool) (k : Nat) (d : Line) (t : Tag) :
    (s.writeLine near k d t).unlogged = s.unlogged := by
  unfold State.writeLine
  dsimp only
  split <;> simp

@[simp] theorem setBank_unlogged (s : State) (p : Nat) (d : Line) (t : Tag) : (s.setBank p d t).unlogged = s.unlogged := by
  unfold State.setBank
  dsimp only
  split <;> simp

@[simp] theorem fixTag_unlogged (s : State) (near : Bool) (part k m : Nat) (r : Reader) :
    (s.fixTag near part k m r).2.unlogged = s.unlogged := by
  unfold State.fixTag
  dsimp only
  split <;> simp

@[simp] theorem deliverLine_unlogged (s : State) (p : Nat) (x : Line × Tag) : (s.deliverLine p x).unlogged = s.unlogged := by
  unfold State.deliverLine
  dsimp only
  split <;> simp

@[simp] theorem noteRead_unlogged (s : State) (e : ReadError) (p : Nat) (r : Reader) : (s.noteRead e p r).unlogged = s.unlogged := by
  unfold State.noteRead
  dsimp only
  split
  · rfl
  · split <;> simp

@[simp] theorem readDone_unlogged (s : State) (q : ChanReq) (p : Nat) : (s.readDone q p).unlogged = s.unlogged := by
  unfold State.readDone
  dsimp only
  split
  · simp [apply_ite State.unlogged]
  · split <;> simp [apply_ite State.unlogged]

@[simp] theorem drainBank_unlogged (s : State) (g bank : Nat) : (s.drainBank g bank).unlogged = s.unlogged := by
  unfold State.drainBank
  dsimp only
  split
  · simp
  · exact (unlogged_foldl _ (fun s q => by simp) _ _).trans (by simp)

@[simp] theorem drainFor_unlogged (s : State) (g : Nat) (l : Option L2Line) : (s.drainFor g l).unlogged = s.unlogged := by
  unfold State.drainFor
  split
  · simp [apply_ite State.unlogged]
  · rfl

@[simp] theorem reach_unlogged (s : State) (near : Bool) (k : Nat) (r : Reader) : (s.reach near k r).unlogged = s.unlogged := by
  unfold State.reach
  split
  · rfl
  · simp [apply_ite State.unlogged]

/-! ### Lines at their homes -/

@[simp] theorem readRaw_unlogged (s : State) (near : Bool) (part k : Nat) (r : Reader) :
    (s.readRaw near part k r).2.2.unlogged = s.unlogged := by
  simp [State.readRaw]

@[simp] theorem readStored_unlogged (s : State) (near : Bool) (part : Nat) (h : Stored) (r : Reader) :
    (s.readStored near part h r).2.2.unlogged = s.unlogged := by
  unfold State.readStored
  dsimp only
  split <;> simp

@[simp] theorem readHost_unlogged (s : State) (part vf a : Nat) (r : Reader) : (s.readHost part vf a r).2.2.unlogged = s.unlogged := by
  unfold State.readHost
  dsimp only
  split
  · exact logEvent_unlogged ..
  · rfl

@[simp] theorem readHome_unlogged (s : State) (l : LineLoc) (r : Reader) : (s.readHome l r).2.2.unlogged = s.unlogged := by
  cases l with
  | store c i => exact readRaw_unlogged ..
  | page e j =>
    unfold State.readHome State.unsettled
    dsimp only
    split <;> split
    · exact readHost_unlogged ..
    · exact readStored_unlogged ..
    · exact readHost_unlogged ..
    · exact readStored_unlogged ..

@[simp] theorem meetHome_unlogged (s : State) (l : LineLoc) (full : Bool) (r : Reader) :
    (s.meetHome l full r).2.2.unlogged = s.unlogged := by
  cases l with
  | store c i =>
    unfold State.meetHome
    dsimp only
    split <;> simp
  | page e j =>
    unfold State.meetHome
    dsimp only
    split
    · rfl
    · split <;> simp

@[simp] theorem putHome_unlogged (s : State) (l : LineLoc) (d : Line) (t : Tag) (m : ByteMask) :
    (s.putHome l d t m).unlogged = s.unlogged := by
  cases l with
  | store c i => exact putRaw_unlogged ..
  | page e j =>
    unfold State.putHome State.putHost State.writeStored
    dsimp only
    split
    · split <;> rfl
    · split <;> exact writeLine_unlogged ..

@[simp] theorem breakLinks_unlogged (s : State) (k : Nat) (keep : Option (Nat × Nat)) : (s.breakLinks k keep).unlogged = s.unlogged :=
  unlogged_congr (by rw [breakLinks_only])

@[simp] theorem updSeg_unlogged (s : State) (vf i : Nat) (f : Seg → Seg) : (s.updSeg vf i f).unlogged = s.unlogged :=
  unlogged_congr (updVf_parts ..)

@[simp] theorem applyHome_unlogged (s : State) (l : LineLoc) (w : Write) (keep : Option (Nat × Nat)) (r : Reader) :
    (s.applyHome l w keep r).unlogged = s.unlogged := by
  cases l <;> simp [State.applyHome]

/-! ### Write-backs (R134) -/

@[simp] theorem writeBackLine_unlogged (s : State) (core key : Nat) : (s.writeBackLine core key).unlogged = s.unlogged := by
  unfold State.writeBackLine
  split
  · rfl
  · split
    · rfl
    · exact (unlogged_congr rfl).trans (applyHome_unlogged ..)

@[simp] theorem release_unlogged (s : State) (scope : Nat) : (s.release scope).unlogged = s.unlogged := by
  unfold State.release State.writeBackCore
  dsimp only
  split
  · rfl
  · exact unlogged_foldl _ (fun s c => unlogged_foldl _ (fun s l => writeBackLine_unlogged ..) _ s) _ s

end Sys2Proof.Machine
end

section
/-!
SUPPORT. What a translation leaves, whatever it comes to (R109–R116), and what a read by a core leaves (R27, R127, R132).
-/
namespace Sys2Proof.Machine

/-! ### Translations -/

/-- A step that reads tables and fills TLBs: beside what a quiet read leaves, the functions, the partitions but for their logs, and
the lines of each L1. -/
structure Translated (s u : State) : Prop where
  quiet : QuietRead s u
  vfs : u.vfs = s.vfs
  parts : u.unlogged = s.unlogged
  l1 : ∀ c, (u.core c).l1 = (s.core c).l1

namespace Translated

theorem refl (s : State) : Translated s s := ⟨.refl s, rfl, rfl, fun _ => rfl⟩

theorem trans {s t u : State} (h : Translated s t) (k : Translated t u) : Translated s u :=
  ⟨h.quiet.trans k.quiet, k.vfs.trans h.vfs, k.parts.trans h.parts, fun c => (k.l1 c).trans (h.l1 c)⟩

theorem ite {s u v : State} (c : Prop) [Decidable c] (hu : Translated s u) (hv : Translated s v) : Translated s (if c then u else v) := by
  split
  · exact hu
  · exact hv

theorem updHank (s : State) (h : Nat) (f : Hank → Hank) : Translated s (s.updHank h f) := ⟨updHank_quiet .., rfl, rfl, fun _ => rfl⟩

theorem updCore (s : State) (c : Nat) (f : Core → Core) (hf : ∀ x, (f x).l1 = x.l1) : Translated s (s.updCore c f) := by
  refine ⟨updCore_quiet .., rfl, rfl, fun k => ?_⟩
  by_cases hk : k = c
  · subst hk
    rw [core_updCore_same, hf]
  · rw [core_updCore_other _ _ _ _ hk]

theorem logEvent (s : State) (p e v c : Nat) (a d : Word) : Translated s (s.logEvent p e v c a d) :=
  ⟨logEvent_quiet .., rfl, logEvent_unlogged .., fun _ => rfl⟩

theorem readHome (s : State) (l : LineLoc) (r : Reader) : Translated s (s.readHome l r).2.2 := by
  have hlines := readHome_lines s l r
  exact ⟨readHome_quiet .., hlines.vfs, readHome_unlogged .., fun c => by rw [State.core, hlines.cores, State.core]⟩

theorem fillTlb (s : State) (c : Nat) (w : Walker) (e : TlbEntry) : Translated s (s.updCore c (fun x => x.fillTlb w e)) := by
  refine updCore s c _ fun x => ?_
  unfold Core.fillTlb
  dsimp only
  split
  · rfl
  · split <;> rfl

theorem s2Find (s : State) (hank vf iseg : Nat) : Translated s (s.s2Find hank vf iseg).2 := by
  unfold State.s2Find
  dsimp only
  split
  · exact refl s
  · exact updHank ..

end Translated

/-- A translation that succeeds or fails has read alone; one that parks too, unless its miss enters a request (R116). -/
def XRes.translated (w : Walker) (s : State) : XRes → Prop
  | .ok u _ => Translated s u
  | .fail u _ => Translated s u
  | .park u _ => w.quiet = true → Translated s u

theorem translated_ite {w : Walker} {s : State} {c : Prop} [Decidable c] {a b : XRes} (ha : a.translated w s) (hb : b.translated w s) :
    (if c then a else b).translated w s := by
  split
  · exact ha
  · exact hb

theorem s2Miss_translated {s t : State} (h : Translated s t) (w : Walker) (iseg kind lw pw : Nat) :
    (t.s2Miss w iseg kind lw pw).translated w s := by
  intro hquiet
  rw [if_pos hquiet]
  exact h

theorem walkFrom_translated (w : Walker) (va : Nat) (acc : Access) (n : Nat) : ∀ (s t : State) (ia : Nat), Translated s t →
    (t.walkFrom w va acc n ia).translated w s := by
  induction n with
  | zero => exact fun s t ia h => h
  | succ n ih =>
    intro s t ia h
    unfold State.walkFrom
    dsimp only
    generalize ia + 8 * s1Index va n = a
    have hdesc := h.trans (.s2Find t (hankOf w.core) w.vf (a / 2 ^ 18))
    generalize t.s2Find (hankOf w.core) w.vf (a / 2 ^ 18) = desc at hdesc ⊢
    obtain ⟨_ | g, t⟩ := desc
    · exact s2Miss_translated hdesc w _ _ _ _
    refine translated_ite hdesc ?_
    have hread := hdesc.trans ((Translated.updHank t (hankOf w.core) (fun h => { h with refs := h.refs + 1 })).trans
      (.readHome _ (.page (g.homeEntry w.vf (a / 2 ^ 18)) (a % 2 ^ 18 / 128)) w.reader))
    generalize State.readHome _ _ _ = x at hread ⊢
    refine translated_ite (hread.trans (.logEvent ..)) ?_
    generalize (if classOf x.2.1 = 0 then _ else _ : Nat) = entry
    refine translated_ite hread (translated_ite (hread.trans (.logEvent ..)) (translated_ite (translated_ite hread ?_) ?_))
    · have hleaf := hread.trans (.s2Find x.2.2 (hankOf w.core) w.vf ((entry / 2 ^ 20 % 2 ^ 34 * 2 ^ 18 + va % pageSize n) / 2 ^ 18))
      generalize x.2.2.s2Find (hankOf w.core) w.vf _ = leaf at hleaf ⊢
      obtain ⟨_ | d, v⟩ := leaf
      · exact s2Miss_translated hleaf w _ _ _ _
      · exact translated_ite hleaf (translated_ite hleaf (translated_ite hleaf hleaf))
    · exact ih _ _ _ (hread.trans (.updHank ..))

theorem walk_translated (s : State) (w : Walker) (va : Nat) (acc : Access) : (s.walk w va acc).translated w s := by
  have hfrom := walkFrom_translated w va acc (s.walkStart (hankOf w.core) w.vf va).1 s s (s.walkStart (hankOf w.core) w.vf va).2 (.refl s)
  unfold State.walk
  dsimp only
  generalize s.walkFrom w va acc _ _ = r at hfrom ⊢
  cases r with
  | ok t e => exact Translated.trans hfrom ((Translated.fillTlb t w.core w e).trans (.updHank ..))
  | fail t c => exact hfrom
  | park t i => exact hfrom

theorem translate_translated (s : State) (w : Walker) (va : Nat) (acc : Access) : (s.translate w va acc).translated w s := by
  have huse (t : State) (e : TlbEntry) :
      Translated t (if ((t.core w.core).micro w).contains e then t else t.updCore w.core (fun c => c.fillTlb w e)) :=
    .ite _ (.refl t) (.fillTlb ..)
  unfold State.translate
  dsimp only
  split
  · exact Translated.refl s
  · split
    · exact walk_translated ..
    · exact huse s _
    · rename_i e es _ _
      have hpick : Translated s (s.pick (es.length + 1)).2 := ⟨.of_same rfl rfl rfl rfl rfl, rfl, rfl, fun _ => rfl⟩
      exact hpick.trans (huse ..)

/-- A line that is located, or is not. -/
def LRes.translated (w : Walker) (s : State) : LRes → Prop
  | .ok u _ => Translated s u
  | .fail u _ => Translated s u
  | .park u _ => w.quiet = true → Translated s u

theorem locate_translated (s : State) (w : Walker) (a : Nat) (acc : Access) : (s.locate w a acc).translated w s := by
  unfold State.locate
  split
  · exact Translated.refl s
  · exact Translated.refl s
  · have htranslate := translate_translated s w a acc
    cases h : s.translate w a acc with
    | ok t e => rw [h] at htranslate; exact htranslate
    | fail t c => rw [h] at htranslate; exact htranslate
    | park t i => rw [h] at htranslate; exact htranslate

/-- A prefetch's, flush's or invalidation's line is looked for without a request (R116). -/
theorem quietly_translated (s : State) (w : Walker) (fronts : Nat × BufEntry → Bool) (a : Nat) (acc : Access) :
    Translated s (s.quietly w fronts a acc).2 := by
  have hlocate := locate_translated s { w with quiet := true, denied := [] } (s.resolveBy fronts s.me.vf a) acc
  unfold State.quietly
  cases h : s.locate { w with quiet := true, denied := [] } (s.resolveBy fronts s.me.vf a) acc with
  | ok t l => rw [h] at hlocate; exact hlocate
  | fail t c => rw [h] at hlocate; exact hlocate
  | park t i => rw [h] at hlocate; exact hlocate rfl

theorem checkScalar_translated {s u : State} {a : Word} {n : Nat} {acc : Access} {l : LineLoc} {off : Nat} {st : Bool}
    (h : s.checkScalar a n acc = .ok u l off st) : Translated s u := by
  have hlocate := locate_translated s s.walker (s.resolveMe a.toNat) acc
  unfold State.checkScalar at h
  split at h
  · cases h
  · split at h
    · rename_i ht
      rw [ht] at hlocate
      cases h
      exact hlocate
    · cases h
    · cases h

section
variable {s u : State} (h : Translated s u)
include h

theorem Translated.me : u.me = s.me := h.quiet.me

theorem Translated.evictsClean (hclean : s.evictsClean) : u.evictsClean := by
  intro c key l hl
  refine hclean c key l ?_
  unfold Core.l1Victim? Core.line? at hl ⊢
  rw [← h.l1 c]
  exact hl

/-- An access goes where it went before the translation (R223). -/
theorem Translated.resolveMe (a : Nat) : u.resolveMe a = s.resolveMe a := by
  unfold State.resolveMe State.resolve State.resolveBy State.vfPart State.vf? Part.buffer?
  rw [h.me, h.vfs, unlogged_bufs h.parts]

end

/-! ### Reads by a core (R27, R127, R158) -/

theorem readsOnly_of_quiet {s t u : State} (h : QuietRead s t) (hclean : s.evictsClean → t.evictsClean) (k : t.readsOnly u) :
    s.readsOnly u := by
  obtain ⟨kme, kpairs, kclean⟩ := k
  refine ⟨by rw [kme, h.me], kpairs.trans h.pairs, fun hc => ?_⟩
  obtain ⟨kme, kothers, kmem⟩ := kclean (hclean hc)
  refine ⟨kme.trans h.me, kothers.trans h.others, fun hq hw b => ?_⟩
  obtain ⟨hq, hw, hmem⟩ := h.quiet hq hw
  exact (kmem hq hw b).trans (hmem b)

theorem Translated.readsOnly_trans {s t u : State} (h : Translated s t) (k : t.readsOnly u) : s.readsOnly u :=
  readsOnly_of_quiet h.quiet h.evictsClean k

/-- A line put into an L1: what it evicts is clean, or is written back (R132). -/
theorem install_readsOnly (s : State) (core : Nat) (l : L1Line) : s.readsOnly (s.install core l) := by
  obtain ⟨hme, hpairs⟩ := install_writes s core l
  refine ⟨hme, hpairs, fun hclean => ?_⟩
  have hquiet : QuietRead s (s.install core l) := by
    unfold State.install
    dsimp only
    refine QuietRead.trans ?_ (updCore_quiet ..)
    split
    · rename_i v hv
      rw [if_pos (hclean core l.key v hv)]
      exact updCore_quiet ..
    · exact .refl s
  exact hquiet.readsOnly.2.2 hclean

theorem readUnder_translated (s : State) (core : Nat) (l : LineLoc) (e : TlbEntry) (j n : Nat) (r : Reader) :
    Translated s (s.readUnder core l e j n r).2.2 := by
  have hread := Translated.readHome s l r
  unfold State.readUnder
  dsimp only
  split
  · exact hread
  · split <;> exact hread

theorem loadLine_readsOnly (s : State) (core : Nat) (l : LineLoc) (hint : Nat) (r : Reader) :
    s.readsOnly (s.loadLine core l hint r).2.2 := by
  cases l with
  | store c i => exact (readHome_quiet ..).readsOnly
  | page e j =>
    unfold State.loadLine
    dsimp only
    split
    · exact (readUnder_translated ..).quiet.readsOnly
    · split
      · exact (updCore_quiet ..).readsOnly
      · have hread := Translated.readHome s (.page e j) { r with hint := hint }
        dsimp only
        split
        · exact hread.quiet.readsOnly
        · exact hread.readsOnly_trans (install_readsOnly ..)

end Sys2Proof.Machine
end

section
/-!
PROOFS. Scalar loads and prefetches (R189, R192), and scalar stores (R189, R335).
-/
namespace Sys2Proof.Machine

@[simp] theorem takeToken_reader (s : State) (t : BitVec 2) : (s.takeToken t).reader = s.reader := by
  simp [State.reader, Strand.coord]

/-- A misaligned scalar access traps with its address (R189). -/
theorem checkScalar_misaligned {a : Word} {n : Nat} (h : a.toNat % n ≠ 0) (s : State) (acc : Access) :
    s.checkScalar a n acc = .trap s causeMisaligned := if_pos h

/-- Nothing queued overlays a load (R335). -/
theorem forward_of_empty {t : Strand} (h : t.ssq = []) (l : LineLoc) (off n v : Nat) : t.forward l off n v = v := by
  rw [Strand.forward, h, List.foldl_nil]

/-- What a strand reads registers and issues with, after its address has been translated. -/
theorem Translated.reader {s u : State} (h : Translated s u) : u.reader = s.reader := by
  rw [State.reader, h.me, State.reader]

section
variable {s : State} {t : BitVec 2} (hready : s.ready t true = true)
include hready

/-! ### Loads -/

section
variable {a : BitVec 5} {imm : BitVec 12} {n : Nat}

theorem scalarLoad_misaligned (d : BitVec 5) (h : (s.reg a + s.immSI imm).toNat % n ≠ 0) :
    scalarLoad n d a imm t s = (s.takeToken t).takeTrap { cause := causeMisaligned, val := s.reg a + s.immSI imm } := by
  rw [scalarLoad, runAhead, runInstr_ready _ _ _ _ hready]
  simp only [takeToken_reg, takeToken_immSI, checkScalar_misaligned h]
  rfl

/-- SLD of `n` bytes from a line that is found, neither POISON nor UNINIT under STRICT. -/
theorem scalarLoad_does (d : BitVec 5) (hssq : s.me.ssq = []) {u : State} {l : LineLoc} {off : Nat} {st : Bool}
    (hplace : (s.takeToken t).checkScalar (s.reg a + s.immSI imm) n .read = .ok u l off st)
    (hwait : u.loadWaits (s.reg a + s.immSI imm).toNat n = false) {x : Line × Tag × State} (hx : u.loadLine s.me.core l 0 s.reader = x)
    (hpoison : classOf x.2.1 ≠ 2) (hstrict : classOf x.2.1 = 4 → st = false) :
    (s.takeToken t).readsOnly x.2.2
    ∧ scalarLoad n d a imm t s
        = .next ((x.2.2.setReg d (BitVec.ofNat 64 (if classOf x.2.1 = 4 then 0 else lineNat x.1 off n))).retires t) := by
  have hfound := checkScalar_translated hplace
  have hreads : (s.takeToken t).readsOnly x.2.2 := hx ▸ hfound.readsOnly_trans (loadLine_readsOnly ..)
  refine ⟨hreads, ?_⟩
  have hread : u.loadLine u.me.core l 0 u.reader = x := by rw [hfound.me, hfound.reader, takeToken_core, takeToken_reader, hx]
  have hnone : x.2.2.me.ssq = [] := by rw [hreads.1, takeToken_ssq, hssq]
  have hgoes : ¬(classOf x.2.1 = 4 ∧ st = true) := fun ⟨h4, hst⟩ => by rw [hstrict h4] at hst; cases hst
  rw [scalarLoad, runAhead]
  refine runInstr_retires hready ?_
  simp only [takeToken_reg, takeToken_immSI, hplace, hwait, hread, if_neg hgoes, forward_of_empty hnone, scalarPsn,
    beq_eq_false_iff_ne.2 hpoison, Bool.false_eq_true, if_false]

end

/-- SPF fills its line, where it is found without a request (R192). -/
theorem spf_does (h : BitVec 2) (a : BitVec 5) (imm : BitVec 12) :
    ∃ r : State, (s.takeToken t).readsOnly r ∧ exec (.spf h a imm t) s = .next (r.retires t) := by
  rw [exec_spf, execSpf, runAhead]
  have hfound := quietly_translated (s.takeToken t) (s.takeToken t).walker (fun b => b.2.front)
    ((s.takeToken t).reg a + (s.takeToken t).immSI imm).toNat .read
  rcases hline : (s.takeToken t).quietly (s.takeToken t).walker (fun b => b.2.front)
    ((s.takeToken t).reg a + (s.takeToken t).immSI imm).toNat .read with ⟨_ | l, u⟩ <;> rw [hline] at hfound
  · exact ⟨u, hfound.quiet.readsOnly, runInstr_retires hready (by simp only [hline])⟩
  · exact ⟨_, hfound.readsOnly_trans (loadLine_readsOnly u u.me.core l h.toNat u.reader), runInstr_retires hready (by simp only [hline])⟩

/-! ### Stores -/

section
variable {d a : BitVec 5} {imm : BitVec 12} {n : Nat} {u : State} {l : LineLoc} {off : Nat} {st : Bool}
  (hplace : (s.takeToken t).checkScalar (s.reg a + s.immSI imm) n .write = .ok u l off st)
include hplace

/-- The store of the low bytes of sd to the line that is found. -/
theorem scalarStore_stores (holder : s.me.older = false) {x : Option State × State}
    (hx : u.storeLine s.me.core l (untyped ((s.reg d).toNat % 2 ^ (8 * n)) off n) 0 s.me.pm s.reader (s.reg a + s.immSI imm) = x) :
    (∀ r, x.1 = some r → (s.takeToken t).writesOnly r ∧ scalarStore n d a imm t s = .next (r.retires t))
    ∧ (x.1 = none → scalarStore n d a imm t s = x.2.takeTrap { cause := causeChunk, val := s.reg a + s.immSI imm }) := by
  have hfound := checkScalar_translated hplace
  have hold : u.me.older = false := by rw [hfound.me, takeToken_older, holder]
  have hreg : u.reg d = s.reg d := by rw [State.reg, hfound.me]; exact takeToken_reg s t d
  have hstore : u.storeLine u.me.core l (untyped ((u.reg d).toNat % 2 ^ (8 * n)) off n) 0 u.me.pm u.reader (s.reg a + s.immSI imm) = x := by
    rw [hreg, hfound.me, hfound.reader, takeToken_core, takeToken_pm, takeToken_reader, hx]
  have hwrites := storeLine_writes u s.me.core l (untyped ((s.reg d).toNat % 2 ^ (8 * n)) off n) 0 s.me.pm s.reader (s.reg a + s.immSI imm)
  rw [hx] at hwrites
  obtain ⟨done, v⟩ := x
  refine ⟨fun r hr => ⟨writesOnly_trans ⟨by rw [hfound.me], hfound.quiet.pairs⟩ (by rw [hr] at hwrites; exact hwrites), ?_⟩, fun hr => ?_⟩
  · rw [scalarStore, runAhead]
    refine runInstr_retires hready ?_
    obtain rfl : done = some r := hr
    simp only [takeToken_reg, takeToken_immSI, hplace, hold, hstore, Bool.false_eq_true, if_false]
  · obtain rfl : done = none := hr
    rw [scalarStore, runAhead, runInstr_ready _ _ _ _ hready]
    simp only [takeToken_reg, takeToken_immSI, hplace, hold, hstore, Bool.false_eq_true, if_false]
    rfl

/-- With older vector work, a store that no growth can refuse enters the queue where there is room (R335). -/
theorem scalarStore_queues (holder : s.me.older = true) (hroom : s.me.ssq.length < 16)
    (hgrow : ∀ e j, l = .page e j → u.fitChecked e = false ∨ e.host = true) :
    scalarStore n d a imm t s = .next (State.retires { u with me := { u.me with ssq := u.me.ssq ++
      [⟨BitVec.ofNat 64 (s.resolveMe (s.reg a + s.immSI imm).toNat), n, BitVec.ofNat 64 ((s.reg d).toNat % 2 ^ (8 * n)), s.me.entered,
        s.me.pm, l.entry?, s.me.jrnlHead⟩] } } t) := by
  have hfound := checkScalar_translated hplace
  have hold : u.me.older = true := by rw [hfound.me, takeToken_older, holder]
  have hreg : u.reg d = s.reg d := by rw [State.reg, hfound.me]; exact takeToken_reg s t d
  have hroom' : ¬16 ≤ u.me.ssq.length := by rw [hfound.me, takeToken_ssq]; exact Nat.not_le.2 hroom
  have haddr : u.resolveMe (s.reg a + s.immSI imm).toNat = s.resolveMe (s.reg a + s.immSI imm).toNat := by
    rw [hfound.resolveMe, takeToken_resolveMe]
  have hentered : u.me.entered = s.me.entered := by rw [hfound.me, takeToken_entered]
  have hpm : u.me.pm = s.me.pm := by rw [hfound.me, takeToken_pm]
  have hhead : u.me.jrnlHead = s.me.jrnlHead := by rw [hfound.me, takeToken_jrnlHead]
  rw [scalarStore, runAhead]
  refine runInstr_retires hready ?_
  simp only [takeToken_reg, takeToken_immSI, hplace, hold, hroom', haddr, hreg, hentered, hpm, hhead, if_true, Bool.or_false, decide_false]
  refine if_neg ?_
  cases l with
  | store c i => exact Bool.false_ne_true
  | page e j => rcases hgrow e j rfl with h | h <;> simp [h]

end

end

/-- Settles O28: a load is a translation and then a read of its line, and both leave what reads leave; a prefetch asks for no page. -/
theorem scalarLoads : Obligations.ScalarLoads := by
  unfold Obligations.ScalarLoads
  intro s d a imm h t hready hssq w va loads
  have hloads (i : Instr) (n : Nat) (hexec : exec i s = scalarLoad n d a imm t s) : loads i n := by
    refine ⟨?_, fun hal => hexec.trans (scalarLoad_misaligned hready d hal)⟩
    intro u l off st hplace hwait x c hpoison hstrict
    obtain ⟨hreads, hdoes⟩ := scalarLoad_does hready d hssq hplace hwait rfl hpoison hstrict
    exact ⟨x.2.2, hreads, hexec.trans hdoes⟩
  exact ⟨hloads _ 1 rfl, hloads _ 2 rfl, hloads _ 4 rfl, hloads _ 8 rfl, spf_does hready h a imm⟩

/-- Settles O30: a store is a translation and then a write of its line, or an entry of the queue. -/
theorem scalarStores : Obligations.ScalarStores := by
  unfold Obligations.ScalarStores
  intro s d a imm t hready w va stores
  have hstores (i : Instr) (n : Nat) (hexec : exec i s = scalarStore n d a imm t s) : stores i n := by
    intro u l off st hplace v x
    have hnow (holder : s.me.older = false) := scalarStore_stores hready (d := d) hplace holder (x := x) rfl
    refine ⟨fun holder r hr => ?_, fun holder hr => hexec.trans ((hnow holder).2 hr), fun holder hroom hgrow => ?_⟩
    · obtain ⟨hwrites, hdoes⟩ := (hnow holder).1 r hr
      exact ⟨hwrites, hexec.trans hdoes⟩
    · exact ⟨hexec.trans (scalarStore_queues hready hplace holder hroom hgrow), (checkScalar_translated hplace).quiet.readsOnly⟩
  exact ⟨hstores _ 1 rfl, hstores _ 2 rfl, hstores _ 4 rfl, hstores _ 8 rfl⟩

end Sys2Proof.Machine
end

section
/-!
PROOFS. Scalar atomics and CLAIM at a local-store window (R102, R190, R191, R373).
-/
namespace Sys2Proof.Machine

/-! ### A read-modify-write of a window -/

/-- An aligned byte of a window has an aligned address. -/
theorem window_aligned {core a c off n : Nat} (hc : classify core a = .window c off) (hn : n ∣ 128) (ha : off % n = 0) : a % n = 0 := by
  rwa [classify_window hc, Nat.mod_mod_of_dvd _ (hn.trans (by decide))] at ha

section
variable {s : State} {a : Word} {c off n : Nat} (hw : Memory.wf s.mem = true) (hc : classify s.me.core a.toNat = .window c off)
  (hr : s.resolveMe a.toNat = a.toNat) (hbad : badTag (s.tagAt (storeLineNo c (off / 128))) = false) (hn : n ∣ 128) (ha : off % n = 0)
include hw hc hr hbad hn ha

/-- At a window a read-modify-write reads the bytes there and writes the low bytes of the value it gives, where it gives one. -/
theorem homeAtomic_window (hclass : classOf (s.tagAt (storeLineNo c (off / 128))) ≠ 2) (psn : Bool) (f : Nat → Option (Nat × Nat))
    (k : State → Nat → Eff) :
    ∃ u : State, homeAtomic a n psn f k s = k u (memNat s.mem (lsByte c off) n) ∧ s.writesOnly u
      ∧ (f (memNat s.mem (lsByte c off) n) = none → u.mem = s.mem)
      ∧ ∀ v m, f (memNat s.mem (lsByte c off) n) = some (v, m) → m ≤ n → memNat u.mem (lsByte c off) m = v % 2 ^ (8 * m)
        ∧ ∀ x, x < lsByte c off ∨ lsByte c off + m ≤ x → memGet u.mem x = memGet s.mem x := by
  have hplace := checkScalar_window s a n .atomic c off hc hr hn ha
  have hread : (s.writeBackAndDrop s.me.core (.store c (off / 128))).readHome (.store c (off / 128)) s.reader
      = (memLine s.mem (128 * storeLineNo c (off / 128)), s.tagAt (storeLineNo c (off / 128)), s) :=
    readRaw_high s false (s.partOfCore c) _ _ (storeLineNo_high ..) hbad
  have hval : lineNat (memLine s.mem (128 * storeLineNo c (off / 128))) (off % 128) n = memNat s.mem (lsByte c off) n := by
    rw [lineNat_memLine _ hw _ _ _ (aligned_in_line hn ha), ← lsByte_eq]
  have hgoes (e : State → Eff) : (if psn then scalarPsn s (classOf (s.tagAt (storeLineNo c (off / 128))) == 2) e else e s) = e s := by
    simp [scalarPsn, hclass]
  unfold homeAtomic
  simp only [hplace, hread, hval, hgoes]
  cases hf : f (memNat s.mem (lsByte c off) n) with
  | none => exact ⟨s, rfl, writesOnly_refl s, fun _ => rfl, nofun⟩
  | some w =>
    refine ⟨_, rfl, applyHome_store_writesOnly .., nofun, ?_⟩
    rintro v m hvm hm
    cases hvm
    exact applyHome_untyped s c off v m none s.reader hw (Nat.le_trans (by omega) (aligned_in_line hn ha))

end

/-! ### Operations of SAMO (Table 3 of R190) -/

/-- The operations of SAMO on words of `w` bits. -/
def amoBits {w : Nat} (op : Nat) (x y : BitVec w) : BitVec w :=
  match op with
  | 0 => x + y
  | 1 => x &&& y
  | 2 => x ||| y
  | 3 => x ^^^ y
  | 4 => if y.toInt < x.toInt then y else x
  | 5 => if x.toInt < y.toInt then y else x
  | 6 => if y.toNat < x.toNat then y else x
  | 7 => if x.toNat < y.toNat then y else x
  | _ => y

theorem signedOf_toNat {w : Nat} (hw : 0 < w) (x : BitVec w) : signedOf w x.toNat = x.toInt := by
  have hhalf : 2 ^ w = 2 * 2 ^ (w - 1) := by rw [← pow_succ', Nat.sub_add_cancel hw]
  unfold signedOf
  rw [Nat.mod_eq_of_lt x.isLt, BitVec.toInt_eq_toNat_cond]
  by_cases h : 2 ^ (w - 1) ≤ x.toNat
  · rw [if_pos h, if_neg (by omega)]
  · rw [if_neg h, if_pos (by omega)]

theorem samoValue_toNat {n : Nat} (hn : 0 < n) (op : Nat) (x y : BitVec (8 * n)) :
    samoValue op n x.toNat y.toNat = (amoBits op x y).toNat := by
  have hsigned (z : BitVec (8 * n)) : signedOf (8 * n) z.toNat = z.toInt := signedOf_toNat (by omega) z
  unfold samoValue amoBits
  simp only [hsigned]
  split
  · exact (BitVec.toNat_add ..).symm
  · exact (BitVec.toNat_and ..).symm
  · exact (BitVec.toNat_or ..).symm
  · exact (BitVec.toNat_xor ..).symm
  all_goals simp only [apply_ite BitVec.toNat]

/-! ### The instructions -/

section
variable {s : State} {t : BitVec 2} {d a : BitVec 5} {c off : Nat} (hready : s.ready t false = true) (hw : Memory.wf s.mem = true)
  (hc : classify s.me.core (s.reg a).toNat = .window c off) (hr : s.resolveMe (s.reg a).toNat = (s.reg a).toNat)
  (hbad : badTag (s.tagAt (storeLineNo c (off / 128))) = false) (hclass : classOf (s.tagAt (storeLineNo c (off / 128))) ≠ 2)
include hready hw hc hr hbad hclass

/-- SAMO and SCAS: sd takes the old value, and the bytes the new one where there is one. -/
theorem atomic_does {i : Instr} {n : Nat} {f : Nat → Option (Nat × Nat)} {body : State → Eff} (hexec : exec i s = runOrdered t body s)
    (hbody : body (s.takeToken t) = homeAtomic (s.reg a) n true f (fun u old => .done (u.setReg d (BitVec.ofNat 64 old))) (s.takeToken t))
    (hn : n ∣ 128) (ha : off % n = 0) {new : Nat}
    (hf : f (memNat s.mem (lsByte c off) n) = some (new, n) ∨ f (memNat s.mem (lsByte c off) n) = none ∧ new = memNat s.mem (lsByte c off) n) :
    ∃ u : State, exec i s = .next ((u.setReg d (BitVec.ofNat 64 (memNat s.mem (lsByte c off) n))).retires t)
      ∧ (s.takeToken t).writesOnly u ∧ memNat u.mem (lsByte c off) n = new % 2 ^ (8 * n)
      ∧ ∀ x, x < lsByte c off ∨ lsByte c off + n ≤ x → memGet u.mem x = memGet s.mem x := by
  obtain ⟨u, hu, hwrites, hkeeps, hstores⟩ := homeAtomic_window (s := s.takeToken t) (by simpa using hw) (by simpa using hc)
    (by simpa using hr) (by simpa using hbad) hn ha (by simpa using hclass) true f (fun u old => .done (u.setReg d (BitVec.ofNat 64 old)))
  rw [takeToken_mem] at hu hkeeps hstores
  refine ⟨u, hexec.trans (runInstr_retires hready (hbody.trans hu)), hwrites, ?_⟩
  rcases hf with hf | ⟨hf, rfl⟩
  · exact hstores new n hf (Nat.le_refl n)
  · rw [hkeeps hf, Nat.mod_eq_of_lt (memNat_lt ..)]
    exact ⟨rfl, fun _ _ => rfl⟩

theorem samo_does {i : Instr} {n : Nat} {op : Nat} {y : BitVec (8 * n)} {body : State → Eff} (hexec : exec i s = runOrdered t body s)
    (hbody : body (s.takeToken t) = homeAtomic (s.reg a) n true (fun old => some (samoValue op n old y.toNat, n))
      (fun u old => .done (u.setReg d (BitVec.ofNat 64 old))) (s.takeToken t))
    (hn : n ∣ 128) (hpos : 0 < n) (ha : off % n = 0) :
    ∃ u : State, exec i s = .next ((u.setReg d (BitVec.ofNat 64 (memNat s.mem (lsByte c off) n))).retires t)
      ∧ (s.takeToken t).writesOnly u
      ∧ memNat u.mem (lsByte c off) n = (amoBits op (BitVec.ofNat (8 * n) (memNat s.mem (lsByte c off) n)) y).toNat
      ∧ ∀ x, x < lsByte c off ∨ lsByte c off + n ≤ x → memGet u.mem x = memGet s.mem x := by
  have hold : (BitVec.ofNat (8 * n) (memNat s.mem (lsByte c off) n)).toNat = memNat s.mem (lsByte c off) n :=
    toNat_ofNat_lt _ _ (memNat_lt ..)
  have hval := samoValue_toNat hpos op (BitVec.ofNat (8 * n) (memNat s.mem (lsByte c off) n)) y
  rw [hold] at hval
  have h := atomic_does hready hw hc hr hbad hclass hexec hbody hn ha (.inl rfl)
  rwa [hval, Nat.mod_eq_of_lt (BitVec.isLt _)] at h

theorem scas_does {i : Instr} {n : Nat} {x y : Nat} {body : State → Eff} (hexec : exec i s = runOrdered t body s)
    (hbody : body (s.takeToken t) = homeAtomic (s.reg a) n true (fun old => if old = x then some (y, n) else none)
      (fun u old => .done (u.setReg d (BitVec.ofNat 64 old))) (s.takeToken t))
    (hn : n ∣ 128) (ha : off % n = 0) (hy : y < 2 ^ (8 * n)) :
    ∃ u : State, exec i s = .next ((u.setReg d (BitVec.ofNat 64 (memNat s.mem (lsByte c off) n))).retires t)
      ∧ (s.takeToken t).writesOnly u
      ∧ memNat u.mem (lsByte c off) n = (if memNat s.mem (lsByte c off) n = x then y else memNat s.mem (lsByte c off) n)
      ∧ ∀ x, x < lsByte c off ∨ lsByte c off + n ≤ x → memGet u.mem x = memGet s.mem x := by
  by_cases hold : memNat s.mem (lsByte c off) n = x
  · have h := atomic_does hready hw hc hr hbad hclass hexec hbody hn ha (.inl (if_pos hold))
    rw [Nat.mod_eq_of_lt hy] at h
    rwa [if_pos hold]
  · have h := atomic_does hready hw hc hr hbad hclass hexec hbody hn ha (.inr ⟨if_neg hold, rfl⟩)
    rw [Nat.mod_eq_of_lt (memNat_lt ..)] at h
    rwa [if_neg hold]

end

/-! ### CLAIM -/

/-- What a CLAIM is granted of the elements from NEXT to LIMIT (R373). -/
def State.claimGrant (s : State) (b : BitVec 5) (next limit : Nat) : Nat :=
  let req := if s.reg b = 0 then s.me.vlmax else (s.reg b).toNat
  if limit ≤ next then 0 else min (min req (limit - next)) s.me.vlmax

/-- The end of a CLAIM that found NEXT and was granted `g`. -/
def State.claimed (u : State) (d : BitVec 5) (next g : Nat) : State :=
  State.setReg { u with me := { u.me with vl := g, vstart := 0, rstart := 0 } } d
    (if 0 < g then BitVec.ofNat 64 next else BitVec.allOnes 64)

theorem takeToken_claimGrant (s : State) (t : BitVec 2) (b : BitVec 5) : (s.takeToken t).claimGrant b = s.claimGrant b := by
  have hvlmax : (s.takeToken t).me.vlmax = s.me.vlmax := congrArg (fun x => x.me.vlmax) (takeToken_noTok s t)
  unfold State.claimGrant
  rw [takeToken_reg, hvlmax]

theorem execClaim_eq (d a b : BitVec 5) (t : BitVec 2) (s : State) : execClaim d a b t s = runOrdered t (fun s =>
    if s.me.ill then trapI s causeVtype (wordSR 0x60 d a b 0 0 t)
    else if (s.reg a).toNat % 16 ≠ 0 then trapAt s causeMisaligned (s.reg a) 0 0
    else homeAtomic (s.reg a) 16 false (fun x => some ((x + s.claimGrant b (x % 2 ^ 64) (x / 2 ^ 64)) % 2 ^ 64, 8))
      (fun u x => .done (u.claimed d (x % 2 ^ 64) (s.claimGrant b (x % 2 ^ 64) (x / 2 ^ 64)))) s) s := rfl

section
variable {s : State} {t : BitVec 2} {a : BitVec 5} {c off : Nat} (hready : s.ready t false = true) (hw : Memory.wf s.mem = true)
  (hc : classify s.me.core (s.reg a).toNat = .window c off) (hr : s.resolveMe (s.reg a).toNat = (s.reg a).toNat)
  (hbad : badTag (s.tagAt (storeLineNo c (off / 128))) = false) (hclass : classOf (s.tagAt (storeLineNo c (off / 128))) ≠ 2)
include hready hw hc hr hbad hclass

theorem claim_does (d b : BitVec 5) (ha : off % 16 = 0) (hill : s.me.ill = false) {next g : Nat}
    (hnext : next = memNat s.mem (lsByte c off) 8) (hg : g = s.claimGrant b next (memNat s.mem (lsByte c off + 8) 8)) :
    ∃ u : State, (s.takeToken t).writesOnly u ∧ exec (.claim d a b t) s = .next ((u.claimed d next g).retires t)
      ∧ memNat u.mem (lsByte c off) 8 = (next + g) % 2 ^ 64
      ∧ ∀ x, x < lsByte c off ∨ lsByte c off + 8 ≤ x → memGet u.mem x = memGet s.mem x := by
  have hnextlt : next < 2 ^ 64 := hnext ▸ memNat_lt s.mem (lsByte c off) 8
  have hsplit : memNat s.mem (lsByte c off) 16 = next + 2 ^ 64 * memNat s.mem (lsByte c off + 8) 8 := by
    rw [hnext]
    exact memNat_append s.mem (lsByte c off) 8 8
  have hlow : memNat s.mem (lsByte c off) 16 % 2 ^ 64 = next := by rw [hsplit]; omega
  have hhigh : memNat s.mem (lsByte c off) 16 / 2 ^ 64 = memNat s.mem (lsByte c off + 8) 8 := by rw [hsplit]; omega
  obtain ⟨u, hu, hwrites, -, hstores⟩ := homeAtomic_window (s := s.takeToken t) (by simpa using hw) (by simpa using hc)
    (by simpa using hr) (by simpa using hbad) (n := 16) (by decide) ha (by simpa using hclass) false
    (fun x => some ((x + s.claimGrant b (x % 2 ^ 64) (x / 2 ^ 64)) % 2 ^ 64, 8))
    (fun u x => .done (u.claimed d (x % 2 ^ 64) (s.claimGrant b (x % 2 ^ 64) (x / 2 ^ 64))))
  rw [takeToken_mem] at hu hstores
  simp only [hlow, hhigh, ← hg] at hu hstores
  obtain ⟨hbytes, hothers⟩ := hstores _ 8 rfl (by decide)
  have hal : (s.reg a).toNat % 16 = 0 := window_aligned hc (by decide) ha
  refine ⟨u, hwrites, ?_, ?_, hothers⟩
  · rw [exec_claim, execClaim_eq]
    refine runInstr_retires hready ?_
    simp only [takeToken_ill, hill, takeToken_reg, hal, takeToken_claimGrant, Bool.false_eq_true, if_false, ne_eq, not_true_eq_false]
    exact hu
  · rw [hbytes, hsplit]
    omega

end

/-- Settles O32: each is one read-modify-write of the window's bytes; SAMO's operations are those of words of its size. -/
theorem scalarAtomics : Obligations.ScalarAtomics := by
  unfold Obligations.ScalarAtomics
  intro s d a b e o t c off hready hw va tag hc hr hbad hclass p does amo old4 old8
  have hamo (k : Nat) (x y : BitVec k) : amo k x y = (amoBits o.toNat x y).toNat := rfl
  refine ⟨fun ha _ => ?_, fun ha _ => ?_, fun ha => ?_, fun ha => ?_, fun ha hill => ?_⟩
  · rw [hamo]
    refine samo_does hready hw hc hr hbad hclass (n := 4) (exec_samo32 ..) ?_ (by decide) (by decide) ha
    simp only [takeToken_reg, BitVec.toNat_setWidth]
  · rw [hamo]
    refine samo_does hready hw hc hr hbad hclass (n := 8) (exec_samo64 ..) ?_ (by decide) (by decide) ha
    simp only [takeToken_reg]
  · refine scas_does hready hw hc hr hbad hclass (exec_scas32 ..) ?_ (by decide) ha (Nat.mod_lt _ (by decide))
    simp only [takeToken_reg]
  · refine scas_does hready hw hc hr hbad hclass (exec_scas64 ..) ?_ (by decide) ha (s.reg e).isLt
    simp only [takeToken_reg]
  · exact claim_does hready hw hc hr hbad hclass d b ha hill rfl rfl

end Sys2Proof.Machine
end

section
/-!
PROOFS. VLDTAG with the record of an element that its group does not have (R197).
-/
namespace Sys2Proof.Machine

/-- The record of a VLDTAG held in the VLSU that has read elements 0 and 1 (R116). -/
def twoRead : Progress := { taken := [⟨⟨0, 0, .store 0 0⟩, 0, zeroTag⟩, ⟨⟨1, 128, .store 0 1⟩, 0, zeroTag⟩] }

/-- A strand whose group has one element of 32 bits, under that record. -/
def strayElement : State :=
  { State.reset with me := { State.reset.me with ill := false, sew := 4, vl := 1, rc := 1, done_ := some twoRead } }

/-- What VLDTAG finds in it: both elements have been read, so none is left. -/
def strayFound : Found := ⟨strayElement, [], none, []⟩

/-- The premises of O43 on VLDTAG hold in it. -/
theorem strayElement_premises :
    strayElement.ready 0 false = true ∧ strayElement.me.wmBind.getLsbD 14 = false
    ∧ strayElement.me.memIll ⟨wordVM 0xCC 2 1 0 0 0 0, .tags, 1, 0, 0, .read, false⟩ [2] = false
    ∧ strayElement.indexPoison ⟨wordVM 0xCC 2 1 0 0 0 0, .tags, 1, 0, 0, .read, false⟩ = false
    ∧ strayElement.todo ⟨wordVM 0xCC 2 1 0 0 0 0, .tags, 1, 0, 0, .read, false⟩ twoRead = []
    ∧ strayElement.me.rc = 1 := by decide +kernel

/-- Refutes O43, in its clause on VLDTAG: nothing bounds the elements that the record of a held instruction names by the group. In
`strayElement` element 1 of a group of one row is recorded, and its tag word goes to the row after the group. -/
theorem not_vectorLoads : ¬ Obligations.VectorLoads := by
  intro h
  obtain ⟨hready, hwm, hlegal, hclean, htodo, hrc⟩ := strayElement_premises
  obtain ⟨-, -, -, -, -, -, htags, -⟩ := h strayElement 2 1 0 0 0 0 0 0 0 hready hwm
  have hfinds : findElems ⟨wordVM 0xCC 2 1 0 0 0 0, .tags, 1, 0, 0, .read, false⟩ twoRead false
      (strayElement.todo ⟨wordVM 0xCC 2 1 0 0 0 0, .tags, 1, 0, 0, .read, false⟩ twoRead) strayElement = strayFound := by
    rw [htodo]
    rfl
  obtain ⟨-, -, -, hrows⟩ := htags strayFound ⟨hlegal, hclean, hfinds, rfl, rfl⟩
  have hrow := hrows 3 (.inr (by rw [hrc]; decide))
  exact absurd (congrArg Row.tag hrow) (by decide +kernel)

end Sys2Proof.Machine
end

section
/-!
SUPPORT. Vector stores whose elements are all found and accepted: what they write, and what they leave of the strand (R116, R177,
R181, R195).
-/
namespace Sys2Proof.Machine

/-! ### Registers, masks and rows -/

/-- Registers, masks and rows stay. -/
def State.keepsFiles (s u : State) : Prop := u.me.regs = s.me.regs ∧ u.me.masks = s.me.masks ∧ u.me.rows = s.me.rows

theorem keepsFiles_trans {s t u : State} (h : s.keepsFiles t) (k : t.keepsFiles u) : s.keepsFiles u := by
  obtain ⟨hregs, hmasks, hrows⟩ := h
  obtain ⟨kregs, kmasks, krows⟩ := k
  exact ⟨kregs.trans hregs, kmasks.trans hmasks, krows.trans hrows⟩

theorem takeToken_keepsFiles (s : State) (t : BitVec 2) : s.keepsFiles (s.takeToken t) := by simp [State.keepsFiles]

theorem accessOnly_keepsFiles {s u : State} (h : s.accessOnly u) : s.keepsFiles u := by
  unfold State.keepsFiles
  rw [h]
  exact ⟨rfl, rfl, rfl⟩

/-! ### Writes of a line -/

/-- A way to write lines leaves the strand but for links and flags, performed or refused. -/
def LineWrite.accessOnly (put : LineWrite) : Prop :=
  ∀ (s : State) (l : LineLoc) (w : Write) (va : Word), s.accessOnly ((put s l w va).1.getD (put s l w va).2)

theorem storeThrough_writes (s : State) (core : Nat) (l : LineLoc) (w : Write) (priv : Bool) (r : Reader) (va : Word) :
    s.writesOnly ((s.storeThrough core l w priv r va).1.getD (s.storeThrough core l w priv r va).2) := by
  cases l with
  | store c i => exact (applyHome_homes s (.store c i) w none r).writes
  | page e j =>
    by_cases hfit : s.fitChecked e ∧ !e.host
    · -- a fit-checked line is stored as an uncached one is
      have hsame : s.storeThrough core (.page e j) w priv r va = s.storeLine core (.page e j) w 0 priv r va := by
        simp only [State.storeThrough, State.storeLine, if_pos hfit]
      rw [hsame]
      exact storeLine_writes ..
    · simp only [State.storeThrough, if_neg hfit]
      exact writesOnly_trans (applyHome_homes ..).writes (refreshL1_writes ..)

theorem writePlain_accessOnly (hint : Nat) : (writePlain hint).accessOnly := fun _ _ _ _ => writesOnly_accessOnly (storeLine_writes ..)

theorem writeLevel_accessOnly (scope : Nat) : (writeLevel scope).accessOnly := fun s l w va => by
  unfold writeLevel
  dsimp only
  split
  · exact writesOnly_accessOnly (storeLine_writes ..)
  · exact writesOnly_accessOnly (storeThrough_writes ..)

section
variable {put : LineWrite} (hput : put.accessOnly)
include hput

theorem LineWrite.accessOnly.done {s t u : State} {l : LineLoc} {w : Write} {va : Word} (h : put s l w va = (some t, u)) :
    s.accessOnly t := by
  have hwrite := hput s l w va
  rwa [h] at hwrite

theorem LineWrite.accessOnly.refused {s u : State} {l : LineLoc} {w : Write} {va : Word} (h : put s l w va = (none, u)) :
    s.accessOnly u := by
  have hwrite := hput s l w va
  rwa [h] at hwrite

/-! ### Elements of a store -/

theorem flushRun_accessOnly (s : State) (run : Option Run) : s.accessOnly (flushRun put s run).1 := by
  unfold flushRun
  split
  · exact accessOnly_refl s
  · dsimp only
    split
    · rename_i hwrite
      exact accessOnly_trans (hput.done hwrite) (raise_accessOnly ..)
    · rename_i hwrite
      exact hput.refused hwrite

/-- A store leaves the strand but for links and flags, wherever it ends. -/
theorem storeElems_accessOnly (k : BitVec 3) (gather : Bool) (rows : Nat → Row) (es : List Elem) : ∀ (run : Option Run) (s : State),
    s.accessOnly (storeElems k gather put rows es run s).1 := by
  induction es with
  | nil => exact fun run s => flushRun_accessOnly hput s run
  | cons e es ih =>
    intro run s
    have hflush := flushRun_accessOnly hput s run
    unfold storeElems
    extract_lets row b own off new joins stop y
    split
    · exact ih _ s
    · split
      · exact hflush
      · split
        · rename_i z hz
          exact accessOnly_trans hflush (storeCause_accessOnly (fun _ _ _ _ h => hput.refused h) hz)
        · exact accessOnly_trans hflush (ih ..)

end

/-! ### All elements found -/

/-- The elements that an instruction finds where it stands, in a legal configuration: none faults, none waits. -/
structure State.FindsHere (v : State) (x : MemOp) (groups : List (BitVec 5)) (r : Found) : Prop where
  legal : v.me.memIll x groups = false
  clean : v.indexPoison x = false
  found : findElems x (v.progress x.k) false (v.todo x (v.progress x.k)) v = r
  placed : r.fault = none
  settled : r.pending = []

section
variable {v : State} {x : MemOp} {groups : List (BitVec 5)} {r : Found} (h : v.FindsHere x groups r)
include h

theorem State.FindsHere.me : r.s.me = v.me := by
  obtain ⟨-, -, hfound, hplaced, hsettled⟩ := h
  subst hfound
  exact (findElems_allOf _ _ _ _ _ hplaced hsettled).1.me

theorem State.FindsHere.withElems (gated : Bool) (hgate : gated = false) (f : Progress → Found → Eff) :
    withElems x groups gated f v = f (v.progress x.k) r := by
  obtain ⟨hlegal, hclean, hfound, -, -⟩ := h
  subst hgate
  simp only [Machine.withElems, withStart, hlegal, hclean, consume, hfound]
  rfl

theorem State.FindsHere.storeAll (ordered gather : Bool) (put : LineWrite) (rows : Nat → Row) (fin : State → Option ElemFault → Eff) :
    storeAll x groups ordered gather put rows fin v
      = fin (storeElems x.k gather put rows r.elems none r.s).1 (storeElems x.k gather put rows r.elems none r.s).2 := by
  have hfirst (f : Option ElemFault) : firstFault f none = f := by cases f <;> rfl
  unfold Machine.storeAll
  rw [h.withElems false rfl]
  simp only [h.settled, h.placed, hfirst]

theorem State.FindsHere.storeElems_keepsFiles {put : LineWrite} (hput : put.accessOnly) (k : BitVec 3) (gather : Bool) (rows : Nat → Row) :
    v.keepsFiles (storeElems k gather put rows r.elems none r.s).1 :=
  accessOnly_keepsFiles (accessOnly_trans (accessOnly_of_me h.me) (storeElems_accessOnly hput ..))

end

theorem withStart_illegal {v : State} {x : MemOp} {groups : List (BitVec 5)} (h : v.me.memIll x groups = true) (gated : Bool)
    (f : Progress → State → Eff) : withStart x groups gated f v = trap00 v causeVtype x.word := if_pos h

/-- An ordered instruction that issues and traps VTYPE_ILLEGAL (R177). -/
theorem traps_vtype {s : State} {t : BitVec 2} {i : Instr} {body : State → Eff} {word : Word} (hready : s.ready t false = true)
    (hexec : exec i s = runOrdered t body s) (hbody : body (s.takeToken t) = trap00 (s.takeToken t) causeVtype word) :
    exec i s = (s.takeToken t).takeTrap { cause := causeVtype, val := word } := by
  rw [hexec, runOrdered, runInstr_ready _ _ _ _ hready, hbody]
  rfl

/-! ### Stores -/

section
variable {s v : State} {t : BitVec 2} {i : Instr} {x : MemOp} {groups : List (BitVec 5)} {ordered gather : Bool} {put : LineWrite}
  {rows : Nat → Row} {fin : State → Option ElemFault → Eff} {body : State → Eff} {r : Found}
  (hready : s.ready t false = true) (hexec : exec i s = runOrdered t body s)
include hready hexec

/-- A store that goes on from `v`, of whose elements all are found and none is refused. -/
theorem store_does (hbody : body (s.takeToken t) = storeAll x groups ordered gather put rows fin v)
    (hfin : ∀ u, fin u none = .done u.clearStart) (hput : put.accessOnly) (hv : s.keepsFiles v) (h : v.FindsHere x groups r)
    (hdone : (storeElems x.k gather put rows r.elems none r.s).2 = none) :
    exec i s = .next ((storeElems x.k gather put rows r.elems none r.s).1.clearStart.retires t)
    ∧ s.keepsFiles (storeElems x.k gather put rows r.elems none r.s).1 := by
  refine ⟨hexec.trans (runInstr_retires hready ?_), keepsFiles_trans hv (h.storeElems_keepsFiles hput ..)⟩
  rw [hbody, h.storeAll, hdone, hfin]

end

end Sys2Proof.Machine
end

section
/-!
PROOFS. Vector stores, VZERO and the line actions (R177, R180, R185, R195–R198).
-/
namespace Sys2Proof.Machine

/-! ### The state a release leaves (R134, R169) -/

/-- Links and the counts of capped scopes apart, the strand stays; so do the partitions but for their logs. -/
structure State.ScopesOnly (s u : State) : Prop where
  me : u.me = { s.me with links := u.me.links, scopeCount := u.me.scopeCount, scopeSticky := u.me.scopeSticky }
  parts : u.unlogged = s.unlogged

theorem clampScope_scopesOnly (s : State) (n : Nat) : s.ScopesOnly (s.clampScope n).2 := by
  unfold State.clampScope
  extract_lets capped
  split <;> exact ⟨rfl, rfl⟩

theorem clampOnce_scopesOnly (s : State) (n : Nat) : s.ScopesOnly (s.clampOnce n).2 := by
  unfold State.clampOnce
  dsimp only
  split
  · exact ⟨rfl, rfl⟩
  · exact clampScope_scopesOnly s n

theorem clampOnce_scope (s : State) (n : Nat) : (s.clampOnce n).1 = (s.clampScope n).1 := by
  unfold State.clampOnce
  dsimp only
  split <;> rfl

theorem release_scopesOnly {s t : State} (h : s.ScopesOnly t) (scope : Nat) : s.ScopesOnly (t.release scope) := by
  have hme : (t.release scope).me = { t.me with links := (t.release scope).me.links } :=
    bare_eq_iff.1 (congrArg Outline.me (release_outline t scope))
  refine ⟨?_, (release_unlogged t scope).trans h.parts⟩
  rw [hme, h.me]

section
variable {s u : State} (h : s.ScopesOnly u)
include h

theorem State.ScopesOnly.keepsFiles : s.keepsFiles u := by
  unfold State.keepsFiles
  rw [h.me]
  exact ⟨rfl, rfl, rfl⟩

theorem State.ScopesOnly.memIll : u.me.memIll = s.me.memIll := by
  rw [h.me]
  rfl

theorem State.ScopesOnly.progress (k : BitVec 3) : u.progress k = s.progress k := by
  unfold State.progress State.fronts
  rw [unlogged_bufs h.parts, h.me]
  rfl

end

/-! ### Stores of rows -/

theorem State.FindsHere.takeToken {s : State} {t : BitVec 2} {x : MemOp} {groups : List (BitVec 5)} {r : Found}
    (h : s.me.memIll x groups = false ∧ s.indexPoison x = false
      ∧ findElems x ((s.takeToken t).progress x.k) false ((s.takeToken t).todo x ((s.takeToken t).progress x.k)) (s.takeToken t) = r
      ∧ r.fault = none ∧ r.pending = []) : (s.takeToken t).FindsHere x groups r := by
  obtain ⟨hlegal, hclean, hfound, hplaced, hsettled⟩ := h
  exact ⟨by rw [takeToken_memIll, hlegal], by rw [takeToken_indexPoison, hclean], hfound, hplaced, hsettled⟩

section
variable {s : State} {t : BitVec 2} {i : Instr} {d : BitVec 5} (hready : s.ready t false = true)
include hready

/-- A store of the rows at `d`: with all elements found and none refused it completes, and in an illegal group it traps. -/
theorem storeRows_does {x : MemOp} {ordered gather : Bool} {put : LineWrite} (hput : put.accessOnly)
    (hexec : exec i s = runOrdered t (fun s => storeAll x [d] ordered gather put (fun r => s.me.row (d.toNat + r)) finishMem s) s) :
    (∀ r, (s.takeToken t).FindsHere x [d] r → (storeElems x.k gather put (fun r => s.me.row (d.toNat + r)) r.elems none r.s).2 = none →
      exec i s = .next ((storeElems x.k gather put (fun r => s.me.row (d.toNat + r)) r.elems none r.s).1.clearStart.retires t)
      ∧ s.keepsFiles (storeElems x.k gather put (fun r => s.me.row (d.toNat + r)) r.elems none r.s).1)
    ∧ (s.me.memIll x [d] = true → exec i s = (s.takeToken t).takeTrap { cause := causeVtype, val := x.word }) := by
  refine ⟨fun r h hdone => ?_, fun hill => traps_vtype hready hexec ?_⟩
  · refine store_does hready hexec (fin := finishMem) (ordered := ordered) ?_ (fun _ => rfl) hput (takeToken_keepsFiles s t) h hdone
    simp only [takeToken_row]
  · rw [← takeToken_memIll s t] at hill
    unfold storeAll withElems
    exact withStart_illegal hill _ _

end

/-- What a VSTR stores from: its token taken and, where it starts, its scope counted and its release made (R195). -/
def State.vstrStart (s : State) (n : Nat) : State :=
  if s.me.done_.isSome then (s.clampOnce n).2 else (s.clampOnce n).2.release (s.clampScope n).1

theorem vstrStart_scopesOnly (s : State) (n : Nat) : s.ScopesOnly (s.vstrStart n) := by
  unfold State.vstrStart
  split
  · exact clampOnce_scopesOnly s n
  · exact release_scopesOnly (clampOnce_scopesOnly s n) _

section
variable {s : State} {t : BitVec 2} {d a b : BitVec 5} {k : BitVec 3} {scope : BitVec 3} (hready : s.ready t false = true)
include hready

theorem vstr_does {x : MemOp} (hx : x = ⟨wordVM 0xC9 d a b k scope.toNat t, .unit, a, b, k, .write, false⟩) {v : State}
    (hv : v = (s.takeToken t).vstrStart scope.toNat) {put : LineWrite} (hput : put = writeLevel ((s.takeToken t).clampScope scope.toNat).1)
    {r : Found} (hlegal : s.me.memIll x [d] = false)
    (hfound : findElems x ((s.takeToken t).progress k) false (v.todo x ((s.takeToken t).progress k)) v = r) (hplaced : r.fault = none)
    (hsettled : r.pending = []) {q : State × Option ElemFault}
    (hq : q = storeElems k true put (fun i => s.me.row (d.toNat + i)) r.elems none r.s) (hdone : q.2 = none) :
    exec (.vstr d a b k scope t) s = .next (q.1.clearStart.retires t) ∧ s.keepsFiles q.1 := by
  have hstart : (s.takeToken t).ScopesOnly v := hv ▸ vstrStart_scopesOnly ..
  have hfiles := keepsFiles_trans (takeToken_keepsFiles s t) hstart.keepsFiles
  have hhere : v.FindsHere x [d] r := by
    refine ⟨by rw [hstart.memIll, takeToken_memIll, hlegal], by rw [hx]; rfl, ?_, hplaced, hsettled⟩
    subst hx
    rw [hstart.progress, hfound]
  have hrow (r : Nat) : v.me.row r = s.me.row r := by
    obtain ⟨-, -, hrows⟩ := hfiles
    rw [Strand.row, hrows]
    rfl
  subst hx hput hq
  refine store_does hready (exec_vstr ..) (ordered := true) (fin := finishMem) ?_ (fun _ => rfl) (writeLevel_accessOnly _) hfiles hhere
    hdone
  simp only [takeToken_memIll, hlegal, clampOnce_scope, Bool.false_eq_true, if_false]
  rw [← State.vstrStart, ← hv]
  simp only [hrow]

theorem vstr_traps (hill : s.me.memIll ⟨wordVM 0xC9 d a b k scope.toNat t, .unit, a, b, k, .write, false⟩ [d] = true) :
    exec (.vstr d a b k scope t) s
      = (s.takeToken t).takeTrap { cause := causeVtype, val := wordVM 0xC9 d a b k scope.toNat t } := by
  refine traps_vtype hready (exec_vstr ..) (if_pos ?_)
  rw [takeToken_memIll, hill]

end

end Sys2Proof.Machine
end

section
/-!
PROOFS. VSTQ, VZERO and the line actions (R180, R196, R198), and the stores together (R195).
-/
namespace Sys2Proof.Machine

/-! ### VSTQ -/

/-- Tokens and vector queues are fields of their own of a pair. -/
theorem setTokens_q (s : State) (f n : Nat) : ((s.setTokens f n).pair s.me.pairNo).q = (s.pair s.me.pairNo).q := by
  have hset (p : Pair) : (s.setPair s.me.pairNo p).pair s.me.pairNo = p := look_put_same ..
  unfold State.setTokens
  dsimp only
  split
  case h_1 => rw [hset]; split <;> rfl
  case h_6 => rw [hset]; split <;> rfl
  all_goals rfl

theorem takeToken_vq (s : State) (t : BitVec 2) (q : Nat) : (s.takeToken t).vq q = s.vq q := by
  have hpair : (s.takeToken t).me.pairNo = s.me.pairNo := by simp [Strand.pairNo]
  unfold State.vq
  rw [hpair]
  unfold State.takeToken
  split
  · exact congrArg (fun l => l.getD q []) (setTokens_q ..)
  · rfl

theorem takeToken_poppedBefore (s : State) (t : BitVec 2) : (s.takeToken t).me.poppedBefore = s.me.poppedBefore := by
  simp [Strand.poppedBefore]

theorem takeToken_writesQ (s : State) (t : BitVec 2) (q : Nat) : (s.takeToken t).me.writesQ q = s.me.writesQ q := by
  simp [Strand.writesQ]

/-- The entries that a VSTQ stores: those that it took before, or those that it takes now (R196). -/
def State.vstqEntries (s : State) (q : Nat) : List QEntry := s.me.poppedBefore.getD ((s.vq q).take s.me.rc)

/-- What a VSTQ with this progress stores from: the queue without the entries that it takes now. -/
def State.vstqStart (s : State) (q : Nat) (pr : Progress) : State :=
  let u := if s.me.poppedBefore.isSome then s else s.setVq q ((s.vq q).drop s.me.rc)
  { u with me := { u.me with done_ := some pr } }

theorem vstqStart_me (s : State) (q : Nat) (pr : Progress) : (s.vstqStart q pr).me = { s.me with done_ := some pr } := by
  unfold State.vstqStart
  split <;> rfl

theorem vstqStart_keepsFiles (s : State) (q : Nat) (pr : Progress) : s.keepsFiles (s.vstqStart q pr) := by
  unfold State.keepsFiles
  rw [vstqStart_me]
  exact ⟨rfl, rfl, rfl⟩

/-- The entries of a VSTQ are there: it took them before, or its queue is one that it reads and holds them (R196). -/
def State.vstqReady (s : State) (q : Nat) : Prop :=
  s.me.poppedBefore = none → s.me.writesQ q = false ∧ s.me.rc ≤ (s.vq q).length

/-- How a VSTQ ends: its trap keeps its entries. -/
def endVstq (es : List QEntry) (u : State) (f : Option ElemFault) : Eff :=
  match f with
  | some f => trapElemAt u f (some ([], es))
  | none => .done u.clearStart

section
variable {s : State} {t : BitVec 2} {d a b : BitVec 5} {k : BitVec 3} {h : BitVec 2} (hready : s.ready t false = true)
include hready

theorem vstq_does {x : MemOp} (hx : x = ⟨wordVM 0xC7 d a b k h.toNat t, .unit, a, b, k, .write, false⟩) {es : List QEntry} {pr : Progress}
    {v : State} (hes : es = (s.takeToken t).vstqEntries d.toNat) (hpr : pr = { (s.takeToken t).progress k with popped := some es })
    (hv : v = (s.takeToken t).vstqStart d.toNat pr) (hentries : (s.takeToken t).vstqReady d.toNat) {r : Found}
    (hlegal : s.me.memIll x [] = false) (hfound : findElems x pr false (v.todo x pr) v = r) (hplaced : r.fault = none)
    (hsettled : r.pending = []) {q : State × Option ElemFault}
    (hq : q = storeElems k true (writePlain h.toNat) (fun i => (es[i]?.map (fun e => e.row)).getD {}) r.elems none r.s)
    (hdone : q.2 = none) : exec (.vstq d a b k h t) s = .next (q.1.clearStart.retires t) ∧ s.keepsFiles q.1 := by
  have hme : v.me = { (s.takeToken t).me with done_ := some pr } := hv ▸ vstqStart_me ..
  have hprogress : v.progress x.k = pr := by rw [State.progress, hme]; rfl
  have hhere : v.FindsHere x [] r := by
    refine ⟨?_, by rw [hx]; rfl, by rw [hprogress, hfound], hplaced, hsettled⟩
    rw [← hlegal, ← takeToken_memIll s t, hme]
    rfl
  have hfiles : s.keepsFiles v := hv ▸ keepsFiles_trans (takeToken_keepsFiles s t) (vstqStart_keepsFiles ..)
  subst hx hq
  refine store_does hready (exec_vstq ..) (ordered := true) (fin := endVstq es) ?_ (fun _ => rfl) (writePlain_accessOnly _) hfiles hhere hdone
  rw [← takeToken_memIll s t] at hlegal
  subst hv hpr hes
  generalize s.takeToken t = w at hentries hlegal ⊢
  unfold State.vstqEntries State.vstqStart
  dsimp only
  rw [hlegal]
  cases hpop : w.me.poppedBefore with
  | some es => rfl
  | none =>
    obtain ⟨hreads, hheld⟩ := hentries hpop
    simp only [hreads, if_neg (not_lt.2 hheld)]
    rfl

end

/-! ### VZERO -/

theorem zeroLine_accessOnly (hint : Nat) (y : State × Option ElemFault) (e : Elem) : y.1.accessOnly (zeroLine hint y e).1 := by
  unfold zeroLine
  split
  · exact accessOnly_refl _
  · dsimp only
    split
    · rename_i hwrite
      exact (writePlain_accessOnly hint).done hwrite
    · rename_i hwrite
      exact (writePlain_accessOnly hint).refused hwrite

theorem zeroLines_accessOnly (hint : Nat) (es : List Elem) (y : State × Option ElemFault) :
    y.1.accessOnly (es.foldl (zeroLine hint) y).1 :=
  List.foldlRecOn es _ (motive := fun z : State × Option ElemFault => y.1.accessOnly z.1) (accessOnly_refl _)
    (fun _ hz _ _ => accessOnly_trans hz (zeroLine_accessOnly ..))

section
variable {s : State} {t : BitVec 2} {a b : BitVec 5} {k : BitVec 3} {h : BitVec 2} (hready : s.ready t false = true)
include hready

theorem vzero_does {r : Found}
    (hhere : (s.takeToken t).FindsHere ⟨wordVM 0xCB 0 a b k h.toNat t, .unit, a, b, k, .write, false⟩ [] r)
    {z : State × Option ElemFault} (hz : z = (distinctLines r.elems).foldl (zeroLine h.toNat) (r.s, none)) (hdone : z.2 = none) :
    exec (.vzero a b k h t) s = .next (z.1.clearStart.retires t) ∧ s.keepsFiles z.1 := by
  subst hz
  refine ⟨(exec_vzero ..).trans (runInstr_retires hready ?_), keepsFiles_trans (takeToken_keepsFiles s t)
    (accessOnly_keepsFiles (accessOnly_trans (accessOnly_of_me hhere.me) (zeroLines_accessOnly ..)))⟩
  rw [hhere.withElems false rfl]
  simp only [hhere.settled, hhere.placed, hdone]
  rfl

end

/-! ### Line actions -/

theorem readsOnly_accessOnly {s u : State} (h : s.readsOnly u) : s.accessOnly u := by
  obtain ⟨hme, -⟩ := h
  rw [State.accessOnly, hme]

theorem coverLines_accessOnly (s : State) (x : MemOp) {f : State → LineLoc → State} (hf : ∀ (u : State) (l : LineLoc), u.accessOnly (f u l)) :
    s.accessOnly (s.coverLines x f) := by
  refine List.foldlRecOn (s.me.actives x.k) _ (motive := fun y : State × List Nat => s.accessOnly y.1) (accessOnly_refl s)
    (fun y hy j _ => ?_)
  have hplace := accessOnly_of_me
    (quietly_translated y.1 { y.1.walker with vlsu := true } (fun b => b.2.front) (y.1.addrOf x j) .read).me
  dsimp only
  split
  · exact accessOnly_trans hy hplace
  · split
    · exact accessOnly_trans hy hplace
    · exact accessOnly_trans (accessOnly_trans hy hplace) (hf ..)

/-- An action on the pages among the lines, below the level of a scope. -/
def onPages (below : Bool) (f : State → Nat → Nat → State) (u : State) (l : LineLoc) : State :=
  match l with
  | .store _ _ => u
  | .page e j => if below then f u (u.l1Core u.me.core e j) l.key else u

theorem onPages_accessOnly {f : State → Nat → Nat → State} (hf : ∀ (u : State) (core key : Nat), u.accessOnly (f u core key))
    (below : Bool) (u : State) (l : LineLoc) : u.accessOnly (onPages below f u l) := by
  unfold onPages
  split
  · exact accessOnly_refl u
  · split
    · exact hf ..
    · exact accessOnly_refl u

section
variable {s : State} {t : BitVec 2} {a b : BitVec 5} {k : BitVec 3} (hready : s.ready t false = true) (hlegal : s.me.ill = false)
include hready hlegal

/-- A line action of a legal configuration is done. -/
theorem vecLines_does {i : Instr} {word : Word} {body : State → Eff} {u : State}
    (hexec : exec i s = runOrdered t (vecOp word [] (fun _ => false) body) s) (hbody : body (s.takeToken t) = .done u.clearStart) :
    exec i s = .next (u.clearStart.retires t) := by
  refine hexec.trans (runInstr_retires hready ?_)
  have hgroups : (s.takeToken t).me.vtypeIll [] = false := by simp [Strand.vtypeIll, hlegal]
  simp only [vecOp, hgroups, hbody]
  rfl

theorem vpf_does (h : BitVec 2) {u : State}
    (hu : u = (s.takeToken t).coverLines ⟨wordVM 0xCA 0 a b k h.toNat t, .unit, a, b, k, .read, false⟩
      (fun u l => (u.loadLine u.me.core l h.toNat u.reader).2.2)) :
    exec (.vpf a b k h t) s = .next (u.clearStart.retires t) ∧ s.keepsFiles u := by
  subst hu
  refine ⟨vecLines_does hready hlegal (exec_vpf ..) rfl, keepsFiles_trans (takeToken_keepsFiles s t)
    (accessOnly_keepsFiles (coverLines_accessOnly _ _ fun u l => ?_))⟩
  exact readsOnly_accessOnly (loadLine_readsOnly ..)

/-- VFLUSH and VINVL act on pages below the level of the scope. -/
theorem lineAction_does {op : Nat} {i : Instr} {scope : BitVec 3} {f : State → Nat → Nat → State}
    (hexec : exec i s = lineAction op a b k scope t f s) (hf : ∀ (u : State) (core key : Nat), u.accessOnly (f u core key)) {below : Bool}
    (hbelow : below = !(((s.takeToken t).clampScope scope.toNat).1 == 0
      || (((s.takeToken t).clampScope scope.toNat).1 == 1 && ((s.takeToken t).coil (coilOf (s.takeToken t).me.core)).fused))) {u : State}
    (hu : u = ((s.takeToken t).clampScope scope.toNat).2.coverLines ⟨wordVM op 0 a b k scope.toNat t, .unit, a, b, k, .read, false⟩
      (onPages below f)) :
    exec i s = .next (u.clearStart.retires t) ∧ s.keepsFiles u := by
  subst hu hbelow
  refine ⟨vecLines_does hready hlegal hexec rfl, ?_⟩
  refine keepsFiles_trans (keepsFiles_trans (takeToken_keepsFiles s t) (clampScope_scopesOnly _ _).keepsFiles)
    (accessOnly_keepsFiles (coverLines_accessOnly _ _ fun u l => ?_))
  exact onPages_accessOnly hf ..

end

/-! ### The family -/

/-- Settles O45: a store leaves the strand but for links and flags, element by element; VSTR has made its release, and VSTQ taken its
entries, before the first of them. -/
theorem vectorStores : Obligations.VectorStores := by
  unfold Obligations.VectorStores
  intro s d a b k h t sc hready w op word kept done finds stores scope counted
  have hfinds {x : MemOp} {gs : List (BitVec 5)} {r : Found} (hx : x.k = k) (hr : finds x gs done w r) : w.FindsHere x gs r := by
    subst hx
    exact .takeToken hr
  have hstores {i : Instr} {x : MemOp} {ordered gather : Bool} {put : LineWrite} (hx : x.k = k) (hput : put.accessOnly)
      (hexec : exec i s = runOrdered t (fun s => storeAll x [d] ordered gather put (fun r => s.me.row (d.toNat + r)) finishMem s) s) :
      stores i x gather put w := by
    subst hx
    obtain ⟨hdoes, htraps⟩ := storeRows_does hready hput hexec
    exact ⟨fun r hr hdone => hdoes r (hfinds rfl hr) hdone, htraps⟩
  have hpopped : w.me.poppedBefore = s.me.poppedBefore := takeToken_poppedBefore ..
  have hqueue : w.vq d.toNat = s.vq d.toNat := takeToken_vq ..
  have hrc : w.me.rc = s.me.rc := takeToken_rc ..
  refine ⟨hstores rfl (writePlain_accessOnly _) (exec_vst ..), hstores rfl (writePlain_accessOnly _) (exec_vsts ..),
    hstores rfl (writePlain_accessOnly _) (exec_vstx ..), hstores rfl (writePlain_accessOnly _) (exec_vsnm ..), ⟨?_, ?_⟩, ?_, ?_, ?_⟩
  case refine_1 =>
    rintro r ⟨hlegal, -, hfound, hplaced, hsettled⟩ q hdone
    have hdone_ : w.me.done_ = s.me.done_ := takeToken_done_ ..
    have hstart : (if s.me.done_.isSome then counted else counted.release scope) = w.vstrStart sc.toNat := by
      rw [State.vstrStart, hdone_]
    exact vstr_does hready rfl hstart rfl hlegal hfound hplaced hsettled rfl hdone
  case refine_2 => exact fun hill => vstr_traps hready hill
  case refine_3 =>
    intro x n es pr v₀ v hentries r hr q hdone
    obtain ⟨hlegal, -, hfound, hplaced, hsettled⟩ := hr
    have hes : es = w.vstqEntries n := by rw [State.vstqEntries, hpopped, hqueue, hrc]
    have hv : v = w.vstqStart n pr := by rw [State.vstqStart, hpopped, hqueue, hrc]
    have hready' : w.vstqReady n := by rwa [State.vstqReady, hpopped, hqueue, hrc, takeToken_writesQ]
    exact vstq_does hready rfl hes rfl hv hready' hlegal hfound hplaced hsettled rfl hdone
  case refine_4 =>
    intro r hr z hdone
    exact vzero_does hready (hfinds rfl hr) rfl hdone
  case refine_5 =>
    intro hlegal lines c below does
    have hcoil : (s.coil (coilOf s.me.core)).fused = (w.coil (coilOf w.me.core)).fused := by
      simp only [State.coil, w, takeToken_coils, takeToken_core]
    have hbelow : below = !(scope == 0 || (scope == 1 && (w.coil (coilOf w.me.core)).fused)) := by rw [← hcoil]
    exact ⟨vpf_does hready hlegal h rfl,
      lineAction_does hready hlegal (exec_vflush ..) (fun u core key => writesOnly_accessOnly (writeBackLine_homes ..).writes) hbelow rfl,
      lineAction_does hready hlegal (exec_vinvl ..) (fun u core key => accessOnly_of_me rfl) hbelow rfl⟩

end Sys2Proof.Machine
end

section
/-!
PROOFS. The transform sequencer's decoder and the encoder agree (R230).
-/
namespace Sys2Proof

/-! ### Words that end in zeros -/

/-- A word whose bits below a field are covered. -/
theorem div_mul_eq_self {w z : Code} {t m : Nat} (hz : w &&& z = 0) (hm : m = 2 ^ t) (hg : Covers z 0 t) :
    w.toNat / 2 ^ t * m = w.toNat / 2 ^ 0 := by
  have hlow := hg.div_mod_eq_zero hz
  rw [Nat.pow_zero, Nat.div_one] at hlow
  rw [hm, Nat.pow_zero, Nat.div_one, Nat.div_mul_cancel (Nat.dvd_of_mod_eq_zero hlow)]

theorem mul_div_of_dvd {q c m : Nat} (hc : c % m = 0) : q * c / m = q * (c / m) :=
  Nat.mul_div_assoc q (Nat.dvd_of_mod_eq_zero hc)

theorem mul_div_above {q c m : Nat} (hc : 0 < c) (hm : m % c = 0) : q * c / m = q / (m / c) := by
  obtain ⟨r, rfl⟩ := Nat.dvd_of_mod_eq_zero hm
  rw [Nat.mul_comm, Nat.mul_div_mul_left _ _ hc, Nat.mul_div_cancel_left r hc]

theorem mul_land_eq_zero {q c z : Nat} (hc : c = 2 ^ c.log2) : q * c &&& z = 0 ↔ q &&& z / c = 0 := by
  have hpos : 0 < c := by rw [hc]; exact Nat.two_pow_pos _
  rw [land_eq_zero_iff_split _ _ c.log2, ← hc, Nat.mul_mod_left, Nat.mul_div_cancel _ hpos]
  simp

theorem tsqOp_of_eq {w : Code} {n : Nat} (hw : w = BitVec.ofNat 32 n) : w.toNat / 2 ^ 26 = n / 2 ^ 26 % 64 := by
  rw [hw, BitVec.toNat_ofNat]; omega

/-! ### The bit that tells an immediate from a parameter, as one more field of the word (Table 9 of R230) -/

theorem encode_tloopImm (l : BitVec 2) (n : BitVec 23) {m : BitVec 1} (hm : m = 0) :
    encode (.tloopImm l n) = BitVec.ofNat 32 (0x04000000 + l.toNat * 16777216 + m.toNat * 8388608 + n.toNat) := by
  have hval : m.toNat = 0 := congrArg BitVec.toNat hm
  exact congrArg (BitVec.ofNat 32) (by omega)

theorem encode_tloopParam (l : BitVec 2) (k : BitVec 4) {m : BitVec 1} (hm : m = 1) :
    encode (.tloopParam l k) = BitVec.ofNat 32 (0x04000000 + l.toNat * 16777216 + m.toNat * 8388608 + k.toNat) := by
  have hval : m.toNat = 1 := congrArg BitVec.toNat hm
  exact congrArg (BitVec.ofNat 32) (by omega)

theorem encode_tagsetImm (g : BitVec 2) (f : BitVec 3) (imm : BitVec 20) {m : BitVec 1} (hm : m = 0) :
    encode (.tagsetImm g f imm)
      = BitVec.ofNat 32 (0x10000000 + g.toNat * 16777216 + f.toNat * 2097152 + m.toNat * 1048576 + imm.toNat) := by
  have hval : m.toNat = 0 := congrArg BitVec.toNat hm
  exact congrArg (BitVec.ofNat 32) (by omega)

theorem encode_tagsetParam (g : BitVec 2) (f : BitVec 3) (k : BitVec 4) {m : BitVec 1} (hm : m = 1) :
    encode (.tagsetParam g f k)
      = BitVec.ofNat 32 (0x10000000 + g.toNat * 16777216 + f.toNat * 2097152 + m.toNat * 1048576 + k.toNat) := by
  have hval : m.toNat = 1 := congrArg BitVec.toNat hm
  exact congrArg (BitVec.ofNat 32) (by omega)

/-! ### From a word to its instruction and back -/

theorem faithful_accept_tsq {w z : Code} {i : Instr} {n : Nat} (hi : encode i = BitVec.ofNat 32 n)
    (h : w &&& z = 0 → n = w.toNat / 2 ^ 0) : Faithful w (accept w z i) :=
  faithful_accept fun hz => hi.trans (ofNat_eq_of_toNat (h hz))

theorem faithful_decodeTsq (w : Code) : Faithful w (decodeTsq w) := by
  unfold decodeTsq
  split <;> rename_i hop
  case h_1 =>
    refine faithful_accept_tsq rfl fun hz => ?_
    have hlow := Covers.div_mod_eq_zero (lo := 0) (n := 26) (by decide) hz
    omega
  case h_2 =>
    split <;> rename_i hmode
    · refine faithful_accept_tsq (encode_tloopImm _ _ hmode) fun hz => ?_
      simp (disch := decide) only [base_add_mul, mul_add_mul, Nat.reduceDiv, base_add_fld hz hop, div_mul_add_fld hz]
    · refine faithful_accept_tsq (encode_tloopParam _ _ ((BitVec.eq_zero_or_eq_one _).resolve_left hmode)) fun hz => ?_
      simp (disch := decide) only [base_add_mul, mul_add_mul, Nat.reduceDiv, base_add_fld hz hop, div_mul_add_fld hz]
  case h_5 =>
    split <;> rename_i hmode
    · refine faithful_accept_tsq (encode_tagsetImm _ _ _ hmode) fun hz => ?_
      simp (disch := decide) only [base_add_mul, mul_add_mul, Nat.reduceDiv, base_add_fld hz hop, div_mul_add_fld hz]
    · refine faithful_accept_tsq (encode_tagsetParam _ _ _ ((BitVec.eq_zero_or_eq_one _).resolve_left hmode)) fun hz => ?_
      simp (disch := decide) only [base_add_mul, mul_add_mul, Nat.reduceDiv, base_add_fld hz hop, div_mul_add_fld hz]
  any_goals with_reducible exact faithful_error _ _
  all_goals
    refine faithful_accept_tsq rfl fun hz => ?_
    simp (disch := decide) only [base_add_mul, mul_add_mul, Nat.reduceDiv, base_add_fld hz hop, div_mul_add_fld hz,
      div_mul_eq_self hz]

theorem decodeTsq_encode {i : Instr} (ht : i.isTsq = true) (hwf : i.wf = true) : decodeTsq (encode i) = .ok i := by
  generalize hw : encode i = w
  obtain ⟨m₀, h₀⟩ : ∃ m : BitVec 1, m = 0#1 := ⟨_, rfl⟩
  obtain ⟨m₁, h₁⟩ : ∃ m : BitVec 1, m = 1#1 := ⟨_, rfl⟩
  have hmode : ¬m₁ = 0#1 := by simp [h₁]
  cases i
  all_goals try contradiction
  case' tloopImm l n => replace hw := hw.symm.trans (encode_tloopImm l n h₀)
  case' tloopParam l k => replace hw := hw.symm.trans (encode_tloopParam l k h₁)
  case' tagsetImm g f imm => replace hw := hw.symm.trans (encode_tagsetImm g f imm h₀)
  case' tagsetParam g f k => replace hw := hw.symm.trans (encode_tagsetParam g f k h₁)
  case' thalt | tnext | tjmp | trd | twr | tcvt | tpack | tunpk | ttrn | tscl | tbsc | tsig | twt =>
    replace hw : w = BitVec.ofNat 32 _ := hw.symm
  all_goals
    rw [decodeTsq, tsqOp_of_eq hw]
    simp (disch := decide) only [fld_of_eq hw, base_add_mul, mul_add_mul, mul_add_div, base_add_div, ofNat_mul_add,
      ofNat_base_add, mul_div_of_dvd, mul_div_above, Nat.reduceDiv, Nat.reducePow, Nat.reduceMod,
      Nat.div_one, Nat.mul_one, if_pos h₀, if_neg hmode]
    refine accept_eq_ok ?_ rfl hwf
    simp (disch := decide) only [and_eq_zero_of_eq hw, base_add_mul, mul_add_mul, mul_add_land_eq_zero, mul_land_eq_zero,
      base_add_land_eq_zero, BitVec.reduceToNat, Nat.reduceDiv, Nat.reduceAnd]

/-- Settles O15: each row of the sequencer's table gives back the word it read, and reads an instruction's fields where they stand. -/
theorem tsqWordsRoundTrip : Obligations.TsqWordsRoundTrip :=
  ⟨fun _ ht hwf => decodeTsq_encode ht hwf, faithful_decodeTsq⟩

end Sys2Proof
end

section
/-!
SUPPORT. Every access of memory keeps its canonical form (Memory.wf of Machine/Ops.lean): reads of lines, writes at their homes,
growth, and stores through the L1 (R91, R92, R131, R132, R335).
-/
namespace Sys2Proof.Machine

/-- Where memory has its canonical form, it keeps it. -/
structure State.keepsWf (s u : State) : Prop where
  wf : Memory.wf s.mem = true → Memory.wf u.mem = true

theorem keepsWf_of_mem {s u : State} (h : u.mem = s.mem) : s.keepsWf u := ⟨fun hw => h ▸ hw⟩

theorem keepsWf_refl (s : State) : s.keepsWf s := ⟨id⟩

theorem keepsWf_trans {s t u : State} (h : s.keepsWf t) (h' : t.keepsWf u) : s.keepsWf u :=
  ⟨fun hw => h'.wf (h.wf hw)⟩

theorem keepsWf_foldl {α : Type} (f : State → α → State) (h : ∀ (s : State) x, s.keepsWf (f s x)) (l : List α) (s : State) :
    s.keepsWf (l.foldl f s) := by
  induction l generalizing s with
  | nil => exact keepsWf_refl s
  | cons x l ih => exact keepsWf_trans (h s x) (ih _)

/-! ### Lines of device memory and their banks -/

theorem updChan_keepsWf (s : State) (g : Nat) (f : Channel → Channel) : s.keepsWf (s.updChan g f) := keepsWf_of_mem rfl
theorem logEvent_keepsWf (s : State) (p e v c : Nat) (a d : Word) : s.keepsWf (s.logEvent p e v c a d) := keepsWf_of_mem rfl

theorem putRaw_keepsWf (s : State) (k : Nat) (d : Line) (t : Tag) : s.keepsWf (s.putRaw k d t) := ⟨putRaw_wf s k d t⟩

theorem writeLine_keepsWf (s : State) (near : Bool) (k : Nat) (d : Line) (t : Tag) : s.keepsWf (s.writeLine near k d t) := by
  unfold State.writeLine
  dsimp only
  split
  · exact putRaw_keepsWf ..
  · exact keepsWf_trans (updChan_keepsWf ..) (putRaw_keepsWf ..)

theorem setBank_keepsWf (s : State) (p : Nat) (d : Line) (t : Tag) : s.keepsWf (s.setBank p d t) := ⟨fun hw => setBank_wf hw p d t⟩

theorem fixTag_keepsWf (s : State) (near : Bool) (part k m : Nat) (r : Reader) : s.keepsWf (s.fixTag near part k m r).2 := by
  unfold State.fixTag
  dsimp only
  split
  · exact keepsWf_trans (writeLine_keepsWf ..) (logEvent_keepsWf ..)
  · exact keepsWf_refl s

theorem scrubBank_keepsWf (s : State) (g b : Nat) : s.keepsWf (s.scrubBank g b) := ⟨fun hw => filter_wf _ _ hw⟩

theorem scrubFor_keepsWf (s : State) (g b : Nat) : s.keepsWf (s.scrubFor g b) := by
  unfold State.scrubFor
  dsimp only
  split
  · exact keepsWf_foldl _ (fun s x => scrubBank_keepsWf s g x) _ s
  · exact keepsWf_refl s

theorem deliverLine_keepsWf (s : State) (p : Nat) (x : Line × Tag) : s.keepsWf (s.deliverLine p x) := by
  unfold State.deliverLine
  dsimp only
  split
  · exact updChan_keepsWf ..
  · exact keepsWf_trans (updChan_keepsWf ..) (keepsWf_trans (updChan_keepsWf ..) (putRaw_keepsWf ..))

theorem logLine_keepsWf (s : State) (p e : Nat) (r : Reader) (d : Nat) : s.keepsWf (s.logLine p e r d) := by
  unfold State.logLine
  split <;> exact keepsWf_of_mem rfl

theorem noteRead_keepsWf (s : State) (e : ReadError) (p : Nat) (r : Reader) : s.keepsWf (s.noteRead e p r) := by
  unfold State.noteRead
  dsimp only
  split
  · exact keepsWf_refl s
  · split
    · exact keepsWf_trans (updChan_keepsWf ..) (logLine_keepsWf ..)
    · exact logLine_keepsWf ..

theorem keepsWf_ite {s u v : State} {c : Prop} [Decidable c] (h : s.keepsWf u) (h' : s.keepsWf v) : s.keepsWf (if c then u else v) := by
  split
  · exact h
  · exact h'

theorem readDone_keepsWf (s : State) (q : ChanReq) (p : Nat) : s.keepsWf (s.readDone q p) := by
  have hstored (u : State) (c : Bool) (d : Line) (t : Tag) : u.keepsWf (if c then u else u.setBank p d t) :=
    keepsWf_ite (keepsWf_refl u) (setBank_keepsWf ..)
  have hgiven (u : State) (x : Line × Tag) : u.keepsWf (if q.near then u else u.deliverLine p x) :=
    keepsWf_ite (keepsWf_refl u) (deliverLine_keepsWf ..)
  have hnoted := keepsWf_trans (hstored s (q.err.written || s.foundLine q.err p == s.bankLine p) (s.foundLine q.err p).1
    (s.foundLine q.err p).2) (noteRead_keepsWf _ q.err p { vf := q.vf, coord := q.coord })
  unfold State.readDone
  dsimp only
  split
  · exact hnoted
  · split
    · exact keepsWf_trans hnoted (hgiven ..)
    · exact keepsWf_trans hnoted (keepsWf_trans (hgiven ..) (keepsWf_trans (hstored ..) (logEvent_keepsWf ..)))

theorem drainBank_keepsWf (s : State) (g bank : Nat) : s.keepsWf (s.drainBank g bank) := by
  unfold State.drainBank
  refine keepsWf_trans (scrubFor_keepsWf s g bank) ?_
  dsimp only
  split
  · exact keepsWf_refl _
  · refine keepsWf_trans (updChan_keepsWf ..) (keepsWf_foldl _ (fun u q => ?_) _ _)
    exact keepsWf_trans (updChan_keepsWf ..) (readDone_keepsWf ..)

theorem drainFor_keepsWf (s : State) (g : Nat) (l : Option L2Line) : s.keepsWf (s.drainFor g l) := by
  unfold State.drainFor
  split
  · split
    · exact drainBank_keepsWf ..
    · exact keepsWf_refl s
  · exact keepsWf_refl s

theorem putBank_keepsWf (s : State) (p : Nat) (d : Line) (t : Tag) : s.keepsWf (s.putBank p d t) :=
  keepsWf_trans (drainBank_keepsWf ..) (keepsWf_trans (updChan_keepsWf ..) (putRaw_keepsWf ..))

theorem reach_keepsWf (s : State) (near : Bool) (k : Nat) (r : Reader) : s.keepsWf (s.reach near k r) := by
  have hdrained (c : Bool) : s.keepsWf (if c = true then s else s.drainBank (chanOf k) (bankOf k)) :=
    keepsWf_ite (keepsWf_refl s) (drainBank_keepsWf ..)
  have hroom (u : State) (l : Option L2Line) : u.keepsWf (if near = true then u else u.drainFor (chanOf k) l) :=
    keepsWf_ite (keepsWf_refl u) (drainFor_keepsWf ..)
  unfold State.reach
  dsimp only
  split
  · exact keepsWf_refl s
  · exact keepsWf_trans (hdrained _) (keepsWf_trans (hroom ..) (updChan_keepsWf ..))

/-! ### Lines at their homes (R82–R90, R132, R318) -/

theorem readRaw_keepsWf (s : State) (near : Bool) (part k : Nat) (r : Reader) : s.keepsWf (s.readRaw near part k r).2.2 :=
  keepsWf_trans (reach_keepsWf ..) (fixTag_keepsWf ..)

theorem readStored_keepsWf (s : State) (near : Bool) (part : Nat) (h : Stored) (r : Reader) :
    s.keepsWf (s.readStored near part h r).2.2 := by
  unfold State.readStored
  dsimp only
  split <;> exact keepsWf_trans (reach_keepsWf ..) (fixTag_keepsWf ..)

theorem readHost_keepsWf (s : State) (part vf a : Nat) (r : Reader) : s.keepsWf (s.readHost part vf a r).2.2 := by
  unfold State.readHost
  dsimp only
  split <;> exact keepsWf_of_mem rfl

theorem unsettled_keepsWf (s : State) (e : TlbEntry) (j : Nat) {t : State} {x : Line × Tag × State} (h : t.keepsWf x.2.2) :
    t.keepsWf (s.unsettled e j x).2.2 := by
  unfold State.unsettled
  split
  · exact h
  · exact keepsWf_trans h (keepsWf_of_mem rfl)

theorem readHome_keepsWf (s : State) (l : LineLoc) (r : Reader) : s.keepsWf (s.readHome l r).2.2 := by
  cases l with
  | store c i => exact readRaw_keepsWf ..
  | page e j =>
    refine unsettled_keepsWf s e j ?_
    split
    · exact readHost_keepsWf ..
    · exact readStored_keepsWf ..

theorem meetHome_keepsWf (s : State) (l : LineLoc) (full : Bool) (r : Reader) : s.keepsWf (s.meetHome l full r).2.2 := by
  cases l with
  | store c i =>
    unfold State.meetHome
    dsimp only
    split
    · exact keepsWf_refl s
    · exact readRaw_keepsWf ..
  | page e j =>
    unfold State.meetHome
    dsimp only
    split
    · exact keepsWf_refl s
    · split
      · exact reach_keepsWf ..
      · exact readStored_keepsWf ..

theorem writeStored_keepsWf (s : State) (near : Bool) (h : Stored) (d : Line) (t : Tag) : s.keepsWf (s.writeStored near h d t) := by
  unfold State.writeStored
  split <;> exact writeLine_keepsWf ..

theorem putHost_keepsWf (s : State) (vf a : Nat) (d : Line) (t : Tag) (m : ByteMask) : s.keepsWf (s.putHost vf a d t m) := by
  refine ⟨fun hw => ?_⟩
  have hline : Memory.wf (memPutLine s.mem (hostByte a) d m) = true := memPutLine_wf s.mem (hostByte a) d m hw
  unfold State.putHost
  dsimp only
  generalize s.hostWrites a _ d t m = ms
  rw [show (s.emit ms).mem = s.mem from rfl]
  generalize hostByte a = b at hline ⊢
  split
  · next tagByte _ => exact memPutNat_wf (memPutLine s.mem b d m) tagByte t.toNat 4 hline
  · simpa only using hline

theorem putHome_keepsWf (s : State) (l : LineLoc) (d : Line) (t : Tag) (m : ByteMask) : s.keepsWf (s.putHome l d t m) := by
  cases l with
  | store c i => exact putRaw_keepsWf ..
  | page e j =>
    unfold State.putHome
    dsimp only
    split
    · exact putHost_keepsWf ..
    · exact writeStored_keepsWf ..

theorem breakLinks_keepsWf (s : State) (k : Nat) (keep : Option (Nat × Nat)) : s.keepsWf (s.breakLinks k keep) :=
  keepsWf_of_mem (breakLinks_mem ..)

theorem updSeg_keepsWf (s : State) (vf i : Nat) (f : Seg → Seg) : s.keepsWf (s.updSeg vf i f) := keepsWf_of_mem (updVf_mem ..)

theorem applyHome_keepsWf (s : State) (l : LineLoc) (w : Write) (keep : Option (Nat × Nat)) (r : Reader) :
    s.keepsWf (s.applyHome l w keep r) := by
  have hput (u : State) (d : Line) (t : Tag) : u.keepsWf ((u.putHome l d t w.mask).breakLinks l.key keep) :=
    keepsWf_trans (putHome_keepsWf ..) (breakLinks_keepsWf ..)
  have hmet := meetHome_keepsWf s l (w.typed && w.mask == fullMask) r
  cases l with
  | store c i => exact keepsWf_trans hmet (hput ..)
  | page e j => exact keepsWf_trans hmet (keepsWf_trans (hput ..) (updSeg_keepsWf ..))

/-! ### Growth and fit-checked writes (R91, R92) -/

theorem initChunks_keepsWf (s : State) (part : Nat) (chunks : List Nat) (m : Nat) : s.keepsWf (s.initChunks part chunks m) :=
  keepsWf_foldl _ (fun _ _ => putBank_keepsWf ..) _ s

theorem updPart_keepsWf (s : State) (p : Nat) (f : Part → Part) : s.keepsWf (s.updPart p f) := keepsWf_of_mem rfl

theorem copySeg_keepsWf (s : State) (part : Nat) (src dst : Seg) (n : Nat) : s.keepsWf (s.copySeg part src dst n) := by
  induction n with
  | zero => exact keepsWf_refl s
  | succ n ih =>
    exact keepsWf_trans ih (keepsWf_trans (readStored_keepsWf ..) (keepsWf_trans (reach_keepsWf ..) (writeStored_keepsWf ..)))

theorem growSeg_keepsWf (s : State) (vf i : Nat) (new : List Nat) : s.keepsWf (s.growSeg vf i new) := by
  unfold State.growSeg
  dsimp only
  split
  · exact keepsWf_refl s
  · split
    · exact keepsWf_refl s
    · refine keepsWf_trans ?_ (updPart_keepsWf ..)
      refine keepsWf_trans ?_ (updSeg_keepsWf ..)
      refine keepsWf_trans ?_ (copySeg_keepsWf ..)
      exact keepsWf_trans (updPart_keepsWf ..) (initChunks_keepsWf ..)

theorem grantChunks_keepsWf (s : State) (part need : Nat) (priv : Bool) (r : Reader) (va : Word) :
    s.keepsWf (s.grantChunks part need priv r va).2 := by
  have hlow (c : Prop) [Decidable c] (left : Nat) :
      s.keepsWf (if c then s.logEvent part 6 r.vf r.coord 0 (BitVec.ofNat 64 left) else s) :=
    keepsWf_ite (logEvent_keepsWf ..) (keepsWf_refl s)
  unfold State.grantChunks
  dsimp only
  by_cases h : (if priv = true then 0 else (s.part part).reserveNow) + need ≤ (s.part part).freeCount
  · rw [if_pos h]
    exact hlow ..
  · rw [if_neg h]
    exact logEvent_keepsWf ..

theorem putPage_keepsWf (s : State) (e : TlbEntry) (j : Nat) (x : Line × Tag) (mask : ByteMask) (keep : Option (Nat × Nat)) :
    s.keepsWf (s.putPage e j x mask keep) :=
  keepsWf_trans (putHome_keepsWf ..) (keepsWf_trans (breakLinks_keepsWf ..) (updSeg_keepsWf ..))

theorem metPage_keepsWf (s : State) (e : TlbEntry) (j : Nat) (w : Write) (r : Reader) : s.keepsWf (s.metPage e j w r).2.2 :=
  meetHome_keepsWf ..

/-- A write that is checked for fit: what it leaves where it is applied, and where it is refused. -/
theorem fitWrite_keepsWf (s : State) (e : TlbEntry) (j : Nat) (w : Write) (keep : Option (Nat × Nat)) (priv : Bool) (r : Reader)
    (va : Word) : s.keepsWf (s.fitWrite e j w keep priv r va).2
      ∧ ∀ u, (s.fitWrite e j w keep priv r va).1 = some u → s.keepsWf u := by
  cases hfits : s.fitsPage e j w r with
  | true =>
    rw [fitWrite_fits hfits]
    exact ⟨metPage_keepsWf .., fun u hu => Option.some.inj hu ▸ keepsWf_trans (metPage_keepsWf ..) (putPage_keepsWf ..)⟩
  | false =>
    have hgrowth : s.keepsWf (s.growthFor e j w priv r va).2 :=
      keepsWf_trans (metPage_keepsWf s e j w r) (keepsWf_trans (t := State.endPasses _ _ _) (keepsWf_of_mem rfl) (grantChunks_keepsWf ..))
    rcases hg : s.growthFor e j w priv r va with ⟨_ | new, t⟩
    · rw [hg] at hgrowth
      rw [fitWrite_denied hfits hg]
      exact ⟨hgrowth, fun u hu => by cases hu⟩
    · rw [hg] at hgrowth
      rw [fitWrite_grown hfits hg]
      exact ⟨hgrowth, fun u hu =>
        Option.some.inj hu ▸ keepsWf_trans hgrowth (keepsWf_trans (growSeg_keepsWf ..) (putPage_keepsWf ..))⟩

/-! ### Stores through the L1 (R131, R132) -/

theorem updCore_keepsWf (s : State) (c : Nat) (f : Core → Core) : s.keepsWf (s.updCore c f) := keepsWf_of_mem rfl

theorem writeBackLine_keepsWf (s : State) (core key : Nat) : s.keepsWf (s.writeBackLine core key) := by
  unfold State.writeBackLine
  split
  · exact keepsWf_refl s
  · exact keepsWf_ite (keepsWf_refl s) (keepsWf_trans (applyHome_keepsWf ..) (updCore_keepsWf ..))

theorem install_keepsWf (s : State) (core : Nat) (l : L1Line) : s.keepsWf (s.install core l) := by
  unfold State.install
  refine keepsWf_trans ?_ (updCore_keepsWf ..)
  split
  · exact keepsWf_ite (updCore_keepsWf ..) (keepsWf_trans (updCore_keepsWf ..) (applyHome_keepsWf ..))
  · exact keepsWf_refl s

theorem refreshL1_keepsWf (s : State) (core : Nat) (e : TlbEntry) (j : Nat) (w : Write) : s.keepsWf (s.refreshL1 core e j w) := by
  unfold State.refreshL1
  dsimp only
  split
  · exact keepsWf_refl s
  · exact updCore_keepsWf ..

theorem storeL1_keepsWf (s : State) (core : Nat) (e : TlbEntry) (j : Nat) (w : Write) (hint : Nat) :
    s.keepsWf (s.storeL1 core e j w hint) := by
  unfold State.storeL1
  dsimp only
  split <;> split
  · exact keepsWf_trans (writeBackLine_keepsWf ..) (applyHome_keepsWf ..)
  · exact keepsWf_trans (writeBackLine_keepsWf ..) (install_keepsWf ..)
  · exact applyHome_keepsWf ..
  · exact install_keepsWf ..

theorem storeLine_keepsWf (s : State) (core : Nat) (l : LineLoc) (w : Write) (hint : Nat) (priv : Bool) (r : Reader) (va : Word) :
    s.keepsWf ((s.storeLine core l w hint priv r va).1.getD (s.storeLine core l w hint priv r va).2) := by
  cases l with
  | store c i => exact applyHome_keepsWf s (.store c i) w none r
  | page e j =>
    unfold State.storeLine
    dsimp only
    split
    · obtain ⟨hrefused, hdone⟩ := fitWrite_keepsWf s e j w none priv r va
      rcases hfit : s.fitWrite e j w none priv r va with ⟨_ | t, u⟩
      · rw [hfit] at hrefused
        exact hrefused
      · rw [hfit] at hdone
        exact keepsWf_trans (hdone t rfl) (refreshL1_keepsWf ..)
    · split
      · exact storeL1_keepsWf ..
      · exact keepsWf_trans (applyHome_keepsWf ..) (refreshL1_keepsWf ..)

/-! ### The scalar store queue (R335) -/

theorem performOldest_keepsWf (s : State) : s.keepsWf s.performOldest := by
  unfold State.performOldest
  split
  · exact keepsWf_refl s
  · exact keepsWf_ite (keepsWf_trans (storeLine_keepsWf ..) (keepsWf_of_mem rfl)) (keepsWf_refl s)

theorem performAll_keepsWf (s : State) : s.keepsWf s.performAll := keepsWf_foldl _ (fun s _ => performOldest_keepsWf s) _ s

end Sys2Proof.Machine
end

section
/-!
SUPPORT. Numbers in memory, the writes of journal and shadow lines (R205, R207), and what an instruction's token wait leaves (R34).
-/
namespace Sys2Proof.Machine

/-! ### Numbers in memory -/

theorem memGet_memPutNat_byte {m : List Host.Cell} (hw : Memory.wf m = true) (a v : Nat) {n i : Nat} (hi : i < n) :
    memGet (memPutNat m a v n) (a + i) = BitVec.ofNat 8 (v / 2 ^ (8 * i)) := by
  induction n generalizing m a v i with
  | zero => omega
  | succ n ih =>
    rw [memPutNat]
    cases i with
    | zero => rw [memGet_memPutNat_other _ _ _ _ _ (by omega), Nat.add_zero, memGet_memPut_same _ _ _ hw]; simp
    | succ i =>
      have hstep := ih (memPut_wf m a (BitVec.ofNat 8 v) hw) (a + 1) (v / 256) (i := i) (by omega)
      rw [show a + (i + 1) = a + 1 + i by omega, hstep, Nat.div_div_eq_div_mul, Nat.mul_add, Nat.pow_add, Nat.mul_comm]

/-- A number written reads back. -/
theorem memNat_memPutNat_same {m : List Host.Cell} (hw : Memory.wf m = true) (a v n : Nat) :
    memNat (memPutNat m a v n) a n = v % 2 ^ (8 * n) :=
  memNat_of_bytes _ _ _ _ (fun _ hi => memGet_memPutNat_byte hw a v hi)

theorem memNat_memPutNat_apart (m : List Host.Cell) {a b k n : Nat} (v : Nat) (h : b + k ≤ a ∨ a + n ≤ b) :
    memNat (memPutNat m a v n) b k = memNat m b k :=
  memNat_congr _ _ _ _ (fun i hi => memGet_memPutNat_other _ _ _ _ _ (by omega))

/-! ### The token wait -/

/-- Token counts apart, the wait marks the strand alone. -/
theorem takeToken_exists (s : State) (t : BitVec 2) : ∃ (tsq mxe cpe0 cpe1 toTsq : Nat) (sat : Bool) (ps : List (Nat × Pair)),
    s.takeToken t = { s with
      me := { s.me with tokTsq := tsq, tokMxe := mxe, tokCpe0 := cpe0, tokCpe1 := cpe1, tokToTsq := toTsq, tkSat := sat }, pairs := ps } := by
  unfold State.takeToken State.setTokens
  split
  · split <;> exact ⟨_, _, _, _, _, _, _, rfl⟩
  · exact ⟨_, _, _, _, _, _, _, rfl⟩

section
variable (s : State) (t : BitVec 2)

@[simp] theorem takeToken_jHead (n : Nat) : (s.takeToken t).jHead (s.takeToken t).me n = s.jHead s.me n := by
  obtain ⟨_, _, _, _, _, _, _, h⟩ := takeToken_exists s t
  rw [h]
  rfl

@[simp] theorem takeToken_jNum (n : Nat) : (s.takeToken t).jNum (s.takeToken t).me n = s.jNum s.me n := by
  obtain ⟨_, _, _, _, _, _, _, h⟩ := takeToken_exists s t
  rw [h]
  rfl

@[simp] theorem takeToken_jReg (n i : Nat) : (s.takeToken t).jReg (s.takeToken t).me n i = s.jReg s.me n i := by
  obtain ⟨_, _, _, _, _, _, _, h⟩ := takeToken_exists s t
  rw [h]
  rfl

@[simp] theorem takeToken_jState (n : Nat) : (s.takeToken t).jState (s.takeToken t).me n = s.jState s.me n :=
  congrArg (fun h => h / 8 % 8) (takeToken_jHead s t n)

@[simp] theorem takeToken_jEngine (n : Nat) : (s.takeToken t).jEngine (s.takeToken t).me n = s.jEngine s.me n :=
  congrArg (fun h => h % 8) (takeToken_jHead s t n)

@[simp] theorem takeToken_incomplete : (s.takeToken t).incomplete (s.takeToken t).me = s.incomplete s.me := by
  simp [State.incomplete]

@[simp] theorem takeToken_core? (c : Nat) : (s.takeToken t).core c = s.core c := by simp [State.core]

@[simp] theorem takeToken_engine (c e : Nat) : (s.takeToken t).engine c e = s.engine c e := by simp [State.engine]

@[simp] theorem takeToken_egoWaits (e n : Nat) : (s.takeToken t).me.egoWaits e n = s.me.egoWaits e n := by
  obtain ⟨_, _, _, _, _, _, _, h⟩ := takeToken_exists s t
  rw [h]
  rfl

@[simp] theorem takeToken_shadowReg (e i : Nat) : (s.takeToken t).shadowReg e i = s.shadowReg e i := by
  obtain ⟨_, _, _, _, _, _, _, h⟩ := takeToken_exists s t
  rw [h]
  rfl

@[simp] theorem takeToken_shadowAt (e i : Nat) : (s.takeToken t).me.shadowAt e i = s.me.shadowAt e i := by
  simp [Strand.shadowAt, Strand.shadowOff]

@[simp] theorem takeToken_journalAt (n : Nat) : (s.takeToken t).me.journalAt n = s.me.journalAt n := by
  simp [Strand.journalAt]

@[simp] theorem takeToken_engStatus (e r : Nat) : (s.takeToken t).engStatus e r = s.engStatus e r := by
  simp [State.engStatus]

end

/-! ### A write of the device into a local-store line -/

section
variable (s : State) (a v n : Nat)

@[simp] theorem jWrite_mem : (s.jWrite a v n).mem = memPutNat s.mem a v n := breakLinks_mem ..

theorem jWrite_only : s.jWrite a v n = { s with
    mem := (s.jWrite a v n).mem, tags := (s.jWrite a v n).tags, others := (s.jWrite a v n).others
    me := { s.me with links := (s.jWrite a v n).me.links } } := by
  conv_lhs => rw [State.jWrite, breakLinks_only]
  rfl

theorem jWrite_writes : s.writesOnly (s.jWrite a v n) := by
  rw [jWrite_only]
  exact ⟨rfl, rfl⟩

theorem jWrite_keepsWf : s.keepsWf (s.jWrite a v n) := ⟨fun hw => by
  rw [jWrite_mem]
  exact memPutNat_wf _ _ _ _ hw⟩

end

/-- A run of the device's writes into the `n` bytes from `a`. -/
structure State.writesBytes (s u : State) (a n : Nat) : Prop where
  strands : s.writesOnly u
  cores : u.cores = s.cores
  parts : u.parts = s.parts
  form : s.keepsWf u
  outside : ∀ x, x < a ∨ a + n ≤ x → memGet u.mem x = memGet s.mem x

theorem writesBytes_refl (s : State) (a n : Nat) : s.writesBytes s a n := ⟨writesOnly_refl s, rfl, rfl, keepsWf_refl s, fun _ _ => rfl⟩

theorem writesBytes_trans {s t u : State} {a n : Nat} (h : s.writesBytes t a n) (k : t.writesBytes u a n) : s.writesBytes u a n :=
  ⟨writesOnly_trans h.strands k.strands, k.cores.trans h.cores, k.parts.trans h.parts, keepsWf_trans h.form k.form,
    fun x hx => (k.outside x hx).trans (h.outside x hx)⟩

theorem jWrite_writesBytes (s : State) {a n b k : Nat} (v : Nat) (hlow : a ≤ b) (hhigh : b + k ≤ a + n) :
    s.writesBytes (s.jWrite b v k) a n where
  strands := jWrite_writes ..
  cores := by rw [jWrite_only]
  parts := by rw [jWrite_only]
  form := jWrite_keepsWf ..
  outside x hx := by
    rw [jWrite_mem]
    exact memGet_memPutNat_other _ _ _ _ _ (by omega)

theorem writesBytes_memNat {s u : State} {a n b k : Nat} (h : s.writesBytes u a n) (hx : b + k ≤ a ∨ a + n ≤ b) :
    memNat u.mem b k = memNat s.mem b k :=
  memNat_congr _ _ _ _ (fun i _ => h.outside _ (by omega))

/-! ### Shadow registers in program order (R208) -/

/-- A register of the shadow set is read alike where the strand differs in its links and the register's bytes stand. -/
theorem shadowReg_congr {s u : State} (hme : u.me = { s.me with links := u.me.links }) {e i : Nat}
    (hmem : memNat u.mem (s.me.shadowAt e i) 8 = memNat s.mem (s.me.shadowAt e i) 8) : u.shadowReg e i = s.shadowReg e i := by
  unfold State.shadowReg
  rw [hme]
  exact congrArg (s.me.forward (.store s.me.core (s.me.shadowOff e i / 128)) (s.me.shadowOff e i % 128) 8) hmem

/-- The journal's 64 entries stand below the shadow registers of their slot (R205). -/
theorem journalAt_below_shadowAt (t : Strand) (n e i : Nat) : t.journalAt n + 256 ≤ t.shadowAt e i := by
  unfold Strand.journalAt Strand.shadowAt Strand.shadowOff lsByte
  omega

end Sys2Proof.Machine
end

section
/-!
PROOFS. ECFG, ECFGR, EGO and TSQGO (R205, R206, R207, R208, R211, R213, R228).
-/
namespace Sys2Proof.Machine

/-! ### The journal disabled -/

theorem needSlot_on {s : State} {f : State → Eff} (h : s.me.jrnlBase.getLsbD 0 = true) : needSlot f s = f s := if_pos h

/-- An instruction of the command slot traps where the journal is disabled. -/
theorem needSlot_off {s : State} {t : BitVec 2} {ahead : Bool} (hready : s.ready t ahead = true)
    (h : s.me.jrnlBase.getLsbD 0 = false) (f : State → Eff) :
    runInstr t ahead (needSlot f) s = (s.takeToken t).takeTrap { cause := causeJournal, val := 0 } := by
  rw [runInstr_ready _ _ _ _ hready, needSlot, takeToken_jrnlBase, h]
  rfl

/-! ### An engine of a core -/

@[simp] theorem updEngine_mem (s : State) (core e : Nat) (f : Engine → Engine) : (s.updEngine core e f).mem = s.mem := rfl

theorem updEngine_writesOnly {s u : State} (h : s.writesOnly u) (core e : Nat) (f : Engine → Engine) :
    s.writesOnly (u.updEngine core e f) := h

theorem engine_updEngine_same (s : State) (core : Nat) {e : Nat} (he : e < 4) (f : Engine → Engine) :
    (s.updEngine core e f).engine core e = f (s.engine core e) := by
  simp [State.engine, State.updEngine, core_updCore_same, Vector.getD, he]

/-! ### An entry as EGO writes it (R207) -/

/-- The first `k` shadow registers of an engine copied from byte `a` on. -/
def State.copyRegs (s : State) (a e k : Nat) : State :=
  (List.range k).foldl (fun s i => s.jWrite (a + 8 * i) (s.shadowReg e i) 8) s

theorem copyRegs_succ (s : State) (a e k : Nat) : s.copyRegs a e (k + 1)
    = (s.copyRegs a e k).jWrite (a + 8 * k) ((s.copyRegs a e k).shadowReg e k) 8 := by
  simp [State.copyRegs, List.range_succ]

theorem copyRegs_writesBytes (s : State) (a e k : Nat) {b n : Nat} (hlow : b ≤ a) (hhigh : a + 8 * k ≤ b + n) :
    s.writesBytes (s.copyRegs a e k) b n := by
  induction k with
  | zero => exact writesBytes_refl ..
  | succ k ih =>
    rw [copyRegs_succ]
    exact writesBytes_trans (ih (by omega)) (jWrite_writesBytes _ _ (by omega) (by omega))

/-- Copied below their own bytes, the registers are read as they stood, and each stands in its place. -/
theorem copyRegs_memNat {s : State} (hw : Memory.wf s.mem = true) {a e k : Nat} (hbelow : ∀ i, a + 8 * k ≤ s.me.shadowAt e i) {i : Nat}
    (hi : i < k) : memNat (s.copyRegs a e k).mem (a + 8 * i) 8 = s.shadowReg e i % 2 ^ 64 := by
  induction k with
  | zero => omega
  | succ k ih =>
    have hwrites := copyRegs_writesBytes s a e k (b := a) (n := 8 * k) (Nat.le_refl _) (Nat.le_refl _)
    have hstands (j : Nat) : (s.copyRegs a e k).shadowReg e j = s.shadowReg e j :=
      shadowReg_congr hwrites.strands.1 (writesBytes_memNat hwrites (Or.inr (by have := hbelow j; omega)))
    rw [copyRegs_succ, jWrite_mem, hstands]
    by_cases hik : i = k
    · subst hik
      exact memNat_memPutNat_same (hwrites.form.wf hw) _ _ 8
    · rw [memNat_memPutNat_apart _ _ (by omega), ih (fun j => by have := hbelow j; omega) (by omega)]

/-- The first four words of the entry for command `n`. -/
def State.entryHead (s : State) (a e n : Nat) (arg : Word) : State :=
  (((s.jWrite a n 8).jWrite (a + 8) (e + 8 + s.me.pm.toNat * 2 ^ 16) 8).jWrite (a + 16) arg.toNat 8).jWrite (a + 24) 0 8

/-- The whole entry. -/
def State.entryWritten (s : State) (e n : Nat) (arg : Word) : State :=
  (s.entryHead (s.me.journalAt n) e n arg).copyRegs (s.me.journalAt n + 32) e 28

theorem entryHead_writesBytes (s : State) (a e n : Nat) (arg : Word) : s.writesBytes (s.entryHead a e n arg) a 32 :=
  writesBytes_trans (jWrite_writesBytes s n (by omega) (by omega)) (writesBytes_trans (jWrite_writesBytes _ _ (by omega) (by omega))
    (writesBytes_trans (jWrite_writesBytes _ _ (by omega) (by omega)) (jWrite_writesBytes _ _ (by omega) (by omega))))

theorem entryHead_memNat {s : State} (hw : Memory.wf s.mem = true) (a e n : Nat) (arg : Word) :
    let m := (s.entryHead a e n arg).mem
    memNat m a 8 = n % 2 ^ 64 ∧ memNat m (a + 8) 8 = (e + 8 + s.me.pm.toNat * 2 ^ 16) % 2 ^ 64
      ∧ memNat m (a + 16) 8 = arg.toNat ∧ memNat m (a + 24) 8 = 0 := by
  have h1 := memPutNat_wf s.mem a n 8 hw
  have h2 := memPutNat_wf _ (a + 8) (e + 8 + s.me.pm.toNat * 2 ^ 16) 8 h1
  have h3 := memPutNat_wf _ (a + 16) arg.toNat 8 h2
  have harg : arg.toNat % 2 ^ (8 * 8) = arg.toNat := Nat.mod_eq_of_lt arg.isLt
  simp only [State.entryHead, jWrite_mem]
  refine ⟨?_, ?_, ?_, ?_⟩
  · rw [memNat_memPutNat_apart _ _ (by omega), memNat_memPutNat_apart _ _ (by omega), memNat_memPutNat_apart _ _ (by omega),
      memNat_memPutNat_same hw]
  · rw [memNat_memPutNat_apart _ _ (by omega), memNat_memPutNat_apart _ _ (by omega), memNat_memPutNat_same h1]
  · rw [memNat_memPutNat_apart _ _ (by omega), memNat_memPutNat_same h2, harg]
  · exact memNat_memPutNat_same h3 _ _ _

section
variable (s : State) (e n : Nat) (arg : Word)

theorem entryWritten_writesBytes : s.writesBytes (s.entryWritten e n arg) (s.me.journalAt n) 256 := by
  have hhead := entryHead_writesBytes s (s.me.journalAt n) e n arg
  refine writesBytes_trans ⟨hhead.strands, hhead.cores, hhead.parts, hhead.form, fun x hx => hhead.outside x (by omega)⟩ ?_
  exact copyRegs_writesBytes _ _ _ _ (by omega) (by omega)

theorem entryWritten_memNat_low {b : Nat} (hb : b + 8 ≤ s.me.journalAt n + 32) :
    memNat (s.entryWritten e n arg).mem b 8 = memNat (s.entryHead (s.me.journalAt n) e n arg).mem b 8 :=
  writesBytes_memNat (copyRegs_writesBytes _ _ _ 28 (Nat.le_refl _) (Nat.le_refl _)) (Or.inl hb)

variable {s} (hw : Memory.wf s.mem = true)
include hw

theorem entryWritten_memNat_reg {i : Nat} (hi : i < 28) :
    memNat (s.entryWritten e n arg).mem (s.me.journalAt n + 32 + 8 * i) 8 = s.shadowReg e i % 2 ^ 64 := by
  have hhead := entryHead_writesBytes s (s.me.journalAt n) e n arg
  have hat (j : Nat) : (s.entryHead (s.me.journalAt n) e n arg).me.shadowAt e j = s.me.shadowAt e j := by
    rw [hhead.strands.1]
    rfl
  have hstands : (s.entryHead (s.me.journalAt n) e n arg).shadowReg e i = s.shadowReg e i :=
    shadowReg_congr hhead.strands.1
      (writesBytes_memNat hhead (Or.inr (by have := journalAt_below_shadowAt s.me n e i; omega)))
  rw [← hstands]
  refine copyRegs_memNat (hhead.form.wf hw) (fun j => ?_) hi
  have := journalAt_below_shadowAt s.me n e j
  rw [hat]
  omega

end

/-! ### EGO and TSQGO (R208, R228) -/

theorem journal_eq (s : State) (e n : Nat) (arg : Word) : s.journal e n arg = (s.entryWritten e n arg).updEngine s.me.core e (fun x =>
    { x with pending := x.pending
        ++ [⟨s.me.ctx, n, (s.entryWritten e n arg).myCtx.fmts, (s.entryWritten e n arg).myCtx.plt, s.me.diceSeed, none⟩] }) := rfl

theorem entryWritten_myCtx (s : State) (e n : Nat) (arg : Word) : (s.entryWritten e n arg).myCtx = s.myCtx := by
  have hwrites := entryWritten_writesBytes s e n arg
  unfold State.myCtx State.ctxOf State.braidOf? State.part
  rw [hwrites.parts, hwrites.strands.1]

/-- What journaling command `n` leaves. -/
structure State.Journaled (s v : State) (e n : Nat) (arg : Word) : Prop where
  strands : s.writesOnly v
  num : v.jNum s.me n = n % 2 ^ 64
  head : v.jHead s.me n = (e + 8 + s.me.pm.toNat * 2 ^ 16) % 2 ^ 64
  arg : v.jArg s.me n = arg
  prog : v.jProg s.me n = 0
  regs : ∀ i, i < 28 → v.jReg s.me n i = BitVec.ofNat 64 (s.shadowReg e i)
  running : (v.engine s.me.core e).running = (s.engine s.me.core e).running
  pending : (v.engine s.me.core e).pending = (s.engine s.me.core e).pending
    ++ [⟨s.me.ctx, n, s.myCtx.fmts, s.myCtx.plt, s.me.diceSeed, none⟩]
  outside : ∀ x, x < s.me.journalAt n ∨ s.me.journalAt n + 256 ≤ x → memGet v.mem x = memGet s.mem x

theorem journal_journaled {s : State} (hw : Memory.wf s.mem = true) {e : Nat} (he : e < 4) (n : Nat) (arg : Word) :
    s.Journaled (s.journal e n arg) e n arg := by
  have hwrites := entryWritten_writesBytes s e n arg
  obtain ⟨hnum, hhead, harg, hprog⟩ := entryHead_memNat hw (s.me.journalAt n) e n arg
  have hengine : ((s.entryWritten e n arg).engine s.me.core e) = s.engine s.me.core e := by
    simp only [State.engine, State.core, hwrites.cores]
  rw [← entryWritten_memNat_low s e n arg (by omega)] at hnum hhead harg hprog
  have hregs (i : Nat) (hi : i < 28) := entryWritten_memNat_reg e n arg hw hi
  rw [journal_eq, entryWritten_myCtx]
  generalize s.entryWritten e n arg = u at hwrites hnum hhead harg hprog hengine hregs
  exact {
    strands := hwrites.strands
    num := hnum
    head := hhead
    arg := by rw [State.jArg, updEngine_mem, harg, BitVec.ofNat_toNat, BitVec.setWidth_eq]
    prog := by rw [State.jProg, updEngine_mem, hprog]; rfl
    regs := fun i hi => by
      rw [State.jReg, updEngine_mem, hregs i hi]
      exact BitVec.eq_of_toNat_eq (by simp)
    running := by rw [engine_updEngine_same _ _ he, hengine]
    pending := by rw [engine_updEngine_same _ _ he, hengine]
    outside := hwrites.outside }

section
variable {s : State} {t : BitVec 2} (hready : s.ready t true = true) (hon : s.me.jrnlBase.getLsbD 0 = true) {e n : Nat}
  (hn : n = s.me.jrnlHead.toNat + 1) {arg : Word} {a : BitVec 5} {i : Instr} (hexec : exec i s = runAhead t (issueCommand e arg a) s)
include hready hon hn hexec

theorem command_waits (h : s.me.egoWaits e n = true) : exec i s = .next { s.takeToken t with waiting := true } := by
  subst hn
  rw [hexec, runAhead, runInstr_ready _ _ _ _ hready, issueCommand, needSlot_on (by simpa using hon)]
  simp only [takeToken_jrnlHead, takeToken_egoWaits, h, if_true]
  rfl

variable (hgoes : s.me.egoWaits e n = false)
  (hfree : s.jState s.me n = 0 ∨ (s.jNum s.me n ≠ n ∧ (s.jState s.me n = 3 ∨ s.jState s.me n = 4)))
include hgoes hfree

theorem issueCommand_free : exec i s = Eff.settle (if 16 ≤ (s.engine s.me.core e).pending.length then .wait (s.takeToken t) else
    .done (State.setReg { (s.takeToken t).journal e n arg with
      me := { ((s.takeToken t).journal e n arg).me.record 33 ((s.takeToken t).journal e n arg).me.jrnlHead with
        jrnlHead := BitVec.ofNat 64 n } } a (BitVec.ofNat 64 n))) t := by
  subst hn
  have hnew : ¬(s.jNum s.me (s.me.jrnlHead.toNat + 1) = s.me.jrnlHead.toNat + 1 ∧ s.jState s.me (s.me.jrnlHead.toNat + 1) ≠ 0) := by
    rcases hfree with h | ⟨h, -⟩
    · exact fun hc => hc.2 h
    · exact fun hc => h hc.1
  have hover : ¬(s.jState s.me (s.me.jrnlHead.toNat + 1) ≠ 0 ∧ s.jState s.me (s.me.jrnlHead.toNat + 1) ≠ 3
      ∧ s.jState s.me (s.me.jrnlHead.toNat + 1) ≠ 4) := by omega
  rw [hexec, runAhead, runInstr_ready _ _ _ _ hready, issueCommand, needSlot_on (by simpa using hon)]
  simp only [takeToken_jrnlHead, takeToken_egoWaits, takeToken_jNum, takeToken_jState, takeToken_engine, takeToken_core, hgoes,
    Bool.false_eq_true, if_false, if_neg hnew, if_neg hover]

theorem command_waits_for_room (hroom : 16 ≤ (s.engine s.me.core e).pending.length) :
    exec i s = .next { s.takeToken t with waiting := true } := by
  rw [issueCommand_free hready hon hn hexec hgoes hfree, if_pos hroom]
  rfl

theorem command_goes (hroom : (s.engine s.me.core e).pending.length < 16) : ∃ v : State,
    (s.takeToken t).writesOnly v ∧ v = (s.takeToken t).journal e n arg
    ∧ exec i s = .next ((State.setReg { v with me := { v.me.record 33 s.me.jrnlHead with jrnlHead := BitVec.ofNat 64 n } } a
        (BitVec.ofNat 64 n)).retires t) := by
  have hstrands := (entryWritten_writesBytes (s.takeToken t) e n arg).strands
  have hwrites : (s.takeToken t).writesOnly ((s.takeToken t).journal e n arg) := by
    rw [journal_eq]
    exact updEngine_writesOnly hstrands ..
  have hhead : ((s.takeToken t).journal e n arg).me.jrnlHead = s.me.jrnlHead := by
    rw [hwrites.1]
    exact takeToken_jrnlHead ..
  refine ⟨_, hwrites, rfl, ?_⟩
  rw [issueCommand_free hready hon hn hexec hgoes hfree, if_neg (by omega), settle_retires, hhead]

end

/-! ### ECFG and ECFGR (R205) -/

/-- A strand with one outline but for its store queue: the links may differ too. -/
theorem me_of_noStores {s u : State} (h : u.outline.noStores = s.outline.noStores) :
    u.me = { s.me with links := u.me.links, ssq := u.me.ssq } := by
  have hbare : { u.me.bare with ssq := [] } = { s.me.bare with ssq := [] } := congrArg Outline.me h
  calc u.me = { { u.me.bare with ssq := [] } with links := u.me.links, ssq := u.me.ssq } := rfl
    _ = _ := by rw [hbare]; rfl

/-- Links and its store queue apart, performing the queue leaves the strand. -/
theorem performAll_me (s : State) : s.performAll.me = { s.me with links := s.performAll.me.links, ssq := s.performAll.me.ssq } :=
  me_of_noStores (performAll_noStores s)

/-- A shadow register lies in one line (R205). -/
theorem shadowOff_in_line (t : Strand) (e i : Nat) : t.shadowOff e i % 128 + 8 ≤ 128 := by
  unfold Strand.shadowOff
  omega

section
variable {s : State} {t : BitVec 2} (hready : s.ready t false = true) (hon : s.me.jrnlBase.getLsbD 0 = true)
  (hw : Memory.wf s.mem = true) (e : BitVec 3) (r : BitVec 9) (a : BitVec 5)
include hready hon hw

theorem ecfg_does : let v := (s.takeToken t).performAll
    let p := s.me.shadowAt e.toNat r.toNat
    ∃ u : State, exec (.ecfg e r a t) s = .next (u.retires t) ∧ v.writesOnly u ∧ memNat u.mem p 8 = (s.reg a).toNat
      ∧ ∀ b, b < p ∨ p + 8 ≤ b → memGet u.mem b = memGet v.mem b := by
  intro v p
  have hme : v.me = _ := performAll_me (s.takeToken t)
  have hp : v.me.shadowAt e.toNat r.toNat = p := by
    rw [hme]
    exact takeToken_shadowAt s t e.toNat r.toNat
  have hreg : v.reg a = s.reg a := by
    rw [State.reg, hme]
    exact takeToken_reg s t a
  have hform : Memory.wf v.mem = true := (performAll_keepsWf (s.takeToken t)).wf (by rwa [takeToken_mem])
  refine ⟨v.jWrite p (s.reg a).toNat 8, ?_, jWrite_writes .., ?_, fun b hb => ?_⟩
  · rw [exec_ecfg, execEcfg, runOrdered, runInstr_ready _ _ _ _ hready, needSlot_on (by simpa using hon), ← hp, ← hreg]
    exact settle_retires ..
  · rw [jWrite_mem, memNat_memPutNat_same hform]
    exact Nat.mod_eq_of_lt (s.reg a).isLt
  · rw [jWrite_mem, memGet_memPutNat_other _ _ _ _ _ hb]

theorem ecfgr_does : let v := (s.takeToken t).performAll
    let x := v.readHome (.store s.me.core (s.me.shadowOff e.toNat r.toNat / 128)) v.reader
    (classOf x.2.1 = 2 → s.me.tePsn = false) → exec (.ecfgr e r a t) s
      = .next ((State.setReg (if classOf x.2.1 = 2 then x.2.2.raise 0x20 else x.2.2) a
          (BitVec.ofNat 64 (if classOf x.2.1 = 4 then 0 else memNat v.mem (s.me.shadowAt e.toNat r.toNat) 8))).retires t) := by
  intro v x hpsn
  have hme : v.me = _ := performAll_me (s.takeToken t)
  have hoff : v.me.shadowOff e.toNat r.toNat = s.me.shadowOff e.toNat r.toNat := by
    rw [hme]
    simp [Strand.shadowOff]
  have hcore : v.me.core = s.me.core := by
    rw [hme]
    exact takeToken_core s t
  have hform : Memory.wf v.mem = true := (performAll_keepsWf (s.takeToken t)).wf (by rwa [takeToken_mem])
  have hbytes : x.1 = memLine v.mem (128 * storeLineNo s.me.core (s.me.shadowOff e.toNat r.toNat / 128)) :=
    (readRaw_high_bytes v false _ _ v.reader (storeLineNo_high ..) hform).1
  have hvalue : lineNat x.1 (s.me.shadowOff e.toNat r.toNat % 128) 8 = memNat v.mem (s.me.shadowAt e.toNat r.toNat) 8 := by
    rw [hbytes, lineNat_memLine _ hform _ _ _ (shadowOff_in_line ..), Strand.shadowAt, lsByte_eq]
  have htrap : x.2.2.me.tePsn = s.me.tePsn := by
    rw [(readHome_lines v _ _).me, hme]
    simp [Strand.tePsn]
  rw [exec_ecfgr, execEcfgr, runOrdered, runInstr_ready _ _ _ _ hready, needSlot_on (by simpa using hon)]
  simp only [show (s.takeToken t).performAll = v from rfl, hoff, hcore, show v.readHome _ v.reader = x from rfl, hvalue, scalarPsn, htrap]
  by_cases hpoison : classOf x.2.1 = 2
  · simp only [hpoison, hpsn hpoison, beq_self_eq_true, if_true, Bool.false_eq_true, if_false]
    exact settle_retires ..
  · simp only [beq_eq_false_iff_ne.2 hpoison, if_neg hpoison, Bool.false_eq_true, if_false]
    exact settle_retires ..

end

section
variable {s v : State} {t : BitVec 2} {e n : Nat} {arg : Word}

/-- The entry that the strand finds written, its token wait apart. -/
theorem journaled_takeToken (h : (s.takeToken t).Journaled v e n arg) (hn : n < 2 ^ 64) (he : e < 4) :
    v.jNum s.me n = n ∧ v.jHead s.me n = e + 8 + s.me.pm.toNat * 2 ^ 16 ∧ v.jArg s.me n = arg ∧ v.jProg s.me n = 0
      ∧ (∀ i, i < 28 → v.jReg s.me n i = BitVec.ofNat 64 (s.shadowReg e i))
      ∧ (v.engine s.me.core e).running = (s.engine s.me.core e).running
      ∧ (v.engine s.me.core e).pending
        = (s.engine s.me.core e).pending ++ [⟨s.me.ctx, n, s.myCtx.fmts, s.myCtx.plt, s.me.diceSeed, none⟩]
      ∧ ∀ x, x < s.me.journalAt n ∨ s.me.journalAt n + 256 ≤ x → memGet v.mem x = memGet s.mem x := by
  obtain ⟨-, hnum, hhead, harg, hprog, hregs, hrun, hpending, hout⟩ := h
  have hpm : s.me.pm.toNat ≤ 1 := Bool.toNat_le _
  simp only [State.jNum, State.jHead, State.jArg, State.jProg, State.jReg, takeToken_journalAt, takeToken_pm, takeToken_shadowReg,
    takeToken_core, takeToken_engine, takeToken_ctx, takeToken_myCtx, takeToken_diceSeed, takeToken_mem]
    at hnum hhead harg hprog hregs hrun hpending hout
  rw [Nat.mod_eq_of_lt hn] at hnum
  rw [Nat.mod_eq_of_lt (by omega)] at hhead
  exact ⟨hnum, hhead, harg, hprog, hregs, hrun, hpending, hout⟩

end

/-- Settles O47: a command's entry is 256 bytes written below the shadow registers they are copied from, and ECFG and ECFGR are a
store and a load of eight bytes behind the queued scalar stores. -/
theorem commandIssue : Obligations.CommandIssue := by
  unfold Obligations.CommandIssue
  intro s e r a t hready hw w off goes
  have hgoes {i : Instr} {k : Nat} {arg : Word} (hexec : exec i s = runAhead t (issueCommand k arg a) s) (hk : k < 4)
      (hon : s.me.jrnlBase.getLsbD 0 = true) : goes i k arg := by
    refine ⟨command_waits hready hon rfl hexec, fun hego hn hfree => ⟨command_waits_for_room hready hon rfl hexec hego hfree,
      fun hroom => ?_⟩⟩
    obtain ⟨v, hwrites, rfl, hexecv⟩ := command_goes hready hon rfl hexec hego hfree hroom
    have hj := journal_journaled (s := w) (by rwa [takeToken_mem]) hk (s.me.jrnlHead.toNat + 1) arg
    exact ⟨_, hexecv, hwrites, journaled_takeToken hj hn hk⟩
  refine ⟨fun hoff => needSlot_off hready hoff _, fun hoff => needSlot_off hready hoff _, fun hon =>
    ⟨fun he => hgoes (exec_ego ..) he hon, hgoes (exec_tsqgo ..) (by decide) hon⟩, fun hordered =>
    ⟨fun hoff => needSlot_off hordered hoff _, fun hoff => needSlot_off hordered hoff _, fun hon =>
      ⟨ecfg_does hordered hon hw e r a, ecfgr_does hordered hon hw e r a⟩⟩⟩

end Sys2Proof.Machine
end

section
/-!
PROOFS. EWAIT, ESTAT, ECANCEL, EJRNL, PUBLISH, TSQLD and TSQSTAT (R212, R214, R216, R217, R225, R227, R229).
-/
namespace Sys2Proof.Machine

/-! ### The commands that an instruction names (R212, R217) -/

/-- The strand's incomplete commands of engine `k`, or the one of them numbered `x` where `x` is not zero. -/
def State.named (s : State) (k x : Nat) : List Nat :=
  ((s.incomplete s.me).filter (fun n => s.jEngine s.me n == k)).filter (fun n => x == 0 || n == x)

/-- A command that faulted, or whose state is reserved (R207). -/
def State.badCmd (s : State) (n : Nat) : Bool := s.jState s.me n == 5 || s.jState s.me n == 7

@[simp] theorem takeToken_named (s : State) (t : BitVec 2) (k x : Nat) : (s.takeToken t).named k x = s.named k x := by
  simp [State.named]

@[simp] theorem takeToken_badCmd (s : State) (t : BitVec 2) : (s.takeToken t).badCmd = s.badCmd := by
  funext n
  simp [State.badCmd]

theorem named_zero (s : State) (k : Nat) : s.named k 0 = (s.incomplete s.me).filter (fun n => s.jEngine s.me n == k) := by
  simp [State.named]

theorem mem_incomplete {s : State} {u : Strand} {n : Nat} : n ∈ s.incomplete u ↔ u.jrnlBase.getLsbD 0 = true
    ∧ n ∈ (List.range 64).map (fun i => u.jrnlHead.toNat - 63 + i) ∧ 1 ≤ n ∧ n ≤ u.jrnlHead.toNat ∧ s.jNum u n = n
    ∧ s.jState u n ≠ 3 ∧ s.jState u n ≠ 4 := by
  unfold State.incomplete
  split
  · next h => simp only [List.mem_filter, Bool.and_eq_true, decide_eq_true_eq, beq_iff_eq, bne_iff_ne, h, true_and, and_assoc]
  · next h => exact iff_of_false List.not_mem_nil (fun hc => h hc.1)

theorem mem_named {s : State} {k x n : Nat} : n ∈ s.named k x ↔ n ∈ s.incomplete s.me ∧ s.jEngine s.me n = k ∧ (x = 0 ∨ n = x) := by
  simp only [State.named, List.mem_filter, Bool.or_eq_true, beq_iff_eq, and_assoc]

theorem named_eq_nil_of_not_num {s : State} {k x : Nat} (hx : x ≠ 0) (hnum : s.jNum s.me x ≠ x) : s.named k x = [] := by
  refine List.eq_nil_iff_forall_not_mem.2 fun n hn => ?_
  obtain ⟨hinc, -, hor⟩ := mem_named.1 hn
  obtain ⟨-, -, -, -, hnumn, -⟩ := mem_incomplete.1 hinc
  obtain rfl := hor.resolve_left hx
  exact hnum hnumn

/-! ### EWAIT (R212) -/

/-- What EWAIT makes of the commands `ns` it waits for, before its token is taken and after. -/
def ewaitOn (ns : List Nat) (s : State) : Eff :=
  match ns.find? s.badCmd with
  | some n => trapI s causeEngine (BitVec.ofNat 64 n)
  | none => if ns.isEmpty then .done s else .wait { s with me := { s.me with engWait := ns } }

section
variable {s : State} {t : BitVec 2} (hready : s.ready t false = true) (e : BitVec 3) (a : BitVec 5)
include hready

theorem ewait_does (hright : ¬((s.reg a).toNat ≠ 0 ∧ (s.me.jrnlHead.toNat < (s.reg a).toNat
      ∨ (s.jNum s.me (s.reg a).toNat = (s.reg a).toNat ∧ s.jEngine s.me (s.reg a).toNat ≠ e.toNat)))) :
    exec (.ewait e a t) s = (ewaitOn (s.named e.toNat (s.reg a).toNat) (s.takeToken t)).settle t := by
  rw [exec_ewait, execEwait, runOrdered, runInstr_ready _ _ _ _ hready, ← takeToken_named s t, ← takeToken_reg s t]
  rw [← takeToken_jrnlHead s t, ← takeToken_jNum s t, ← takeToken_jEngine s t, ← takeToken_reg s t] at hright
  generalize s.takeToken t = w at hright ⊢
  by_cases hx : (w.reg a).toNat = 0
  · simp only [hx, named_zero]
    rfl
  · have hhead : ¬w.me.jrnlHead.toNat < (w.reg a).toNat := fun h => hright ⟨hx, .inl h⟩
    simp only [if_neg hx, if_neg hhead]
    by_cases hnum : w.jNum w.me (w.reg a).toNat = (w.reg a).toNat
    · have hengine : ¬w.jEngine w.me (w.reg a).toNat ≠ e.toNat := fun h => hright ⟨hx, .inr ⟨hnum, h⟩⟩
      have hne : ((w.reg a).toNat == 0) = false := by simpa using hx
      simp only [if_pos hnum, if_neg hengine, State.named, hne, Bool.false_or]
      rfl
    · rw [if_neg hnum, named_eq_nil_of_not_num hx hnum]
      rfl

end

/-! ### ESTAT and TSQSTAT (R216, R229) -/

section
variable {s : State} {t : BitVec 2} (hready : s.ready t false = true) (e : BitVec 3) (r : BitVec 9) (a : BitVec 5)
include hready

theorem estat_does : exec (.estat e r a t) s
    = .next (((s.takeToken t).setReg a (BitVec.ofNat 64 (s.engStatus e.toNat r.toNat))).retires t) := by
  rw [exec_estat, execEstat, runOrdered, runInstr_ready _ _ _ _ hready, settle_retires, takeToken_engStatus]

theorem tsqstat_does : exec (.tsqstat r a t) s = .next (((s.takeToken t).setReg a (BitVec.ofNat 64 (match r.toNat with
      | 0 => (s.core s.me.core).tsq.pc % 2 ^ 12 + (s.core s.me.core).tsq.st % 2 ^ 3 * 2 ^ 12
      | 5 => (s.core s.me.core).tsq.scale % 2 ^ 8
      | n => (s.core s.me.core).tsq.loopC.getD (n - 1) 0 % 2 ^ 24
          + (s.core s.me.core).tsq.loopN.getD (n - 1) 0 % 2 ^ 24 * 2 ^ 24))).retires t) := by
  rw [exec_tsqstat, execTsqstat, runOrdered, runInstr_ready _ _ _ _ hready, settle_retires, takeToken_core, takeToken_core?]
  rfl

end

/-! ### ECANCEL (R217) -/

/-- ECANCEL can cancel the command now: it is under way, or its token has room. -/
def State.cancelRoom (s : State) (k n : Nat) : Bool :=
  s.jState s.me n == 2 || !ctokOf k (s.jReg s.me n 0) || decide (s.me.complTokens k < 32)

/-- The named commands cancelled, those that can be. -/
def State.cancelNamed (s : State) (k x : Nat) : State :=
  (s.named k x).foldl (fun s n => if s.cancelRoom k n then s.cancelCmd s.me n true else s) s

/-- Entries of two slots lie apart (R206). -/
theorem journalAt_apart (u : Strand) {n m : Nat} (h : m % 64 ≠ n % 64) :
    u.journalAt m + 256 ≤ u.journalAt n ∨ u.journalAt n + 256 ≤ u.journalAt m := by
  simp only [Strand.journalAt, lsByte]
  omega

theorem journalAt_slot (u : Strand) {n m : Nat} (h : m % 64 = n % 64) : u.journalAt m = u.journalAt n := by
  rw [Strand.journalAt, h, Strand.journalAt]

/-- The state word of an entry changed leaves every entry's number. -/
theorem jSetState_jNum (s : State) (u : Strand) (n st fcode m : Nat) : (s.jSetState u n st fcode).jNum u m = s.jNum u m := by
  unfold State.jSetState State.jNum
  rw [jWrite_mem]
  by_cases h : m % 64 = n % 64
  · rw [journalAt_slot u h]
    exact memNat_memPutNat_apart _ _ (by omega)
  · have := journalAt_apart u h
    exact memNat_memPutNat_apart _ _ (by omega)

theorem jSetState_jHead_other (s : State) (u : Strand) {n m : Nat} (st fcode : Nat) (h : m % 64 ≠ n % 64) :
    (s.jSetState u n st fcode).jHead u m = s.jHead u m := by
  have := journalAt_apart u h
  unfold State.jSetState State.jHead
  rw [jWrite_mem]
  exact memNat_memPutNat_apart _ _ (by omega)

theorem jSetState_jState {s : State} (hw : Memory.wf s.mem = true) (u : Strand) (n : Nat) {st : Nat} (hst : st < 8) :
    (s.jSetState u n st 0).jState u n = st := by
  have hlt : s.jHead u n < 2 ^ 64 := memNat_lt ..
  have hhead : (s.jSetState u n st 0).jHead u n = s.jHead u n - s.jHead u n / 8 % 8 * 8 + st * 8 := by
    unfold State.jSetState
    simp only [if_true]
    rw [State.jHead, jWrite_mem, memNat_memPutNat_same hw]
    exact Nat.mod_eq_of_lt (by omega)
  rw [State.jState, hhead]
  omega

/-- What counts as a strand's incomplete commands hangs on its core, its journal and the memory. -/
theorem incomplete_congr {s u : State} {x y : Strand} (hcore : y.core = x.core) (hbase : y.jrnlBase = x.jrnlBase)
    (hhead : y.jrnlHead = x.jrnlHead) (hmem : u.mem = s.mem) : u.incomplete y = s.incomplete x := by
  unfold State.incomplete State.jNum State.jState State.jHead Strand.journalAt
  rw [hcore, hbase, hhead, hmem]

/-- Moving JRNLDONE up changes no memory and nothing else of the strand. -/
theorem settleDone_me (s : State) (core ctx : Nat) : (s.settleDone core ctx).mem = s.mem
    ∧ ∃ d, (s.settleDone core ctx).me = { s.me with jrnlDone := d } := by
  unfold State.settleDone
  split
  · exact ⟨rfl, _, rfl⟩
  · next u _ =>
    refine ⟨rfl, ?_⟩
    unfold State.mapStrand State.mapStrands
    dsimp only
    split
    · exact ⟨_, rfl⟩
    · exact ⟨_, rfl⟩

theorem settleDone_named (s : State) (core ctx k x : Nat) : (s.settleDone core ctx).named k x = s.named k x := by
  obtain ⟨hmem, d, hme⟩ := settleDone_me s core ctx
  unfold State.named
  rw [incomplete_congr (x := s.me) (y := (s.settleDone core ctx).me) (by rw [hme]) (by rw [hme]) (by rw [hme]) hmem]
  unfold State.jEngine State.jHead Strand.journalAt
  rw [hmem, hme]

theorem jSetState_me (s : State) (u : Strand) (n st fcode : Nat) :
    (s.jSetState u n st fcode).me = { s.me with links := (s.jSetState u n st fcode).me.links } :=
  (jWrite_writes _ _ _ _).1

/-- A command of its slot made CANCELLED is not incomplete, and the others stay as they were. -/
theorem mem_incomplete_cancelled {s : State} (hw : Memory.wf s.mem = true) {n m : Nat} (hn : n ∈ s.incomplete s.me)
    (hm : m ∈ (s.jSetState s.me n 4 0).incomplete s.me) : m ∈ s.incomplete s.me ∧ m % 64 ≠ n % 64 := by
  obtain ⟨-, hnrange, -, -, -⟩ := mem_incomplete.1 hn
  obtain ⟨hon, hmrange, hlow, hhigh, hnum, hdone, hcancelled⟩ := mem_incomplete.1 hm
  obtain ⟨i, hi, hin⟩ := List.mem_map.1 hnrange
  obtain ⟨j, hj, hjm⟩ := List.mem_map.1 hmrange
  rw [List.mem_range] at hi hj
  have hslot : m % 64 ≠ n % 64 := by
    intro h
    obtain rfl : m = n := by omega
    exact hcancelled (jSetState_jState hw s.me m (by omega))
  have hhead := jSetState_jHead_other s s.me 4 0 hslot
  rw [jSetState_jNum] at hnum
  rw [State.jState, hhead] at hdone hcancelled
  exact ⟨mem_incomplete.2 ⟨hon, hmrange, hlow, hhigh, hnum, hdone, hcancelled⟩, hslot⟩

theorem jSetState_named_cancelled {s : State} (hw : Memory.wf s.mem = true) {k x n : Nat} (hn : s.named k x = [n]) :
    (s.jSetState s.me n 4 0).named k x = [] := by
  refine List.eq_nil_iff_forall_not_mem.2 fun m hm => ?_
  obtain ⟨hinc, hengine, hor⟩ := mem_named.1 hm
  have hme := jSetState_me s s.me n 4 0
  rw [incomplete_congr (x := s.me) (u := s.jSetState s.me n 4 0) (s := s.jSetState s.me n 4 0) (by rw [hme]) (by rw [hme]) (by rw [hme]) rfl] at hinc
  obtain ⟨hinc, hslot⟩ := mem_incomplete_cancelled hw (mem_named.1 (hn ▸ List.mem_singleton_self n)).1 hinc
  have hsame : (s.jSetState s.me n 4 0).jEngine (s.jSetState s.me n 4 0).me m = s.jEngine s.me m := by
    rw [State.jEngine, State.jEngine, ← jSetState_jHead_other s s.me 4 0 hslot]
    unfold State.jHead Strand.journalAt
    rw [hme]
  have hmn : m ∈ s.named k x := mem_named.2 ⟨hinc, hsame ▸ hengine, hor⟩
  rw [hn, List.mem_singleton] at hmn
  exact hslot (by rw [hmn])

/-- Cancelling a command that is not under way and adds no token. -/
theorem cancelCmd_pending {s : State} {u : Strand} {n : Nat} (hstate : s.jState u n ≠ 2)
    (htok : ctokOf (s.jEngine u n) (s.jReg u n 0) = false) (tokens : Bool) : s.cancelCmd u n tokens
    = (((s.jSetState u n 4 0).updEngine u.core (s.jEngine u n) (fun y =>
        { y with pending := y.pending.filter (fun p => !(p.ctx == u.ctx && p.num == n)) })).settleDone u.core u.ctx) := by
  unfold State.cancelCmd
  dsimp only
  split
  · next h => exact absurd h hstate
  · rw [htok, Bool.and_false, if_neg Bool.false_ne_true]

/-- Cancelling the only command named, where it is not under way and adds no token. -/
theorem cancelNamed_pending {s : State} (hw : Memory.wf s.mem = true) {k x n : Nat} (hn : s.named k x = [n])
    (hstate : s.jState s.me n ≠ 2) (htok : ctokOf k (s.jReg s.me n 0) = false) :
    s.cancelNamed k x = (((s.jSetState s.me n 4 0).updEngine s.me.core k (fun y =>
        { y with pending := y.pending.filter (fun p => !(p.ctx == s.me.ctx && p.num == n)) })).settleDone s.me.core s.me.ctx)
      ∧ (s.cancelNamed k x).named k x = [] := by
  have hengine : s.jEngine s.me n = k := (mem_named.1 (hn ▸ List.mem_singleton_self n)).2.1
  have hroom : s.cancelRoom k n = true := by simp [State.cancelRoom, htok]
  have hcancel : s.cancelNamed k x = s.cancelCmd s.me n true := by
    rw [State.cancelNamed, hn, List.foldl_cons, List.foldl_nil, if_pos hroom]
  rw [cancelCmd_pending hstate (by rw [hengine, htok]), hengine] at hcancel
  refine ⟨hcancel, ?_⟩
  rw [hcancel, settleDone_named]
  exact jSetState_named_cancelled hw hn

section
variable {s : State} {t : BitVec 2} (hready : s.ready t false = true) (e : BitVec 3) (a : BitVec 5)
include hready

theorem ecancel_does : exec (.ecancel e a t) s = Eff.settle (let u := (s.takeToken t).cancelNamed e.toNat (s.reg a).toNat
    if (u.named e.toNat (s.reg a).toNat).isEmpty then .done u else .wait u) t := by
  rw [exec_ecancel, execEcancel, runOrdered, runInstr_ready _ _ _ _ hready, ← takeToken_reg s t]
  generalize s.takeToken t = w
  simp only [State.cancelNamed, State.named, List.filter_filter, Bool.and_comm (_ == e.toNat)]
  rfl

theorem ecancel_none (hn : s.named e.toNat (s.reg a).toNat = []) : exec (.ecancel e a t) s = .next ((s.takeToken t).retires t) := by
  rw [ecancel_does hready, ← settle_retires, State.cancelNamed, takeToken_named, hn]
  simp [hn]

theorem ecancel_one (hw : Memory.wf s.mem = true) {n : Nat} (hn : s.named e.toNat (s.reg a).toNat = [n])
    (hstate : s.jState s.me n ≠ 2) (htok : ctokOf e.toNat (s.jReg s.me n 0) = false) :
    exec (.ecancel e a t) s = .next ((((((s.takeToken t).jSetState (s.takeToken t).me n 4 0).updEngine s.me.core e.toNat (fun y =>
      { y with pending := y.pending.filter (fun p => !(p.ctx == s.me.ctx && p.num == n)) })).settleDone s.me.core s.me.ctx)).retires t) := by
  rw [← takeToken_jState s t] at hstate
  rw [← takeToken_jReg s t] at htok
  rw [← takeToken_named s t] at hn
  rw [← takeToken_mem s t] at hw
  obtain ⟨hcancel, hnone⟩ := cancelNamed_pending hw hn hstate htok
  rw [ecancel_does hready]
  dsimp only
  rw [hnone, hcancel, takeToken_core, takeToken_ctx, ← settle_retires]
  rfl

end

/-! ### EJRNL (R214) -/

section
variable {s : State} {t : BitVec 2} (hready : s.ready t false = true) (e : BitVec 3) (a : BitVec 5)
include hready

theorem ejrnl_does : exec (.ejrnl e a t) s = .next (((s.takeToken t).performAll.replay (s.takeToken t).me e.toNat
    (if (s.reg a).toNat = 0 then s.me.jrnlHead.toNat else (s.reg a).toNat)).retires t) := by
  rw [exec_ejrnl, execEjrnl, runOrdered, runInstr_ready _ _ _ _ hready, settle_retires, takeToken_reg, takeToken_jrnlHead]

end

/-! ### PUBLISH (R225) -/

theorem State.ScopesOnly.part {s u : State} (h : s.ScopesOnly u) : u.me.part = s.me.part := by rw [h.me]

theorem published_part (s : State) (n k : Nat) : ((s.clampScope n).2.performAll.release k).me.part = s.me.part := by
  have hperform : (s.clampScope n).2.performAll.me.part = (s.clampScope n).2.me.part := by rw [performAll_me]
  rw [(release_scopesOnly ⟨rfl, rfl⟩ k).part, hperform, (clampScope_scopesOnly s n).part]

section
variable {s : State} {t : BitVec 2} (hready : s.ready t false = true) (a : BitVec 5) (scope : BitVec 3)
include hready

theorem publish_own {b : BufEntry} (hb : (s.part s.me.part).bufs.lookup (s.reg a).toNat = some b) (hvf : b.vf = s.me.vf)
    (hx : (s.reg a).toNat ≤ 255) : let c := (s.takeToken t).clampScope scope.toNat
    exec (.publish a scope t) s = .next (((c.2.performAll.release c.1).updPart s.me.part (fun p =>
      { p with bufs := put p.bufs (s.reg a).toNat { b with front := !b.front } })).retires t) := by
  intro c
  have hpart := published_part (s.takeToken t) scope.toNat c.1
  rw [takeToken_part] at hpart
  rw [← takeToken_part s t, State.part, ← takeToken_parts s t, ← State.part, ← takeToken_reg s t] at hb
  rw [← takeToken_vf s t] at hvf
  rw [exec_publish, execPublish, runOrdered, runInstr_ready _ _ _ _ hready]
  dsimp only
  rw [hb]
  dsimp only
  rw [if_neg (by rw [takeToken_reg]; omega), settle_retires, takeToken_reg, hpart]

theorem publish_other (h : ∀ b, (s.part s.me.part).bufs.lookup (s.reg a).toNat = some b → b.vf ≠ s.me.vf ∨ 255 < (s.reg a).toNat) :
    exec (.publish a scope t) s = (s.takeToken t).takeTrap { cause := 5, val := s.reg a } := by
  rw [← takeToken_part s t, State.part, ← takeToken_parts s t, ← State.part, ← takeToken_reg s t, ← takeToken_vf s t] at h
  rw [exec_publish, execPublish, runOrdered, runInstr_ready _ _ _ _ hready, ← takeToken_reg s t]
  generalize s.takeToken t = w at h ⊢
  dsimp only
  split
  · next b hb =>
    rw [if_pos (h b hb)]
    rfl
  · rfl

end

/-! ### TSQLD (R227) -/

/-- Loading a chain of lines changes nothing of the strand. -/
theorem tsqChain_me {fuel : Nat} : ∀ {pc : Word} {w : Nat} {s u : State}, tsqChain fuel pc w s = .done u → u.me = s.me := by
  induction fuel with
  | zero => exact fun h => nomatch h
  | succ fuel ih =>
    intro pc w s u h
    unfold tsqChain at h
    extract_lets a base at_ at h
    split at h
    · cases h
    · split at h
      · cases h
      · split at h
        · cases h
        · cases h
        · next v entry htranslate =>
          have hv : v.me = s.me := by
            have := translate_translated s s.walker at_ .fetch
            rw [htranslate] at this
            exact Translated.me this
          have hread (l : LineLoc) : (v.readHome l v.reader).2.2.me = s.me := (Translated.readHome v l v.reader).me.trans hv
          dsimp only at h
          split at h
          · cases h
          · split at h
            · cases h
            · split at h
              · cases h
              · split at h
                · cases h
                  exact hread _
                · exact (ih h).trans (hread _)

section
variable {s : State} {t : BitVec 2} (hready : s.ready t false = true) (r : BitVec 9) (a : BitVec 5)
include hready

theorem tsqld_fresh (hnone : s.me.tsqLoad = none) : exec (.tsqld r a t) s
    = (if (s.engine s.me.core 3).running.isSome || !(s.engine s.me.core 3).pending.isEmpty then Eff.wait (s.takeToken t)
       else tsqChain 4097 (s.reg a) (8 * r.toNat) { (s.takeToken t).performAll with
         me := { (s.takeToken t).performAll.me with tsqLoad := some (s.reg a, 8 * r.toNat) } }).settle t := by
  have hreg (b : State) (h : b.me.regs = s.me.regs) : b.reg a = s.reg a := by unfold State.reg Strand.reg; rw [h]
  rw [exec_tsqld, execTsqld, runOrdered, runInstr_ready _ _ _ _ hready]
  simp only [takeToken_core, takeToken_engine, takeToken_tsqLoad, hnone]
  rw [hreg (s.takeToken t).performAll (by rw [performAll_me]; exact takeToken_regs s t)]

theorem tsqld_loads (hnone : s.me.tsqLoad = none) (hrunning : (s.engine s.me.core 3).running = none)
    (hpending : (s.engine s.me.core 3).pending = []) {u : State} (hu : tsqChain 4097 (s.reg a) (8 * r.toNat)
      { (s.takeToken t).performAll with
        me := { (s.takeToken t).performAll.me with tsqLoad := some (s.reg a, 8 * r.toNat) } } = .done u) :
    exec (.tsqld r a t) s = .next (u.retires t) ∧ u.me.regs = s.me.regs ∧ u.me.rows = s.me.rows := by
  rw [tsqld_fresh hready r a hnone, hrunning, hpending, if_neg (by simp), hu, settle_retires, tsqChain_me hu]
  dsimp only
  rw [performAll_me]
  exact ⟨rfl, takeToken_regs s t, takeToken_rows s t⟩

theorem tsqld_goes_on {l : Word × Nat} (hl : s.me.tsqLoad = some l) {u : State} (hu : tsqChain 4097 l.1 l.2 (s.takeToken t) = .done u) :
    exec (.tsqld r a t) s = .next (u.retires t) ∧ u.me.regs = s.me.regs ∧ u.me.rows = s.me.rows := by
  rw [exec_tsqld, execTsqld, runOrdered, runInstr_ready _ _ _ _ hready]
  simp only [takeToken_tsqLoad, hl, hu]
  rw [settle_retires, tsqChain_me hu]
  exact ⟨rfl, takeToken_regs s t, takeToken_rows s t⟩

end

/-! ### The statement -/

/-- Settles O48: each instruction's own rule above; a command cancelled leaves the incomplete ones since the entries of
the other numbers of JRNLHEAD's window lie in other slots. -/
theorem commandWaits : Obligations.CommandWaits := by
  unfold Obligations.CommandWaits
  intro s e r a scope t hready hw w x k inc named bad wrong q
  have hewait (h : ¬wrong) : exec (.ewait e a t) s = (ewaitOn named w).settle t := ewait_does hready e a h
  have hbad : w.badCmd = bad := takeToken_badCmd s t
  refine ⟨fun hright hnone => ?_, fun hright hsome hgood => ?_, fun n hright hfind => ?_, estat_does hready e r a,
    ecancel_none hready e a, fun n hn hstate htok => ecancel_one hready e a hw hn hstate htok, ejrnl_does hready e a,
    ⟨fun b hb hvf hx => publish_own hready a scope hb hvf hx, publish_other hready a scope⟩, fun hnone hbusy => ?_,
    fun hnone hrunning hpending u hu => tsqld_loads hready r a hnone hrunning hpending hu,
    fun l u hl hu => tsqld_goes_on hready r a hl hu, fun _ => tsqstat_does hready r a⟩
  · rw [hewait hright, hnone]
    exact settle_retires ..
  · have hfind : named.find? w.badCmd = none := by
      rw [hbad, List.find?_eq_none]
      simpa using hgood
    rw [hewait hright, ewaitOn, hfind, if_neg (by simpa using hsome)]
    rfl
  · rw [hewait hright, ewaitOn, hbad, hfind]
    rfl
  · rw [tsqld_fresh hready r a hnone, if_pos hbusy]
    rfl

end Sys2Proof.Machine
end

section
/-!
PROOFS. TRD whose line takes the place of a dirty one in a full L1 set (R27, R132, R232).
-/
namespace Sys2Proof.Machine

/-- A command of function 0 on the transform sequencer. -/
def trdCmd : RunCmd :=
  { ctx := 0, num := 1, vf := 0, part := 0, braid := 0, image := 0, priv := false, arg := 0, prog := 0, regs := [], dice := 0 }

/-- L1 lines that fill the set of line 1 of the page, each with a dirty byte of line 0. -/
def dirtySet : List L1Line :=
  (List.range 16).map (fun i => { key := 1 + 128 * (i + 1), page := loadTlb, line := 0, data := 1, dirty := 1 })

/-- Core 0 runs the command, its L1 holds that set, and generator 0 points at line 1 of the page. -/
def dirtyVictim : State :=
  { State.reset with
    vfs := [(0, loadVf)]
    parts := [(0, loadPart)]
    cores := [(0, { l1 := dirtySet, tlb := [loadTlb]
                    engines := (Vector.replicate 4 {}).set 3 { running := some trdCmd }
                    tsq := { ag := (Vector.replicate 4 {}).set 0 { base := 128 } } })] }

theorem dirtyVictim_runs : (dirtyVictim.engine dirtyVictim.me.core 3).running = some trdCmd := by decide +kernel

theorem dirtyVictim_banksQuiet : dirtyVictim.banksQuiet := fun _ => ⟨rfl, rfl, fun _ _ h => nomatch h⟩

/-- The line that TRD reads is found, and its tag is ZERO. -/
theorem dirtyVictim_reads : (match dirtyVictim.engLine dirtyVictim.me.core trdCmd ((dirtyVictim.tsq dirtyVictim.me.core).addr 0 0) .read with
    | .ok u l => some (classOf (u.loadLine dirtyVictim.me.core l 0 (trdCmd.walker dirtyVictim.me.core).reader).2.1)
    | _ => none) = some 1 := by decide +kernel

/-- TRD writes a dirty byte of line 0 back. -/
theorem trd_dirtyVictim_byte : memGet (memAfter (exec (.trd 0 0) dirtyVictim)) 0 = 1 := by decide +kernel

/-- Refutes O51, in its clause on TRD: nothing says that no full L1 set gives up a dirty line. In `dirtyVictim` the line read
takes the place of a line with a dirty byte, which goes home: byte 0 changes. -/
theorem not_transformSequencer : ¬ Obligations.TransformSequencer := by
  intro h
  obtain ⟨-, -, -, -, -, -, -, htrd, -⟩ := h dirtyVictim trdCmd 0 0 0 0 0 0 0 0 0 0 0 0 0 0 0 dirtyVictim_runs
  have hreads := dirtyVictim_reads
  split at hreads
  · next u l hplace =>
    have hclass := Option.some.inj hreads
    obtain ⟨z, hexec, -, -, -, hkept⟩ := htrd u l hplace (by rw [hclass]; decide) (fun h4 => by rw [hclass] at h4; cases h4)
    have hbyte := trd_dirtyVictim_byte
    rw [hexec] at hbyte
    have hzero := hkept dirtyVictim_banksQuiet rfl 0
    exact absurd (hbyte.symm.trans hzero) (by decide +kernel)
  · cases hreads

end Sys2Proof.Machine
end

section
/-!
SUPPORT. What a write of an engine into a local store, the record of its progress and its completion leave (R207, R209, R221).
-/
namespace Sys2Proof.Machine

/-! ### Where strands keep their journals (R206) -/

/-- What the place of a strand's journal hangs on. -/
def Strand.seat (t : Strand) : Bool × Nat × Nat × Word := (t.live, t.core, t.ctx, t.jrnlBase)

def State.seats (s : State) : (Bool × Nat × Nat × Word) × List (Bool × Nat × Nat × Word) := (s.me.seat, s.others.map Strand.seat)

/-- First byte of the entry of command `n` of the strand in a context. -/
def State.entryAt (s : State) (core ctx n : Nat) : Option Nat := (s.strand? core ctx).map (fun t => t.journalAt n)

theorem entryAt_congr {s u : State} (h : u.seats = s.seats) (core ctx n : Nat) : u.entryAt core ctx n = s.entryAt core ctx n := by
  have hform (v : State) : v.entryAt core ctx n
      = if v.seats.1.1 = true ∧ v.seats.1.2.1 = core ∧ v.seats.1.2.2.1 = ctx then
          some (lsByte v.seats.1.2.1 (v.seats.1.2.2.2.toNat / 2 ^ 15 % 32 * 32768 + n % 64 * 256))
        else (v.seats.2.find? (fun x => x.1 && x.2.1 == core && x.2.2.1 == ctx)).map
          (fun x => lsByte x.2.1 (x.2.2.2.toNat / 2 ^ 15 % 32 * 32768 + n % 64 * 256)) := by
    unfold State.entryAt State.strand? State.seats
    simp only [List.find?_map, Option.map_map]
    split
    · next hat => exact (if_pos hat).symm
    · next hat => exact (if_neg hat).symm
  rw [hform, hform, h]

theorem seats_of_outline {s u : State} (h : u.outline = s.outline) : u.seats = s.seats := by
  have hform (v : State) : v.seats = (v.outline.me.seat, v.outline.others.map Strand.seat) := by
    simp only [State.seats, State.outline, List.map_map]
    rfl
  rw [hform, hform, h]

theorem mapStrands_seats (s : State) (p : Strand → Bool) {f : Strand → Strand} (hf : ∀ t, (f t).seat = t.seat) :
    (s.mapStrands p f).seats = s.seats := by
  have hite (c : Prop) [Decidable c] (t : Strand) : (if c then f t else t).seat = t.seat := by split <;> simp [hf]
  simp only [State.seats, State.mapStrands, hite, List.map_map, Function.comp_def]

/-! ### What such a step leaves -/

/-- It changes bytes of the `n` from `a` alone, tags of their lines alone, no tile and no register, and no strand's place. -/
structure State.Touches (s u : State) (a n : Nat) : Prop where
  seats : u.seats = s.seats
  regs : u.me.regs = s.me.regs
  rows : u.me.rows = s.me.rows
  tiles : ∀ c i, u.tile c i = s.tile c i
  form : s.keepsWf u
  bytes : ∀ x, x < a ∨ a + n ≤ x → memGet u.mem x = memGet s.mem x
  tags : ∀ k, 128 * k + 128 ≤ a ∨ a + n ≤ 128 * k → u.tagAt k = s.tagAt k

theorem touches_refl (s : State) (a n : Nat) : s.Touches s a n :=
  ⟨rfl, rfl, rfl, fun _ _ => rfl, keepsWf_refl s, fun _ _ => rfl, fun _ _ => rfl⟩

theorem State.Touches.trans {s t u : State} {a n : Nat} (h : s.Touches t a n) (k : t.Touches u a n) : s.Touches u a n :=
  ⟨k.seats.trans h.seats, k.regs.trans h.regs, k.rows.trans h.rows, fun c i => (k.tiles c i).trans (h.tiles c i),
    keepsWf_trans h.form k.form, fun x hx => (k.bytes x hx).trans (h.bytes x hx), fun i hi => (k.tags i hi).trans (h.tags i hi)⟩

theorem State.Touches.mono {s u : State} {a n b m : Nat} (h : s.Touches u a n) (hlow : b ≤ a) (hhigh : a + n ≤ b + m) : s.Touches u b m :=
  ⟨h.seats, h.regs, h.rows, h.tiles, h.form, fun x hx => h.bytes x (by omega), fun k hk => h.tags k (by omega)⟩

theorem State.Touches.memNat {s u : State} {a n : Nat} (h : s.Touches u a n) {b k : Nat} (hx : b + k ≤ a ∨ a + n ≤ b) :
    memNat u.mem b k = memNat s.mem b k := memNat_congr _ _ _ _ (fun i _ => h.bytes _ (by omega))

section
variable (s : State) (a n : Nat)

/-- A change of a core that leaves its tiles. -/
theorem updCore_touches (core : Nat) {f : Core → Core} (hf : ∀ x, (f x).tiles = x.tiles) : s.Touches (s.updCore core f) a n where
  seats := rfl
  regs := rfl
  rows := rfl
  tiles c i := by
    unfold State.tile
    by_cases hc : c = core
    · rw [hc, core_updCore_same, hf]
    · rw [core_updCore_other _ _ _ _ hc]
  form := keepsWf_of_mem rfl
  bytes _ _ := rfl
  tags _ _ := rfl

theorem updEngine_touches (core e : Nat) (f : Engine → Engine) : s.Touches (s.updEngine core e f) a n :=
  updCore_touches s a n core (fun _ => rfl)

theorem updRun_touches (core e : Nat) (f : RunCmd → RunCmd) : s.Touches (s.updRun core e f) a n := updEngine_touches s a n core e _

theorem endGroups_touches (coil : Nat) (p : Nat × Nat × Word → Bool) : s.Touches (s.endGroups coil p) a n := by
  unfold State.endGroups
  split
  · exact ⟨rfl, rfl, rfl, fun _ _ => rfl, keepsWf_of_mem rfl, fun _ _ => rfl, fun _ _ => rfl⟩
  · exact touches_refl s a n

/-- A change of a context's strand that leaves its registers and its place. -/
theorem mapStrand_touches (core ctx : Nat) {f : Strand → Strand} (hseat : ∀ t, (f t).seat = t.seat) (hregs : ∀ t, (f t).regs = t.regs)
    (hrows : ∀ t, (f t).rows = t.rows) : s.Touches (s.mapStrand core ctx f) a n where
  seats := mapStrands_seats s _ hseat
  regs := by
    unfold State.mapStrand State.mapStrands
    dsimp only
    split <;> simp [hregs]
  rows := by
    unfold State.mapStrand State.mapStrands
    dsimp only
    split <;> simp [hrows]
  tiles _ _ := rfl
  form := keepsWf_of_mem rfl
  bytes _ _ := rfl
  tags _ _ := rfl

theorem settleDone_touches (core ctx : Nat) : s.Touches (s.settleDone core ctx) a n := by
  unfold State.settleDone
  split
  · exact touches_refl s a n
  · exact mapStrand_touches s a n core ctx (fun _ => rfl) (fun _ => rfl) (fun _ => rfl)

theorem tagAt_setTag_other {k j : Nat} (t : Tag) (h : j ≠ k) : (s.setTag k t).tagAt j = s.tagAt j := by
  unfold State.tagAt State.setTag look
  dsimp only
  split
  · rw [lookup_del, if_neg h]
  · rw [lookup_put_other _ _ _ _ h]

theorem breakLinks_tags (k : Nat) (keep : Option (Nat × Nat)) : (s.breakLinks k keep).tags = s.tags := by rw [breakLinks_only]

theorem jWrite_tagAt {b k j : Nat} (v : Nat) (h : j ≠ b / 128) : (s.jWrite b v k).tagAt j = s.tagAt j := by
  unfold State.jWrite State.tagAt
  rw [breakLinks_tags]
  exact tagAt_setTag_other { s with mem := memPutNat s.mem b v k } _ h

/-- A word of the journal. -/
theorem jWrite_touches {b k : Nat} (v : Nat) (hlow : a ≤ b) (hhigh : b + k ≤ a + n) (hk : 0 < k) : s.Touches (s.jWrite b v k) a n :=
  have hwrites := jWrite_writesBytes s (a := a) (n := n) v hlow hhigh
  { seats := seats_of_outline (jWrite_outline ..)
    regs := by rw [hwrites.strands.1]
    rows := by rw [hwrites.strands.1]
    tiles := fun c i => by unfold State.tile State.core; rw [hwrites.cores]
    form := hwrites.form
    bytes := hwrites.outside
    tags := fun j hj => jWrite_tagAt s v (by omega) }

theorem jSetState_touches (t : Strand) (c st fcode : Nat) : s.Touches (s.jSetState t c st fcode) (t.journalAt c) 256 :=
  jWrite_touches s _ 256 _ (by omega) (by omega) (by omega)

end

/-! ### Completing a command, and the record of its progress (R207, R209) -/

/-- The token and the flags that a completion gives leave the strand's place and registers. -/
theorem completed_only (u : Strand) (tok : Bool) (e : Nat) (fl : Word) : ((if tok then u.addCompl e else u).orEngine fl).seat = u.seat
    ∧ ((if tok then u.addCompl e else u).orEngine fl).regs = u.regs ∧ ((if tok then u.addCompl e else u).orEngine fl).rows = u.rows := by
  split
  · unfold Strand.addCompl
    split <;> exact ⟨rfl, rfl, rfl⟩
  · exact ⟨rfl, rfl, rfl⟩

/-- The entry of the command that an engine runs, where it has one, begins at byte `a`. -/
def State.entryIs (s : State) (core e a : Nat) : Prop :=
  ∀ x, x ∈ ((s.engine core e).running).map (fun c => (c.ctx, c.num)) → ∀ b, s.entryAt core x.1 x.2 = some b → b = a

theorem entryIs_of_running {s : State} {core e : Nat} {c : RunCmd} (hc : (s.engine core e).running = some c) {t : Strand}
    (ht : s.strand? core c.ctx = some t) : s.entryIs core e (t.journalAt c.num) := by
  intro x hx b hb
  rw [hc, Option.map_some, Option.mem_some_iff] at hx
  rw [← hx, State.entryAt, ht, Option.map_some] at hb
  exact (Option.some.inj hb).symm

theorem exists_entryIs (s : State) (core e : Nat) : ∃ a, s.entryIs core e a := by
  cases hc : (s.engine core e).running with
  | none => exact ⟨0, fun x hx => by rw [hc] at hx; cases hx⟩
  | some c => cases ht : s.strand? core c.ctx with
    | some t => exact ⟨_, entryIs_of_running hc ht⟩
    | none =>
      refine ⟨0, fun x hx b hb => ?_⟩
      rw [hc, Option.map_some, Option.mem_some_iff] at hx
      rw [← hx, State.entryAt, ht] at hb
      cases hb

theorem entryIs_congr {s u : State} {core e a : Nat} (h : s.entryIs core e a) (hseats : u.seats = s.seats)
    (hname : ((u.engine core e).running).map (fun c => (c.ctx, c.num)) = ((s.engine core e).running).map (fun c => (c.ctx, c.num))) :
    u.entryIs core e a := by
  intro x hx b hb
  rw [hname] at hx
  rw [entryAt_congr hseats] at hb
  exact h x hx b hb

/-- A command at its end: DONE or CANCELLED, its token and flags given, and its engine idle (R209). -/
def State.ended (s : State) (core e : Nat) (c : RunCmd) (t : Strand) : State :=
  (((s.jSetState t c.num (if c.cancel then 4 else 3) 0).mapStrand core c.ctx (fun u =>
      (if ctokOf e (c.reg 0) then u.addCompl e else u).orEngine c.flags)).updEngine core e
    (fun x => { x with running := none })).settleGroups (coilOf core)

/-- A sequencer without a command is idle. -/
def State.idleTsq (s : State) (core e : Nat) : State :=
  if e = 3 then s.updCore core (fun q => { q with tsq := { q.tsq with st := 0 } }) else s

theorem completeCmd_eq {s : State} {core e : Nat} {c : RunCmd} (hc : (s.engine core e).running = some c) {t : Strand}
    (ht : s.strand? core c.ctx = some t) : s.completeCmd core e =
      if !c.finished || (ctokOf e (c.reg 0) && decide (32 ≤ t.complTokens e)) then s
      else ((s.ended core e c t).idleTsq core e).settleDone core c.ctx := by
  unfold State.completeCmd
  rw [hc]
  dsimp only
  rw [ht]
  rfl

theorem idleTsq_touches (s : State) (a n core e : Nat) : s.Touches (s.idleTsq core e) a n := by
  unfold State.idleTsq
  split
  · exact updCore_touches s a n core (fun _ => rfl)
  · exact touches_refl s a n

theorem ended_touches (s : State) (core e : Nat) (c : RunCmd) (t : Strand) : s.Touches (s.ended core e c t) (t.journalAt c.num) 256 := by
  refine (jSetState_touches s t c.num (if c.cancel then 4 else 3) 0).trans (State.Touches.trans ?_
    ((updEngine_touches _ _ 256 core e _).trans (endGroups_touches _ _ 256 (coilOf core) _)))
  exact mapStrand_touches _ _ _ core c.ctx (fun u => (completed_only u _ e c.flags).1) (fun u => (completed_only u _ e c.flags).2.1)
    (fun u => (completed_only u _ e c.flags).2.2)

section
variable {s : State} {core e a : Nat} (h : s.entryIs core e a)
include h

theorem journalAt_of_entryIs {c : RunCmd} {t : Strand} (hc : (s.engine core e).running = some c) (ht : s.strand? core c.ctx = some t) :
    t.journalAt c.num = a := h (c.ctx, c.num) (by rw [hc]; rfl) _ (by rw [State.entryAt, ht]; rfl)

theorem completeCmd_touches : s.Touches (s.completeCmd core e) a 256 := by
  cases hc : (s.engine core e).running with
  | none =>
    unfold State.completeCmd
    rw [hc]
    exact touches_refl ..
  | some c => cases ht : s.strand? core c.ctx with
    | none =>
      unfold State.completeCmd
      rw [hc]
      dsimp only
      rw [ht]
      exact touches_refl ..
    | some t =>
      rw [completeCmd_eq hc ht]
      split
      · exact touches_refl ..
      · have hended := ended_touches s core e c t
        rw [journalAt_of_entryIs h hc ht] at hended
        exact hended.trans ((idleTsq_touches ..).trans (settleDone_touches ..))

theorem updRun_entryIs {f : RunCmd → RunCmd} (he : e < 4) (hf : ∀ c, (f c).ctx = c.ctx ∧ (f c).num = c.num) :
    (s.updRun core e f).entryIs core e a := by
  refine entryIs_congr h rfl ?_
  rw [State.updRun, engine_updEngine_same _ _ he, Option.map_map]
  exact Option.map_congr fun c _ => Prod.ext (hf c).1 (hf c).2

theorem finishCmd_touches (he : e < 4) : s.Touches (s.finishCmd core e) a 256 :=
  (updRun_touches s a 256 core e _).trans (completeCmd_touches (updRun_entryIs h he (fun _ => ⟨rfl, rfl⟩)))

theorem recordProg_touches {c : RunCmd} (hc : (s.engine core e).running.map (fun c => (c.ctx, c.num)) = some (c.ctx, c.num)) (prog : Nat) :
    s.Touches (s.recordProg core c prog) a 256 := by
  unfold State.recordProg
  split
  · exact touches_refl ..
  · next t ht =>
    have hat : t.journalAt c.num = a := h (c.ctx, c.num) hc _ (by rw [State.entryAt, ht]; rfl)
    exact jWrite_touches s a 256 prog (by omega) (by omega) (by omega)

end

theorem mxeSettle_touches {s : State} {core a : Nat} (h : s.entryIs core 0 a) : s.Touches (s.mxeSettle core) a 256 := by
  unfold State.mxeSettle
  split
  · split
    · exact finishCmd_touches h (by omega)
    · exact touches_refl ..
  · exact touches_refl ..

theorem recordProg_cores (s : State) (core : Nat) (c : RunCmd) (prog : Nat) : (s.recordProg core c prog).cores = s.cores := by
  unfold State.recordProg
  split
  · rfl
  · exact (jWrite_writesBytes s (a := _) (n := 8) prog (Nat.le_refl _) (Nat.le_refl _)).cores

end Sys2Proof.Machine
end

section
/-!
SUPPORT. Lines of a local store as an engine finds and writes them (R102, R132, R221).
-/
namespace Sys2Proof.Machine

/-! ### A line found in a window -/

/-- An address of the same MiB is in the same window. -/
theorem classify_window_same {core a b cd o : Nat} (h : classify core a = .window cd o) (hb : b / 2 ^ 20 = a / 2 ^ 20) :
    classify core b = .window cd (b % 2 ^ 20) := by
  unfold classify at h ⊢
  dsimp only at h ⊢
  have hlow : b < 2 ^ 56 ↔ a < 2 ^ 56 := by omega
  have hrange : (0xFFFE000000000000 ≤ b ∧ b < 0xFFFE000001000000) ↔ (0xFFFE000000000000 ≤ a ∧ a < 0xFFFE000001000000) := by omega
  have hself : b / 2 ^ 23 % 2 = a / 2 ^ 23 % 2 := by omega
  simp only [hlow, hrange, hself, hb]
  split at h
  · cases h
  · next hdev =>
    rw [if_neg hdev]
    split at h
    · next hin =>
      rw [if_pos hin]
      split at h
      · next hown =>
        rw [if_pos hown]
        split at h
        · next hzero =>
          rw [if_pos hzero, (AddrClass.window.inj h).1]
        · cases h
      · next hother =>
        rw [if_neg hother, (AddrClass.window.inj h).1]
    · cases h

theorem classify_window_bound {core a cd o : Nat} (h : classify core a = .window cd o) : o < 2 ^ 20 := by
  rw [classify_window h]
  exact Nat.mod_lt _ (by omega)

section
variable {s : State} {core : Nat} {c : RunCmd} {a cd o : Nat}

theorem engLine_window (ha : a % 128 = 0) (h : classify core a = .window cd o) (acc : Access) :
    s.engLine core c a acc = .ok s (.store cd (o / 128)) := by
  unfold State.engLine
  rw [if_neg (by omega)]
  unfold State.locate
  rw [show (c.walker core).core = core from rfl, h]

theorem add_window {x : Sides} (ha : a % 128 = 0) (h : classify core a = .window cd o) (acc : Access) :
    x.add core c a acc = { x with locs := x.locs ++ [(a, .store cd (o / 128))] } := by
  unfold Sides.add
  rw [engLine_window ha h]

end

theorem loadLine_store {s : State} {c i : Nat} (hbad : badTag (s.tagAt (storeLineNo c i)) = false) (core hint : Nat) (r : Reader) :
    s.loadLine core (.store c i) hint r = (memLine s.mem (128 * storeLineNo c i), s.tagAt (storeLineNo c i), s) :=
  readRaw_high s false (s.partOfCore c) (storeLineNo c i) r (storeLineNo_high c i) hbad

/-! ### A typed write of an engine (R132, R221) -/

/-- The write that an engine makes of bytes of a local-store line. -/
def engineWrite (c : RunCmd) (d : Line) (mask : ByteMask) (t : Tag) : Write :=
  { data := d, mask := mask, tag := t, typed := true, width := (c.fmtCtx.fmt (fmtOf t)).container 64 }

theorem engWrite_store (s : State) (core : Nat) (c : RunCmd) (k i va : Nat) (d : Line) (mask : ByteMask) (t : Tag) :
    s.engWrite core c (.store k i) va d mask t = .ok (s.applyHome (.store k i) (engineWrite c d mask t) none (c.walker core).reader) := rfl

theorem putRaw_tagAt_same (s : State) (k : Nat) (d : Line) (t : Tag) : (s.putRaw k d t).tagAt k = t := by
  rw [State.putRaw, tagAt_setTag_same]

theorem putRaw_tagAt_other (s : State) {k j : Nat} (d : Line) (t : Tag) (hj : j ≠ k) : (s.putRaw k d t).tagAt j = s.tagAt j := by
  unfold State.putRaw
  rw [tagAt_setTag_other _ _ hj, State.tagAt, State.tagAt]

theorem logEvent_tagAt (s : State) (p e v c : Nat) (a d : Word) (j : Nat) : (s.logEvent p e v c a d).tagAt j = s.tagAt j := by
  rw [State.tagAt, State.tagAt]
  rfl

theorem breakLinks_tagAt (s : State) (k : Nat) (keep : Option (Nat × Nat)) (j : Nat) : (s.breakLinks k keep).tagAt j = s.tagAt j := by
  rw [State.tagAt, breakLinks_tags, State.tagAt]

section
variable (s : State) (k i : Nat) (w : Write) (r : Reader)

theorem readRaw_tagAt_other {near : Bool} {part l j : Nat} (hl : 2 ^ 35 ≤ l) (hj : j ≠ l) :
    (s.readRaw near part l r).2.2.tagAt j = s.tagAt j := by
  unfold State.readRaw
  dsimp only
  rw [reach_high _ _ _ _ hl]
  unfold State.fixTag
  dsimp only
  split
  · rw [writeLine_high _ _ _ _ _ hl, logEvent_tagAt]
    exact putRaw_tagAt_other s _ _ hj
  · rfl

theorem applyHome_store_tagAt_other {j : Nat} (hj : j ≠ storeLineNo k i) : (s.applyHome (.store k i) w none r).tagAt j = s.tagAt j := by
  have hmeet : (s.meetHome (.store k i) (w.typed && w.mask == fullMask) r).2.2.tagAt j = s.tagAt j := by
    unfold State.meetHome
    dsimp only
    split
    · rfl
    · exact readRaw_tagAt_other s r (storeLineNo_high k i) hj
  unfold State.applyHome State.putHome
  dsimp only
  rw [breakLinks_tagAt, ← hmeet]
  exact putRaw_tagAt_other _ _ _ hj

/-- A line covered by a typed write has its tag. -/
theorem applyHome_store_tagAt {t : Tag} {c : RunCmd} {d : Line} :
    (s.applyHome (.store k i) (engineWrite c d fullMask t) none r).tagAt (storeLineNo k i) = t := by
  unfold State.applyHome State.putHome
  dsimp only
  rw [breakLinks_tagAt]
  exact putRaw_tagAt_same s (storeLineNo k i) _ _

/-- Bytes of a run in one line. -/
theorem applyHome_store_touches (s : State) {off n : Nat} (hn : 0 < n) (hfit : off + n ≤ 128) (hw : Memory.wf s.mem = true) (hmask : w.mask = byteRun off n) :
    s.Touches (s.applyHome (.store k i) w none r) (128 * storeLineNo k i + off) n where
  seats := seats_of_outline (applyHome_outline ..)
  regs := outline_regs (applyHome_outline ..)
  rows := by rw [(applyHome_store_writesOnly s k i w none r).1]
  tiles c j := by unfold State.tile; rw [applyHome_core]
  form := applyHome_keepsWf ..
  bytes x hx := by
    rw [applyHome_store_mem s k i w none r hw, if_neg]
    rintro ⟨hline, hbyte⟩
    rw [hmask, byteRun_getLsbD _ _ _ (Nat.mod_lt x (by omega))] at hbyte
    have := of_decide_eq_true hbyte
    omega
  tags j hj := applyHome_store_tagAt_other s k i w r (by omega)

end

end Sys2Proof.Machine
end

section
/-!
PROOFS. COMMAND_START, COMMAND_COMPLETE, MULTICAST_FORM and the issue of the sequencer's instruction (R209, R230, R307).
-/
namespace Sys2Proof.Machine

/-! ### The command that starts (R209) -/

theorem before_self (p : PendCmd) : p.before p = false := by
  unfold PendCmd.before
  cases p.ready <;> simp

theorem before_asymm {p q : PendCmd} (h : p.before q = true) : q.before p = false := by
  unfold PendCmd.before at h ⊢
  cases hp : p.ready <;> cases hq : q.ready <;> simp only [hp, hq, decide_eq_true_eq, decide_eq_false_iff_not, reduceCtorEq] at h ⊢ <;> omega

theorem not_before_trans {p q r : PendCmd} (h : p.before q = false) (k : q.before r = false) : p.before r = false := by
  unfold PendCmd.before at h k ⊢
  cases hp : p.ready <;> cases hq : q.ready <;> cases hr : r.ready <;>
    simp only [hp, hq, hr, decide_eq_false_iff_not, reduceCtorEq] at h k ⊢ <;> omega

/-- The first of what has been seen, and of one command more. -/
def firstOf (b : Option PendCmd) (p : PendCmd) : Option PendCmd :=
  match b with
  | none => some p
  | some q => if p.before q then some p else some q

/-- The first of a list comes after none of it. -/
theorem foldl_firstOf {r : PendCmd} : ∀ {l : List PendCmd} {b : Option PendCmd}, l.foldl firstOf b = some r →
    (r ∈ l ∨ b = some r) ∧ (∀ y, y ∈ l → y.before r = false) ∧ ∀ q, b = some q → q.before r = false := by
  intro l
  induction l with
  | nil =>
    rintro b rfl
    exact ⟨.inr rfl, fun y hy => (nomatch hy), fun q hq => by obtain rfl := Option.some.inj hq; exact before_self r⟩
  | cons p l ih =>
    intro b h
    obtain ⟨hmem, hlist, hbest⟩ := ih h
    rcases b with _ | q
    · refine ⟨.inl ?_, fun y hy => ?_, fun q hq => nomatch hq⟩
      · exact hmem.elim (List.mem_cons_of_mem p) (fun hp => by obtain rfl := Option.some.inj hp; exact List.mem_cons_self)
      · exact (List.mem_cons.1 hy).elim (fun hp => hp ▸ hbest p rfl) (hlist y)
    · by_cases hpq : p.before q = true
      · have hstep : firstOf (some q) p = some p := if_pos hpq
        have hp := hbest p hstep
        refine ⟨.inl ?_, fun y hy => ?_, fun x hx => ?_⟩
        · exact hmem.elim (List.mem_cons_of_mem p) (fun h => by rw [hstep] at h; obtain rfl := Option.some.inj h; exact List.mem_cons_self)
        · exact (List.mem_cons.1 hy).elim (fun h => h ▸ hp) (hlist y)
        · obtain rfl := Option.some.inj hx
          exact not_before_trans (before_asymm hpq) hp
      · have hstep : firstOf (some q) p = some q := if_neg hpq
        have hq := hbest q hstep
        refine ⟨hmem.imp (List.mem_cons_of_mem p) (fun h => hstep ▸ h), fun y hy => ?_, fun x hx => ?_⟩
        · exact (List.mem_cons.1 hy).elim (fun h => h ▸ not_before_trans (Bool.not_eq_true _ ▸ hpq) hq) (hlist y)
        · obtain rfl := Option.some.inj hx
          exact hq

theorem nextCmd_eq (s : State) (core e : Nat) : s.nextCmd core e
    = ((s.engine core e).pending.filter (s.startable core e)).foldl firstOf none := rfl

/-- The command taken is one that may start, and none that may comes before it. -/
theorem nextCmd_first {s : State} {core e : Nat} {p : PendCmd} (h : s.nextCmd core e = some p) : p ∈ (s.engine core e).pending
    ∧ s.startable core e p = true ∧ ∀ y, y ∈ (s.engine core e).pending → s.startable core e y = true → y.before p = false := by
  rw [nextCmd_eq] at h
  obtain ⟨hmem, hfirst, -⟩ := foldl_firstOf h
  obtain ⟨hpending, hstartable⟩ := List.mem_filter.1 (hmem.resolve_right (fun hc => nomatch hc))
  exact ⟨hpending, hstartable, fun y hy hs => hfirst y (List.mem_filter.2 ⟨hy, hs⟩)⟩

theorem nextCmd_none {s : State} {core e : Nat} (h : ∀ p, p ∈ (s.engine core e).pending → s.startable core e p = false) :
    s.nextCmd core e = none := by
  rw [nextCmd_eq, List.filter_eq_nil_iff.2 (fun p hp => by rw [h p hp]; exact Bool.false_ne_true)]
  rfl

theorem completeCmd_unfinished {s : State} {core e : Nat} {c : RunCmd} (hc : (s.engine core e).running = some c) (hfin : c.finished = false) : s.completeCmd core e = s := by
  unfold State.completeCmd
  rw [hc]
  dsimp only
  split
  · rfl
  · rw [hfin]
    rfl

theorem settleGroups_engine (v : State) (coil core e : Nat) : (v.settleGroups coil).engine core e = v.engine core e := by
  unfold State.settleGroups State.endGroups
  split <;> rfl

theorem settleGroups_mem (v : State) (coil : Nat) : (v.settleGroups coil).mem = v.mem := by
  unfold State.settleGroups State.endGroups
  split <;> rfl

section
variable {s : State} {core e : Nat} (he : e < 4)
include he

theorem commandStart_does {p : PendCmd} {t : Strand} (hidle : (s.engine core e).running = none) (hp : s.nextCmd core e = some p)
    (ht : s.strand? core p.ctx = some t) : exec (.commandStart core e) s = .next ((((s.jSetState t p.num 2 0).updEngine core e (fun y =>
      { pending := y.pending.filter (fun z => !(z.ctx == p.ctx && z.num == p.num)), running := some (s.loadCmd t p) }))).beginCmd core e
        (s.loadCmd t p)) := by
  rw [exec_commandStart, execCommandStart, if_pos he, State.startCmd]
  dsimp only
  rw [hidle, hp]
  dsimp only
  rw [ht]

theorem commandStart_none (h : (s.engine core e).running ≠ none ∨ s.nextCmd core e = none) : exec (.commandStart core e) s = .next s := by
  rw [exec_commandStart, execCommandStart, if_pos he, State.startCmd]
  dsimp only
  split
  · next hrunning hnext =>
    rcases h with h | h
    · exact absurd hrunning h
    · rw [h] at hnext
      cases hnext
  · rfl

/-! ### A command's end (R209) -/

theorem commandComplete_eq : exec (.commandComplete core e) s = .next (s.completeCmd core e) := by
  rw [exec_commandComplete, execCommandComplete, if_pos he]

theorem ended_engine (c : RunCmd) (t : Strand) : ((s.ended core e c t).engine core e).running = none
    ∧ ((s.ended core e c t).engine core e).pending = (s.engine core e).pending := by
  rw [State.ended, settleGroups_engine, engine_updEngine_same _ _ he]
  refine ⟨rfl, ?_⟩
  have hset : (s.jSetState t c.num (if c.cancel then 4 else 3) 0).cores = s.cores :=
    (jWrite_writesBytes s (a := t.journalAt c.num + 8) (n := 8) _ (Nat.le_refl _) (Nat.le_refl _)).cores
  show ((s.jSetState t c.num (if c.cancel then 4 else 3) 0).engine core e).pending = _
  rw [State.engine, State.core, hset]
  rfl

omit he in
theorem ended_mem (c : RunCmd) (t : Strand) : (s.ended core e c t).mem = (s.jSetState t c.num (if c.cancel then 4 else 3) 0).mem := by
  rw [State.ended, settleGroups_mem]
  rfl

omit he in
theorem settleDone_engine (v : State) (k ctx : Nat) : (v.settleDone k ctx).engine core e = v.engine core e := by
  unfold State.settleDone
  split <;> rfl

omit he in
theorem idleTsq_engine (v : State) : (v.idleTsq core e).engine core e = v.engine core e := by
  unfold State.idleTsq
  split
  · rw [State.engine, core_updCore_same]
    rfl
  · rfl

omit he in
theorem idleTsq_mem (v : State) : (v.idleTsq core e).mem = v.mem := by
  unfold State.idleTsq
  split <;> rfl

theorem commandComplete_done {c : RunCmd} {t : Strand} (hc : (s.engine core e).running = some c) (ht : s.strand? core c.ctx = some t)
    (hfin : c.finished = true) (hroom : ctokOf e (c.reg 0) = true → t.complTokens e < 32) : ∃ u : State,
      exec (.commandComplete core e) s = .next u ∧ (u.engine core e).running = none
      ∧ (u.engine core e).pending = (s.engine core e).pending ∧ u.me.regs = s.me.regs ∧ u.me.rows = s.me.rows
      ∧ u.mem = (s.jSetState t c.num (if c.cancel then 4 else 3) 0).mem := by
  have hfits : ¬((!c.finished || (ctokOf e (c.reg 0) && decide (32 ≤ t.complTokens e))) = true) := by
    simpa [hfin] using hroom
  have htouches := completeCmd_touches (entryIs_of_running hc ht)
  rw [completeCmd_eq hc ht, if_neg hfits] at htouches
  obtain ⟨hrunning, hpending⟩ := ended_engine (s := s) (core := core) he c t
  refine ⟨_, by rw [commandComplete_eq he, completeCmd_eq hc ht, if_neg hfits], ?_, ?_, htouches.regs, htouches.rows, ?_⟩
  · rw [settleDone_engine, idleTsq_engine, hrunning]
  · rw [settleDone_engine, idleTsq_engine, hpending]
  · rw [(settleDone_me ..).1, idleTsq_mem, ended_mem]

end

/-! ### A multicast group (R307) -/

/-- The first core of a coil whose command makes its group complete. -/
theorem multicastForm_does {s : State} {coil c g : Nat} {m : RunCmd} (hc : c < 8) (hm : (s.engine (8 * coil + c) 0).running = some m)
    (hforming : m.forming g = true) (hstands : s.groupStands coil g m.mcmask = false)
    (hmembers : ∀ j, j < 8 → m.mcmask.testBit j = true → ∃ d, s.matching (8 * coil + j) g m = some d ∧ d.stream = m.stream)
    (hfirst : ∀ j n, j < c → (s.engine (8 * coil + j) 0).running = some n → n.forming g = false) :
    let u := ((List.range 8).filter (fun j => m.mcmask.testBit j)).foldl (fun v j => v.updRun (8 * coil + j) 0
      (fun d => { d with formed := true })) s
    exec (.multicastForm coil g) s = .next { u with
      coils := upd u.coils coil {} (fun y => { y with groups := y.groups ++ [(g, m.mcmask, m.reg 0x1B)] }) } := by
  intro u
  have hmember {j : Nat} (hj : j ∈ (List.range 8).filter (fun k => m.mcmask.testBit k)) :
      ∃ d, s.matching (8 * coil + j) g m = some d ∧ d.stream = m.stream := by
    obtain ⟨hrange, hbit⟩ := List.mem_filter.1 hj
    exact hmembers j (List.mem_range.1 hrange) hbit
  rw [exec_multicastForm, execMulticastForm]
  unfold State.formGroup
  extract_lets cmdOf members ready
  have hready : ready c = true := by
    have hcmd : cmdOf c = some m := hm
    simp only [ready, hcmd, hforming, hstands, Bool.not_false, Bool.and_self, Bool.true_and, List.all_eq_true]
    intro j hj
    obtain ⟨d, hd, -⟩ := hmember hj
    rw [hd]
    rfl
  have hearlier (j : Nat) (hj : j < c) : ready j = false := by
    cases hn : cmdOf j with
    | none => simp only [ready, hn]
    | some n =>
      have hnot : n.forming g = false := hfirst j n hj hn
      simp only [ready, hn, hnot, Bool.false_and]
  have hfind : (List.range 8).find? ready = some c :=
    List.find?_range_eq_some.2 ⟨hready, List.mem_range.2 hc, fun j hj => by simp [hearlier j hj]⟩
  have hagree : (members m).all (fun j => (s.matching (8 * coil + j) g m).all (fun d => d.stream == m.stream)) = true := by
    refine List.all_eq_true.2 fun j hj => ?_
    obtain ⟨d, hd, hstream⟩ := hmember hj
    simp [hd, hstream]
  rw [hfind, Option.bind_some, show cmdOf c = some m from hm]
  dsimp only
  rw [if_pos hagree]

/-! ### Issue of the sequencer (R226, R230) -/

section
variable {s : State} {core : Nat} {c : RunCmd} {i : Instr} {f : TsqOp} (hc : (s.engine core 3).running = some c)
include hc

/-- A sequencer instruction that the front-end strand's core executes is the one that its sequencer issues. -/
theorem exec_of_tsqMeaning (hcore : core = s.me.core) (hf : tsqMeaning i = some f) : exec i s = .next (f core c s) := by
  subst hcore
  have hexec : exec i s = onTsq f s := by
    unfold tsqMeaning at hf
    split at hf
    all_goals cases hf <;> rfl
  rw [hexec, onTsq, hc]

theorem tsqIssue_does (hfin : c.finished = false) (hpc : (s.tsq core).pc ≤ 4095)
    (hi : decodeTsq (look (s.tsq core).imem (s.tsq core).pc 0) = .ok i) (hf : tsqMeaning i = some f) :
    exec (.tsqInstructionIssue core) s = .next (f core c s) := by
  rw [exec_tsqInstructionIssue, execTsqInstructionIssue, State.tsqIssue, hc]
  dsimp only
  rw [hfin, if_neg Bool.false_ne_true, if_neg (by omega), hi]
  dsimp only
  rw [hf]

end

end Sys2Proof.Machine
end

section
/-!
PROOFS. CPE_UNIT between windows of local stores (R220, R221).
-/
namespace Sys2Proof.Machine

theorem engTag_low {t : Tag} (h : classOf t ≤ 3) (strict : Bool) : engTag t strict = .ok (withDem t false) := by
  unfold engTag
  rw [if_neg (by omega), if_neg (by omega)]

/-- A line of a local store takes every format (R221). -/
theorem misfit_store (c : RunCmd) {src : Option LineLoc} (hsrc : src.bind LineLoc.lw? = none) (t : Tag) (k i : Nat) :
    misfit c src t (.store k i) = false := by
  simp [misfit, hsrc, tooWide, LineLoc.lw?]

/-- A line written whole holds the bytes written. -/
theorem applyHome_store_line {s : State} (hw : Memory.wf s.mem = true) (k i : Nat) (c : RunCmd) (d : Line) (t : Tag) (r : Reader) :
    memNat (s.applyHome (.store k i) (engineWrite c d fullMask t) none r).mem (128 * storeLineNo k i) 128 = d.toNat := by
  rw [memNat_of_bytes _ _ d.toNat, Nat.mod_eq_of_lt d.isLt]
  intro j hj
  rw [applyHome_store_mem s k i _ none r hw, if_pos ⟨by omega, fullMask_getLsbD _ (Nat.mod_lt _ (by omega))⟩,
    show (128 * storeLineNo k i + j) % 128 = j by omega]
  rfl

section
variable (s : State) (core e : Nat) (c : RunCmd)

/-- Where the copy engine goes on after line PROG (R207, R220). -/
def State.cpeNext : State :=
  let z := (s.updRun core e (fun c => { c with prog := c.prog + 1, held := none })).recordProg core c (c.prog.toNat + 1)
  if c.prog.toNat + 1 < c.cpeUnits then z else z.finishCmd core e

theorem cpeWrite_window {src : Option (Nat × LineLoc)} (hsrc : (src.map (fun y => y.2)).bind LineLoc.lw? = none) (d : Line) {t : Tag}
    (ht : classOf t ≤ 3) (a k i : Nat) : s.cpeWrite core e c src d t [(a, .store k i)]
      = (s.applyHome (.store k i) (engineWrite c d fullMask (withDem t false)) none (c.walker core).reader).cpeNext core e c := by
  have hfits : [(a, LineLoc.store k i)].find? (fun x => misfit c (src.map (fun y => y.2)) t x.2) = none := by
    simp [misfit_store c hsrc]
  unfold State.cpeWrite
  dsimp only
  rw [hfits]
  dsimp only
  rw [engTag_low ht]
  dsimp only
  rw [if_neg (by omega), writeAll]
  dsimp only
  rw [engWrite_store]
  rfl

variable {s core e c}

section
variable {a : Nat} (h : s.entryIs core e a) (hc : (s.engine core e).running = some c) (he : e < 4)
include h hc he

/-- Recording the progress and completing touch the command's entry alone, and until its last line the command goes on. -/
theorem cpeNext_touches : s.Touches (s.cpeNext core e c) a 256
    ∧ (c.prog.toNat + 1 < c.cpeUnits → ∃ y, ((s.cpeNext core e c).engine core e).running = some y ∧ y.prog = c.prog + 1) := by
  have hrun : ((s.updRun core e (fun c => { c with prog := c.prog + 1, held := none })).engine core e).running
      = some { c with prog := c.prog + 1, held := none } := by
    rw [State.updRun, engine_updEngine_same _ _ he, hc]
    rfl
  have hentry := updRun_entryIs h he (f := fun c => { c with prog := c.prog + 1, held := none }) (fun _ => ⟨rfl, rfl⟩)
  have hrecord := recordProg_touches hentry (c := c) (by rw [hrun]; rfl) (c.prog.toNat + 1)
  have hcores := recordProg_cores (s.updRun core e (fun c => { c with prog := c.prog + 1, held := none })) core c (c.prog.toNat + 1)
  have hstep := (updRun_touches s a 256 core e (fun c => { c with prog := c.prog + 1, held := none })).trans hrecord
  unfold State.cpeNext
  dsimp only
  generalize hz : (s.updRun core e (fun c => { c with prog := c.prog + 1, held := none })).recordProg core c (c.prog.toNat + 1) = z at *
  have hzrun : (z.engine core e).running = some { c with prog := c.prog + 1, held := none } := by
    rw [State.engine, State.core, hcores]
    exact hrun
  split
  · exact ⟨hstep, fun _ => ⟨_, hzrun, rfl⟩⟩
  · next hlast =>
    refine ⟨hstep.trans (finishCmd_touches (entryIs_congr h hstep.seats ?_) he), fun hmore => absurd hmore hlast⟩
    rw [hzrun, hc]
    rfl

end

/-- One line written, at the byte where it begins, and its tag; the rest stays but in the command's entry. -/
theorem cpeWrite_writes {st : Strand} (hst : s.strand? core c.ctx = some st) (hc : (s.engine core e).running = some c) (he : e < 4)
    (hw : Memory.wf s.mem = true) {src : Option (Nat × LineLoc)} (hsrc : (src.map (fun y => y.2)).bind LineLoc.lw? = none) (d : Line)
    {t : Tag} (ht : classOf t ≤ 3) (a k i : Nat) {p entry : Nat} (hp : p = 128 * storeLineNo k i) (hentry : entry = st.journalAt c.num)
    (hapart : p + 128 ≤ entry ∨ entry + 256 ≤ p) : let u := s.cpeWrite core e c src d t [(a, .store k i)]
      memNat u.mem p 128 = d.toNat ∧ u.tagAt (storeLineNo k i) = withDem t false
      ∧ (∀ b, b < p ∨ p + 128 ≤ b → b < entry ∨ entry + 256 ≤ b → memGet u.mem b = memGet s.mem b)
      ∧ (c.prog.toNat + 1 < c.cpeUnits → ∃ y, (u.engine core e).running = some y ∧ y.prog = c.prog + 1) := by
  intro u
  subst hp hentry
  have hline := applyHome_store_line hw k i c d (withDem t false) (c.walker core).reader
  have htag := applyHome_store_tagAt s k i (c.walker core).reader (t := withDem t false) (c := c) (d := d)
  have hwrite := applyHome_store_touches k i (engineWrite c d fullMask (withDem t false)) (c.walker core).reader s (off := 0) (n := 128)
    (by omega) (by omega) hw rfl
  have hcores := applyHome_cores s (.store k i) (engineWrite c d fullMask (withDem t false)) none (c.walker core).reader
  have hu : u = _ := cpeWrite_window s core e c hsrc d ht a k i
  generalize s.applyHome (.store k i) (engineWrite c d fullMask (withDem t false)) none (c.walker core).reader = v at *
  have hvrun : (v.engine core e).running = some c := by rw [State.engine, State.core, hcores]; exact hc
  have hventry : v.entryIs core e (st.journalAt c.num) :=
    entryIs_congr (entryIs_of_running hc hst) hwrite.seats (by rw [hvrun, hc])
  obtain ⟨hnext, hmore⟩ := cpeNext_touches hventry hvrun he
  rw [hu]
  refine ⟨(hnext.memNat (by omega)).trans hline, (hnext.tags _ (by omega)).trans htag, fun b hb hbe => ?_, hmore⟩
  rw [hnext.bytes b hbe, hwrite.bytes b (by omega)]

theorem addDest_window {x : Sides} {d da cd od : Nat} {off : Int} (hmc : c.cpeMc = false) (hda : da = (((d : Int) + off) % (2 ^ 64 : Int)).toNat)
    (hdst : classify core da = .window cd od) (hdal : da % 128 = 0) :
    x.addDest core c d off = { x with locs := x.locs ++ [(da, .store cd (od / 128))] } := by
  unfold Sides.addDest
  dsimp only
  rw [hmc, Bool.false_and, if_neg Bool.false_ne_true, ← hda, add_window hdal hdst]

/-- The places of a unit's lines in windows. -/
theorem cpeLine_copy {sa da cs os cd od : Nat} (hop : c.cpeOp = 0) (hmc : c.cpeMc = false)
    (hsa : sa = ((((c.reg 1).toNat : Int) + c.cpeOff (c.reg 6) (c.reg 8) c.prog.toNat) % (2 ^ 64 : Int)).toNat)
    (hda : da = ((c.dest.toNat + c.cpeOff (c.reg 7) (c.reg 9) c.prog.toNat) % (2 ^ 64 : Int)).toNat)
    (hsrc : classify core sa = .window cs os) (hsal : sa % 128 = 0) (hdst : classify core da = .window cd od) (hdal : da % 128 = 0)
    (hbad : badTag (s.tagAt (storeLineNo cs (os / 128))) = false) : s.cpeLine core e c
      = s.cpeWrite core e c (some (sa, .store cs (os / 128))) (memLine s.mem (128 * storeLineNo cs (os / 128)))
          (s.tagAt (storeLineNo cs (os / 128))) [(da, .store cd (od / 128))] := by
  unfold State.cpeLine RunCmd.cpeDests
  dsimp only
  rw [if_pos hop, hmc, if_neg Bool.false_ne_true, ← hsa, add_window hsal hsrc]
  rw [List.foldl_cons, List.foldl_nil, addDest_window hmc hda hdst hdal]
  simp only [worstFault, List.foldl_nil, List.nil_append, List.cons_append, List.length_cons, List.length_nil, List.take_succ_cons,
    List.take_zero, List.head?_cons, List.drop_succ_cons, List.drop_zero, Nat.zero_add]
  rw [loadLine_store hbad]

theorem cpeLine_zero {da cd od : Nat} (hop : c.cpeOp ≠ 0) (hmc : c.cpeMc = false)
    (hda : da = ((c.dest.toNat + c.cpeOff (c.reg 7) (c.reg 9) c.prog.toNat) % (2 ^ 64 : Int)).toNat)
    (hdst : classify core da = .window cd od) (hdal : da % 128 = 0) : s.cpeLine core e c
      = s.cpeWrite core e c none 0 zeroTag [(da, .store cd (od / 128))] := by
  unfold State.cpeLine RunCmd.cpeDests
  dsimp only
  rw [if_neg hop, hmc, if_neg Bool.false_ne_true]
  rw [List.foldl_cons, List.foldl_nil, addDest_window hmc hda hdst hdal]
  rfl

theorem cpeUnit_does (hc : (s.engine core e).running = some c) (hfin : c.finished = false) (he : e = 1 ∨ e = 2) :
    exec (.cpeUnit core e) s = .next (if c.prog.toNat < c.cpeUnits then s.cpeLine core e c else s.finishCmd core e) := by
  rw [exec_cpeUnit, execCpeUnit, if_pos he, State.cpeUnit, hc]
  dsimp only
  rw [hfin, if_neg Bool.false_ne_true]

end

end Sys2Proof.Machine
end

section
/-!
PROOFS. MXE_OUTPUT_ROW into a window of a local store, and ROW_RELEASE (R308, R309).
-/
namespace Sys2Proof.Machine

/-! ### The codes of a row -/

theorem length_denseCodes (n i : Nat) (l : List (Nat × Nat)) : (denseCodes n i l).length = n := by
  induction n generalizing i l with
  | zero => rfl
  | succ n ih =>
    cases l with
    | nil => simp [denseCodes, ih]
    | cons e t =>
      unfold denseCodes
      split <;> simp [ih]

/-- A number packed from codes of `w` bits gives each of them back. -/
theorem foldr_codes {α : Type} (w : Nat) (f : α → Nat) {l : List α} {j : Nat} (hj : j < l.length) :
    l.foldr (fun x acc => f x % 2 ^ w + 2 ^ w * acc) 0 / 2 ^ (w * j) % 2 ^ w = f l[j] % 2 ^ w := by
  induction l generalizing j with
  | nil => exact absurd hj (Nat.not_lt_zero j)
  | cons x l ih =>
    rw [List.foldr_cons]
    cases j with
    | zero => simp
    | succ j =>
      rw [Nat.mul_succ, Nat.add_comm (w * j), pow_add, ← Nat.div_div_eq_div_mul, Nat.add_mul_div_left _ _ (by positivity),
        Nat.div_eq_of_lt (Nat.mod_lt _ (by positivity)), Nat.zero_add, ih (by simpa using hj)]
      rfl

/-! ### Pieces of a row, one for each line -/

/-- What a fold of steps makes of each of its items stands at the end. -/
theorem foldl_makes {α β : Type} {I : α → Prop} {P : α → β → Prop} {f : α → β → α} (hinv : ∀ s k, I s → I (f s k))
    (hmake : ∀ s k, I s → P (f s k) k) (hkeep : ∀ s k j, I s → P s j → P (f s k) j) (l : List β) :
    ∀ s, I s → ∀ k, k ∈ l ∨ P s k → P (l.foldl f s) k := by
  induction l with
  | nil => exact fun s _ k hk => hk.resolve_left List.not_mem_nil
  | cons j l ih =>
    intro s hs k hk
    refine ih _ (hinv s j hs) k ?_
    rcases hk with hmem | hholds
    · exact (List.mem_cons.1 hmem).elim (fun h => .inr (by rw [h]; exact hmake s j hs)) .inl
    · exact .inr (hkeep s j k hs hholds)

section
variable (c : RunCmd) (t : Tag) (r : Reader) (cd i off n v : Nat)

/-- Piece `k` of a row's value written into its line, from line `i` of the store on. -/
def State.putPiece (s : State) (k : Nat) : State :=
  s.applyHome (.store cd (i + k)) (engineWrite c (lineOfNat (v / 2 ^ (1024 * k)) off n) (byteRun off n) t) none r

/-- The bytes of piece `k` stand. -/
def State.hasPiece (s : State) (k : Nat) : Prop :=
  ∀ b, b < n → memGet s.mem (128 * storeLineNo cd i + off + 128 * k + b) = BitVec.ofNat 8 (v / 2 ^ (8 * (128 * k + b)))

theorem storeLineNo_add (k : Nat) : storeLineNo cd (i + k) = storeLineNo cd i + k := by unfold storeLineNo; omega

variable {off n} (hfit : off + n ≤ 128)
include hfit

theorem putPiece_touches (hn : 0 < n) {s : State} (hw : Memory.wf s.mem = true) (k : Nat) :
    s.Touches (s.putPiece c t r cd i off n v k) (128 * storeLineNo cd i + off + 128 * k) n := by
  have h := applyHome_store_touches cd (i + k) (engineWrite c (lineOfNat (v / 2 ^ (1024 * k)) off n) (byteRun off n) t) r s hn hfit hw rfl
  rw [storeLineNo_add] at h
  exact h.mono (by omega) (by omega)

theorem putPiece_hasPiece {s : State} (hw : Memory.wf s.mem = true) (k : Nat) :
    (s.putPiece c t r cd i off n v k).hasPiece cd i off n v k := by
  intro b hb
  have hrun : (byteRun off n).getLsbD (off + b) = true := by
    rw [byteRun_getLsbD _ _ _ (by omega)]
    simpa using hb
  unfold State.putPiece
  rw [applyHome_store_mem s cd (i + k) _ none r hw, storeLineNo_add,
    show (128 * storeLineNo cd i + off + 128 * k + b) / 128 = storeLineNo cd i + k by omega,
    show (128 * storeLineNo cd i + off + 128 * k + b) % 128 = off + b by omega, if_pos ⟨rfl, hrun⟩]
  rw [show (engineWrite c (lineOfNat (v / 2 ^ (1024 * k)) off n) (byteRun off n) t).data = lineOfNat (v / 2 ^ (1024 * k)) off n from rfl,
    lineByte_lineOfNat _ _ _ _ hfit hb, Nat.div_div_eq_div_mul, ← pow_add, show 1024 * k + 8 * b = 8 * (128 * k + b) by omega]

variable (hn : 0 < n)
include hn

/-- All pieces written: each stands. -/
theorem putPieces_hasPiece {s : State} (hw : Memory.wf s.mem = true) {ks : List Nat} {k : Nat} (hk : k ∈ ks) :
    (ks.foldl (fun s k => s.putPiece c t r cd i off n v k) s).hasPiece cd i off n v k := by
  have hinv (s : State) (j : Nat) (hw : Memory.wf s.mem = true) : Memory.wf (s.putPiece c t r cd i off n v j).mem = true :=
    (putPiece_touches c t r cd i v hfit hn hw j).form.wf hw
  refine foldl_makes (I := fun s => Memory.wf s.mem = true) (P := fun s k => s.hasPiece cd i off n v k) hinv
    (fun s j hw => putPiece_hasPiece c t r cd i v hfit hw j) (fun s j m hw hm => ?_) ks s hw k (.inl hk)
  by_cases hjm : m = j
  · rw [hjm]
    exact putPiece_hasPiece c t r cd i v hfit hw j
  · intro b hb
    have hpiece := putPiece_touches c t r cd i v hfit hn hw j
    exact (hpiece.bytes (128 * storeLineNo cd i + off + 128 * m + b) (by omega)).trans (hm b hb)

theorem putPieces_touches {s : State} (hw : Memory.wf s.mem = true) {ks : List Nat} {a len : Nat}
    (hks : ∀ k, k ∈ ks → a ≤ 128 * storeLineNo cd i + off + 128 * k ∧ 128 * storeLineNo cd i + off + 128 * k + n ≤ a + len) :
    s.Touches (ks.foldl (fun s k => s.putPiece c t r cd i off n v k) s) a len := by
  induction ks generalizing s with
  | nil => exact touches_refl ..
  | cons k ks ih =>
    obtain ⟨hlow, hhigh⟩ := hks k List.mem_cons_self
    have hpiece := putPiece_touches c t r cd i v hfit hn hw k
    exact (hpiece.mono hlow hhigh).trans (ih (hpiece.form.wf hw) (fun j hj => hks j (List.mem_cons_of_mem k hj)))

omit hfit hn in
/-- Whole lines take the row's tag. -/
theorem putPieces_tagAt {s : State} {ks : List Nat} {k : Nat} (hk : k ∈ ks) :
    (ks.foldl (fun s k => s.putPiece c t r cd i 0 128 v k) s).tagAt (storeLineNo cd i + k) = t := by
  have hmake (s : State) (j : Nat) : (s.putPiece c t r cd i 0 128 v j).tagAt (storeLineNo cd i + j) = t := by
    rw [← storeLineNo_add]
    exact applyHome_store_tagAt s cd (i + j) r
  refine foldl_makes (I := fun _ => True) (P := fun s k => s.tagAt (storeLineNo cd i + k) = t)
    (f := fun s k => s.putPiece c t r cd i 0 128 v k) (fun _ _ _ => trivial)
    (fun s j _ => hmake s j) (fun s j m _ hm => ?_) ks s trivial k (.inl hk)
  by_cases hjm : m = j
  · rw [hjm, hmake]
  · rw [State.putPiece, applyHome_store_tagAt_other _ _ _ _ _ (by rw [storeLineNo_add]; omega), hm]

end

end Sys2Proof.Machine
end

section
/-!
PROOFS. MXE_OUTPUT_ROW into a window of a local store, and ROW_RELEASE (R308, R309).
-/
namespace Sys2Proof.Machine

/-! ### The places of a row's lines -/

theorem foldl_add_window {α : Type} {core cd : Nat} {c : RunCmd} {f : α → Nat} (acc : Access) : ∀ (l : List α) (x : Sides),
    (∀ y, y ∈ l → f y % 128 = 0 ∧ classify core (f y) = .window cd (f y % 2 ^ 20)) →
    l.foldl (fun x y => x.add core c (f y) acc) x
      = { x with locs := x.locs ++ l.map (fun y => (f y, .store cd (f y % 2 ^ 20 / 128))) } := by
  intro l
  induction l with
  | nil => simp
  | cons y l ih =>
    intro x h
    obtain ⟨hal, hwindow⟩ := h y List.mem_cons_self
    rw [List.foldl_cons, add_window hal hwindow, ih _ (fun z hz => h z (List.mem_cons_of_mem y hz))]
    simp

theorem writePieces_store {core cd : Nat} {c : RunCmd} {t : Tag} {α : Type} {a : α → Nat} {m : α → ByteMask} {d : α → Line} {i : α → Nat} :
    ∀ (l : List α) (s : State), writePieces core c t (l.map (fun k => ((a k, m k, d k), .store cd (i k)))) s
      = .ok (l.foldl (fun s k => s.applyHome (.store cd (i k)) (engineWrite c (d k) (m k) t) none (c.walker core).reader) s) := by
  intro l
  induction l with
  | nil => exact fun _ => rfl
  | cons k l ih =>
    intro s
    rw [List.map_cons, writePieces, engWrite_store]
    exact ih _

/-! ### A row's value in a window -/

/-- The pieces of a row's value, of `len` bytes from byte `od` of a local store on, written line by line. -/
def State.putRow (s : State) (c : RunCmd) (t : Tag) (r : Reader) (cd od len v : Nat) : State :=
  (List.range ((len + 127) / 128)).foldl (fun u k => u.putPiece c t r cd (od / 128) (od % 128) (min len 128) v k) s

theorem putRow_cores (s : State) (c : RunCmd) (t : Tag) (r : Reader) (cd od len v : Nat) : (s.putRow c t r cd od len v).cores = s.cores :=
  foldl_keeps State.cores _ (fun _ _ => applyHome_cores ..) _ s

section
variable {s : State} (c : RunCmd) (t : Tag) (r : Reader) (cd od v : Nat) {len p : Nat} (hw : Memory.wf s.mem = true)
  (hfit : od % 128 + len ≤ 128 ∨ (od % 128 = 0 ∧ len % 128 = 0)) (hpos : 0 < len)
  (hp : p = 128 * storeLineNo cd (od / 128) + od % 128)
include hw hfit hpos hp

theorem putRow_touches : s.Touches (s.putRow c t r cd od len v) p len :=
  putPieces_touches c t r cd (od / 128) v (by omega) (by omega) hw (fun k hk => by have := List.mem_range.1 hk; omega)

/-- The row's bytes are those of the value. -/
theorem putRow_memNat : memNat (s.putRow c t r cd od len v).mem p len = v % 2 ^ (8 * len) := by
  refine memNat_of_bytes _ _ _ _ fun i hi => ?_
  have hbyte := putPieces_hasPiece c t r cd (od / 128) v (off := od % 128) (n := min len 128) (by omega) (by omega) hw
    (ks := List.range ((len + 127) / 128)) (k := i / 128) (List.mem_range.2 (by omega)) (i % 128) (by omega)
  rw [show 128 * storeLineNo cd (od / 128) + od % 128 + 128 * (i / 128) + i % 128 = p + i by omega,
    show 128 * (i / 128) + i % 128 = i by omega] at hbyte
  exact hbyte

omit hw hfit hpos hp in
theorem putRow_tagAt (s : State) (h0 : od % 128 = 0) (hwhole : len % 128 = 0) {k : Nat} (hk : 128 * k < len) :
    (s.putRow c t r cd od len v).tagAt (storeLineNo cd (od / 128) + k) = t := by
  rw [State.putRow, h0, show min len 128 = 128 by omega]
  exact putPieces_tagAt c t r cd (od / 128) v (List.mem_range.2 (by omega))

end

/-! ### One row (R309) -/

section
variable (s : State) (core : Nat) (c : RunCmd) (row : Nat)

/-- Where the output stage goes on after a row, with the flags of its conversions. -/
def State.rowNext (bsc fl : Nat) : State :=
  ((s.updRun core 0 (fun c =>
    { c with
      held := none
      flags := c.flags ||| BitVec.ofNat 64 fl
      outBsc := some bsc
      outRow := if row = 127 then none else some (row + 1) })).recordProg core c
        (c.step + (if row = 127 then 0 else (row + 1) * 2 ^ 56 + 2 ^ 63))).mxeSettle core

/-- The codes of a row of a tile, converted, with their flags. -/
def State.rowCodes (bsc : Nat) : List (Nat × Nat) :=
  (((denseCodes (128 * c.nB) 0 (s.tile core c.tile).vals).drop (row * c.nB)).take c.nB).zipIdx.map (fun x =>
    convertTo (c.fmtCtx.fmt c.ofmt) bsc ⟨c.orm, if c.orm = 5 then diceBits c.dice.toNat row x.2 else 0, c.osat⟩
      ((s.tile core c.tile).accf == 12) ((s.tile core c.tile).value x.1))

/-- The tag of a row. -/
def State.rowTag (bsc : Nat) : Tag :=
  mkTag c.ofmt bsc (if (s.tile core c.tile).poison.getLsbD row then 2 else if (s.tile core c.tile).accf = 0 then 1 else 0) false

/-- Codes of `w` bits packed into a number. -/
def packCodes (w : Nat) (l : List (Nat × Nat)) : Nat := l.foldr (fun x acc => x.1 % 2 ^ w + 2 ^ w * acc) 0

theorem length_rowCodes {bsc : Nat} (hrow : row < 128) : (s.rowCodes core c row bsc).length = c.nB := by
  have hfit : row * c.nB + c.nB ≤ 128 * c.nB := by
    rw [← Nat.succ_mul]
    exact Nat.mul_le_mul_right _ hrow
  simp only [State.rowCodes, List.length_map, List.length_zipIdx, List.length_take, List.length_drop, length_denseCodes]
  omega

/-- Code `j` of a row is that of the tile's element, converted. -/
theorem rowCodes_code {bsc j : Nat} (hrow : row < 128) (hj : j < c.nB) :
    packCodes c.ow (s.rowCodes core c row bsc) / 2 ^ (c.ow * j) % 2 ^ c.ow
      = (convertTo (c.fmtCtx.fmt c.ofmt) bsc ⟨c.orm, if c.orm = 5 then diceBits c.dice.toNat row j else 0, c.osat⟩
          ((s.tile core c.tile).accf == 12)
          ((s.tile core c.tile).value ((denseCodes (128 * c.nB) 0 (s.tile core c.tile).vals).getD (row * c.nB + j) 0))).1 % 2 ^ c.ow := by
  have hlen := length_rowCodes s core c row (bsc := bsc) hrow
  have hat : row * c.nB + j < (denseCodes (128 * c.nB) 0 (s.tile core c.tile).vals).length := by
    have hfit : (row + 1) * c.nB ≤ 128 * c.nB := Nat.mul_le_mul_right _ hrow
    rw [length_denseCodes]
    rw [Nat.succ_mul] at hfit
    omega
  rw [packCodes, foldr_codes _ _ (by rw [hlen]; exact hj)]
  simp only [State.rowCodes, List.getElem_map, List.getElem_zipIdx, List.getElem_take, List.getElem_drop, Nat.zero_add]
  rw [List.getD_eq_getElem _ _ hat]

theorem outAddr_eq (last : Nat) : c.outAddr last row = ((((c.reg 3).toNat : Int) + (List.range 6).foldl (fun acc l =>
    if c.outl ≤ l then acc + (c.digit last l : Int) * c.cstr l else acc) 0 + (row : Int) * (c.reg 6).toInt) % (2 ^ 64 : Int)).toNat := by
  unfold RunCmd.outAddr
  rw [Int.add_emod, Int.emod_emod_of_dvd _ (dvd_refl _), ← Int.add_emod]

end

section
variable {s : State} {core : Nat} {c : RunCmd} {row cd od a len : Nat} (ha : a = c.outAddr (c.step - 1) row) (hlen : len = c.nB * c.ow / 8)
  (hwindow : classify core a = .window cd od) (hroom : od + len ≤ 2 ^ 20) (hfit : od % 128 + len ≤ 128 ∨ (od % 128 = 0 ∧ len % 128 = 0))
include ha hlen hwindow hroom hfit

omit ha hlen hfit in
/-- The line of piece `k`. -/
theorem piece_place {k : Nat} (hk : 128 * k < len) : (a + 128 * k) / 128 * 128 % 128 = 0
    ∧ classify core ((a + 128 * k) / 128 * 128) = .window cd ((a + 128 * k) / 128 * 128 % 2 ^ 20)
    ∧ (a + 128 * k) / 128 * 128 % 2 ^ 20 / 128 = od / 128 + k := by
  have hod := classify_window hwindow
  exact ⟨by omega, classify_window_same hwindow (by omega), by omega⟩

omit ha hlen hroom hfit in
theorem rowPieces_window (v : Nat) : rowPieces a len v = (List.range ((len + 127) / 128)).map (fun k =>
    (a + 128 * k, byteRun (od % 128) (min len 128), lineOfNat (v / 2 ^ (1024 * k)) (od % 128) (min len 128))) := by
  have hod := classify_window hwindow
  have hoff : a % 128 = od % 128 := by omega
  unfold rowPieces
  simp only [hoff]
  rfl

omit hfit in
/-- The row's pieces, in a window, are written line by line, and the stage goes on. -/
theorem outputRow_window {bsc : Nat} (hbsc : bsc = c.outBsc.getD (c.bscFor (s.tile core c.tile))) : ∃ fl, s.outputRow core c row
    = (s.putRow c (s.rowTag core c row bsc) (c.walker core).reader cd od len (packCodes c.ow (s.rowCodes core c row bsc))).rowNext core c row bsc fl := by
  have hplace {k : Nat} (hk : k ∈ List.range ((len + 127) / 128)) := piece_place (core := core) (cd := cd) (od := od) hwindow hroom
    (k := k) (by have := List.mem_range.1 hk; omega)
  refine ⟨(s.rowCodes core c row bsc).foldl (fun fl x => fl ||| x.2) 0, ?_⟩
  unfold State.outputRow
  subst hbsc
  extract_lets tile bsc f codes conv cls tag v ps x
  have hconv : conv = s.rowCodes core c row bsc := rfl
  have hv : v = packCodes c.ow (s.rowCodes core c row bsc) := rfl
  have htag : tag = s.rowTag core c row bsc := rfl
  have hps : ps = _ := (congrArg₂ (fun b n => rowPieces b n v) ha.symm hlen.symm).trans (rowPieces_window hwindow v)
  have hx : x = { s := s, locs := (List.range ((len + 127) / 128)).map (fun k => ((a + 128 * k) / 128 * 128, .store cd (od / 128 + k))) } := by
    simp only [x, hps, List.foldl_map]
    rw [foldl_add_window (cd := cd) .write _ _ (fun k hk => ⟨(hplace hk).1, (hplace hk).2.1⟩), List.nil_append]
    congr 1
    exact List.map_congr_left fun k hk => by rw [(hplace hk).2.2]
  have hlocs : (List.range ((len + 127) / 128)).map (fun k => (((a + 128 * k, byteRun (od % 128) (min len 128),
      lineOfNat (v / 2 ^ (1024 * k)) (od % 128) (min len 128)), LineLoc.store cd (od / 128 + k)))) = ps.zip (x.locs.map (fun l => l.2)) := by
    rw [hps, hx, List.map_map]
    exact (List.zip_map' ..).symm
  have hwide : x.locs.find? (fun l => (l.2.lw?).any (fun lw => lw != c.ow)) = none := by
    rw [hx, List.find?_eq_none]
    intro l hl
    obtain ⟨k, -, rfl⟩ := List.mem_map.1 hl
    simp [LineLoc.lw?]
  have hfaults : worstFault core x.faults = none := by rw [hx]; rfl
  have hparks : x.parks = [] := by rw [hx]
  have hs : x.s = s := by rw [hx]
  rw [hfaults, hparks]
  dsimp only
  rw [hwide]
  dsimp only
  rw [← hlocs, writePieces_store, hs]
  clear hlocs hwide hfaults hparks hs hx hps
  clear_value conv v tag x ps
  subst hconv hv htag
  rfl

end

/-- Recording the matrix engine's progress and settling touch the command's entry alone. -/
theorem progress_touches {s : State} {core a : Nat} {c : RunCmd} (h : s.entryIs core 0 a) (hc : (s.engine core 0).running = some c)
    {f : RunCmd → RunCmd} (hname : ∀ c, (f c).ctx = c.ctx ∧ (f c).num = c.num) (prog : Nat) :
    s.Touches (((s.updRun core 0 f).recordProg core c prog).mxeSettle core) a 256 := by
  have hrun : ((s.updRun core 0 f).engine core 0).running.map (fun c => (c.ctx, c.num)) = some (c.ctx, c.num) := by
    rw [State.updRun, engine_updEngine_same _ _ (by omega), hc, Option.map_some, Option.map_some, (hname c).1, (hname c).2]
  have hentry := updRun_entryIs h (by omega) hname
  have hrecord := recordProg_touches hentry hrun prog
  refine (updRun_touches s a 256 core 0 f).trans (hrecord.trans (mxeSettle_touches (entryIs_congr hentry hrecord.seats ?_)))
  rw [State.engine, State.core, recordProg_cores]
  rfl

section
variable {s : State} {core : Nat} {c : RunCmd} {row cd od a len : Nat} (ha : a = c.outAddr (c.step - 1) row) (hlen : len = c.nB * c.ow / 8)
  (hwindow : classify core a = .window cd od) (hroom : od + len ≤ 2 ^ 20) (hfit : od % 128 + len ≤ 128 ∨ (od % 128 = 0 ∧ len % 128 = 0))
include ha hlen hwindow hroom hfit

/-- A row in a window: its codes, the tag of whole lines, and the rest as it was but in the command's entry. -/
theorem outputRow_writes (hc : (s.engine core 0).running = some c) {st : Strand} (hst : s.strand? core c.ctx = some st)
    (hw : Memory.wf s.mem = true) (hpos : 0 < len) {bsc p entry : Nat} (hbsc : bsc = c.outBsc.getD (c.bscFor (s.tile core c.tile)))
    (hp : p = 128 * storeLineNo cd (od / 128) + od % 128) (hentry : entry = st.journalAt c.num) (hapart : p + len ≤ entry ∨ entry + 256 ≤ p) :
    let u := s.outputRow core c row
    memNat u.mem p len = packCodes c.ow (s.rowCodes core c row bsc) % 2 ^ (8 * len)
    ∧ (od % 128 = 0 → len % 128 = 0 → ∀ k, 128 * k < len → u.tagAt (storeLineNo cd (od / 128) + k) = s.rowTag core c row bsc)
    ∧ ∀ b, b < p ∨ p + len ≤ b → b < entry ∨ entry + 256 ≤ b → memGet u.mem b = memGet s.mem b := by
  intro u
  obtain ⟨fl, hu⟩ := outputRow_window (s := s) ha hlen hwindow hroom hbsc
  have hrow := putRow_touches c (s.rowTag core c row bsc) (c.walker core).reader cd od (packCodes c.ow (s.rowCodes core c row bsc)) hw hfit
    hpos hp
  have hbytes := putRow_memNat c (s.rowTag core c row bsc) (c.walker core).reader cd od (packCodes c.ow (s.rowCodes core c row bsc)) hw hfit
    hpos hp
  have htags (h0 : od % 128 = 0) (hwhole : len % 128 = 0) {k : Nat} (hk : 128 * k < len) := putRow_tagAt c (s.rowTag core c row bsc)
    (c.walker core).reader cd od (packCodes c.ow (s.rowCodes core c row bsc)) s h0 hwhole hk
  have hcores := putRow_cores s c (s.rowTag core c row bsc) (c.walker core).reader cd od len (packCodes c.ow (s.rowCodes core c row bsc))
  generalize s.putRow c (s.rowTag core c row bsc) (c.walker core).reader cd od len (packCodes c.ow (s.rowCodes core c row bsc)) = v at *
  have hvrun : (v.engine core 0).running = some c := by rw [State.engine, State.core, hcores]; exact hc
  have hventry : v.entryIs core 0 entry := by
    rw [hentry]
    exact entryIs_congr (entryIs_of_running hc hst) hrow.seats (by rw [hvrun, hc])
  have hnext := progress_touches hventry hvrun (f := fun c => { c with
    held := none, flags := c.flags ||| BitVec.ofNat 64 fl, outBsc := some bsc, outRow := if row = 127 then none else some (row + 1) })
    (fun _ => ⟨rfl, rfl⟩) (c.step + (if row = 127 then 0 else (row + 1) * 2 ^ 56 + 2 ^ 63))
  rw [show u = _ from hu, State.rowNext]
  refine ⟨(hnext.memNat (by omega)).trans hbytes, fun h0 hwhole k hk => ?_, fun b hb hbe => ?_⟩
  · rw [hnext.tags _ (by omega), htags h0 hwhole hk]
  · rw [hnext.bytes b hbe, hrow.bytes b hb]

end

end Sys2Proof.Machine
end

section
/-!
PROOFS. Engine events (R209, R220, R221, R230, R300, R304, R307–R310).
-/
namespace Sys2Proof.Machine

/-! ### A step of the matrix engine (R300, R304) -/

theorem foldl_snd_keeps {α β γ : Type} (g : State → γ) (f : α × State → β → α × State) (h : ∀ x b, g (f x b).2 = g x.2) (l : List β) :
    ∀ x, g (l.foldl f x).2 = g x.2 := by
  induction l with
  | nil => exact fun _ => rfl
  | cons b l ih => exact fun x => (ih _).trans (h x b)

theorem operandLine_keeps (s : State) (core : Nat) (c : RunCmd) (shares : Bool) (k i : Nat) :
    (s.operandLine core c shares k i).2.me = s.me ∧ (s.operandLine core c shares k i).2.cores = s.cores := by
  have hread := readHome_lines s (.store k i) (c.walker core).reader
  unfold State.operandLine
  dsimp only
  split
  · exact ⟨rfl, rfl⟩
  · split <;> exact ⟨hread.me, hread.cores⟩

/-- Reading an operand changes no strand and no core. -/
theorem readOperand_keeps (s : State) (core : Nat) (c : RunCmd) (shares : Bool) (a n w : Nat) :
    (s.readOperand core c shares a n w).2.me = s.me ∧ (s.readOperand core c shares a n w).2.cores = s.cores := by
  have hlines (k first : Nat) (l : List Nat) (x : List OperandLine × State) :=
    And.intro (foldl_snd_keeps State.me (fun (x : List OperandLine × State) i =>
        let h := x.2.operandLine core c shares k (first + i)
        (x.1 ++ [h.1], h.2)) (fun x i => (operandLine_keeps x.2 core c shares k (first + i)).1) l x)
      (foldl_snd_keeps State.cores (fun (x : List OperandLine × State) i =>
        let h := x.2.operandLine core c shares k (first + i)
        (x.1 ++ [h.1], h.2)) (fun x i => (operandLine_keeps x.2 core c shares k (first + i)).2) l x)
  unfold State.readOperand
  split
  · next k o _ =>
    have hread := hlines k (o / 128) (List.range ((o % 128 + n * w / 8 + 127) / 128)) ([], s)
    dsimp only at hread ⊢
    generalize (List.range ((o % 128 + n * w / 8 + 127) / 128)).foldl _ ([], s) = r at hread ⊢
    split
    · exact ⟨rfl, rfl⟩
    · split
      · exact hread
      · split
        · exact hread
        · split
          · exact hread
          · split <;> exact hread
  · exact ⟨rfl, rfl⟩

theorem tile_setTile_same (s : State) (core : Nat) {t : Nat} (ht : t < 4) (v : Tile) : (s.setTile core t v).tile core t = v := by
  simp [State.tile, State.setTile, core_updCore_same, Vector.getD, ht]

theorem tile_setTile_other (s : State) (core : Nat) {t i : Nat} (hi : i ≠ t) (v : Tile) : (s.setTile core t v).tile core i = s.tile core i := by
  have hset (l : Vector Tile 4) : (l.setIfInBounds t v).getD i {} = l.getD i {} := by
    by_cases h4 : i < 4
    · simp [Vector.getD, h4, Ne.symm hi]
    · simp [Vector.getD, h4]
  rw [State.tile, State.setTile, core_updCore_same, hset]
  rfl

section
variable {s : State} {core : Nat} {c : RunCmd} (hc : (s.engine core 0).running = some c) (hfin : c.finished = false)
include hc hfin

theorem mxeStep_does (hready : s.mxeReady core c = true) (hstep : c.step < c.steps) :
    exec (.mxeStep core) s = .next (s.mxePerform core c) := by
  rw [exec_mxeStep, execMxeStep, State.mxeStep, hc]
  dsimp only
  rw [hfin, if_neg Bool.false_ne_true, hready, if_neg (by decide), if_pos hstep]

end

/-- A step that accumulates: its tile, and what else stays. -/
theorem mxePerform_tile {s : State} {core : Nat} {c : RunCmd} (hc : (s.engine core 0).running = some c) {a b : MxOperand} {sa sb : State}
    {f : Nat} {base : Tile} (hbase : base = if c.step % c.passLen = 0 ∧ c.zacc = true then ({} : Tile) else s.tile core (c.stepTile c.step))
    (ha : s.readOperand core c (c.mcop.testBit 0) (c.operandAddr (c.reg 1) c.astr c.step) 128 c.aw = (.ok a, sa))
    (hb : sa.readOperand core c (c.mcop.testBit 1) (c.operandAddr (c.reg 2) c.bstr c.step) c.nB c.bw = (.ok b, sb))
    (hf : stepFormat c a b base = .acc f) :
    (s.mxePerform core c).tile core (c.stepTile c.step) = (accumulate c f (fun i => (Config.freeWord (s.freeCtr + i)).toNat) a b base).1
    ∧ (∀ i, i ≠ c.stepTile c.step → (s.mxePerform core c).tile core i = s.tile core i)
    ∧ (s.mxePerform core c).me.regs = s.me.regs ∧ (s.mxePerform core c).me.rows = s.me.rows := by
  obtain ⟨hame, hacores⟩ := readOperand_keeps s core c (c.mcop.testBit 0) (c.operandAddr (c.reg 1) c.astr c.step) 128 c.aw
  obtain ⟨hbme, hbcores⟩ := readOperand_keeps sa core c (c.mcop.testBit 1) (c.operandAddr (c.reg 2) c.bstr c.step) c.nB c.bw
  rw [ha] at hame hacores
  rw [hb, hame] at hbme
  rw [hb, hacores] at hbcores
  have ht : c.stepTile c.step < 4 := Nat.mod_lt _ (by omega)
  unfold State.mxePerform
  dsimp only
  rw [← hbase, ha]
  dsimp only
  rw [hb]
  dsimp only
  rw [hf]
  dsimp only
  generalize (accumulate c f (fun i => (Config.freeWord (s.freeCtr + i)).toNat) a b base).1 = tile
  generalize hv : State.setTile { sb with freeCtr := sb.freeCtr + freeTaken f a b } core (c.stepTile c.step) tile = v
  have hvme : v.me = s.me := by rw [← hv]; exact hbme
  have hother (i : Nat) (hi : i ≠ c.stepTile c.step) : v.tile core i = s.tile core i := by
    rw [← hv, tile_setTile_other _ _ hi]
    exact congrArg (fun l => (look l core {}).tiles.getD i {}) hbcores
  have hvrun : (v.engine core 0).running = some c := by
    rw [← hc, ← hv, State.engine, State.setTile, core_updCore_same]
    exact congrArg (fun l => ((look l core {}).engines.getD 0 {}).running) hbcores
  obtain ⟨e, hentry⟩ := exists_entryIs v core 0
  have hleft (u : State) (hu : v.Touches u e 256) : u.tile core (c.stepTile c.step) = tile
      ∧ (∀ i, i ≠ c.stepTile c.step → u.tile core i = s.tile core i) ∧ u.me.regs = s.me.regs ∧ u.me.rows = s.me.rows := by
    refine ⟨?_, fun i hi => by rw [hu.tiles, hother i hi], by rw [hu.regs, hvme], by rw [hu.rows, hvme]⟩
    rw [hu.tiles, ← hv, tile_setTile_same _ _ ht]
  refine hleft _ ?_
  refine progress_touches hentry hvrun ?_ _
  intro y
  exact ⟨rfl, rfl⟩

/-! ### Lines and rows in a window -/

/-- The byte of an aligned address of a window begins its line. -/
theorem lsByte_aligned {core a k o : Nat} (h : classify core a = .window k o) (ha : a % 128 = 0) :
    lsByte k o = 128 * storeLineNo k (o / 128) := by
  have ho := classify_window h
  rw [lsByte_eq]
  omega

theorem mxeOutputRow_does {s : State} {core row : Nat} {c : RunCmd} (hc : (s.engine core 0).running = some c) (hrow : c.outRow = some row) :
    exec (.mxeOutputRow core) s = .next (if c.unreleased.contains (row / 16) then s else s.outputRow core c row) := by
  rw [exec_mxeOutputRow, execMxeOutputRow, State.mxeOutput, hc]
  dsimp only
  rw [hrow]

/-- A row has whole bytes. -/
theorem rowLen_eq (c : RunCmd) : 8 * (c.nB * c.ow / 8) = c.nB * c.ow := by
  have hdvd : 8 ∣ c.nB := by unfold RunCmd.nB; split <;> decide
  exact Nat.mul_div_cancel' (hdvd.mul_right _)

theorem rowLen_pos (c : RunCmd) : 0 < c.nB * c.ow / 8 := by
  have hlen := rowLen_eq c
  have hpos : 0 < c.nB * c.ow := Nat.mul_pos (by unfold RunCmd.nB; split <;> decide) (Nat.two_pow_pos _)
  omega

theorem row_inside (c : RunCmd) {j : Nat} (hj : j < c.nB) : c.ow * j + c.ow ≤ 8 * (c.nB * c.ow / 8) := by
  rw [rowLen_eq, ← Nat.mul_succ, Nat.mul_comm]
  exact Nat.mul_le_mul_right _ hj

/-- Bits below `n` of a number are those of its remainder by 2^n. -/
theorem mod_two_pow_field (v : Nat) {lo w n : Nat} (h : lo + w ≤ n) : v % 2 ^ n / 2 ^ lo % 2 ^ w = v / 2 ^ lo % 2 ^ w := by
  rw [show n = lo + (n - lo) by omega, pow_add, Nat.mod_mul_right_div_self, Nat.mod_mod_of_dvd _ (pow_dvd_pow 2 (by omega))]

/-! ### The statement -/

/-- Settles O50: each event's own rule above. A line or a row that an engine writes into a window, and the words of its entry, are
all that it touches (`State.Touches`). -/
theorem engineEvents : Obligations.EngineEvents := by
  unfold Obligations.EngineEvents
  intro s core e g he x
  refine ⟨fun p st hidle hp hst => ?_, fun hidle hnone => commandStart_none he (.inr (nextCmd_none hnone)),
    fun c hc => commandStart_none he (.inl (by rw [show (s.engine core e).running = _ from hc]; simp)),
    fun c st hc hst hfin hroom => commandComplete_done he hc hst hfin hroom,
    fun c hc hfin => ⟨?_, fun hcpe => cpeUnit_does hc hfin hcpe, ?_, ?_, ?_, ?_, ?_, ?_⟩,
    fun coil c m hc hm hforming hstands hmembers hfirst => multicastForm_does hc hm hforming hstands hmembers hfirst⟩
  · intro c u
    obtain ⟨hmem, hstartable, hfirst⟩ := nextCmd_first hp
    exact ⟨commandStart_does he hidle hp hst, hmem, hstartable, hfirst, rfl, rfl, rfl,
      by rw [engine_updEngine_same _ _ he]⟩
  · rw [commandComplete_eq he, completeCmd_unfinished hc hfin]
  · intro st cs os cd od hcpe hst hw hmore hmc i nx ny off sa da line p entry hdst hdal hapart writes
    have hunit : exec (.cpeUnit core e) s = .next (s.cpeLine core e c) := by rw [cpeUnit_does hc hfin hcpe, if_pos hmore]
    have hp : p = 128 * storeLineNo cd (od / 128) := lsByte_aligned hdst hdal
    have hwrites {src : Option (Nat × LineLoc)} {d : Line} {t : Tag} (hline : s.cpeLine core e c = s.cpeWrite core e c src d t [(da, .store cd (od / 128))])
        (hsrc : (src.map (fun y => y.2)).bind LineLoc.lw? = none) (ht : classOf t ≤ 3) : writes d.toNat (withDem t false) :=
      ⟨_, hline ▸ hunit, cpeWrite_writes hst hc he hw hsrc d ht da cd (od / 128) hp rfl hapart⟩
    refine ⟨fun hop hsrc hsal hbad hclass => ?_, fun hop => ?_⟩
    · rw [show lsByte cs os = 128 * storeLineNo cs (os / 128) from lsByte_aligned hsrc hsal, ← memLine_toNat _ hw]
      exact hwrites (cpeLine_copy hop hmc rfl rfl hsrc hsal hdst hdal hbad) rfl hclass
    · have hzero := hwrites (cpeLine_zero (by rw [RunCmd.cpeOp]; omega) hmc rfl hdst hdal) rfl (by decide)
      rwa [show (0 : Line).toNat = 0 from BitVec.toNat_zero, show withDem zeroTag false = zeroTag by decide] at hzero
  · intro st row cd od h0 hrow hlt hreleased hst hw tile bsc len a p entry hwindow hroom hfit hapart
    subst h0
    have hout : exec (.mxeOutputRow core) s = .next (s.outputRow core c row) := by
      rw [mxeOutputRow_does hc hrow, hreleased]
      rfl
    obtain ⟨hcodes, htags, hbytes⟩ := outputRow_writes (outAddr_eq c row (c.step - 1)).symm rfl hwindow hroom hfit hc hst hw
      (rowLen_pos c) rfl (lsByte_eq cd od) rfl hapart
    refine ⟨_, hout, fun j hj => ?_, htags, hbytes⟩
    have hinside : c.ow * j + c.ow ≤ 8 * len := row_inside c hj
    rw [hcodes, mod_two_pow_field _ hinside]
    exact rowCodes_code s core c row hlt hj
  · intro h0 hready hstep a b sa sb f base ha hb hf
    subst h0
    exact ⟨_, mxeStep_does hc hfin hready hstep, mxePerform_tile hc rfl ha hb hf⟩
  · intro h0
    subst h0
    rw [exec_rowRelease, execRowRelease, State.releaseRows, show (s.engine core 0).running = _ from hc]
  · intro row h0 hrow
    subst h0
    exact mxeOutputRow_does hc hrow
  · intro i f h3 hpc hi hf
    subst h3
    have hissue := tsqIssue_does hc hfin hpc hi hf
    exact ⟨hissue, fun hcore => hissue.trans (exec_of_tsqMeaning hc hcore hf).symm⟩

end Sys2Proof.Machine
end

section
/-!
SUPPORT. The groups of a partition and the messages that wait for one of its entries (R324–R327): how an update of a partition or
of a group reads, and that stores and releases leave them (R134, R335).
-/
namespace Sys2Proof.Machine

/-! ### Updates of a partition -/

@[simp] theorem part_updPart_same (s : State) (p : Nat) (f : Part → Part) : (s.updPart p f).part p = f (s.part p) :=
  look_put_same ..

theorem part_updPart_other (s : State) {p q : Nat} (f : Part → Part) (h : q ≠ p) : (s.updPart p f).part q = s.part q :=
  look_put_other _ _ _ _ _ h

theorem part_of_updPart {s z : State} {p : Nat} {f : Part → Part} (h : z.parts = (s.updPart p f).parts) : z.part p = f (s.part p) := by
  have hpart : z.part p = (s.updPart p f).part p := by
    unfold State.part
    rw [h]
  exact hpart.trans (part_updPart_same ..)

theorem group?_congr {s u : State} (h : u.parts = s.parts) (p gi : Nat) : u.group? p gi = s.group? p gi := by
  unfold State.group? State.part
  rw [h]

theorem group?_updPart (s : State) (p : Nat) (f : Part → Part) (gi : Nat) :
    (s.updPart p f).group? p gi = (f (s.part p)).groups.lookup gi := by
  unfold State.group?
  rw [part_updPart_same]

/-! ### Updates of a group -/

theorem updGroup_some {s : State} {p gi : Nat} {g : Group} (h : s.group? p gi = some g) (f : Group → Group) :
    s.updGroup p gi f = s.updPart p (fun q => { q with groups := put q.groups gi (f g) }) := by
  unfold State.updGroup
  rw [h]

theorem group?_updGroup {s : State} {p gi : Nat} {g : Group} (h : s.group? p gi = some g) (f : Group → Group) :
    (s.updGroup p gi f).group? p gi = some (f g) := by
  rw [updGroup_some h, group?_updPart, lookup_put_same]

theorem updGroup_only (s : State) (p gi : Nat) (f : Group → Group) :
    s.updGroup p gi f = { s with parts := (s.updGroup p gi f).parts } := by
  unfold State.updGroup
  split <;> rfl

@[simp] theorem updGroup_me (s : State) (p gi : Nat) (f : Group → Group) : (s.updGroup p gi f).me = s.me := by rw [updGroup_only]
@[simp] theorem updGroup_mem (s : State) (p gi : Nat) (f : Group → Group) : (s.updGroup p gi f).mem = s.mem := by rw [updGroup_only]
@[simp] theorem updGroup_outbox (s : State) (p gi : Nat) (f : Group → Group) : (s.updGroup p gi f).outbox = s.outbox := by
  rw [updGroup_only]

/-! ### What stores leave of the groups -/

/-- What a partition holds for its collective groups: the entries, and what came early for one. -/
def Part.society (p : Part) : List (Nat × Group) × List (Nat × MemberMsg) := (p.groups, p.joins)

def State.society (s : State) (p : Nat) : List (Nat × Group) × List (Nat × MemberMsg) := (s.part p).society

theorem society_of_unlogged {s u : State} (h : u.unlogged = s.unlogged) : u.society = s.society :=
  funext fun p => congrArg (fun f => (f p).society) h

theorem society_congr {s u : State} (h : u.parts = s.parts) : u.society = s.society := society_of_unlogged (unlogged_congr h)

theorem group?_of_society {s u : State} (h : u.society = s.society) (p gi : Nat) : u.group? p gi = s.group? p gi :=
  congrArg (fun f => (f p).1.lookup gi) h

theorem updPart_society (s : State) (p : Nat) (f : Part → Part) (hf : (f (s.part p)).society = (s.part p).society) :
    (s.updPart p f).society = s.society := by
  funext q
  unfold State.society
  by_cases hq : q = p
  · subst hq
    rw [part_updPart_same, hf]
  · rw [part_updPart_other _ _ hq]

theorem society_foldl {α : Type} (f : State → α → State) (h : ∀ s x, (f s x).society = s.society) (l : List α) :
    ∀ s, (l.foldl f s).society = s.society := foldl_keeps State.society f h l

theorem initChunks_society (s : State) (part : Nat) (chunks : List Nat) (m : Nat) :
    (s.initChunks part chunks m).society = s.society :=
  society_foldl _ (fun s i => by
    unfold State.putBank
    exact society_of_unlogged ((putRaw_unlogged ..).trans ((updChan_unlogged ..).trans (drainBank_unlogged ..)))) _ s

theorem writeStored_unlogged (s : State) (near : Bool) (h : Stored) (d : Line) (t : Tag) :
    (s.writeStored near h d t).unlogged = s.unlogged := by
  unfold State.writeStored
  split <;> exact writeLine_unlogged ..

theorem copySeg_society (s : State) (part : Nat) (src dst : Seg) (n : Nat) : (s.copySeg part src dst n).society = s.society := by
  induction n with
  | zero => rfl
  | succ n ih =>
    refine (society_of_unlogged ?_).trans ih
    exact (writeStored_unlogged ..).trans ((reach_unlogged ..).trans (readStored_unlogged ..))

theorem growSeg_society (s : State) (vf i : Nat) (new : List Nat) : (s.growSeg vf i new).society = s.society := by
  unfold State.growSeg
  dsimp only
  split
  · rfl
  · split
    · rfl
    · refine (updPart_society _ _ _ rfl).trans ((society_of_unlogged (updSeg_unlogged ..)).trans ?_)
      exact ((copySeg_society ..).trans (initChunks_society ..)).trans (updPart_society _ _ _ rfl)

theorem grantChunks_society (s : State) (part need : Nat) (priv : Bool) (r : Reader) (va : Word) :
    (s.grantChunks part need priv r va).2.society = s.society := by
  refine society_of_unlogged ?_
  unfold State.grantChunks
  dsimp only
  by_cases h : (if priv = true then 0 else (s.part part).reserveNow) + need ≤ (s.part part).freeCount
  · rw [if_pos h]
    simp [apply_ite State.unlogged]
  · rw [if_neg h]
    exact logEvent_unlogged ..

theorem putPage_society (s : State) (e : TlbEntry) (j : Nat) (x : Line × Tag) (mask : ByteMask) (keep : Option (Nat × Nat)) :
    (s.putPage e j x mask keep).society = s.society :=
  society_of_unlogged (by simp [State.putPage])

/-- A write that is checked for fit, applied or refused. -/
theorem fitWrite_society (s : State) (e : TlbEntry) (j : Nat) (w : Write) (keep : Option (Nat × Nat)) (priv : Bool) (r : Reader) (va : Word) :
    ((s.fitWrite e j w keep priv r va).1.getD (s.fitWrite e j w keep priv r va).2).society = s.society := by
  have hmet : (s.metPage e j w r).2.2.society = s.society := society_of_unlogged (meetHome_unlogged ..)
  cases hfits : s.fitsPage e j w r with
  | true =>
    rw [fitWrite_fits hfits]
    exact (putPage_society ..).trans hmet
  | false =>
    have hgrowth : (s.growthFor e j w priv r va).2.society = s.society :=
      (grantChunks_society ..).trans ((society_congr rfl).trans hmet)
    rcases hg : s.growthFor e j w priv r va with ⟨_ | new, t⟩
    · rw [hg] at hgrowth
      rw [fitWrite_denied hfits hg]
      exact hgrowth
    · rw [hg] at hgrowth
      rw [fitWrite_grown hfits hg]
      exact (putPage_society ..).trans ((growSeg_society ..).trans hgrowth)

theorem install_unlogged (s : State) (core : Nat) (l : L1Line) : (s.install core l).unlogged = s.unlogged := by
  unfold State.install
  refine Eq.trans (unlogged_congr rfl) ?_
  split
  · dsimp only
    split
    · rfl
    · exact (applyHome_unlogged ..).trans (unlogged_congr rfl)
  · rfl

theorem refreshL1_unlogged (s : State) (core : Nat) (e : TlbEntry) (j : Nat) (w : Write) :
    (s.refreshL1 core e j w).unlogged = s.unlogged := by
  unfold State.refreshL1
  dsimp only
  split <;> rfl

theorem storeL1_unlogged (s : State) (core : Nat) (e : TlbEntry) (j : Nat) (w : Write) (hint : Nat) :
    (s.storeL1 core e j w hint).unlogged = s.unlogged := by
  unfold State.storeL1
  dsimp only
  split <;> split
  · exact (applyHome_unlogged ..).trans (writeBackLine_unlogged ..)
  · exact (install_unlogged ..).trans (writeBackLine_unlogged ..)
  · exact applyHome_unlogged ..
  · exact install_unlogged ..

/-- A store by a core, performed or refused. -/
theorem storeLine_society (s : State) (core : Nat) (l : LineLoc) (w : Write) (hint : Nat) (priv : Bool) (r : Reader) (va : Word) :
    ((s.storeLine core l w hint priv r va).1.getD (s.storeLine core l w hint priv r va).2).society = s.society := by
  cases l with
  | store c i => exact society_of_unlogged (applyHome_unlogged s (.store c i) w none r)
  | page e j =>
    unfold State.storeLine
    dsimp only
    split
    · have hfitted := fitWrite_society s e j w none priv r va
      rcases hfit : s.fitWrite e j w none priv r va with ⟨_ | t, u⟩
      · rw [hfit] at hfitted
        exact hfitted
      · rw [hfit] at hfitted
        exact (society_of_unlogged (refreshL1_unlogged ..)).trans hfitted
    · split
      · exact society_of_unlogged (storeL1_unlogged ..)
      · exact society_of_unlogged ((refreshL1_unlogged ..).trans (applyHome_unlogged ..))

theorem performOldest_society (s : State) : s.performOldest.society = s.society := by
  unfold State.performOldest
  split
  · rfl
  · dsimp only
    split
    · exact (society_congr rfl).trans (storeLine_society ..)
    · rfl

theorem performAll_society (s : State) : s.performAll.society = s.society :=
  society_foldl _ (fun s _ => performOldest_society s) _ s

theorem release_society (s : State) (scope : Nat) : (s.release scope).society = s.society :=
  society_of_unlogged (release_unlogged ..)

end Sys2Proof.Machine
end

section
/-!
PROOFS. ANCALL's services: the argument block, buffer-map entries, and the leaving of a group (R223, R324, R353), for O58.
-/
namespace Sys2Proof.Machine

/-! ### Replies and waits -/

/-- An ordered instruction that issues and whose body only waits. -/
theorem ordered_waits {s : State} {t : BitVec 2} {body : State → Eff} {u : State} (h : s.ready t false = true)
    (hb : body (s.takeToken t) = .wait u) : runOrdered t body s = .next { u with waiting := true } := by
  rw [runOrdered, runInstr_ready _ _ _ _ h, hb]
  rfl

/-- An ordered instruction that issues and whose body traps. -/
theorem ordered_traps {s : State} {t : BitVec 2} {body : State → Eff} {u : State} {q : TrapReq} (h : s.ready t false = true)
    (hb : body (s.takeToken t) = .trap u q) : runOrdered t body s = u.takeTrap q := by
  rw [runOrdered, runInstr_ready _ _ _ _ h, hb]
  rfl

/-- The instruction retires with a status in sd, acquired at part scope (R353). -/
def State.replies (s : State) (t : BitVec 2) (d : BitVec 5) (i : Instr) (u : State) (n : Nat) : Prop :=
  exec i s = .next (((u.acquire 3).setReg d (BitVec.ofNat 64 n)).retires t)

theorem ordered_replies {s : State} {t : BitVec 2} {d : BitVec 5} {i : Instr} {body : State → Eff} {u : State} {n : Nat}
    (h : s.ready t false = true) (hexec : exec i s = runOrdered t body s)
    (hb : body (s.takeToken t) = ancallReturn d n u) : s.replies t d i u n := by
  unfold State.replies
  rw [hexec]
  exact runInstr_retires h hb

/-! ### The argument block -/

/-- The state in which a service reads its argument block. -/
def State.called (w : State) : State := w.performAll.release 3

/-- A block of argument bytes, read with the caller's own fronts. -/
def State.argBlock (p : State) (a n : Nat) : BlockRes := p.readBlock { p.walker with own := true } true a n

section
variable {d a : BitVec 5} {n : Nat} {more : Nat → Nat} {serve : Nat → State → Eff} {w u : State}

theorem ancall_misaligned (h : (w.reg a).toNat % 64 ≠ 0) : ancall d a n more serve w = ancallReturn d 4 w.called := by
  unfold ancall
  dsimp only
  rw [if_pos h]
  rfl

variable (h : (w.reg a).toNat % 64 = 0)
include h

theorem ancall_fail (hb : w.called.argBlock (w.reg a).toNat n = .fail u) : ancall d a n more serve w = ancallReturn d 4 u := by
  unfold State.called State.argBlock at hb
  unfold ancall
  dsimp only
  rw [if_neg (by omega), hb]

theorem ancall_hold {va g : Nat} (hb : w.called.argBlock (w.reg a).toNat n = .hold u va g) :
    ancall d a n more serve w = .wait (u.holdForAnchor va g) := by
  unfold State.called State.argBlock at hb
  unfold ancall
  dsimp only
  rw [if_neg (by omega), hb]

theorem ancall_ok {v : Nat} (hb : w.called.argBlock (w.reg a).toNat n = .ok u v) (hmore : more v = 0) :
    ancall d a n more serve w = serve v u := by
  unfold State.called State.argBlock at hb
  unfold ancall
  dsimp only
  rw [if_neg (by omega), hb]
  dsimp only
  rw [if_pos hmore]

theorem ancall_more {v v' : Nat} {u' : State} (hb : w.called.argBlock (w.reg a).toNat n = .ok u v) (hmore : more v ≠ 0)
    (hb' : u.argBlock (w.reg a).toNat (n + more v) = .ok u' v') : ancall d a n more serve w = serve v' u' := by
  unfold State.called State.argBlock at hb
  unfold State.argBlock at hb'
  unfold ancall
  dsimp only
  rw [if_neg (by omega), hb]
  dsimp only
  rw [if_neg hmore, hb']

end

/-! ### Any service -/

section
variable {s : State} {t : BitVec 2} (hready : s.ready t false = true) (d a : BitVec 5)
include hready

theorem ancallOther_replies (imm : BitVec 12) : s.replies t d (.ancallOther d a imm t) (s.takeToken t).called 1 :=
  ordered_replies hready (exec_ancallOther ..) rfl

/-- A service whose block is misaligned or cannot be read gives 4, and one whose block misses in stage 2 is held (R116, R353). -/
theorem block_replies {i : Instr} {n : Nat} {more : Nat → Nat} {serve : Nat → State → Eff}
    (hexec : exec i s = runOrdered t (ancall d a n more serve) s) :
    ((s.reg a).toNat % 64 ≠ 0 → s.replies t d i (s.takeToken t).called 4)
    ∧ ((s.reg a).toNat % 64 = 0 →
        (∀ u, (s.takeToken t).called.argBlock (s.reg a).toNat n = .fail u → s.replies t d i u 4)
        ∧ ∀ u va g, (s.takeToken t).called.argBlock (s.reg a).toNat n = .hold u va g →
            exec i s = .next { u.holdForAnchor va g with waiting := true }) := by
  have hreg := takeToken_reg s t a
  refine ⟨fun h => ordered_replies hready hexec (ancall_misaligned (by rwa [hreg])), fun h => ⟨fun u hb => ?_, fun u va g hb => ?_⟩⟩
  · exact ordered_replies hready hexec (ancall_fail (by rwa [hreg]) (by rwa [hreg]))
  · rw [hexec]
    exact ordered_waits hready (ancall_hold (by rwa [hreg]) (by rwa [hreg]))

/-- A service whose block is read whole serves its bytes. -/
theorem block_serves {i : Instr} {n : Nat} {serve : Nat → State → Eff} {u z : State} {v m : Nat}
    (hexec : exec i s = runOrdered t (ancall d a n (fun _ => 0) serve) s) (h : (s.reg a).toNat % 64 = 0)
    (hb : (s.takeToken t).called.argBlock (s.reg a).toNat n = .ok u v) (hserve : serve v u = ancallReturn d m z) : s.replies t d i z m :=
  ordered_replies hready hexec ((ancall_ok (by rwa [takeToken_reg]) (by rwa [takeToken_reg]) rfl).trans hserve)

/-! ### Buffer-map entries (R223) -/

/-- Another function's buffer has the handle. -/
def State.taken (u : State) (h : Nat) : Prop := ∃ b, (u.part u.me.part).bufs.lookup h = some b ∧ b.vf ≠ u.me.vf

/-- No other function's buffer has the handle. -/
def State.freeHandle (u : State) (h : Nat) : Prop := ∀ b, (u.part u.me.part).bufs.lookup h = some b → b.vf = u.me.vf

variable {u : State} {v : Nat} (hx : (s.reg a).toNat % 64 = 0)
include hx

theorem bufdef_does (hb : (s.takeToken t).called.argBlock (s.reg a).toNat 26 = .ok u v) :
    let h := rfld v 0 0 64
    let ok := h ≤ 255 ∧ rfld v 8 0 64 % 2 ^ 18 = 0 ∧ rfld v 16 0 64 % 2 ^ 18 = 0 ∧ rfld v 24 0 16 ≠ 0
    (¬ok ∨ u.taken h → s.replies t d (.ancallBufdef d a t) u 3)
    ∧ (ok → u.freeHandle h → ∃ z : State, s.replies t d (.ancallBufdef d a t) z 0 ∧ z.me = u.me ∧ z.mem = u.mem
        ∧ (z.part u.me.part).bufs.lookup h
          = some { base := rfld v 8 0 64, alt := rfld v 16 0 64, segs := rfld v 24 0 16, front := false, vf := u.me.vf }) := by
  have hserves {z : State} {m : Nat} := block_serves (z := z) (m := m) hready d a ((exec_ancallBufdef d a t s).trans rfl) hx hb
  dsimp only at hserves ⊢
  refine ⟨fun h => hserves (if_pos ?_), fun hok hfree => ⟨_, hserves (if_neg ?_), rfl, rfl, ?_⟩⟩
  · rcases hl : (u.part u.me.part).bufs.lookup (rfld v 0 0 64) with _ | b <;> grind [State.taken]
  · rcases hl : (u.part u.me.part).bufs.lookup (rfld v 0 0 64) with _ | b <;> grind [State.freeHandle]
  · rw [part_updPart_same, lookup_put_same]

theorem bufdrop_does (hb : (s.takeToken t).called.argBlock (s.reg a).toNat 8 = .ok u v) :
    let h := rfld v 0 0 64
    (255 < h ∨ u.taken h → s.replies t d (.ancallBufdrop d a t) u 3)
    ∧ (h ≤ 255 → u.freeHandle h → ∃ z : State, s.replies t d (.ancallBufdrop d a t) z 0 ∧ z.me = u.me ∧ z.mem = u.mem
        ∧ (z.part u.me.part).bufs.lookup h = none) := by
  have hserves {z : State} {m : Nat} := block_serves (z := z) (m := m) hready d a ((exec_ancallBufdrop d a t s).trans rfl) hx hb
  dsimp only at hserves ⊢
  refine ⟨fun h => hserves (if_pos ?_), fun hok hfree => ⟨_, hserves (if_neg ?_), rfl, rfl, ?_⟩⟩
  · rcases hl : (u.part u.me.part).bufs.lookup (rfld v 0 0 64) with _ | b <;> grind [State.taken]
  · rcases hl : (u.part u.me.part).bufs.lookup (rfld v 0 0 64) with _ | b <;> grind [State.freeHandle]
  · rw [part_updPart_same, lookup_del, if_pos rfl]

/-! ### Leaving a group (R324) -/

theorem grpleave_does (hb : (s.takeToken t).called.argBlock (s.reg a).toNat 1 = .ok u v) :
    let g := rfld v 0 0 8
    (u.group? u.me.part g = none → s.replies t d (.grpleave d a t) u 3)
    ∧ ∀ y, u.group? u.me.part g = some y → (y.own.isSome = true → s.replies t d (.grpleave d a t) u 3)
      ∧ (y.own = none → ∃ z : State, s.replies t d (.grpleave d a t) z 0 ∧ z.me = u.me ∧ z.mem = u.mem ∧ z.group? u.me.part g = none) := by
  have hserves {z : State} {m : Nat} := block_serves (z := z) (m := m) hready d a ((exec_grpleave d a t s).trans rfl) hx hb
  dsimp only at hserves ⊢
  refine ⟨fun h => hserves (by rw [h]), fun y h => ?_⟩
  simp only [h] at hserves
  refine ⟨fun hown => hserves (if_pos hown), fun hown => ⟨_, hserves (if_neg (by simp [hown])), rfl, rfl, ?_⟩⟩
  rw [group?_updPart, lookup_del, if_pos rfl]

end

end Sys2Proof.Machine
end

section
/-!
SUPPORT. The joining of a group: the members that its entry has counted, the log that a spare copies, and the status of a joining
that has ended (R324, R327, R353).
-/
namespace Sys2Proof.Machine

/-! ### Members that have opened -/

/-- The members that a joining entry has counted once `rank` has opened it. -/
def Group.counting (x : Group) (rank : Nat) : List Nat := if rank ∈ x.openedBy then x.openedBy else rank :: x.openedBy

/-- A joining entry once `rank` has opened it: active when every member has. -/
def Group.counted (x : Group) (rank : Nat) : Group :=
  if (List.range x.members.length).all (fun r => (x.counting rank).contains r) then
    { x with openedBy := x.counting rank, gstate := 1, gen := 1, seq := 0, liveSet := List.range x.members.length }
  else { x with openedBy := x.counting rank }

section
variable {p : Part} {gi : Nat} {x : Group} (hx : p.groups.lookup gi = some x) (hjoining : x.gstate = 2)
include hx hjoining

theorem opened_agrees {rank : Nat} (hrank : rank < x.members.length) :
    p.opened gi (.opened rank x.order x.tmo x.members) = { p with groups := put p.groups gi (x.counted rank) } := by
  unfold Part.opened
  rw [hx]
  dsimp only
  rw [if_neg (by simp [hjoining]), if_pos ⟨rfl, rfl, rfl, hrank⟩]
  simp only [Group.counted, Group.counting, List.contains_eq_mem, decide_eq_true_eq]

theorem opened_differs {rank order tmo : Nat} {members : List Word}
    (h : ¬(x.order = order ∧ x.tmo = tmo ∧ x.members = members ∧ rank < members.length)) :
    p.opened gi (.opened rank order tmo members) = { p with groups := del p.groups gi } := by
  unfold Part.opened
  rw [hx]
  dsimp only
  rw [if_neg (by simp [hjoining]), if_neg h]

end

/-- A group of one member is active as soon as that has opened it. -/
theorem counted_alone {x : Group} {rank : Nat} (hfirst : x.openedBy = []) (hone : x.members.length = 1) (hrank : rank < 1) :
    x.counted rank = { x with openedBy := [rank], gstate := 1, gen := 1, seq := 0, liveSet := [0] } := by
  obtain rfl : rank = 0 := by omega
  simp [Group.counted, Group.counting, hfirst, hone]

theorem counted_first {x : Group} {rank : Nat} (hfirst : x.openedBy = []) (hmore : 1 < x.members.length) :
    x.counted rank = { x with openedBy := [rank] } := by
  have hcount : x.counting rank = [rank] := by simp [Group.counting, hfirst]
  have hnotall : ((List.range x.members.length).all (fun r => [rank].contains r)) = false := by
    simp only [List.all_eq_false, List.mem_range]
    refine ⟨if rank = 0 then 1 else 0, by split <;> omega, ?_⟩
    simp only [List.contains_eq_mem, List.mem_singleton, decide_eq_true_eq]
    split <;> omega
  unfold Group.counted
  rw [hcount, hnotall]
  rfl

/-! ### The donor's log -/

theorem logToCopy_eq_none {p : Part} {gi : Nat} (h : ∀ j, j ∈ p.joins → j.1 ≠ gi) : p.logToCopy gi = none := by
  unfold Part.logToCopy
  rw [List.findSome?_eq_none_iff]
  intro j hj
  split
  · exact if_neg (h j hj)
  · rfl

theorem mem_filter_ne {α : Type} {l : List (Nat × α)} {gi : Nat} {j : Nat × α} (h : j ∈ l.filter (fun j => j.1 != gi)) : j.1 ≠ gi := by
  simpa using (List.mem_filter.mp h).2

theorem logToCopy_of_society {s u : State} (h : u.society = s.society) (p gi : Nat) :
    (u.part p).logToCopy gi = (s.part p).logToCopy gi := by
  have hjoins : (u.part p).joins = (s.part p).joins := congrArg (fun f => (f p).2) h
  unfold Part.logToCopy
  rw [hjoins]

/-- The segments of a log all hit: beside translations nothing has changed. -/
theorem segsMiss_translated (n : Nat) : ∀ (va : Nat) (s z : State), segsMiss va n s = (none, z) → Translated s z := by
  induction n with
  | zero =>
    intro va s z h
    obtain rfl : s = z := congrArg Prod.snd h
    exact .refl s
  | succ n ih =>
    intro va s z h
    have ht := locate_translated s s.walker (va % 2 ^ 64) .write
    unfold segsMiss at h
    split at h
    · cases h
    · rename_i heq
      rw [heq] at ht
      exact .trans ht (ih _ _ _ h)
    · rename_i heq
      rw [heq] at ht
      exact .trans ht (ih _ _ _ h)

/-- Writing a log leaves the strands but for their links. -/
theorem writeLog_writes (s : State) (base : Nat) (ls : List (Nat × (Line × Tag))) : s.writesOnly (s.writeLog base ls) := by
  unfold State.writeLog
  induction ls generalizing s with
  | nil => exact writesOnly_refl s
  | cons x ls ih =>
    refine writesOnly_trans ?_ (ih _)
    dsimp only
    split
    · rename_i heq
      have hread := locate_quiet heq
      exact writesOnly_trans ⟨by rw [hread.me], hread.pairs⟩ (storeThrough_writes ..)
    · exact writesOnly_refl s

/-- The state of a spare whose own log holds the donor's lines, free of its joining. -/
def State.joined (z : State) (gi base : Nat) (lines : List (Nat × (Line × Tag))) : State :=
  let v := z.writeLog base lines
  let u := v.updPart v.me.part (fun p => { p with joins := p.joins.filter (fun j => j.1 != gi) })
  { u with me := { u.me with xseq := none } }

theorem joined_does (z : State) (gi base : Nat) (lines : List (Nat × (Line × Tag))) :
    (z.joined gi base lines).me.xseq = none ∧ (z.joined gi base lines).me.regs = z.me.regs
    ∧ (z.joined gi base lines).mem = (z.writeLog base lines).mem ∧ ((z.joined gi base lines).part z.me.part).logToCopy gi = none := by
  have hwrites := (writeLog_writes z base lines).1
  unfold State.joined
  generalize z.writeLog base lines = v at hwrites
  have hregs : v.me.regs = z.me.regs := by rw [hwrites]
  have hpart : v.me.part = z.me.part := by rw [hwrites]
  refine ⟨rfl, hregs, rfl, ?_⟩
  rw [← hpart]
  refine (logToCopy_of_society (s := v.updPart v.me.part (fun p => { p with joins := p.joins.filter (fun j => j.1 != gi) }))
    (society_congr rfl) _ _).trans ?_
  rw [part_updPart_same]
  exact logToCopy_eq_none (fun j hj => mem_filter_ne hj)

/-! ### The status of a joining -/

section
variable {d : BitVec 5} {gi : Nat} {w : State}

theorem joinStatus_absent (h : w.group? w.me.part gi = none) :
    joinStatus d gi w = ancallReturn d 3 { w with me := { w.me with xseq := none } } := by
  unfold joinStatus
  rw [h]

variable {y : Group} (h : w.group? w.me.part gi = some y)
include h

theorem joinStatus_waits (hg : y.gstate ≠ 1) : joinStatus d gi w = .wait w := by
  unfold joinStatus
  rw [h]
  exact if_pos hg

theorem joinStatus_active (hg : y.gstate = 1) (hlog : (w.part w.me.part).logToCopy gi = none) :
    joinStatus d gi w = ancallReturn d 0 { w with me := { w.me with xseq := none } } := by
  unfold joinStatus
  rw [h]
  dsimp only
  rw [if_neg (by simp [hg]), hlog]

theorem joinStatus_parks (hg : y.gstate = 1) {log : List (Nat × (Line × Tag))} (hlog : (w.part w.me.part).logToCopy gi = some log)
    {va j : Nat} {z : State} (hmiss : segsMiss y.logBase.toNat 5 w = (some (va, j), z)) :
    joinStatus d gi w = .wait (z.holdForAnchor va j) := by
  unfold joinStatus
  rw [h]
  dsimp only
  rw [if_neg (by simp [hg]), hlog]
  dsimp only
  rw [hmiss]

theorem joinStatus_copied (hg : y.gstate = 1) {log : List (Nat × (Line × Tag))} (hlog : (w.part w.me.part).logToCopy gi = some log)
    {z : State} (hmiss : segsMiss y.logBase.toNat 5 w = (none, z)) :
    joinStatus d gi w = ancallReturn d 0
      (z.joined gi y.logBase.toNat ((List.range 8192).map (fun k => (128 * k, look log k (0, zeroTag))))) := by
  unfold joinStatus
  rw [h]
  dsimp only
  rw [if_neg (by simp [hg]), hlog]
  dsimp only
  rw [hmiss]
  rfl

end

end Sys2Proof.Machine
end

section
/-!
PROOFS. GRPOPEN and GRPSPARE (R324, R327, R353, R426), for O58.
-/
namespace Sys2Proof.Machine

/-- A call that joins a group: the status of the joining under way, else, where start-up allows it, the call `f`. -/
def joining (d : BitVec 5) (f : State → Eff) (s : State) : Eff :=
  match s.me.xseq with
  | some g => joinStatus d g s
  | none => groupCall d s f

section
variable {d : BitVec 5} {f : State → Eff} {w : State}

theorem joining_again {g : Nat} (h : w.me.xseq = some g) : joining d f w = joinStatus d g w := by
  unfold joining
  rw [h]

theorem joining_early (h : w.me.xseq = none) (hstage : w.anchor.stage < 4) : joining d f w = ancallReturn d 3 w.called := by
  unfold joining
  rw [h]
  exact if_pos hstage

theorem joining_calls (h : w.me.xseq = none) (hstage : 4 ≤ w.anchor.stage) : joining d f w = f w := by
  unfold joining
  rw [h]
  exact if_neg (by omega)

end

section
variable {s : State} {t : BitVec 2} (hready : s.ready t false = true) {d : BitVec 5} {i : Instr} {f : State → Eff}
  (hexec : exec i s = runOrdered t (joining d f) s)
include hready hexec

/-- A joining under way goes on, or gives its status. -/
theorem again_does {g : Nat} (hx : s.me.xseq = some g) :
    let w := s.takeToken t
    let n : State := { w with me := { w.me with xseq := none } }
    (w.group? w.me.part g = none → s.replies t d i n 3)
    ∧ ∀ y, w.group? w.me.part g = some y → (y.gstate ≠ 1 → exec i s = .next { w with waiting := true })
      ∧ (y.gstate = 1 → (w.part w.me.part).logToCopy g = none → s.replies t d i n 0)
      ∧ (y.gstate = 1 → ∀ log, (w.part w.me.part).logToCopy g = some log →
          (∀ va j z, segsMiss y.logBase.toNat 5 w = (some (va, j), z) →
            exec i s = .next { z.holdForAnchor va j with waiting := true })
          ∧ ∀ z, segsMiss y.logBase.toNat 5 w = (none, z) → ∃ u : State, s.replies t d i u 0 ∧ u.me.xseq = none
              ∧ u.me.regs = s.me.regs ∧ (u.part w.me.part).logToCopy g = none
              ∧ u.mem = (z.writeLog y.logBase.toNat ((List.range 8192).map (fun k => (128 * k, look log k (0, zeroTag))))).mem) := by
  have hagain : joining d f (s.takeToken t) = joinStatus d g (s.takeToken t) := joining_again (by rwa [takeToken_xseq])
  have hstatus {n : Nat} {u : State} (h : joinStatus d g (s.takeToken t) = ancallReturn d n u) : s.replies t d i u n :=
    ordered_replies hready hexec (hagain.trans h)
  have hwaits {u : State} (h : joinStatus d g (s.takeToken t) = .wait u) : exec i s = .next { u with waiting := true } := by
    rw [hexec]
    exact ordered_waits hready (hagain.trans h)
  refine ⟨fun h => hstatus (joinStatus_absent h), fun y h => ⟨fun hg => hwaits (joinStatus_waits h hg),
    fun hg hlog => hstatus (joinStatus_active h hg hlog),
    fun hg log hlog => ⟨fun va j z hmiss => hwaits (joinStatus_parks h hg hlog hmiss), fun z hmiss => ?_⟩⟩⟩
  have hme := (segsMiss_translated _ _ _ _ hmiss).me
  obtain ⟨hidle, hregs, hmem, hnolog⟩ := joined_does z g y.logBase.toNat ((List.range 8192).map (fun k => (128 * k, look log k (0, zeroTag))))
  refine ⟨_, hstatus (joinStatus_copied h hg hlog hmiss), hidle, hregs.trans ?_, ?_, hmem⟩
  · rw [hme]
    exact takeToken_regs ..
  · rwa [hme] at hnolog

theorem early_replies (hx : s.me.xseq = none) (hstage : s.anchor.stage < 4) : s.replies t d i (s.takeToken t).called 3 :=
  ordered_replies hready hexec (joining_early (by rwa [takeToken_xseq]) (by rwa [takeToken_anchor]))

/-- A call is made where start-up stage 2 has completed. -/
theorem call_settles (hx : s.me.xseq = none) (hstage : 4 ≤ s.anchor.stage) : exec i s = (f (s.takeToken t)).settle t := by
  rw [hexec, runOrdered, runInstr_ready _ _ _ _ hready, joining_calls (by rwa [takeToken_xseq]) (by rwa [takeToken_anchor])]

end

theorem replies_of_settle {s : State} {t : BitVec 2} {d : BitVec 5} {i : Instr} {u : State} {n : Nat} {e : Eff}
    (h : exec i s = e.settle t) (he : e = ancallReturn d n u) : s.replies t d i u n := by
  unfold State.replies
  rw [h, he, ancallReturn, settle_retires]

/-- The entry that GRPOPEN makes of its argument block before any member is counted (R324). -/
def openingEntry (vf v : Nat) : Group :=
  { vf := vf, order := rfld v 1 0 8, tmo := rfld v 4 0 32, logBase := BitVec.ofNat 64 (rfld v 8 0 64), rank := rfld v 16 0 16,
    members := (List.range (rfld v 2 0 16)).map (fun i => BitVec.ofNat 64 (rfld v (32 + 8 * i) 0 64)),
    gstate := 2, gen := 0, seq := 0, liveSet := [], openedBy := [] }

/-- A partition with a joining entry, and no message for it that came early. -/
def Part.opening (p : Part) (gi : Nat) (x : Group) : Part :=
  { p with groups := put p.groups gi x, joins := p.joins.filter (fun j => j.1 != gi) }

/-- The same once its own member has opened it, and then those whose messages came early. -/
def Part.entered (p : Part) (gi : Nat) (x : Group) (own : MemberMsg) : Part :=
  (p.joins.filter (fun j => j.1 == gi)).foldl (fun q j => if (q.groups.lookup gi).isSome then q.opened gi j.2 else q)
    ((p.opening gi x).opened gi own)

theorem entered_alone {p : Part} {gi : Nat} (x : Group) (own : MemberMsg) (h : ∀ j, j ∈ p.joins → j.1 ≠ gi) :
    p.entered gi x own = (p.opening gi x).opened gi own := by
  have hearly : p.joins.filter (fun j => j.1 == gi) = [] := by
    rw [List.filter_eq_nil_iff]
    intro j hj
    simpa using h j hj
  unfold Part.entered
  rw [hearly]
  rfl

section
variable {s : State} {t : BitVec 2} (hready : s.ready t false = true) (d a : BitVec 5)
  (hx : s.me.xseq = none) (hstage : 4 ≤ s.anchor.stage)
include hready hx hstage

theorem joining_misaligned {i : Instr} {n : Nat} {more : Nat → Nat} {serve : Nat → State → Eff}
    (hexec : exec i s = runOrdered t (joining d (ancall d a n more serve)) s) (h : (s.reg a).toNat % 64 ≠ 0) :
    s.replies t d i (s.takeToken t).called 4 :=
  replies_of_settle (call_settles hready hexec hx hstage) (ancall_misaligned (by rwa [takeToken_reg]))

variable (halign : (s.reg a).toNat % 64 = 0)
include halign

theorem grpopen_does {u1 u : State} {v1 v : Nat} (hb1 : (s.takeToken t).called.argBlock (s.reg a).toNat 32 = .ok u1 v1)
    (hpos : 0 < rfld v1 2 0 16) (hmax : rfld v1 2 0 16 ≤ 144)
    (hb : u1.argBlock (s.reg a).toNat (32 + 8 * rfld v1 2 0 16) = .ok u v) :
    let g := rfld v 0 0 8
    let order := rfld v 1 0 8
    let n := rfld v 2 0 16
    let tmo := rfld v 4 0 32
    let base := rfld v 8 0 64
    let rank := rfld v 16 0 16
    let members := (List.range n).map (fun i => BitVec.ofNat 64 (rfld v (32 + 8 * i) 0 64))
    let ok := g ≤ 63 ∧ order ≤ 1 ∧ n ≤ 144 ∧ 10 ≤ tmo ∧ tmo ≤ 1000000 ∧ base < 2 ^ 56 ∧ rank < n
      ∧ u.group? u.me.part g = none
    (¬ok → s.replies t d (.grpopen d a t) u 3)
    ∧ (ok → (∀ j, j ∈ (u.part u.me.part).joins → j.1 ≠ g) →
        let new : Group := { vf := u.me.vf, order := order, tmo := tmo, logBase := BitVec.ofNat 64 base, rank := rank, members := members,
                             gstate := 2, gen := 0, seq := 0, liveSet := [], openedBy := [rank] }
        (1 < n → ∃ z : State, exec (.grpopen d a t) s = .next { z with waiting := true } ∧ z.me = { u.me with xseq := some g }
          ∧ z.mem = u.mem ∧ z.group? u.me.part g = some new
          ∧ z.outbox = u.outbox ++ [.member u.me.part g (.opened rank order tmo members)])
        ∧ (n = 1 → ∃ z : State, s.replies t d (.grpopen d a t) z 0 ∧ z.mem = u.mem
            ∧ z.group? u.me.part g = some { new with gstate := 1, gen := 1, liveSet := [0] })) := by
  have hsettle := call_settles hready ((exec_grpopen d a t s).trans rfl) hx hstage
  rw [ancall_more (by rwa [takeToken_reg]) (by rwa [takeToken_reg]) (by simp only [if_pos hmax]; omega)
    (by simpa only [takeToken_reg, if_pos hmax] using hb)] at hsettle
  dsimp only at hsettle ⊢
  refine ⟨fun hbad => replies_of_settle hsettle (if_pos ?_), fun hok hnone => ?_⟩
  · rw [Option.isSome_iff_ne_none]
    grind
  obtain ⟨hg, horder, hn, htmo, htmo', hbase, hrank, habsent⟩ := hok
  rw [if_neg (by rw [habsent]; simp; omega)] at hsettle
  obtain ⟨N, hstatus, hme, hmem, hout, hparts⟩ : ∃ N : State,
      exec (.grpopen d a t) s = (joinStatus d (rfld v 0 0 8) N).settle t
      ∧ N.me = { u.me with xseq := some (rfld v 0 0 8) } ∧ N.mem = u.mem
      ∧ N.outbox = u.outbox ++ [.member u.me.part (rfld v 0 0 8) (.opened (rfld v 16 0 16) (rfld v 1 0 8) (rfld v 4 0 32)
          ((List.range (rfld v 2 0 16)).map (fun i => BitVec.ofNat 64 (rfld v (32 + 8 * i) 0 64))))]
      ∧ N.parts = (u.updPart u.me.part (fun p => p.entered (rfld v 0 0 8) (openingEntry u.me.vf v)
          (.opened (rfld v 16 0 16) (rfld v 1 0 8) (rfld v 4 0 32)
            ((List.range (rfld v 2 0 16)).map (fun i => BitVec.ofNat 64 (rfld v (32 + 8 * i) 0 64)))))).parts :=
    ⟨_, hsettle, rfl, rfl, rfl, rfl⟩
  have hnew : (Part.opening (u.part u.me.part) (rfld v 0 0 8) (openingEntry u.me.vf v)).groups.lookup (rfld v 0 0 8)
      = some (openingEntry u.me.vf v) := lookup_put_same ..
  have hlength : (openingEntry u.me.vf v).members.length = rfld v 2 0 16 := by simp [openingEntry]
  have hpart := (part_of_updPart hparts).trans ((entered_alone _ _ hnone).trans (opened_agrees hnew rfl (by rwa [hlength])))
  have hentry : N.group? u.me.part (rfld v 0 0 8) = some ((openingEntry u.me.vf v).counted (rfld v 16 0 16)) := by
    unfold State.group?
    rw [hpart, lookup_put_same]
  have hN : N.me.part = u.me.part := by rw [hme]
  refine ⟨fun hmore => ?_, fun hone => ?_⟩
  · have hfirst := counted_first (x := openingEntry u.me.vf v) (rank := rfld v 16 0 16) rfl (by omega)
    rw [hfirst] at hentry
    refine ⟨N, ?_, hme, hmem, hentry, hout⟩
    rw [hstatus, joinStatus_waits (by rwa [hN]) (by simp [openingEntry])]
    rfl
  · have halone := counted_alone (x := openingEntry u.me.vf v) (rank := rfld v 16 0 16) rfl (by omega) (by omega)
    rw [halone] at hentry
    have hnolog : (N.part N.me.part).logToCopy (rfld v 0 0 8) = none := by
      rw [hN, hpart]
      exact logToCopy_eq_none (fun j hj => mem_filter_ne hj)
    exact ⟨_, replies_of_settle hstatus (joinStatus_active (by rwa [hN]) rfl hnolog), hmem, hentry⟩

theorem grpspare_does {u : State} {v : Nat} (hb : (s.takeToken t).called.argBlock (s.reg a).toNat 3 = .ok u v) :
    let g := rfld v 0 0 8
    let donor := rfld v 1 0 8
    let rank := rfld v 2 0 8
    let ok := g ≤ 63 ∧ donor ≤ 143 ∧ rank ≤ 143 ∧ donor ≠ rank
      ∧ ∀ y, u.group? u.me.part g = some y → y.gstate ≠ 2
        ∧ (y.gstate = 1 → y.rank ∉ y.liveSet ∧ donor ∈ y.liveSet ∧ rank ∉ y.liveSet)
    (¬ok → s.replies t d (.grpspare d a t) u 3)
    ∧ (ok → ∃ (z : State) (y : Group), exec (.grpspare d a t) s = .next { z with waiting := true }
        ∧ z.me = { u.me with xseq := some g } ∧ z.mem = u.mem ∧ z.group? u.me.part g = some y ∧ y.gstate = 2 ∧ y.rank = rank
        ∧ y.openedBy = [donor] ∧ z.outbox = u.outbox ++ [.member u.me.part g (.spareWanted rank donor)]) := by
  have hsettle := call_settles hready ((exec_grpspare d a t s).trans rfl) hx hstage
  rw [ancall_ok (by rwa [takeToken_reg]) (by rwa [takeToken_reg]) rfl] at hsettle
  dsimp only at hsettle ⊢
  refine ⟨fun hbad => replies_of_settle hsettle (if_pos ?_), fun hok => ?_⟩
  · rcases hold : u.group? u.me.part (rfld v 0 0 8) with _ | y <;> grind
  obtain ⟨hg, hdonor, hrank, hne, hterms⟩ := hok
  rw [if_neg (by rcases hold : u.group? u.me.part (rfld v 0 0 8) with _ | y <;> grind)] at hsettle
  obtain ⟨N, y, hstatus, hme, hmem, hout, hgroup, hstate, hown, hasked⟩ : ∃ (N : State) (y : Group),
      exec (.grpspare d a t) s = (joinStatus d (rfld v 0 0 8) N).settle t
      ∧ N.me = { u.me with xseq := some (rfld v 0 0 8) } ∧ N.mem = u.mem
      ∧ N.outbox = u.outbox ++ [.member u.me.part (rfld v 0 0 8) (.spareWanted (rfld v 2 0 8) (rfld v 1 0 8))]
      ∧ N.group? u.me.part (rfld v 0 0 8) = some y ∧ y.gstate = 2 ∧ y.rank = rfld v 2 0 8 ∧ y.openedBy = [rfld v 1 0 8] := by
    have hput (x : Group) : (u.updPart u.me.part (fun p => { p with groups := put p.groups (rfld v 0 0 8) x })).group?
        u.me.part (rfld v 0 0 8) = some x := by rw [group?_updPart, lookup_put_same]
    rcases hold : u.group? u.me.part (rfld v 0 0 8) with _ | y <;> simp only [hold] at hsettle
    · exact ⟨_, _, hsettle, rfl, rfl, rfl, hput _, rfl, rfl, rfl⟩
    · exact ⟨_, _, hsettle, rfl, rfl, rfl, hput _, rfl, rfl, rfl⟩
  have hN : N.me.part = u.me.part := by rw [hme]
  refine ⟨N, y, ?_, hme, hmem, hgroup, hstate, hown, hasked, hout⟩
  rw [hstatus, joinStatus_waits (by rwa [hN]) (by omega)]
  rfl

end

end Sys2Proof.Machine
end

section
/-!
PROOFS. XMEMB (R333), for O58.
-/
namespace Sys2Proof.Machine

/-- Field `f` of a group, zero of none. -/
def memberOf (f : Group → Nat) (g : Option Group) : Nat :=
  match g with
  | some y => f y
  | none => 0

/-- What XMEMB reads of a group by selector (R333). -/
def memberField : Nat → Option (Group → Nat)
  | 0 => some (fun g => g.gen)
  | 1 => some (fun g => g.rank)
  | 2 => some (fun g => g.liveSet.length)
  | 3 => some (fun g => g.seq)
  | 4 => some (fun g => g.gstate)
  | 5 => some (fun g => g.order)
  | 8 => some (fun g => liveBits g.liveSet 0)
  | 9 => some (fun g => liveBits g.liveSet 64)
  | 10 => some (fun g => liveBits g.liveSet 128)
  | _ => none

theorem memberField_isSome {n : Nat} (h : n ≤ 5 ∨ (8 ≤ n ∧ n ≤ 10)) : ∃ f, memberField n = some f := by
  have : n = 0 ∨ n = 1 ∨ n = 2 ∨ n = 3 ∨ n = 4 ∨ n = 5 ∨ n = 8 ∨ n = 9 ∨ n = 10 := by omega
  rcases this with rfl | rfl | rfl | rfl | rfl | rfl | rfl | rfl | rfl <;> exact ⟨_, rfl⟩

theorem memberField_live {n : Nat} (h : 8 ≤ n) (h' : n ≤ 10) : memberField n = some (fun g => liveBits g.liveSet (64 * (n - 8))) := by
  have : n = 8 ∨ n = 9 ∨ n = 10 := by omega
  rcases this with rfl | rfl | rfl <;> rfl

section
variable {s : State} {t : BitVec 2} (hready : s.ready t false = true) (d a b : BitVec 5)
include hready

theorem xmemb_badGroup (h : 63 < (s.reg a).toNat) :
    exec (.xmemb d a b t) s = (s.takeToken t).takeTrap { cause := 0x0E, val := queueVal 7 4 3 (s.reg a) } := by
  rw [exec_xmemb, execXmemb]
  refine ordered_traps hready ?_
  dsimp only
  rw [takeToken_reg, if_pos h]
  rfl

variable (h : (s.reg a).toNat ≤ 63)
include h

theorem xmemb_reads {f : Group → Nat} (hf : memberField (s.reg b).toNat = some f) :
    exec (.xmemb d a b t) s = .next (((s.takeToken t).setReg d (BitVec.ofNat 64
      (memberOf f ((s.takeToken t).group? (s.takeToken t).me.part (s.reg a).toNat)))).retires t) := by
  rw [exec_xmemb, execXmemb]
  refine runInstr_retires hready ?_
  dsimp only
  rw [takeToken_reg, takeToken_reg, if_neg (by omega)]
  generalize (s.reg b).toNat = n at hf
  unfold memberField at hf
  split at hf <;> cases hf <;> rfl

theorem xmemb_badSelector (hn : (s.reg b).toNat = 6 ∨ (s.reg b).toNat = 7 ∨ 10 < (s.reg b).toNat) :
    exec (.xmemb d a b t) s = (s.takeToken t).takeTrap { cause := 0x0E, val := queueVal 7 5 3 (s.reg b) } := by
  rw [exec_xmemb, execXmemb]
  refine ordered_traps hready ?_
  dsimp only
  rw [takeToken_reg, takeToken_reg, if_neg (by omega)]
  split
  any_goals omega
  rfl

end

/-- The clauses of O58 on XMEMB. -/
theorem xmemb_does (s : State) (d a b : BitVec 5) (t : BitVec 2) (hready : s.ready t false = true) :
    let w := s.takeToken t
    let x := s.reg a
    let n := (s.reg b).toNat
    let reads (f : Group → Nat) : Prop := ∀ g, w.group? w.me.part x.toNat = some g →
      exec (.xmemb d a b t) s = .next ((w.setReg d (BitVec.ofNat 64 (f g))).retires t)
    (63 < x.toNat → exec (.xmemb d a b t) s = w.takeTrap { cause := 0x0E, val := queueVal 7 4 3 x })
    ∧ (x.toNat ≤ 63 →
        ((n = 6 ∨ n = 7 ∨ 10 < n) → exec (.xmemb d a b t) s = w.takeTrap { cause := 0x0E, val := queueVal 7 5 3 (s.reg b) })
        ∧ (n ≤ 5 ∨ (8 ≤ n ∧ n ≤ 10) → w.group? w.me.part x.toNat = none →
            exec (.xmemb d a b t) s = .next ((w.setReg d 0).retires t))
        ∧ (n = 0 → reads (fun g => g.gen)) ∧ (n = 1 → reads (fun g => g.rank)) ∧ (n = 2 → reads (fun g => g.liveSet.length))
        ∧ (n = 3 → reads (fun g => g.seq)) ∧ (n = 4 → reads (fun g => g.gstate)) ∧ (n = 5 → reads (fun g => g.order))
        ∧ (8 ≤ n → n ≤ 10 → reads (fun g => liveBits g.liveSet (64 * (n - 8))))) := by
  dsimp only
  refine ⟨xmemb_badGroup hready d a b, fun h => ⟨xmemb_badSelector hready d a b h, fun hn hg => ?_, ?_⟩⟩
  · obtain ⟨f, hf⟩ := memberField_isSome hn
    rw [xmemb_reads hready d a b h hf, hg]
    rfl
  have hreads {f : Group → Nat} (hf : memberField (s.reg b).toNat = some f) (g : Group)
      (hg : (s.takeToken t).group? (s.takeToken t).me.part (s.reg a).toNat = some g) :
      exec (.xmemb d a b t) s = .next (((s.takeToken t).setReg d (BitVec.ofNat 64 (f g))).retires t) := by
    rw [xmemb_reads hready d a b h hf, hg]
    rfl
  exact ⟨fun hn => hreads (by rw [hn]; rfl), fun hn => hreads (by rw [hn]; rfl), fun hn => hreads (by rw [hn]; rfl),
    fun hn => hreads (by rw [hn]; rfl), fun hn => hreads (by rw [hn]; rfl), fun hn => hreads (by rw [hn]; rfl),
    fun hn hn' => hreads (memberField_live hn hn')⟩

end Sys2Proof.Machine
end

section
/-!
PROOFS. What arrives for a group: contributions, messages, failures, timeouts and membership messages (R324–R327, R332), for O58.
-/
namespace Sys2Proof.Machine

/-! ### The log that a donor reads (R327) -/

/-- A loop of steps that only translate and read translates and reads. -/
theorem translated_foldl {α β : Type} (f : β × State → α → β × State) (h : ∀ x a, Translated x.2 (f x a).2) (l : List α) (x : β × State) :
    Translated x.2 (l.foldl f x).2 := by
  induction l generalizing x with
  | nil => exact .refl _
  | cons a l ih => exact (h x a).trans (ih _)

/-- The lines read may be listed in another order. -/
theorem translated_listed {α β : Type} {s : State} (x : α × State) (f : α → β) (h : Translated s x.2) : Translated s (f x.1, x.2).2 := h

theorem readLog_translated (s : State) (part : Nat) (g : Group) : Translated s (s.readLog part g).2 := by
  unfold State.readLog
  generalize List.range 8192 = lines
  refine translated_listed _ List.reverse (translated_foldl _ (fun x i => ?_) lines ([], s))
  have hlocate := locate_translated x.2
    { core := 8 * ((s.part part).coils.headD 0), vf := g.vf, pm := true, ctx := ⟨[], []⟩, reader := {}, quiet := true }
    (g.logBase.toNat + 128 * i) .read
  split <;> rename_i heq <;> rw [heq] at hlocate
  · exact hlocate.trans (.readHome ..)
  · exact hlocate
  · exact hlocate rfl

/-- A donor has moved to the next generation with a spare, and its terms and log have left for it. -/
def Group.donated (g : Group) (part gi rank : Nat) (log : List (Nat × (Line × Tag)) × State) : State :=
  (log.2.updGroup part gi (fun x => { x with gen := x.gen + 1, liveSet := rank :: g.liveSet })).send
    (.member part gi (.spareJoined rank g.seq (g.gen + 1) g.order g.tmo g.logBase.toNat g.members (rank :: g.liveSet) log.1))

theorem donated_me (g : Group) (part gi rank : Nat) (log : List (Nat × (Line × Tag)) × State) :
    (g.donated part gi rank log).me = log.2.me := updGroup_me ..

theorem donated_mem (g : Group) (part gi rank : Nat) (log : List (Nat × (Line × Tag)) × State) :
    (g.donated part gi rank log).mem = log.2.mem := updGroup_mem ..

theorem donated_parts (g : Group) (part gi rank : Nat) (log : List (Nat × (Line × Tag)) × State) :
    (g.donated part gi rank log).parts
      = (log.2.updGroup part gi (fun x => { x with gen := x.gen + 1, liveSet := rank :: g.liveSet })).parts := rfl

theorem donated_last (g : Group) (part gi rank : Nat) (log : List (Nat × (Line × Tag)) × State) :
    (g.donated part gi rank log).outbox.getLast? = some (.member part gi
      (.spareJoined rank g.seq (g.gen + 1) g.order g.tmo g.logBase.toNat g.members (rank :: g.liveSet) log.1)) := by
  simp [Group.donated, State.send]

section
variable {s : State} {part gi : Nat} {g : Group} (hg : s.group? part gi = some g)
include hg

theorem donate_eq (rank : Nat) : s.donate part gi rank
    = if g.gstate ≠ 1 ∨ g.liveSet.contains rank = true then s else g.donated part gi rank (s.readLog part g) := by
  unfold State.donate
  rw [hg]
  rfl

/-- A donor between reductions moves to the next generation with the spare, and sends its terms and log. -/
theorem donate_does {rank : Nat} (hactive : g.gstate = 1) (hnew : rank ∉ g.liveSet) :
    let u := s.donate part gi rank
    u.me = s.me ∧ u.group? part gi = some { g with gen := g.gen + 1, liveSet := rank :: g.liveSet }
    ∧ (s.banksQuiet → Memory.wf s.mem = true → ∀ e, memGet u.mem e = memGet s.mem e)
    ∧ u.outbox.getLast? = some (.member part gi (.spareJoined rank g.seq (g.gen + 1) g.order g.tmo g.logBase.toNat g.members
        (rank :: g.liveSet) (s.readLog part g).1)) := by
  have hread := readLog_translated s part g
  rw [donate_eq hg, if_neg (by simp [hactive, hnew])]
  generalize s.readLog part g = log at hread ⊢
  have hgroup : log.2.group? part gi = some g := by
    rw [group?_of_society (society_of_unlogged hread.parts), hg]
  have hafter := group?_updGroup hgroup (fun x => { x with gen := x.gen + 1, liveSet := rank :: g.liveSet })
  refine ⟨(donated_me ..).trans hread.me, (group?_congr (donated_parts ..) _ _).trans hafter, fun hquiet hwf e => ?_, donated_last ..⟩
  rw [← (hread.quiet.quiet hquiet hwf).2.2 e, donated_mem]

end

/-! ### Steps that change one group -/

/-- The step leaves the group as `y`, the front-end strand and memory as before. -/
def State.regroups (s : State) (part gi : Nat) (i : Instr) (y : Group) : Prop :=
  ∃ u : State, exec i s = .next u ∧ u.group? part gi = some y ∧ u.me = s.me ∧ u.mem = s.mem

section
variable {s : State} {part gi : Nat} {g : Group} (hg : s.group? part gi = some g)
include hg

theorem updGroup_regroups {i : Instr} {f : Group → Group} {y : Group} (hexec : exec i s = .next (s.updGroup part gi f)) (hy : f g = y) :
    s.regroups part gi i y := by
  subst hy
  exact ⟨_, hexec, group?_updGroup hg f, updGroup_me .., updGroup_mem ..⟩

theorem contribution_does (c : Contribution) :
    let takes := g.gstate = 1 ∧ c.rank ≠ g.rank ∧ c.rank ∈ g.liveSet
      ∧ (g.gen ≤ c.gen ∨ ∃ o, g.own = some o ∧ o.seq = c.seq ∧ o.gen = c.gen)
      ∧ ∀ y, y ∈ g.contrib → ¬(y.rank = c.rank ∧ y.seq = c.seq)
    (takes → s.regroups part gi (.xredContributionReceive part gi c) { g with contrib := g.contrib ++ [c] })
    ∧ (¬takes → s.regroups part gi (.xredContributionReceive part gi c) g) := by
  have hstep := updGroup_regroups (y := (_ : Group)) hg
    ((exec_xredContributionReceive part gi c s).trans (by rw [execXredContributionReceive, State.takeContribution])) rfl
  dsimp only at hstep ⊢
  refine ⟨fun h => ?_, fun h => ?_⟩
  · rwa [if_pos (by rcases hown : g.own with _ | o <;> simp_all)] at hstep
  · rwa [if_neg (by rcases hown : g.own with _ | o <;> simp_all)] at hstep

theorem rows_do (rank gen mtag sew vl : Nat) (rows : List (RowBits × Tag)) :
    let takes := rank ≠ g.rank ∧ g.gen ≤ gen ∧ rank ∈ g.liveSet ∧ rows.length ≤ 8
    (takes → s.regroups part gi (.xmessageReceive part gi (.rows rank gen mtag sew vl rows))
      { g with inbox := g.inbox ++ [⟨rank, mtag, rows.map (fun r => ⟨⟨r.1, r.2⟩, sew, vl⟩)⟩] })
    ∧ (¬takes → s.regroups part gi (.xmessageReceive part gi (.rows rank gen mtag sew vl rows)) g) := by
  refine ⟨fun h => updGroup_regroups hg (exec_xmessageReceive ..) (if_pos ?_),
    fun h => updGroup_regroups hg (exec_xmessageReceive ..) (if_neg ?_)⟩
  · simpa using h
  · simpa using h

theorem credit_does (rank n : Nat) : s.regroups part gi (.xmessageReceive part gi (.credit rank n))
    { g with credits := upd g.credits rank 8 (fun k => Nat.min 8 (k + n)) } :=
  updGroup_regroups hg (exec_xmessageReceive ..) rfl

/-- A live member's failure takes it out of the live set (R325). -/
theorem fail_does (rank : Nat) :
    let after : Group := if g.gstate = 1 ∧ rank ≠ g.rank ∧ rank ∈ g.liveSet then
      { g with gen := g.gen + 1, liveSet := g.liveSet.erase rank } else g
    s.regroups part gi (.memberFail part gi rank) after ∧ s.regroups part gi (.groupMembershipMessage part gi (.failed rank)) after
    ∧ (s.awaited part gi g rank = true → s.regroups part gi (.collectiveTimeout part gi rank) after)
    ∧ (s.awaited part gi g rank = false → exec (.collectiveTimeout part gi rank) s = .next s) := by
  dsimp only
  have hfail : g.fail rank = if g.gstate = 1 ∧ rank ≠ g.rank ∧ rank ∈ g.liveSet then
      { g with gen := g.gen + 1, liveSet := g.liveSet.erase rank } else g := by
    simp only [Group.fail, List.contains_eq_mem, decide_eq_true_eq]
  refine ⟨updGroup_regroups hg (exec_memberFail ..) hfail, updGroup_regroups hg (exec_groupMembershipMessage ..) hfail,
    fun h => updGroup_regroups (f := fun x => x.fail rank) hg ?_ hfail, fun h => ?_⟩
  · rw [exec_collectiveTimeout, execCollectiveTimeout, hg]
    exact congrArg Host.Outcome.next (if_pos h)
  · rw [exec_collectiveTimeout, execCollectiveTimeout, hg]
    exact congrArg Host.Outcome.next (if_neg (by simp [h]))

/-! ### Membership messages -/

theorem opened_does (rank order tmo : Nat) (members : List Word) (hgi : gi < 64) (hjoining : g.gstate = 2) :
    (g.order = order ∧ g.tmo = tmo ∧ g.members = members ∧ rank < members.length →
      let by_ := if rank ∈ g.openedBy then g.openedBy else rank :: g.openedBy
      s.regroups part gi (.groupMembershipMessage part gi (.opened rank order tmo members))
        (if (List.range members.length).all (fun r => by_.contains r) then
          { g with openedBy := by_, gstate := 1, gen := 1, seq := 0, liveSet := List.range members.length }
         else { g with openedBy := by_ }))
    ∧ (¬(g.order = order ∧ g.tmo = tmo ∧ g.members = members ∧ rank < members.length) → ∃ u : State,
        exec (.groupMembershipMessage part gi (.opened rank order tmo members)) s = .next u ∧ u.group? part gi = none) := by
  have hstep (msg : MemberMsg) (hmsg : msg = .opened rank order tmo members) : exec (.groupMembershipMessage part gi msg) s
      = .next (s.updPart part (fun p => p.opened gi msg)) := by
    subst hmsg
    rw [exec_groupMembershipMessage]
    exact congrArg Host.Outcome.next (if_pos hgi)
  refine ⟨?_, fun h => ⟨_, hstep _ rfl, ?_⟩⟩
  · rintro ⟨rfl, rfl, rfl, hrank⟩
    refine ⟨_, hstep _ rfl, ?_, rfl, rfl⟩
    rw [group?_updPart, opened_agrees hg hjoining hrank, lookup_put_same]
    rfl
  · rw [group?_updPart, opened_differs hg hjoining h, lookup_del, if_pos rfl]

theorem spareJoined_does (rank seq gen order tmo base : Nat) (members : List Word) (live : List Nat) (log : List (Nat × (Line × Tag)))
    (hactive : g.gstate = 1) (hnew : rank ∉ g.liveSet) :
    s.regroups part gi (.groupMembershipMessage part gi (.spareJoined rank seq gen order tmo base members live log))
      { g with gen := g.gen + 1, liveSet := rank :: g.liveSet } := by
  refine updGroup_regroups (f := fun x => { x with gen := x.gen + 1, liveSet := rank :: x.liveSet }) hg ?_ rfl
  rw [exec_groupMembershipMessage, execGroupMembershipMessage, State.memberMsg, hg]
  exact congrArg Host.Outcome.next (if_pos ⟨hactive, by simpa using hnew⟩)

theorem spareWanted_does (rank donor : Nat) :
    let asks := Instr.groupMembershipMessage part gi (.spareWanted rank donor)
    (g.rank ≠ donor → s.regroups part gi asks g)
    ∧ (g.rank = donor → g.own.isSome = true → s.regroups part gi asks { g with wanted := g.wanted ++ [rank] })
    ∧ (g.rank = donor → g.own = none → g.gstate = 1 → rank ∉ g.liveSet →
        ∃ u : State, exec asks s = .next u ∧ u.me = s.me
          ∧ u.group? part gi = some { g with gen := g.gen + 1, liveSet := rank :: g.liveSet }
          ∧ (s.banksQuiet → Memory.wf s.mem = true → ∀ e, memGet u.mem e = memGet s.mem e)
          ∧ u.outbox.getLast? = some (.member part gi (.spareJoined rank g.seq (g.gen + 1) g.order g.tmo g.logBase.toNat g.members
              (rank :: g.liveSet) (s.readLog part g).1))) := by
  have hstep (msg : MemberMsg) (hmsg : msg = .spareWanted rank donor) : exec (.groupMembershipMessage part gi msg) s
      = .next (if g.rank ≠ donor then s
        else if g.own.isSome then s.updGroup part gi (fun x => { x with wanted := x.wanted ++ [rank] }) else s.donate part gi rank) := by
    subst hmsg
    rw [exec_groupMembershipMessage, execGroupMembershipMessage, State.memberMsg, hg]
  refine ⟨fun h => ⟨s, ?_, hg, rfl, rfl⟩, fun h hown => ?_,
    fun h hown hactive hnew => ⟨_, ?_, donate_does hg hactive hnew⟩⟩
  · rw [hstep _ rfl, if_pos h]
  · exact updGroup_regroups (f := fun x => { x with wanted := x.wanted ++ [rank] }) hg
      (by rw [hstep _ rfl, if_neg (not_not_intro h), if_pos hown]) rfl
  · rw [hstep _ rfl, if_neg (not_not_intro h), if_neg (by simp [hown])]

end

end Sys2Proof.Machine
end

section
/-!
SUPPORT. What a message's transmission leaves (R321), what a release leaves of the strand, and the instructions on a group that
check their vector operand first (R263, R329, R332).
-/
namespace Sys2Proof.Machine

/-! ### Transmission -/

/-- Lines have left: nothing of the strand, of memory or of the partitions has changed, and the outbox has grown. -/
structure State.SendsOnly (s u : State) : Prop where
  me : u.me = s.me
  mem : u.mem = s.mem
  parts : u.parts = s.parts
  outbox : ∃ ls, u.outbox = s.outbox ++ ls

theorem sendsOnly_refl (s : State) : s.SendsOnly s := ⟨rfl, rfl, rfl, [], by simp⟩

theorem sendsOnly_trans {s t u : State} (h : s.SendsOnly t) (k : t.SendsOnly u) : s.SendsOnly u := by
  obtain ⟨ls, hls⟩ := h.outbox
  obtain ⟨ms, hms⟩ := k.outbox
  exact ⟨k.me.trans h.me, k.mem.trans h.mem, k.parts.trans h.parts, ls ++ ms, by rw [hms, hls, List.append_assoc]⟩

theorem sendsOnly_foldl {α : Type} (f : State → α → State) (h : ∀ (s : State) x, s.SendsOnly (f s x)) (l : List α) (s : State) :
    s.SendsOnly (l.foldl f s) := by
  induction l generalizing s with
  | nil => exact sendsOnly_refl s
  | cons x l ih => exact sendsOnly_trans (h s x) (ih _)

theorem sendLine_sendsOnly (s : State) (peer plane seq : Nat) (l : PackedLine) : s.SendsOnly (s.sendLine peer plane seq l) := by
  unfold State.sendLine
  split
  · split
    · exact ⟨rfl, rfl, rfl, _, rfl⟩
    · exact ⟨rfl, rfl, rfl, _, rfl⟩
  · exact ⟨rfl, rfl, rfl, _, rfl⟩

theorem transmit_sendsOnly (s : State) (peer : Nat) (ls : List PackedLine) : s.SendsOnly (s.transmit peer ls) := by
  refine sendsOnly_foldl _ (fun s x => ?_) _ s
  dsimp only
  split
  · rename_i p _
    have hsent := sendLine_sendsOnly { s with sendNos := put s.sendNos peer (look s.sendNos peer 0 + 1) } peer p (look s.sendNos peer 0) x.1
    exact ⟨hsent.me, hsent.mem, hsent.parts, hsent.outbox⟩
  · exact sendsOnly_refl s

/-! ### Releases -/

/-- Queued stores and write-backs leave the strand but for its links and its store queue. -/
theorem released_me (w : State) (n : Nat) : (w.performAll.release n).me
    = { w.me with links := (w.performAll.release n).me.links, ssq := (w.performAll.release n).me.ssq } :=
  me_of_noStores ((congrArg Outline.noStores (release_outline w.performAll n)).trans (performAll_noStores w))

theorem released_society (w : State) (n : Nat) : (w.performAll.release n).society = w.society :=
  (release_society ..).trans (performAll_society w)

/-! ### The vector operand -/

theorem vecOp_runs {word : Word} {groups : List (BitVec 5)} {body : State → Eff} {s : State} {t : BitVec 2}
    (h : s.me.vtypeIll groups = false) :
    vecOp word groups (fun _ => false) body (s.takeToken t) = body (s.takeToken t) :=
  if_neg (by simp [takeToken_vtypeIll, h])

/-- An instruction on a legal vector operand that issues runs its body. -/
theorem vector_settles {i : Instr} {word : Word} {groups : List (BitVec 5)} {body : State → Eff} {s : State} {t : BitVec 2}
    (hready : s.ready t false = true) (hill : s.me.vtypeIll groups = false)
    (hexec : exec i s = runOrdered t (vecOp word groups (fun _ => false) body) s) : exec i s = (body (s.takeToken t)).settle t := by
  rw [hexec, runOrdered, runInstr_ready _ _ _ _ hready, vecOp_runs hill]

/-- A misuse of a queue or group traps (R257). -/
theorem collMisuse_settles (s : State) (n r : Nat) (x : Word) (t : BitVec 2) :
    (collMisuse s n r x).settle t = s.takeTrap { cause := 0x0E, val := queueVal n r 3 x } := rfl

end Sys2Proof.Machine
end

section
/-!
PROOFS. XSEND and XRECV (R332), for O58.
-/
namespace Sys2Proof.Machine

/-- Raising flags where a row is POISON changes FCSR and the checkpoint log (R75). -/
theorem raise_if_only (s : State) (c : Prop) [Decidable c] (f : Nat) : (if c then s.raise f else s)
    = { s with me := { s.me with fcsr := (if c then s.raise f else s).me.fcsr, ckpt := (if c then s.raise f else s).me.ckpt } } := by
  split
  · exact raise_only s f
  · rfl

/-- What an update of a group changes. -/
theorem updGroup_changes {s : State} {p gi : Nat} {g : Group} (h : s.group? p gi = some g) (f : Group → Group) :
    ∃ z : State, s.updGroup p gi f = z ∧ z.group? p gi = some (f g) ∧ z.me = s.me ∧ z.mem = s.mem ∧ z.outbox = s.outbox :=
  ⟨_, rfl, group?_updGroup h f, updGroup_me .., updGroup_mem .., updGroup_outbox ..⟩

theorem peerOf_group {s : State} {x : Word} {gi rank mtag : Nat} {g : Group} (h : s.peerOf x = some (gi, g, rank, mtag)) :
    s.group? s.me.part gi = some g := by
  unfold State.peerOf at h
  dsimp only at h
  split at h
  · cases h
  · split at h
    · split at h
      · cases h
        assumption
      · cases h
    · cases h

/-- Without TE.PSN no row traps (R75). -/
theorem find?_never {l : List Nat} {p : Nat → Bool} : l.find? (fun r => false && p r) = none := by
  simp

section
variable {s : State} {t : BitVec 2} (hready : s.ready t false = true) {v : BitVec 5} (hill : s.me.vtypeIll [v] = false)
  (b : BitVec 5) (k : BitVec 3)
include hready hill

theorem peerless_traps (hpeer : (s.takeToken t).peerOf ((s.takeToken t).capB b) = none) :
    exec (.xsend v b k t) s = (s.takeToken t).takeTrap { cause := 0x0E, val := queueVal 6 5 3 ((s.takeToken t).capB b) }
    ∧ exec (.xrecv v b k t) s = (s.takeToken t).takeTrap { cause := 0x0E, val := queueVal 6 5 3 ((s.takeToken t).capB b) } := by
  constructor
  · rw [vector_settles hready hill ((exec_xsend v b k t s).trans rfl)]
    dsimp only
    rw [hpeer]
    rfl
  · rw [vector_settles hready hill ((exec_xrecv v b k t s).trans rfl)]
    dsimp only
    rw [hpeer]
    rfl

variable {gi rank mtag : Nat} {g : Group} (hpeer : (s.takeToken t).peerOf ((s.takeToken t).capB b) = some (gi, g, rank, mtag))
  (htraps : s.me.tePsn = false)
include hpeer

/-! ### XSEND -/

theorem xsend_dead (hdead : rank ∉ g.liveSet) :
    exec (.xsend v b k t) s = (s.takeToken t).takeTrap { cause := 0x0E, val := queueVal 6 2 3 0 } := by
  rw [vector_settles hready hill ((exec_xsend v b k t s).trans rfl)]
  dsimp only
  rw [hpeer]
  dsimp only
  rw [if_pos (by simpa using hdead)]
  rfl

include htraps

theorem xsend_waits (hlive : rank ∈ g.liveSet) (hcredits : look g.credits rank 8 < s.me.rc) :
    exec (.xsend v b k t) s = .next { (s.takeToken t).performAll.release 4 with waiting := true } := by
  have hte : (s.takeToken t).me.tePsn = false := by simpa [Strand.tePsn] using htraps
  have hrc : ((s.takeToken t).performAll.release 4).me.rc = s.me.rc := by rw [released_me]; exact takeToken_rc ..
  rw [vector_settles hready hill ((exec_xsend v b k t s).trans rfl)]
  dsimp only
  rw [hpeer]
  dsimp only
  rw [if_neg (by simpa using hlive), hte, find?_never]
  dsimp only
  rw [hrc, if_pos hcredits]
  rfl

theorem xsend_sends (hlive : rank ∈ g.liveSet) (hcredits : s.me.rc ≤ look g.credits rank 8) :
    let p := (s.takeToken t).performAll.release 4
    let es := (List.range s.me.rc).map (fun r => p.me.queueEntry v.toNat r k)
    ∃ u : State, exec (.xsend v b k t) s = .next (u.retires t)
      ∧ u.me.regs = s.me.regs ∧ u.me.rows = s.me.rows ∧ u.mem = p.mem
      ∧ u.group? s.me.part gi = some { g with
          credits := upd g.credits rank 8 (fun n => n - s.me.rc)
          inbox := if rank = g.rank then g.inbox ++ [⟨rank, mtag, es⟩] else g.inbox }
      ∧ ∃ ls, u.outbox = if rank = g.rank then p.outbox else p.outbox ++ .xsend s.me.part gi
          (.rows g.rank g.gen mtag s.me.sew s.me.vl (es.map (fun e => (e.row.bits, e.row.tag)))) rank :: ls := by
  have hte : (s.takeToken t).me.tePsn = false := by simpa [Strand.tePsn] using htraps
  have hgroup := (group?_of_society (released_society (s.takeToken t) 4) _ gi).trans (peerOf_group hpeer)
  have hme := released_me (s.takeToken t) 4
  have hsettle := vector_settles hready hill ((exec_xsend v b k t s).trans rfl)
  dsimp only at hsettle ⊢
  rw [hpeer] at hsettle
  dsimp only at hsettle
  rw [if_neg (by simpa using hlive), hte, find?_never] at hsettle
  dsimp only at hsettle
  generalize (s.takeToken t).performAll.release 4 = p at hgroup hme hsettle ⊢
  have hrc : p.me.rc = s.me.rc := by rw [hme]; exact takeToken_rc ..
  have hpart : p.me.part = s.me.part := by rw [hme]; exact takeToken_part ..
  have hsew : p.me.sew = s.me.sew := by rw [hme]; exact takeToken_sew ..
  have hvl : p.me.vl = s.me.vl := by rw [hme]; exact takeToken_vl ..
  have hregs : p.me.regs = s.me.regs := by rw [hme]; exact takeToken_regs ..
  have hrows : p.me.rows = s.me.rows := by rw [hme]; exact takeToken_rows ..
  rw [hrc, if_neg (by omega)] at hsettle
  generalize (List.range s.me.rc).map (fun r => p.me.queueEntry v.toNat r k) = es at hsettle ⊢
  have hraised := raise_if_only p ((es.any (fun e => classOf e.row.tag == 2)) = true) flagPSN
  generalize (if (es.any (fun e => classOf e.row.tag == 2)) = true then p.raise flagPSN else p) = r at hsettle hraised
  have hr : r.me.rc = s.me.rc ∧ r.me.part = s.me.part ∧ r.me.sew = s.me.sew ∧ r.me.vl = s.me.vl ∧ r.me.regs = s.me.regs
      ∧ r.me.rows = s.me.rows ∧ r.mem = p.mem ∧ r.outbox = p.outbox ∧ r.parts = p.parts := by
    rw [hraised]
    exact ⟨hrc, hpart, hsew, hvl, hregs, hrows, rfl, rfl, rfl⟩
  obtain ⟨hrc, hpart', hsew, hvl, hregs, hrows, hmem, hout, hparts⟩ := hr
  rw [takeToken_part, ← group?_congr hparts] at hgroup
  obtain ⟨z, hz, hupdated, hkept, hkeptMem, hkeptOut⟩ := updGroup_changes hgroup (fun g => { g with
    credits := upd g.credits rank 8 (fun n => n - s.me.rc)
    inbox := if rank = g.rank then g.inbox ++ [⟨rank, mtag, es⟩] else g.inbox })
  rw [hpart', hrc, hz, hkept, hpart', hsew, hvl, settle_retires] at hsettle
  by_cases hself : rank = g.rank
  · simp only [if_pos hself] at hsettle hupdated ⊢
    exact ⟨_, hsettle, (congrArg Strand.regs hkept).trans hregs, (congrArg Strand.rows hkept).trans hrows, hkeptMem.trans hmem, hupdated, [],
      hkeptOut.trans hout⟩
  · simp only [if_neg hself] at hsettle hupdated ⊢
    generalize (PeerMsg.rows g.rank g.gen mtag s.me.sew s.me.vl (es.map (fun e => (e.row.bits, e.row.tag)))) = msg at hsettle ⊢
    have hsent := transmit_sendsOnly (z.send (.xsend s.me.part gi msg rank)) (g.port rank)
      (rowLines (es.map (fun e => (e.row.bits, e.row.tag))))
    obtain ⟨ls, hls⟩ := hsent.outbox
    have hmeSent : _ = r.me := hsent.me.trans hkept
    generalize (z.send (.xsend s.me.part gi msg rank)).transmit (g.port rank) (rowLines (es.map (fun e => (e.row.bits, e.row.tag)))) = y
      at hsettle hsent hls hmeSent
    refine ⟨_, hsettle, (congrArg Strand.regs hmeSent).trans hregs, (congrArg Strand.rows hmeSent).trans hrows, hsent.mem.trans (hkeptMem.trans hmem),
      ((group?_congr rfl _ _).trans (group?_congr hsent.parts _ _)).trans hupdated, ls, hls.trans ?_⟩
    simp [State.send, hkeptOut, hout]

/-! ### XRECV -/

omit htraps in
theorem xrecv_empty (hnone : takeMsg rank mtag g.inbox = none) :
    exec (.xrecv v b k t) s = if g.liveSet.contains rank then .next { s.takeToken t with waiting := true }
      else (s.takeToken t).takeTrap { cause := 0x0E, val := queueVal 6 2 3 0 } := by
  rw [vector_settles hready hill ((exec_xrecv v b k t s).trans rfl)]
  dsimp only
  rw [hpeer]
  dsimp only
  rw [hnone]
  dsimp only
  split <;> rfl

variable {y : XMsg} {rest : List XMsg} (htake : takeMsg rank mtag g.inbox = some (y, rest))
include htake

omit htraps in
theorem xrecv_misfit (hbad : ¬(y.rows.length = s.me.rc ∧ ∀ e, e ∈ y.rows → e.sew = s.me.sew)) :
    exec (.xrecv v b k t) s = (s.takeToken t).takeTrap { cause := 0x0E, val := queueVal 6 3 3 0 } := by
  rw [vector_settles hready hill ((exec_xrecv v b k t s).trans rfl)]
  dsimp only
  rw [hpeer]
  dsimp only
  rw [htake]
  dsimp only
  rw [if_pos (by rw [takeToken_rc, takeToken_sew]; simpa [imp_iff_not_or] using hbad)]
  rfl

theorem xrecv_takes (hgood : y.rows.length = s.me.rc ∧ ∀ e, e ∈ y.rows → e.sew = s.me.sew) :
    ∃ z : State, exec (.xrecv v b k t) s
        = .next (((y.rows.zipIdx.foldl (fun r e => r.popRow v.toNat e.2 k e.1) z).acquire 4).clearStart.retires t)
      ∧ z.me.rows = s.me.rows ∧ z.me.regs = s.me.regs ∧ z.mem = s.mem
      ∧ z.group? s.me.part gi = some { g with
          inbox := rest, credits := if rank = g.rank then upd g.credits rank 8 (fun n => n + s.me.rc) else g.credits }
      ∧ z.outbox = if rank = g.rank then s.outbox else s.outbox ++ [.xsend s.me.part gi (.credit g.rank s.me.rc) rank] := by
  have hte : (s.takeToken t).me.tePsn = false := by simpa [Strand.tePsn] using htraps
  have hsettle := vector_settles hready hill ((exec_xrecv v b k t s).trans rfl)
  have hgroup := peerOf_group hpeer
  dsimp only at hsettle
  rw [hpeer] at hsettle
  dsimp only at hsettle
  rw [htake] at hsettle
  dsimp only at hsettle
  rw [if_neg (by rw [takeToken_rc, takeToken_sew]; simpa [imp_iff_not_or] using hgood), hte, find?_never] at hsettle
  rw [takeToken_part] at hgroup
  obtain ⟨r, hr, hupdated, hme, hmem, hout⟩ := updGroup_changes hgroup (fun g => { g with
    inbox := rest
    credits := if rank = g.rank then upd g.credits rank 8 (fun n => n + s.me.rc) else g.credits })
  dsimp only at hsettle
  rw [takeToken_part, takeToken_rc, hr, hme, takeToken_part, takeToken_rc, settle_retires] at hsettle
  have hsend : (if rank = g.rank then r else r.send (.xsend s.me.part gi (.credit g.rank s.me.rc) rank))
      = { r with outbox := if rank = g.rank then s.outbox else s.outbox ++ [.xsend s.me.part gi (.credit g.rank s.me.rc) rank] } := by
    rw [← takeToken_outbox s t, ← hout]
    split <;> rfl
  rw [hsend] at hsettle
  refine ⟨_, hsettle, ?_, ?_, ?_, ?_, ?_⟩ <;> rw [raise_if_only]
  · exact (congrArg Strand.rows hme).trans (takeToken_rows ..)
  · exact (congrArg Strand.regs hme).trans (takeToken_regs ..)
  · exact hmem.trans (takeToken_mem ..)
  · exact hupdated

end

end Sys2Proof.Machine
end

section
/-!
SUPPORT. The value of an element of an XRED (R330): it rests on the contributions, the configuration and the free values taken, and
computing it changes nothing but the count of those.
-/
namespace Sys2Proof.Machine

/-- Two states that draw the same free values, and combine values in the same order. -/
structure State.DrawsLike (s u : State) : Prop where
  freeCtr : u.freeCtr = s.freeCtr
  repro : u.me.repro = s.me.repro

/-- A computation whose value, and whose count of free values, such states agree on. -/
def Agrees {α : Type} (f : State → α × State) : Prop :=
  ∀ s u : State, s.DrawsLike u → (f u).1 = (f s).1 ∧ (f u).2.freeCtr = (f s).2.freeCtr

theorem enterInts_state (f : Fmt) (l : List Num) : ∀ s : State,
    (enterInts f l s).2 = { s with freeCtr := (enterInts f l s).2.freeCtr } := by
  induction l with
  | nil => intro s; rfl
  | cons x l ih =>
    intro s
    unfold enterInts
    dsimp only
    split
    · exact ih s.free.2
    · exact ih s

theorem enterInts_agrees (f : Fmt) (l : List Num) : Agrees (enterInts f l) := by
  induction l with
  | nil => exact fun s u h => ⟨rfl, h.freeCtr⟩
  | cons x l ih =>
    intro s u h
    unfold enterInts
    dsimp only
    split
    · obtain ⟨hvals, hfree⟩ := ih s.free.2 u.free.2 ⟨congrArg (· + 1) h.freeCtr, h.repro⟩
      refine ⟨?_, hfree⟩
      rw [hvals]
      simp only [State.free, h.freeCtr]
    · obtain ⟨hvals, hfree⟩ := ih s u h
      exact ⟨by rw [hvals], hfree⟩

theorem treeSum_agrees (f : Fmt) (n : Nat) : ∀ (l : List Num) (fl : Nat), Agrees (treeSum f n l fl) := by
  induction n with
  | zero => exact fun l fl s u h => ⟨rfl, h.freeCtr⟩
  | succ n ih =>
    intro l fl s u h
    match l with
    | [] => exact ⟨rfl, h.freeCtr⟩
    | [x] => exact ⟨rfl, h.freeCtr⟩
    | x :: y :: l =>
      simp only [treeSum, State.pick, h.freeCtr]
      exact ih _ _ _ _ ⟨rfl, h.repro⟩

theorem combineVals_state (s : State) (f : Fmt) (op : Nat) (sat : Bool) (all : List Num) :
    (combineVals s f op sat all).2 = { s with freeCtr := (combineVals s f op sat all).2.freeCtr } := by
  have hq := enterInts_state f all s
  unfold combineVals
  dsimp only
  generalize enterInts f all s = q at hq ⊢
  obtain ⟨_ | ⟨x, xs⟩, t⟩ := q
  · exact hq
  · dsimp only at hq ⊢
    split
    · split
      · exact hq
      · split
        · exact hq
        · rw [treeSum_state, hq]
    · generalize (if f.isInt = true then (x :: xs, 0) else accRoundAll f (x :: xs) 0) = e
      split <;> exact hq

theorem combineVals_agrees (f : Fmt) (op : Nat) (sat : Bool) (all : List Num) : Agrees (fun s => combineVals s f op sat all) := by
  intro s u h
  have hsameRepro {v : State} (hv : v = { s with freeCtr := v.freeCtr }) : v.me.repro = s.me.repro := by rw [hv]
  have hsameRepro' {v : State} (hv : v = { u with freeCtr := v.freeCtr }) : v.me.repro = s.me.repro := by rw [hv]; exact h.repro
  have hq := hsameRepro (enterInts_state f all s)
  have hq' := hsameRepro' (enterInts_state f all u)
  obtain ⟨hvals, hfree⟩ := enterInts_agrees f all s u h
  unfold combineVals
  dsimp only
  generalize enterInts f all s = q at hq hvals hfree ⊢
  generalize enterInts f all u = r at hq' hvals hfree ⊢
  obtain ⟨l, t⟩ := q
  obtain ⟨l', v⟩ := r
  dsimp only at hq hq' hvals hfree ⊢
  subst hvals
  match l' with
  | [] => exact ⟨rfl, hfree⟩
  | x :: xs =>
    dsimp only
    rw [hq, hq']
    split
    · split
      · exact ⟨rfl, hfree⟩
      · split
        · exact ⟨rfl, hfree⟩
        · exact treeSum_agrees _ _ _ _ t v ⟨hfree, hq'.trans hq.symm⟩
    · generalize (if f.isInt = true then (x :: xs, 0) else accRoundAll f (x :: xs) 0) = e
      split <;> exact ⟨rfl, hfree⟩

theorem xredElem_state (s : State) (m : BitVec 2) (op : Nat) (dice : Word) (t : Tag) (cs : List Contribution) (r e : Nat) :
    (xredElem s m op dice t cs r e).2 = { s with freeCtr := (xredElem s m op dice t cs r e).2.freeCtr } :=
  combineVals_state ..

/-- Two states with one configuration of elements. -/
structure State.SameElements (s u : State) : Prop where
  ctx : u.myCtx = s.myCtx
  sewBits : u.me.sewBits = s.me.sewBits
  rm : u.me.rm = s.me.rm
  repro : u.me.repro = s.me.repro

theorem xredElem_value {s u : State} (h : s.SameElements u) (m : BitVec 2) (op : Nat) (dice : Word) (t : Tag) (cs : List Contribution)
    (r e : Nat) : (xredElem u m op dice t cs r e).1 = (xredElem { s with freeCtr := u.freeCtr } m op dice t cs r e).1 := by
  have hctx : ({ s with freeCtr := u.freeCtr } : State).myCtx = u.myCtx := h.ctx.symm
  have hrnd : { s.me with diceSeed := dice }.rounding m r e = { u.me with diceSeed := dice }.rounding m r e := by
    simp only [Strand.rounding, h.rm]
  unfold xredElem
  dsimp only
  rw [hctx, hrnd, h.sewBits]
  generalize cs.map _ = vals
  obtain ⟨hvals, -⟩ := combineVals_agrees (fixedFmt ((accFormat u.myCtx (fmtOf t)).getD 1)) op
    ({ u.me with diceSeed := dice }.rounding m r e).sat vals { s with freeCtr := u.freeCtr } u ⟨rfl, h.repro⟩
  dsimp only at hvals
  rw [hvals]

end Sys2Proof.Machine
end

section
/-!
SUPPORT. The rows that an XRED writes (R329, R330): each element in its slot, and every other row as before.
-/
namespace Sys2Proof.Machine

/-- One element of a row of the result, in the order of a row: the row's bits, the flags and the state so far. -/
def xredStep (m : BitVec 2) (op : Nat) (dice : Word) (t : Tag) (w : Nat) (cs : Nat → List Contribution) (r : Nat)
    (a : RowBits × Nat × State) (e : Nat) : RowBits × Nat × State :=
  let y := xredElem a.2.2 m op dice t (cs e) r e
  (setElem a.1 w e y.1.1, a.2.1 ||| y.1.2, y.2)

theorem draws_trans {s t u : State} (h : t = { s with freeCtr := t.freeCtr }) (k : u = { t with freeCtr := u.freeCtr }) :
    u = { s with freeCtr := u.freeCtr } := by
  rw [k, h]

theorem draws_loops {s u : State} (h : u = { s with freeCtr := u.freeCtr }) : s.loops u := by
  unfold State.loops
  rw [h]

section
variable (m : BitVec 2) (op : Nat) (dice : Word)

/-- The first `n` elements of a row stand in their slots. -/
theorem xredStep_foldl (t : Tag) (w : Nat) (cs : Nat → List Contribution) (r : Nat) (b : RowBits) (s : State) (n : Nat) (hn : n * w ≤ 8192) :
    let x := (List.range n).foldl (xredStep m op dice t w cs r) (b, 0, s)
    x.2.2 = { s with freeCtr := x.2.2.freeCtr }
    ∧ ∀ e, e < n → ∃ c, getElem_ x.1 w e = (xredElem { s with freeCtr := c } m op dice t (cs e) r e).1.1 % 2 ^ w := by
  induction n with
  | zero => exact ⟨rfl, fun e he => by omega⟩
  | succ n ih =>
    obtain ⟨hstate, hslots⟩ := ih (Nat.le_trans (Nat.mul_le_mul_right _ (by omega)) hn)
    dsimp only at hstate hslots ⊢
    rw [List.range_succ, List.foldl_append, List.foldl_cons, List.foldl_nil]
    generalize (List.range n).foldl (xredStep m op dice t w cs r) (b, 0, s) = x at hstate hslots
    have helem := xredElem_state x.2.2 m op dice t (cs n) r n
    refine ⟨?_, fun e he => ?_⟩
    · exact draws_trans hstate helem
    · by_cases hlast : e = n
      · subst hlast
        refine ⟨x.2.2.freeCtr, (getElem_setElem_same _ _ _ _ hn).trans ?_⟩
        rw [← hstate]
      · obtain ⟨c, hc⟩ := hslots e (by omega)
        exact ⟨c, (getElem_setElem_other _ _ _ _ _ hn hlast).trans hc⟩

theorem sameElements_of_loops {s u : State} (h : s.loops u) (c : Nat) : State.SameElements s { u with freeCtr := c } :=
  have hc : s.loops { u with freeCtr := c } := loops_trans h (draws_loops rfl)
  ⟨loops_myCtx hc, loops_sewBits hc, by rw [h], by rw [h]⟩

variable (v whole : Nat) (tags : List Tag) (full rest : List Contribution)

/-- Contributions to element `e` of row `r`. -/
def contributed (vl whole : Nat) (full rest : List Contribution) (r e : Nat) : List Contribution :=
  if r * vl + e < whole then full else rest

/-- The bits of row `r` of the result, with the flags and the state that computing them leaves. -/
def xredBits (s : State) (t : Tag) (r : Nat) : RowBits × Nat × State :=
  (List.range s.me.vl).foldl (xredStep m op dice t s.me.sewBits (contributed s.me.vl whole full rest r) r) ((s.me.row (v + r)).bits, 0, s)

theorem xredBits_does (s : State) (t : Tag) (r : Nat) (hw : s.me.vl * s.me.sewBits ≤ 8192) :
    let x := xredBits m op dice v whole full rest s t r
    x.2.2 = { s with freeCtr := x.2.2.freeCtr }
    ∧ ∀ e, e < s.me.vl → ∃ c, getElem_ x.1 s.me.sewBits e
        = (xredElem { s with freeCtr := c } m op dice t (contributed s.me.vl whole full rest r e) r e).1.1 % 2 ^ s.me.sewBits :=
  xredStep_foldl m op dice t s.me.sewBits (contributed s.me.vl whole full rest r) r (s.me.row (v + r)).bits s s.me.vl hw

theorem xredRows_succ (n r : Nat) (s : State) : let x := xredBits m op dice v whole full rest s (tags.getD r 0) r
    ∃ tag fl, xredRows m op v whole dice tags full rest (n + 1) r s = xredRows m op v whole dice tags full rest n (r + 1)
      ((State.setRowTag { x.2.2 with me := x.2.2.me.setRow (v + r) ⟨x.1, tags.getD r 0⟩ } (v + r) tag).raise fl) :=
  ⟨_, _, rfl⟩

/-- One row of the result. -/
theorem xredRows_row (n r : Nat) (s : State) (hv : v + r < 32) (hw : s.me.vl * s.me.sewBits ≤ 8192) :
    ∃ u : State, xredRows m op v whole dice tags full rest (n + 1) r s = xredRows m op v whole dice tags full rest n (r + 1) u
      ∧ s.loops u ∧ (∀ q, q ≠ v + r → u.me.row q = s.me.row q)
      ∧ ∀ e, e < s.me.vl → ∃ c, getElem_ (u.me.row (v + r)).bits s.me.sewBits e
          = (xredElem { s with freeCtr := c } m op dice (tags.getD r 0) (contributed s.me.vl whole full rest r e) r e).1.1
            % 2 ^ s.me.sewBits := by
  obtain ⟨hstate, hslots⟩ := xredBits_does m op dice v whole full rest s (tags.getD r 0) r hw
  obtain ⟨tag, fl, hrow⟩ := xredRows_succ m op dice v whole tags full rest n r s
  dsimp only at hstate hslots hrow
  generalize xredBits m op dice v whole full rest s (tags.getD r 0) r = x at hstate hslots hrow
  obtain ⟨bits, flags, t⟩ := x
  dsimp only at hstate hslots hrow
  have hrows (q : Nat) : t.me.row q = s.me.row q := by rw [hstate]
  refine ⟨_, hrow, ?_, fun q hq => ?_, fun e he => ?_⟩
  · have hwritten : t.loops { t with me := t.me.setRow (v + r) ⟨bits, tags.getD r 0⟩ } := rfl
    exact loops_trans (draws_loops hstate) (loops_trans hwritten (loops_trans (setRowTag_loops ..) (raise_loops ..)))
  · unfold Strand.row
    rw [raise_rows]
    exact (row_setRow_other _ _ _ _ hq).trans ((row_setRow_other _ _ _ _ hq).trans (hrows q))
  · obtain ⟨c, hc⟩ := hslots e he
    refine ⟨c, Eq.trans ?_ hc⟩
    unfold Strand.row
    rw [raise_rows]
    refine congrArg (fun b => getElem_ b s.me.sewBits e) ((row_setRowTag_bits hv tag (v + r)).trans ?_)
    exact congrArg Row.bits (row_setRow_same _ _ _ hv)

/-- All rows of the result. -/
theorem xredRows_does (n : Nat) : ∀ (r : Nat) (s : State), v + r + n ≤ 32 → s.me.vl * s.me.sewBits ≤ 8192 →
    let u := xredRows m op v whole dice tags full rest n r s
    s.loops u ∧ (∀ q, q < v + r ∨ v + r + n ≤ q → u.me.row q = s.me.row q)
    ∧ ∀ i e, r ≤ i → i < r + n → e < s.me.vl → ∃ c, getElem_ (u.me.row (v + i)).bits s.me.sewBits e
        = (xredElem { s with freeCtr := c } m op dice (tags.getD i 0) (contributed s.me.vl whole full rest i e) i e).1.1
          % 2 ^ s.me.sewBits := by
  induction n with
  | zero => exact fun r s _ _ => ⟨loops_refl s, fun _ _ => rfl, fun i e h h' => by omega⟩
  | succ n ih =>
    intro r s hv hw
    obtain ⟨t, hnext, hloops, hkept, hslots⟩ := xredRows_row m op dice v whole tags full rest n r s (by omega) hw
    obtain ⟨hloops', hkept', hslots'⟩ := ih (r + 1) t (by omega) (by rw [loops_vl hloops, loops_sewBits hloops]; exact hw)
    rw [hnext]
    refine ⟨loops_trans hloops hloops', fun q hq => (hkept' q (by omega)).trans (hkept q (by omega)), fun i e hi hi' he => ?_⟩
    by_cases hfirst : i = r
    · subst hfirst
      rw [hkept' (v + i) (by omega)]
      exact hslots e he
    · obtain ⟨c, hc⟩ := hslots' i e (by omega) (by omega) (by rwa [loops_vl hloops])
      rw [loops_vl hloops, loops_sewBits hloops] at hc
      refine ⟨c, hc.trans ?_⟩
      rw [xredElem_value (sameElements_of_loops hloops c)]

end

end Sys2Proof.Machine
end

section
/-!
SUPPORT. What the end of an XRED leaves of the strand: translations whatever they come to, the spares that join, the log and the
result mask (R116, R326, R327).
-/
namespace Sys2Proof.Machine

/-! ### Translations, parked ones too -/

/-- The state that a translation leaves. -/
def XRes.after : XRes → State
  | .ok u _ => u
  | .fail u _ => u
  | .park u _ => u

theorem after_ite (c : Prop) [Decidable c] (a b : XRes) (m : Strand) (ha : a.after.me = m) (hb : b.after.me = m) :
    (if c then a else b).after.me = m := by
  split
  · exact ha
  · exact hb

theorem s2Miss_me (s : State) (w : Walker) (iseg kind lw pw : Nat) : (s.s2Miss w iseg kind lw pw).after.me = s.me := by
  unfold State.s2Miss State.request
  show State.me (if w.quiet then s else _) = s.me
  split
  · rfl
  · exact updVf_me ..

theorem walkFrom_me (w : Walker) (va : Nat) (acc : Access) (n : Nat) : ∀ (s : State) (ia : Nat), (s.walkFrom w va acc n ia).after.me = s.me := by
  induction n with
  | zero => exact fun s ia => rfl
  | succ n ih =>
    intro s ia
    unfold State.walkFrom
    dsimp only
    generalize ia + 8 * s1Index va n = a
    have hdesc := (Translated.s2Find s (hankOf w.core) w.vf (a / 2 ^ 18)).me
    generalize s.s2Find (hankOf w.core) w.vf (a / 2 ^ 18) = desc at hdesc ⊢
    obtain ⟨_ | g, t⟩ := desc
    · exact (s2Miss_me ..).trans hdesc
    refine after_ite _ _ _ _ hdesc ?_
    have hread := ((Translated.updHank t (hankOf w.core) (fun h => { h with refs := h.refs + 1 })).trans
      (.readHome _ (.page (g.homeEntry w.vf (a / 2 ^ 18)) (a % 2 ^ 18 / 128)) w.reader)).me.trans hdesc
    generalize State.readHome _ _ _ = x at hread ⊢
    refine after_ite _ _ _ _ hread ?_
    generalize (if classOf x.2.1 = 0 then _ else _ : Nat) = entry
    refine after_ite _ _ _ _ hread (after_ite _ _ _ _ hread (after_ite _ _ _ _ (after_ite _ _ _ _ hread ?_) ?_))
    · have hleaf := (Translated.s2Find x.2.2 (hankOf w.core) w.vf ((entry / 2 ^ 20 % 2 ^ 34 * 2 ^ 18 + va % pageSize n) / 2 ^ 18)).me.trans hread
      generalize x.2.2.s2Find (hankOf w.core) w.vf _ = leaf at hleaf ⊢
      obtain ⟨_ | d, v⟩ := leaf
      · exact (s2Miss_me ..).trans hleaf
      · exact after_ite _ _ _ _ hleaf (after_ite _ _ _ _ hleaf (after_ite _ _ _ _ hleaf hleaf))
    · exact (ih _ _).trans hread

theorem translate_park_me {s u : State} {w : Walker} {va i : Nat} {acc : Access} (h : s.translate w va acc = .park u i) : u.me = s.me := by
  have hfrom := walkFrom_me w va acc (s.walkStart (hankOf w.core) w.vf va).1 s (s.walkStart (hankOf w.core) w.vf va).2
  unfold State.translate at h
  dsimp only at h
  split at h
  · cases h
  · split at h
    · unfold State.walk at h
      dsimp only at h
      split at h
      · cases h
      · rw [h] at hfrom
        exact hfrom
    · cases h
    · cases h

/-- A line that cannot be located yet leaves the strand. -/
theorem locate_park_me {s u : State} {w : Walker} {a i : Nat} {acc : Access} (h : s.locate w a acc = .park u i) : u.me = s.me := by
  unfold State.locate at h
  split at h
  · cases h
  · cases h
  · split at h
    · cases h
    · cases h
    · rename_i heq
      cases h
      exact translate_park_me heq

theorem segsMiss_me (n : Nat) : ∀ (va : Nat) (s : State), (segsMiss va n s).2.me = s.me := by
  induction n with
  | zero => exact fun va s => rfl
  | succ n ih =>
    intro va s
    have ht := locate_translated s s.walker (va % 2 ^ 64) .write
    unfold segsMiss
    split
    · rename_i heq
      exact locate_park_me heq
    · rename_i heq
      rw [heq] at ht
      exact (ih _ _).trans (Translated.me ht)
    · rename_i heq
      rw [heq] at ht
      exact (ih _ _).trans (Translated.me ht)

/-! ### Spares that join once the reduction ends (R327) -/

theorem donate_me (s : State) (part gi rank : Nat) : (s.donate part gi rank).me = s.me := by
  cases hg : s.group? part gi with
  | none =>
    unfold State.donate
    rw [hg]
  | some g =>
    rw [donate_eq hg]
    split
    · rfl
    · exact (donated_me ..).trans (readLog_translated ..).me

theorem joinWanted_me (s : State) (part gi : Nat) : (s.joinWanted part gi).me = s.me := by
  unfold State.joinWanted
  split
  · rfl
  · rename_i g _
    exact (foldl_keeps State.me (fun s r => s.donate part gi r) (fun _ _ => donate_me ..) g.wanted _).trans (updGroup_me ..)

theorem joinWanted_mem {s : State} {part gi : Nat} {g : Group} (h : s.group? part gi = some g) (hnone : g.wanted = []) :
    (s.joinWanted part gi).mem = s.mem := by
  unfold State.joinWanted
  rw [h]
  dsimp only
  rw [hnone]
  exact updGroup_mem ..

/-- An XRED is over: its contributions go, the strand is free of it, and the spares that asked join. -/
def State.cleared (s : State) (gi q : Nat) : State :=
  State.joinWanted { s.updGroup s.me.part gi (fun g => { g with own := none, contrib := g.contrib.filter (fun c => c.seq > q) }) with
    me := { s.me with xseq := none } } s.me.part gi

theorem cleared_me (s : State) (gi q : Nat) : (s.cleared gi q).me = { s.me with xseq := none } := joinWanted_me ..

theorem cleared_mem {s : State} {gi : Nat} {g : Group} (h : s.group? s.me.part gi = some g) (hnone : g.wanted = []) (q : Nat) :
    (s.cleared gi q).mem = s.mem := by
  have hgroup := group?_updGroup h (fun g => { g with own := none, contrib := g.contrib.filter (fun c => c.seq > q) })
  refine Eq.trans (joinWanted_mem (g := { g with own := none, contrib := g.contrib.filter (fun c => c.seq > q) }) ?_ hnone) ?_
  · exact hgroup
  · exact updGroup_mem ..

/-! ### Acquires and masks -/

theorem acquire_me (s : State) (n : Nat) : (s.acquire n).me = { s.me with links := (s.acquire n).me.links } :=
  bare_eq_iff.mp (congrArg Outline.me (acquire_outline s n))

theorem writeMask_me (s : State) (k : Nat) (bit : Nat → Bool) : (s.writeMask k bit).me = { s.me with masks := (s.writeMask k bit).me.masks } := by
  unfold State.writeMask
  exact setMask_only ..

theorem mem_insertParked (p : Parked) (l : List Parked) : p ∈ insertParked p l := by
  induction l with
  | nil => simp [insertParked]
  | cons q l ih =>
    unfold insertParked
    split
    · simp
    · simp [ih]

end Sys2Proof.Machine
end

section
/-!
SUPPORT. How an XRED ends whose contributions are all here (R326, R329): shapes that differ, its log entry that misses in stage 2,
and its rows.
-/
namespace Sys2Proof.Machine

section
variable {v op : BitVec 5} {k : BitVec 3} {m : BitVec 2} {gi : Nat} {g : Group} {own : Contribution} {live : List Contribution} {s : State}

theorem xredFinish_misfits (h : live.any (fun c => !sameShape c own) = true) :
    xredFinish v op k m gi g own live s = collMisuse (s.cleared gi own.seq) 7 5 (BitVec.ofNat 64 gi) := by
  unfold xredFinish
  dsimp only
  rw [if_pos h]
  rfl

/-- Where the log entry of reduction `q` starts (Table 3 of R326). -/
def Group.entryBase (g : Group) (q : Nat) : Nat := g.logBase.toNat + 2 ^ 14 * (q % 64)

/-- The number of segments that the log entry of reduction `q` lies in. -/
def Group.entrySegs (g : Group) (q : Nat) : Nat :=
  if g.entryBase q / 2 ^ 18 = (g.entryBase q + 2 ^ 14 - 1) / 2 ^ 18 then 1 else 2

theorem find?_notOk {n : Nat} {tags : Nat → Tag} :
    (List.range n).find? (fun r => !(((List.range n).map (fun r => (Except.ok (tags r) : Except (Nat × Word) Tag))).getD r (.ok 0)).isOk) = none := by
  simp only [List.find?_eq_none, List.mem_range]
  intro r hr
  simp [hr, Except.isOk, Except.toBool]

theorem find?_error {n : Nat} {tags : Nat → Tag} :
    ((List.range n).map (fun r => (Except.ok (tags r) : Except (Nat × Word) Tag))).find? (fun t => !t.isOk) = none := by
  simp only [List.find?_eq_none, List.mem_map]
  rintro _ ⟨r, -, rfl⟩
  simp [Except.isOk, Except.toBool]

theorem filterMap_ok {n : Nat} {tags : Nat → Tag} :
    ((List.range n).map (fun r => (Except.ok (tags r) : Except (Nat × Word) Tag))).filterMap Except.toOption = (List.range n).map tags := by
  rw [List.filterMap_map]
  exact congrFun List.filterMap_eq_map _

variable (hshape : live.all (fun c => sameShape c own) = true) (hlive : ∀ r, r ∈ g.startSet → r ∈ g.liveSet) {tags : Nat → Tag}
  (htags : ∀ r, r < s.me.rc → rowJoin s (live.headD own).osc (live.map (fun c => (c.rows.getD r (0, zeroTag)).2)) = .ok (tags r))
include hshape hlive htags

theorem xredFinish_whole :
    (∀ va i t, segsMiss (g.entryBase own.seq) (g.entrySegs own.seq) s = (some (va, i), t) →
      xredFinish v op k m gi g own live s = parkInstr t [⟨0, va, va, i⟩] (t.progress 0))
    ∧ ∀ t, segsMiss (g.entryBase own.seq) (g.entrySegs own.seq) s = (none, t) → ∃ lost log,
      xredFinish v op k m gi g own live s = .done ((((((xredRows m op.toNat v.toNat 0 (live.headD own).dice ((List.range s.me.rc).map tags)
        live live s.me.rc 0 t).writeMask k.toNat lost).writeLog (g.entryBase own.seq) log).cleared gi own.seq).acquire 4).clearStart) := by
  have hall : live.any (fun c => !sameShape c own) = false := by
    simpa [List.any_eq_false, List.all_eq_true] using hshape
  have hfailed : g.startSet.filter (fun r => !g.liveSet.contains r) = [] := by
    simpa [List.filter_eq_nil_iff] using hlive
  have hjoined : (List.range s.me.rc).map (fun r => rowJoin s (live.headD own).osc (live.map (fun c => (c.rows.getD r (0, zeroTag)).2)))
      = (List.range s.me.rc).map (fun r => .ok (tags r)) :=
    List.map_congr_left (fun r hr => htags r (List.mem_range.mp hr))
  suffices hwhole : ∃ (lost : Nat → Bool) (log : State → List (Nat × (Line × Tag))), xredFinish v op k m gi g own live s =
      match segsMiss (g.entryBase own.seq) (g.entrySegs own.seq) s with
      | (some (va, i), t) => parkInstr t [⟨0, va, va, i⟩] (t.progress 0)
      | (none, t) => .done ((((((xredRows m op.toNat v.toNat 0 (live.headD own).dice ((List.range s.me.rc).map tags)
        live live s.me.rc 0 t).writeMask k.toNat lost).writeLog (g.entryBase own.seq) (log t)).cleared gi own.seq).acquire 4).clearStart) by
    obtain ⟨lost, log, hwhole⟩ := hwhole
    refine ⟨fun va i t hmiss => ?_, fun t hmiss => ⟨lost, log t, ?_⟩⟩
    · rw [hwhole, hmiss]
    · rw [hwhole, hmiss]
  unfold xredFinish
  extract_lets q clear failed all w full used low taglist base
  have hnone : all = none := by
    show (if failed.isEmpty then none else _) = none
    rw [show failed = [] from hfailed]
    rfl
  have hw : w = (0, s) := by
    show (match all with | some _ => s.pick (s.me.count + 1) | none => (0, s)) = _
    rw [hnone]
  have hfull : full = live := by
    show all.getD live = live
    rw [hnone]
    rfl
  have hused : used = live := by
    show (if w.1 = 0 then live else full) = live
    rw [hw]
    rfl
  have hlow : low = live.headD own := by
    show used.headD own = _
    rw [hused]
  have htaglist : taglist = (List.range s.me.rc).map (fun r => .ok (tags r)) := by
    show (List.range s.me.rc).map (fun r => rowJoin w.2 low.osc (used.map (fun c => (c.rows.getD r (0, zeroTag)).2))) = _
    rw [hw, hlow, hused]
    exact hjoined
  clear_value taglist low used full
  subst htaglist hlow hused hfull
  clear_value w
  subst hw
  rw [hall, find?_notOk, find?_error, filterMap_ok]
  exact ⟨_, _, rfl⟩

end

end Sys2Proof.Machine
end

section
/-!
PROOFS. XRED (R326, R328–R330), for O58: its header and contribution leave, it waits for the live members', and it ends.
-/
namespace Sys2Proof.Machine

/-- The group that XRED names. -/
def State.reduced? (w : State) (x : Word) : Option Group := if x.toNat < 64 then w.group? w.me.part x.toNat else none

theorem reduced?_group {w : State} {x : Word} {g : Group} (h : w.reduced? x = some g) : w.group? w.me.part x.toNat = some g := by
  unfold State.reduced? at h
  split at h
  · exact h
  · cases h

/-- What the end of a reduction leaves of the strand that holds its rows. -/
theorem xredEnd_me (s : State) (k : Nat) (lost : Nat → Bool) (base : Nat) (log : List (Nat × (Line × Tag))) (gi q : Nat) :
    let u := ((((s.writeMask k lost).writeLog base log).cleared gi q).acquire 4).clearStart
    u.me = { s.me with masks := u.me.masks, links := u.me.links, xseq := none, vstart := 0, rstart := 0 } := by
  have hmask := writeMask_me s k lost
  generalize s.writeMask k lost = a at hmask
  have hlog := (writeLog_writes a base log).1
  generalize a.writeLog base log = b at hlog
  have hclear := cleared_me b gi q
  generalize b.cleared gi q = c at hclear
  have hacquire := acquire_me c 4
  generalize c.acquire 4 = d at hacquire
  show { d.me with vstart := 0, rstart := 0 } = { s.me with masks := d.me.masks, links := d.me.links, xseq := none, vstart := 0, rstart := 0 }
  rw [hacquire, hclear, hlog, hmask]

theorem translated_sameElements {s u : State} (h : Translated s u) (c : Nat) : State.SameElements s { u with freeCtr := c } := by
  refine ⟨?_, congrArg Strand.sewBits h.me, congrArg Strand.rm h.me, congrArg Strand.repro h.me⟩
  have hbraids : (u.part s.me.part).braids = (s.part s.me.part).braids := congrArg (fun f => (f s.me.part).braids) h.parts
  show u.ctxOf u.me.part u.me.braid = s.ctxOf s.me.part s.me.braid
  rw [h.me]
  unfold State.ctxOf State.braidOf?
  rw [hbraids]

/-- The header and the rows of a contribution have left for the live members (R329). -/
def State.headed (p : State) (gi : Nat) (g : Group) (own : Contribution) : State :=
  let u := (p.updGroup p.me.part gi (fun g => { g with seq := g.seq + 1, own := some own, startSet := g.liveSet })).send
    (.xred p.me.part gi own)
  let u := (g.liveSet.filter (fun r => r != g.rank)).foldl (fun s r => s.transmit (g.port r) (rowLines own.rows)) u
  { u with me := { u.me with xseq := some own.seq } }

theorem headed_does {p : State} {gi : Nat} {g : Group} (own : Contribution) (h : p.group? p.me.part gi = some g) :
    (p.headed gi g own).me = { p.me with xseq := some own.seq } ∧ (p.headed gi g own).mem = p.mem
    ∧ (p.headed gi g own).group? p.me.part gi = some { g with seq := g.seq + 1, own := some own, startSet := g.liveSet }
    ∧ ∃ ls, (p.headed gi g own).outbox = p.outbox ++ .xred p.me.part gi own :: ls := by
  obtain ⟨z, hz, hgroup, hme, hmem, hout⟩ := updGroup_changes h (fun g => { g with seq := g.seq + 1, own := some own, startSet := g.liveSet })
  have hsent := sendsOnly_foldl (fun s r => s.transmit (g.port r) (rowLines own.rows)) (fun s r => transmit_sendsOnly s _ _)
    (g.liveSet.filter (fun r => r != g.rank)) (z.send (.xred p.me.part gi own))
  unfold State.headed
  rw [hz]
  dsimp only
  generalize (g.liveSet.filter (fun r => r != g.rank)).foldl (fun s r => s.transmit (g.port r) (rowLines own.rows))
    (z.send (.xred p.me.part gi own)) = u at hsent ⊢
  obtain ⟨ls, hls⟩ := hsent.outbox
  refine ⟨?_, hsent.mem.trans hmem, ?_, ls, hls.trans ?_⟩
  · rw [show u.me = p.me from hsent.me.trans hme]
  · rw [← hgroup]
    exact (group?_congr rfl _ _).trans (group?_congr hsent.parts _ _)
  · simp [State.send, hout]

section
variable {s : State} {t : BitVec 2} (hready : s.ready t false = true) {v : BitVec 5} (hill : s.me.vtypeIll [v] = false)
  (o b : BitVec 5) (k : BitVec 3) (m : BitVec 2)
include hready hill

theorem xred_groupless (hq : (s.takeToken t).reduced? ((s.takeToken t).capB b) = none) :
    exec (.xred v o b k m t) s
      = (s.takeToken t).takeTrap { cause := 0x0E, val := queueVal 7 4 3 ((s.takeToken t).capB b) } := by
  unfold State.reduced? at hq
  rw [vector_settles hready hill ((exec_xred v o b k m t s).trans rfl)]
  dsimp only
  rw [hq]
  rfl

variable {g : Group} (hq : (s.takeToken t).reduced? ((s.takeToken t).capB b) = some g)
include hq

/-! ### The header and contribution leave (R329) -/

section
variable (hfirst : s.me.xseq = none)
include hfirst

theorem xred_busy (hbusy : g.gstate ≠ 1 ∨ g.own.isSome = true
    ∨ (((s.takeToken t).part (s.takeToken t).me.part).logToCopy ((s.takeToken t).capB b).toNat).isSome = true) :
    exec (.xred v o b k m t) s = .next { s.takeToken t with waiting := true } := by
  unfold State.reduced? at hq
  rw [vector_settles hready hill ((exec_xred v o b k m t s).trans rfl)]
  dsimp only
  rw [hq]
  dsimp only
  rw [takeToken_xseq, hfirst]
  dsimp only
  rw [if_pos hbusy]
  rfl

theorem xred_heads (hactive : g.gstate = 1) (hidle : g.own = none)
    (hnolog : ((s.takeToken t).part (s.takeToken t).me.part).logToCopy ((s.takeToken t).capB b).toNat = none) :
    let i := ((s.takeToken t).capB b).toNat
    let p := (s.takeToken t).performAll.release 4
    let own := p.contribution g v.toNat o.toNat
    let g' : Group := { g with seq := g.seq + 1, own := some own, startSet := g.liveSet }
    exec (.xred v o b k m t) s = ((g'.gather own own.seq g.liveSet).elim (.wait (p.headed i g own))
      (fun live => xredFinish v o k m i g' own live (p.headed i g own))).settle t := by
  unfold State.reduced? at hq
  rw [vector_settles hready hill ((exec_xred v o b k m t s).trans rfl)]
  dsimp only
  rw [hq]
  dsimp only
  rw [takeToken_xseq, hfirst]
  dsimp only
  rw [if_neg (by rw [hnolog]; simp [hactive, hidle])]
  generalize (s.takeToken t).performAll.release 4 = p
  generalize ((s.takeToken t).capB b).toNat = i
  generalize hown : p.contribution g v.toNat o.toNat = own
  cases Group.gather { g with seq := g.seq + 1, own := some own, startSet := g.liveSet } own own.seq g.liveSet <;> rfl

theorem xred_sends (hactive : g.gstate = 1) (hidle : g.own = none)
    (hnolog : ((s.takeToken t).part (s.takeToken t).me.part).logToCopy ((s.takeToken t).capB b).toNat = none) :
    let i := ((s.takeToken t).capB b).toNat
    let p := (s.takeToken t).performAll.release 4
    let own := { p.contribution g v.toNat o.toNat with seq := g.seq }
    let g' : Group := { g with seq := g.seq + 1, own := some own, startSet := g.liveSet }
    g'.gather own g.seq g.liveSet = none → ∃ z : State,
      exec (.xred v o b k m t) s = .next { z with waiting := true } ∧ z.me = { p.me with xseq := some g.seq } ∧ z.mem = p.mem
      ∧ z.group? p.me.part i = some g' ∧ ∃ ls, z.outbox = p.outbox ++ .xred p.me.part i own :: ls := by
  intro i p own g' hgather
  have hgroup : p.group? p.me.part i = some g := by
    have hpart : p.me.part = (s.takeToken t).me.part := by rw [show p.me = _ from released_me (s.takeToken t) 4]
    rw [hpart, show p.group? _ i = _ from group?_of_society (released_society (s.takeToken t) 4) _ i]
    exact reduced?_group hq
  have hheads := xred_heads hready hill o b k m hq hfirst hactive hidle hnolog
  obtain ⟨hme, hmem, hgroup', hout⟩ := headed_does own hgroup
  refine ⟨p.headed i g own, hheads.trans ?_, hme, hmem, hgroup', hout⟩
  have hgather' : Group.gather
      { g with seq := g.seq + 1, own := some (((s.takeToken t).performAll.release 4).contribution g v.toNat o.toNat), startSet := g.liveSet }
      (((s.takeToken t).performAll.release 4).contribution g v.toNat o.toNat)
      (((s.takeToken t).performAll.release 4).contribution g v.toNat o.toNat).seq g.liveSet = none := hgather
  rw [hgather']
  rfl

end

/-! ### Its end -/

variable {n : Nat} (hxseq : s.me.xseq = some n) {own : Contribution} (hown : g.own = some own)
  (hstart : ∀ r, r ∈ g.startSet → r ∈ g.liveSet) {live : List Contribution} (hgather : g.gather own n g.startSet = some live)
include hxseq hown hstart hgather

theorem xred_finishes : exec (.xred v o b k m t) s
    = (xredFinish v o k m ((s.takeToken t).capB b).toNat g own live (s.takeToken t)).settle t := by
  have hall : g.startSet.filter (fun r => g.liveSet.contains r) = g.startSet := by
    simpa [List.filter_eq_self] using hstart
  unfold State.reduced? at hq
  rw [vector_settles hready hill ((exec_xred v o b k m t s).trans rfl)]
  dsimp only
  rw [hq]
  dsimp only
  rw [takeToken_xseq, hxseq, hown]
  dsimp only
  rw [hall, hgather]

/-- Headers that differ are a misuse of the group (R329). -/
theorem xred_misfits (hshape : live.any (fun c => !sameShape c own) = true) : ∃ z : State,
    exec (.xred v o b k m t) s
      = z.takeTrap { cause := 0x0E, val := queueVal 7 5 3 (BitVec.ofNat 64 ((s.takeToken t).capB b).toNat) }
    ∧ z.me = { (s.takeToken t).me with xseq := none } ∧ (g.wanted = [] → z.mem = s.mem) := by
  refine ⟨(s.takeToken t).cleared ((s.takeToken t).capB b).toNat own.seq, ?_, cleared_me .., fun hnone => ?_⟩
  · rw [xred_finishes hready hill o b k m hq hxseq hown hstart hgather, xredFinish_misfits hshape]
    rfl
  · exact (cleared_mem (reduced?_group hq) hnone _).trans (takeToken_mem ..)

variable (hshape : live.all (fun c => sameShape c own) = true) {tags : Nat → Tag}
  (htags : ∀ r, r < s.me.rc →
    rowJoin (s.takeToken t) (live.headD own).osc (live.map (fun c => (c.rows.getD r (0, zeroTag)).2)) = .ok (tags r))
include hshape htags

/-- While its log entry misses in stage 2, the instruction is held in its unit (R109, R116). -/
theorem xred_parks {va j : Nat} {u : State} (hmiss : segsMiss (g.entryBase own.seq) (g.entrySegs own.seq) (s.takeToken t) = (some (va, j), u))
    (hissued : s.me.issued.isSome = true) : ∃ z : State,
      exec (.xred v o b k m t) s = .next { z with waiting := false } ∧ z.me.issued = none ∧ z.me.rows = s.me.rows
      ∧ ∃ h, h ∈ z.me.parked ∧ h.pending = [⟨0, va, va, j⟩] := by
  obtain ⟨hparks, -⟩ := xredFinish_whole (v := v) (op := o) (k := k) (m := m) (gi := ((s.takeToken t).capB b).toNat) (s := s.takeToken t)
    hshape hstart (tags := tags) (by simpa only [takeToken_rc] using htags)
  have hfinish := xred_finishes hready hill o b k m hq hxseq hown hstart hgather
  rw [hparks va j u hmiss] at hfinish
  have hme : u.me = (s.takeToken t).me := by
    have := segsMiss_me (g.entrySegs own.seq) (g.entryBase own.seq) (s.takeToken t)
    rwa [hmiss] at this
  generalize u.progress 0 = pr at hfinish
  obtain ⟨e, he⟩ := Option.isSome_iff_exists.mp hissued
  have hunder : ∃ d, Strand.underWay { u.me with done_ := some pr } = some d := by
    rw [hme, Strand.underWay, takeToken_issued, he]
    exact ⟨_, rfl⟩
  obtain ⟨d, hd⟩ := hunder
  unfold parkInstr at hfinish
  dsimp only at hfinish
  rw [hd] at hfinish
  refine ⟨_, hfinish, rfl, ?_, _, mem_insertParked .., rfl⟩
  show u.me.rows = s.me.rows
  rw [hme, takeToken_rows]

/-- The rows are written, and the instruction completes. -/
theorem xred_completes (hconf : s.me.configured = true)
    (hhits : (segsMiss (g.entryBase own.seq) (g.entrySegs own.seq) (s.takeToken t)).1 = none) : ∃ u : State,
      exec (.xred v o b k m t) s = .next (u.retires t) ∧ u.me.xseq = none ∧ u.me.regs = s.me.regs
      ∧ u.me.vstart = 0 ∧ u.me.rstart = 0 ∧ s.rowsKept u v.toNat s.me.rc
      ∧ ∀ r e, r < s.me.rc → e < s.me.vl → ∃ n, s.slot u v.toNat (r * s.me.vl + e) =
          (xredElem { s.takeToken t with freeCtr := n } m o.toNat (live.headD own).dice (tags r) live r e).1.1 % 2 ^ s.me.sewBits := by
  obtain ⟨-, hcompletes⟩ := xredFinish_whole (v := v) (op := o) (k := k) (m := m) (gi := ((s.takeToken t).capB b).toNat) (s := s.takeToken t)
    hshape hstart (tags := tags) (by simpa only [takeToken_rc] using htags)
  have hfinish := xred_finishes hready hill o b k m hq hxseq hown hstart hgather
  obtain ⟨z, hz⟩ : ∃ z, segsMiss (g.entryBase own.seq) (g.entrySegs own.seq) (s.takeToken t) = (none, z) := ⟨_, Prod.ext hhits rfl⟩
  obtain ⟨lost, log, hdone⟩ := hcompletes z hz
  have htranslated := segsMiss_translated _ _ _ _ hz
  have hme := htranslated.me
  have hgroup : v.toNat + s.me.rc ≤ 32 := by
    simp [Strand.vtypeIll] at hill
    omega
  have hvl : z.me.vl = s.me.vl := by rw [hme, takeToken_vl]
  have hsew : z.me.sewBits = s.me.sewBits := by rw [hme, takeToken_sewBits]
  rw [hdone, settle_retires, takeToken_rc] at hfinish
  obtain ⟨hloops, hkept, hslots⟩ := xredRows_does m o.toNat (live.headD own).dice v.toNat 0 ((List.range s.me.rc).map tags) live live s.me.rc 0 z
    (by omega) (by rw [hvl, hsew]; exact configured_fits hconf)
  generalize xredRows m o.toNat v.toNat 0 (live.headD own).dice ((List.range s.me.rc).map tags) live live s.me.rc 0 z = w
    at hfinish hloops hkept hslots
  have hend := xredEnd_me w k.toNat lost (g.entryBase own.seq) log ((s.takeToken t).capB b).toNat own.seq
  dsimp only at hend
  generalize (((((w.writeMask k.toNat lost).writeLog (g.entryBase own.seq) log).cleared ((s.takeToken t).capB b).toNat own.seq).acquire 4).clearStart)
    = u at hfinish hend
  have hrow (q : Nat) : u.me.row q = w.me.row q := by rw [hend]; rfl
  refine ⟨u, hfinish, by rw [hend], ?_, by rw [hend], by rw [hend], fun q hq' => ?_, fun r e hr he => ?_⟩
  · rw [hend, hloops, hme]
    exact takeToken_regs ..
  · rw [hrow, hkept q (by omega), hme]
    exact congrArg (fun rows : Vector Row 32 => rows.getD q {}) (takeToken_rows s t)
  · obtain ⟨c, hc⟩ := hslots r e (by omega) (by omega) (by omega)
    refine ⟨c, ?_⟩
    have hdiv : (r * s.me.vl + e) / s.me.vl = r := by
      rw [Nat.mul_comm, Nat.mul_add_div (by omega), Nat.div_eq_of_lt he, Nat.add_zero]
    have hmod : (r * s.me.vl + e) % s.me.vl = e := by
      rw [Nat.mul_comm, Nat.mul_add_mod, Nat.mod_eq_of_lt he]
    rw [State.slot, hdiv, hmod, hrow, ← hsew, hc, contributed, ite_self,
      xredElem_value (translated_sameElements htranslated c)]
    simp [hr]

end

end Sys2Proof.Machine
end

section
/-!
PROOFS. O58: ANCALL's services, the collectives, and what arrives for a group.
-/
namespace Sys2Proof.Machine

/-- Settles O58: it holds. Each clause is a lemma on one service, one instruction or one arrival; the rows of an XRED by induction on
its rows and their elements, and the groups left as they were by queued stores and write-backs. -/
theorem anchorServicesAndCollectives : Obligations.AnchorServicesAndCollectives := by
  unfold Obligations.AnchorServicesAndCollectives
  refine ⟨fun s d a imm t hready => ?_, fun s v o b k m t hready hconf hill => ?_, fun s d a b t hready => xmemb_does s d a b t hready,
    fun s part gi g hg => ?_⟩
  · have hopen : exec (.grpopen d a t) s = runOrdered t (joining d _) s := (exec_grpopen d a t s).trans rfl
    have hspare : exec (.grpspare d a t) s = runOrdered t (joining d _) s := (exec_grpspare d a t s).trans rfl
    refine ⟨ancallOther_replies hready d a imm, ?_, fun u v hx hb => bufdef_does hready d a hx hb,
      fun u v hx hb => bufdrop_does hready d a hx hb, fun u v hx hb => grpleave_does hready d a hx hb, ?_,
      fun u1 v1 u v hx hstage halign hb1 hpos hmax hb => grpopen_does hready d a hx hstage halign hb1 hpos hmax hb,
      fun u v hx hstage halign hb => grpspare_does hready d a hx hstage halign hb⟩
    · simp only [List.forall_mem_cons, List.not_mem_nil, false_implies, implies_true, and_true]
      exact ⟨block_replies hready d a ((exec_ancallBufdef d a t s).trans rfl), block_replies hready d a ((exec_ancallBufdrop d a t s).trans rfl),
        block_replies hready d a ((exec_grpleave d a t s).trans rfl)⟩
    · simp only [List.forall_mem_cons, List.not_mem_nil, false_implies, implies_true, and_true]
      exact ⟨⟨fun g hx => again_does hready hopen hx, early_replies hready hopen,
          fun hx hstage => joining_misaligned hready d a hx hstage ((exec_grpopen d a t s).trans rfl)⟩,
        ⟨fun g hx => again_does hready hspare hx, early_replies hready hspare,
          fun hx hstage => joining_misaligned hready d a hx hstage ((exec_grpspare d a t s).trans rfl)⟩⟩
  · refine ⟨xred_groupless hready hill o b k m, fun g hq hfirst => ⟨xred_busy hready hill o b k m hq hfirst,
        fun hactive hidle hnolog => xred_sends hready hill o b k m hq hfirst hactive hidle hnolog⟩,
      fun g own n live hq hx hown hstart hgather => ⟨xred_misfits hready hill o b k m hq hx hown hstart hgather,
        fun hshape tags htags => ⟨fun va j u hmiss hissued => xred_parks hready hill o b k m hq hx hown hstart hgather hshape htags hmiss hissued,
          fun hhits => xred_completes hready hill o b k m hq hx hown hstart hgather hshape htags hconf hhits⟩⟩,
      peerless_traps hready hill b k, fun gi g rank mtag hpeer htraps => ⟨xsend_dead hready hill b k hpeer,
        xsend_waits hready hill b k hpeer htraps, xsend_sends hready hill b k hpeer htraps, xrecv_empty hready hill b k hpeer,
        fun y rest htake => ⟨xrecv_misfit hready hill b k hpeer htake, xrecv_takes hready hill b k hpeer htraps htake⟩⟩⟩
  · exact ⟨contribution_does hg, rows_do hg, credit_does hg, fail_does hg,
      fun rank order tmo members hgi hjoining => opened_does hg rank order tmo members hgi hjoining,
      fun rank seq gen order tmo base members live log hactive hnew =>
        spareJoined_does hg rank seq gen order tmo base members live log hactive hnew,
      spareWanted_does hg⟩

end Sys2Proof.Machine
end
